-- ==== Sys2Proof/Word.lean ====
section
/-! DEFINITION. The machine's word types (01 R24) and their plainest readings. -/

namespace Sys2Proof

/-- A 32-bit word: a V lane, an S register, a W register. -/
abbrev Word := BitVec 32

/-- A byte of memory. -/
abbrev Byte := BitVec 8

/-- A GLOBAL virtual address or PC, 52 bits (01 Table 01-3). -/
abbrev Addr := BitVec 52

/-- A predicate register of one slice, one bit per SLANE. -/
abbrev Pred := BitVec 8

end Sys2Proof
end

