-- ==== Sys2Proof/Config.lean ====
section
/-! DEFINITION. What the ZL9600 fixes and the manual gives no value for: free values, opaque and without a body, so that
no proof can see what they are (log 3). -/

namespace Sys2Proof.Config

/-- 1/x on F32 bits, used where it lies within the 1 ulp of 03 Table 03-5. -/
opaque frcp : Word → Word
/-- 1/√x on F32 bits, used where it lies within the 1 ulp of 03 Table 03-5. -/
opaque frsq : Word → Word
/-- 2^x on F32 bits, away from the special results of 03 Table 03-5. -/
opaque fexp2 : Word → Word
/-- log2 x on F32 bits, away from the special results of 03 Table 03-5. -/
opaque flog2 : Word → Word
/-- sin(πx) on F32 bits, away from the special results of 03 Table 03-5. -/
opaque fsinpi : Word → Word
/-- cos(πx) on F32 bits, away from the special results of 03 Table 03-5. -/
opaque fcospi : Word → Word
/-- tanh x on F32 bits, away from the special results of 03 Table 03-5. -/
opaque ftanh : Word → Word
/-- A fresh value for each count: a word the manual leaves unstated. -/
opaque freeWord : Nat → Word
/-- A fresh choice for each count, where the manual leaves one of two outcomes open. -/
opaque freeBool : Nat → Bool

/-- The words of the serial number (18 Table 18-3). -/
opaque serial : Nat → Word
/-- The check of the ECDSA P-521 signature in an image, under the Lurov key, over the image's SHA-512 digest (18 R445). -/
opaque signatureValid : List (BitVec 8) → List (BitVec 8) → Bool
/-- Values of an image's configuration record: 0 device number, 1 profile, 2 DRAINDLY, 3 shock threshold, 4 error threshold, 5 and 6
the lowest and highest clock in MHz, 7 to 9 the temperatures in eighths of a degree at which the clock falls, below which it rises,
and at which the device shuts down (18 R445). -/
opaque recordValue : List (BitVec 8) → Nat → Nat
/-- The bytes of an image's configuration record. -/
opaque recordBytes : List (BitVec 8) → List (BitVec 8)
/-- A signature by the device's identity key (18 R446). -/
opaque identitySign : List (BitVec 8) → List (BitVec 8)

end Sys2Proof.Config
end

