-- ==== Sys2Proof/Machine/Flags.lean ====
section
/-! DEFINITION. Numbers, rounding and flags (03 R57-R66): exact values, one rounding function for every floating format,
and the five flags of FPFLAGS. -/

namespace Sys2Proof.Machine

/-- Rounding modes of 03 R64. -/
inductive Mode where
  | rne | rz | rup | rdn | rna
deriving DecidableEq, Repr

/-- Flags of 03 Table 03-4, bit 0 NV, 1 DZ, 2 OF, 3 UF, 4 NX. -/
abbrev Flg := BitVec 5

def nv : Flg := 1
def dz : Flg := 2
def ofl : Flg := 4
def uf : Flg := 8
def nx : Flg := 16

/-- `f` when `c`, else no flag. -/
def flagIf (c : Bool) (f : Flg) : Flg := if c then f else 0

/-- The dynamic mode FPCTL.RM (03 Table 03-3). -/
def rmOf (fpctl : Word) : Mode :=
  match (fpctl.extractLsb' 0 2).toNat with
  | 0 => .rne | 1 => .rz | 2 => .rup | _ => .rdn

/-- FPCTL.FTZ. -/
def ftzOf (fpctl : Word) : Bool := fpctl.getLsbD 2

/-- FPCTL.ZSKIP. -/
def zskipOf (fpctl : Word) : Bool := fpctl.getLsbD 3

/-- RSEL of CVTF, CVTI and PK4Q (03 Table 03-6). -/
def rselMode (rm : Mode) (r : Nat) : Mode :=
  match r with
  | 1 => .rne | 2 => .rz | 3 => .rup | 4 => .rdn | 5 => .rna | _ => rm

/-- An exact value: the sign, and the magnitude `m * 2^e`; with `sticky`, a magnitude strictly between `m * 2^e` and
`(m + 1) * 2^e` (a quotient or a root that no such number equals). -/
inductive Val where
  | nan (signalling : Bool)
  | inf (neg : Bool)
  | fin (neg : Bool) (m : Nat) (e : Int) (sticky : Bool)
deriving DecidableEq, Repr

/-- What a format does beside finite numbers (03 Table 03-2). -/
inductive Special where
  /-- Infinities and NaNs at the all-ones exponent. -/
  | ieee
  /-- One NaN, at S.1111.111, and no infinity (E4M3). -/
  | e4m3
  /-- Neither (E2M1). -/
  | none
deriving DecidableEq, Repr

/-- A floating format with a sign (03 Table 03-2). -/
structure Fmt where
  eb : Nat
  mb : Nat
  special : Special
deriving DecidableEq, Repr

def f32 : Fmt := ⟨8, 23, .ieee⟩
def f16 : Fmt := ⟨5, 10, .ieee⟩
def bf16 : Fmt := ⟨8, 7, .ieee⟩
def e4m3 : Fmt := ⟨4, 3, .e4m3⟩
def e5m2 : Fmt := ⟨5, 2, .ieee⟩
def e2m1 : Fmt := ⟨2, 1, .none⟩

def Fmt.bias (f : Fmt) : Int := 2 ^ (f.eb - 1) - 1
def Fmt.width (f : Fmt) : Nat := f.eb + f.mb + 1
/-- The code of +∞ in a format that has it. -/
def Fmt.infCode (f : Fmt) : Nat := (2 ^ f.eb - 1) * 2 ^ f.mb
/-- The code of the largest finite value. -/
def Fmt.maxCode (f : Fmt) : Nat :=
  match f.special with
  | .ieee => f.infCode - 1
  | .e4m3 => 0x7E
  | .none => 2 ^ (f.eb + f.mb) - 1
/-- The canonical NaN (03 R60); E2M1 has none and gives +0 (03 Table 03-7). -/
def Fmt.nanCode (f : Fmt) : Nat :=
  match f.special with
  | .ieee => f.infCode + 2 ^ (f.mb - 1)
  | .e4m3 => 0x7F
  | .none => 0
/-- A code with its sign bit. -/
def Fmt.signed (f : Fmt) (neg : Bool) (code : Nat) : Nat := (if neg then 2 ^ (f.eb + f.mb) else 0) + code

/-- The value of an encoding (03 R59, R60). -/
def Fmt.decode (f : Fmt) (bits : Nat) : Val :=
  let m := bits % 2 ^ f.mb
  let e := bits / 2 ^ f.mb % 2 ^ f.eb
  let neg := bits / 2 ^ (f.eb + f.mb) % 2 == 1
  let special := e == 2 ^ f.eb - 1
  match f.special with
  | .ieee =>
    if special then (if m = 0 then .inf neg else .nan (m < 2 ^ (f.mb - 1)))
    else if e = 0 then .fin neg m (1 - f.bias - f.mb) false else .fin neg (2 ^ f.mb + m) (e - f.bias - f.mb) false
  | .e4m3 =>
    if special && m == 7 then .nan false
    else if e = 0 then .fin neg m (1 - f.bias - f.mb) false else .fin neg (2 ^ f.mb + m) (e - f.bias - f.mb) false
  | .none => if e = 0 then .fin neg m (1 - f.bias - f.mb) false else .fin neg (2 ^ f.mb + m) (e - f.bias - f.mb) false

/-- Exponent field zero and mantissa not (03 R59). -/
def Fmt.subnormal (f : Fmt) (bits : Nat) : Bool := bits / 2 ^ f.mb % 2 ^ f.eb == 0 && bits % 2 ^ f.mb != 0

/-- A subnormal source is replaced by zero of its sign under FTZ (03 R65). -/
def Fmt.flush (f : Fmt) (ftz : Bool) (bits : Nat) : Nat :=
  if ftz && f.subnormal bits then bits / 2 ^ (f.eb + f.mb) % 2 * 2 ^ (f.eb + f.mb) else bits

/-- `m * 2^e` (plus less than one unit when `sticky`) in units of `2^q`: the rounded count and whether it is inexact. -/
def roundUnits (mode : Mode) (neg : Bool) (m : Nat) (e : Int) (sticky : Bool) (q : Int) : Nat × Bool :=
  if q ≤ e then
    let kept := m * 2 ^ (e - q).toNat
    let up := sticky && (match mode with | .rup => !neg | .rdn => neg | _ => false)
    (if up then kept + 1 else kept, sticky)
  else
    let d := (q - e).toNat
    let kept := m / 2 ^ d
    let rem := m % 2 ^ d
    let half := 2 ^ (d - 1)
    let inexact := rem != 0 || sticky
    let up := match mode with
      | .rne => decide (half < rem) || (rem == half && (sticky || kept % 2 == 1))
      | .rz => false
      | .rup => inexact && !neg
      | .rdn => inexact && neg
      | .rna => decide (half ≤ rem)
    (if up then kept + 1 else kept, inexact)

/-- Round(x, mode) of 03 R64 for a non-zero finite magnitude: the code without its sign, and the flags. `sat` is the SAT
of a conversion; tininess is detected after rounding with an unbounded exponent (03 R65; DEDUCED, log 18); `ftz` flushes
a subnormal result. -/
def Fmt.roundMag (f : Fmt) (mode : Mode) (sat ftz : Bool) (neg : Bool) (m : Nat) (e : Int) (sticky : Bool) : Nat × Flg :=
  let emin : Int := 1 - f.bias
  let top : Int := e + m.log2
  let q : Int := max top emin - f.mb
  let (r, inexact) := roundUnits mode neg m e sticky q
  let code := (q - (emin - f.mb)).toNat * 2 ^ f.mb + r
  if f.maxCode < code then
    let toInf := match mode with | .rz => false | .rup => !neg | .rdn => neg | _ => true
    ((if f.special = .ieee && !sat && toInf then f.infCode else f.maxCode), ofl ||| nx)
  else if ftz && decide (0 < code) && decide (code < 2 ^ f.mb) then (0, uf ||| nx)
  else
    let tiny := decide (top < emin) &&
      !(decide (top = emin - 1) && (roundUnits mode neg m e sticky (top - f.mb)).1 == 2 ^ (f.mb + 1))
    (code, flagIf inexact nx ||| flagIf (inexact && tiny) uf)

/-- A value delivered in a format (03 R60, R64, Table 03-7). -/
def Fmt.encode (f : Fmt) (mode : Mode) (sat ftz : Bool) : Val → Nat × Flg
  | .nan _ => (f.nanCode, flagIf (f.special = .none) nv)
  | .inf neg => if f.special = .ieee then (f.signed neg f.infCode, 0) else (f.signed neg f.maxCode, nv)
  | .fin neg m e sticky =>
    if m = 0 then (f.signed neg 0, 0)
    else let (c, fl) := f.roundMag mode sat ftz neg m e sticky; (f.signed neg c, fl)

def Val.isNan : Val → Bool
  | .nan _ => true
  | _ => false

/-- NV for a signalling NaN source (03 R60). -/
def Val.snan : Val → Flg
  | .nan true => nv
  | _ => 0

def Val.neg : Val → Val
  | .nan s => .nan s
  | .inf n => .inf !n
  | .fin n m e t => .fin (!n) m e t

def Val.isZero : Val → Bool
  | .fin _ 0 _ _ => true
  | _ => false

/-- A signed integer times a power of two; zero takes the sign given. -/
def Val.ofInt (z : Int) (e : Int) (zeroNeg : Bool := false) : Val :=
  if z = 0 then .fin zeroNeg 0 0 false else .fin (decide (z < 0)) z.natAbs e false

/-- The signed magnitude in units of `2^q`, for `q` at most the exponent. -/
def scaled (neg : Bool) (m : Nat) (e q : Int) : Int :=
  let k : Int := (m * 2 ^ (e - q).toNat : Nat)
  if neg then -k else k

/-- Exact sum; the sign of a zero sum of opposite-signed values is minus under RDN only (03 R64). -/
def Val.add (mode : Mode) : Val → Val → Val × Flg
  | .nan a, y => (.nan false, (Val.nan a).snan ||| y.snan)
  | x, .nan b => (.nan false, x.snan ||| (Val.nan b).snan)
  | .inf a, .inf b => if a = b then (.inf a, 0) else (.nan false, nv)
  | .inf a, _ => (.inf a, 0)
  | _, .inf b => (.inf b, 0)
  | .fin a m e _, .fin b n g _ =>
    if m = 0 ∧ n = 0 then (.fin (if a = b then a else decide (mode = .rdn)) 0 0 false, 0)
    else
      let q := min e g
      (Val.ofInt (scaled a m e q + scaled b n g q) q (decide (mode = .rdn)), 0)

/-- Exact product. -/
def Val.mul : Val → Val → Val × Flg
  | .nan a, y => (.nan false, (Val.nan a).snan ||| y.snan)
  | x, .nan b => (.nan false, x.snan ||| (Val.nan b).snan)
  | .inf a, y => if y.isZero then (.nan false, nv)
      else (.inf (a != (match y with | .inf b => b | .fin b _ _ _ => b | .nan _ => false)), 0)
  | .fin a m _ _, .inf b => if m = 0 then (.nan false, nv) else (.inf (a != b), 0)
  | .fin a m e _, .fin b n g _ => (.fin (a != b) (m * n) (e + g) false, 0)

/-- `a * b + c` with one rounding: 0 × ∞ sets NV even when c is a quiet NaN (05 Table 05-7). -/
def Val.fma (mode : Mode) (a b c : Val) : Val × Flg :=
  let (p, fp) := Val.mul a b
  let (r, fr) := Val.add mode p c
  (r, fp ||| fr)

/-- Quotient (05 Table 05-8 FDIV): 70 bits and a sticky bit carry every rounding. -/
def Val.div : Val → Val → Val × Flg
  | .nan a, y => (.nan false, (Val.nan a).snan ||| y.snan)
  | x, .nan b => (.nan false, x.snan ||| (Val.nan b).snan)
  | .inf _, .inf _ => (.nan false, nv)
  | .inf a, .fin b _ _ _ => (.inf (a != b), 0)
  | .fin a _ _ _, .inf b => (.fin (a != b) 0 0 false, 0)
  | .fin a m e _, .fin b n g _ =>
    if n = 0 then (if m = 0 then (.nan false, nv) else (.inf (a != b), dz))
    else
      let k := n.log2 + 70
      (.fin (a != b) (m * 2 ^ k / n) (e - g - k) (m * 2 ^ k % n != 0), 0)

/-- Integer square root by `n` binary digits: the largest r below 2^n with r² ≤ x. -/
def isqrt (x : Nat) : Nat → Nat → Nat
  | 0, r => r
  | k + 1, r => let t := r + 2 ^ k; isqrt x k (if t * t ≤ x then t else r)

/-- Square root (05 Table 05-8 FSQRT). -/
def Val.sqrt : Val → Val × Flg
  | .nan s => (.nan false, (Val.nan s).snan)
  | .inf false => (.inf false, 0)
  | .inf true => (.nan false, nv)
  | .fin a m e _ =>
    if m = 0 then (.fin a 0 0 false, 0)
    else if a then (.nan false, nv)
    else
      let odd := e % 2 != 0
      let x := (if odd then 2 * m else m) * 2 ^ 120
      let r := isqrt x (x.log2 / 2 + 1) 0
      (.fin false r ((if odd then e - 1 else e) / 2 - 60) (r * r != x), 0)

/-- a × 2^n, exact (05 Table 05-8 FLDEXP). -/
def Val.ldexp (n : Int) : Val → Val × Flg
  | .nan s => (.nan false, (Val.nan s).snan)
  | .inf a => (.inf a, 0)
  | .fin a m e t => (.fin a m (e + n) t, 0)

/-- An order on values that are not NaN: -1, 0 or 1 (−0 equal to +0). -/
def Val.cmp : Val → Val → Int
  | .inf a, .inf b => if a = b then 0 else if a then -1 else 1
  | .inf a, _ => if a then -1 else 1
  | _, .inf b => if b then 1 else -1
  | .fin a m e _, .fin b n g _ =>
    let q := min e g
    let d := scaled a m e q - scaled b n g q
    if d = 0 then 0 else if d < 0 then -1 else 1
  | _, _ => 0

/-- FMIN and FMAX on encodings (05 R136): the chosen input after flushing, and NV for a signalling NaN. -/
def Fmt.minmax (f : Fmt) (ftz isMax : Bool) (a b : Nat) : Nat × Flg :=
  let a := f.flush ftz a
  let b := f.flush ftz b
  let x := f.decode a
  let y := f.decode b
  let fl := x.snan ||| y.snan
  match x.isNan, y.isNan with
  | true, true => (f.nanCode, fl)
  | true, false => (b, fl)
  | false, true => (a, fl)
  | false, false =>
    let negA := a / 2 ^ (f.eb + f.mb) % 2 == 1
    let c := x.cmp y
    let less := if c = 0 then negA else decide (c < 0)
    ((if less != isMax then a else b), fl)

/-- One correctly rounded operation: sources flushed, the exact result rounded under RM and flushed (03 R65, R66). -/
def Fmt.op2 (f : Fmt) (fpctl : Word) (op : Val → Val → Val × Flg) (a b : Nat) : Nat × Flg :=
  let g := f.flush (ftzOf fpctl)
  let (v, fl) := op (f.decode (g a)) (f.decode (g b))
  let (r, fl') := f.encode (rmOf fpctl) false (ftzOf fpctl) v
  (r, fl ||| fl')

def Fmt.op1 (f : Fmt) (fpctl : Word) (op : Val → Val × Flg) (a : Nat) : Nat × Flg :=
  let (v, fl) := op (f.decode (f.flush (ftzOf fpctl) a))
  let (r, fl') := f.encode (rmOf fpctl) false (ftzOf fpctl) v
  (r, fl ||| fl')

def Fmt.op3 (f : Fmt) (fpctl : Word) (op : Val → Val → Val → Val × Flg) (a b c : Nat) : Nat × Flg :=
  let g := f.flush (ftzOf fpctl)
  let (v, fl) := op (f.decode (g a)) (f.decode (g b)) (f.decode (g c))
  let (r, fl') := f.encode (rmOf fpctl) false (ftzOf fpctl) v
  (r, fl ||| fl')

def Fmt.fadd (f : Fmt) (c : Word) (a b : Nat) : Nat × Flg := f.op2 c (Val.add (rmOf c)) a b
def Fmt.fsub (f : Fmt) (c : Word) (a b : Nat) : Nat × Flg := f.op2 c (fun x y => Val.add (rmOf c) x y.neg) a b
def Fmt.fmul (f : Fmt) (c : Word) (a b : Nat) : Nat × Flg := f.op2 c Val.mul a b
def Fmt.fdiv (f : Fmt) (c : Word) (a b : Nat) : Nat × Flg := f.op2 c Val.div a b
/-- a × b + d. -/
def Fmt.ffma (f : Fmt) (c : Word) (a b d : Nat) : Nat × Flg := f.op3 c (fun x y z => Val.fma (rmOf c) x y z) a b d
/-- d − a × b. -/
def Fmt.ffms (f : Fmt) (c : Word) (a b d : Nat) : Nat × Flg := f.op3 c (fun x y z => Val.fma (rmOf c) x.neg y z) a b d
def Fmt.fsqrt (f : Fmt) (c : Word) (a : Nat) : Nat × Flg := f.op1 c Val.sqrt a

/-- Rounds a value to an integer: the signed integer and whether rounding changed it. -/
def toIntVal (mode : Mode) (neg : Bool) (m : Nat) (e : Int) : Int × Bool :=
  let (r, inexact) := roundUnits mode neg m e false 0
  (if neg then -(r : Int) else r, inexact)

end Sys2Proof.Machine
end

