-- ==== Sys2Proof/Syntax.lean ====
section
/-! DEFINITION. The instructions and device steps of spec/opcode_table.json: one constructor of `Instr` per row.
The field structures are the formats of 02 Table 02-2 and of 13 Table 13-3; a field that a form must hold zero has no
place here, so it cannot be non-zero. -/

namespace Sys2Proof

/-- R format with guard, destination, two sources and the X bit (02 Table 02-2). -/
structure R3 where
  g : BitVec 4
  d : BitVec 6
  a : BitVec 6
  b : BitVec 6
  x : BitVec 1
deriving DecidableEq, Repr

/-- R format of a unary form (02 R33). -/
structure R2 where
  g : BitVec 4
  d : BitVec 6
  a : BitVec 6
deriving DecidableEq, Repr

/-- R format of a form that names no A. -/
structure RB where
  g : BitVec 4
  d : BitVec 6
  b : BitVec 6
  x : BitVec 1
deriving DecidableEq, Repr

/-- R format whose X must be zero (PLOG, SEGSC, QTRY). -/
structure RP where
  g : BitVec 4
  d : BitVec 6
  a : BitVec 6
  b : BitVec 6
deriving DecidableEq, Repr

/-- RI format (02 Table 02-2). -/
structure RI where
  g : BitVec 4
  d : BitVec 6
  a : BitVec 6
  i : BitVec 10
deriving DecidableEq, Repr

/-- The SHI forms: a 5-bit amount (02 R32). -/
structure RS where
  g : BitVec 4
  d : BitVec 6
  a : BitVec 6
  n : BitVec 5
deriving DecidableEq, Repr

/-- RU format (02 Table 02-2). -/
structure RU where
  g : BitVec 4
  d : BitVec 6
  i : BitVec 16
deriving DecidableEq, Repr

/-- Long M format, word0 and word1 (02 Table 02-2). -/
structure MemF where
  g : BitVec 4
  d : BitVec 6
  a : BitVec 6
  b : BitVec 6
  x : BitVec 1
  sz : BitVec 3
  off : BitVec 16
  space : BitVec 3
  ord : BitVec 3
  scope : BitVec 3
  cp : BitVec 2
  wt : BitVec 2
deriving DecidableEq, Repr

/-- MMA and MMAS (12 Table 12-3). -/
structure MmaF where
  g : BitVec 4
  d : BitVec 6
  a : BitVec 6
  b : BitVec 6
  csrc : BitVec 2
  ct : BitVec 4
  sc : BitVec 6
  mt : BitVec 6
  etype : BitVec 3
  spn : BitVec 2
  team : BitVec 1
deriving DecidableEq, Repr

/-- TRQ (13 Table 13-8). -/
structure TrqF where
  g : BitVec 4
  d : BitVec 6
  a : BitVec 6
  sp : BitVec 6
  kid : BitVec 4
  struct : BitVec 8
  mig : BitVec 1
  ord : BitVec 1
  mode : BitVec 1
  tgt : BitVec 5
  nres : BitVec 3
  spsh : BitVec 4
  note : BitVec 1
deriving DecidableEq, Repr

/-- Traversal word with three registers (13 Table 13-3). -/
structure T3 where
  d : BitVec 5
  a : BitVec 5
  b : BitVec 5
deriving DecidableEq, Repr

/-- Traversal word with a 10-bit literal (13 R335). -/
structure TI where
  d : BitVec 5
  a : BitVec 5
  i : BitVec 10
deriving DecidableEq, Repr

/-- One constructor per row of spec/opcode_table.json. SIMT forms carry the bits of their words; a device step carries
the names of what it acts on (a request in flight, a core, a slot) and the choices that the manual leaves to firmware,
the host or the outside world. -/
inductive Instr where
  -- 32-bit SIMT forms
  | iadd (f : R3)
  | isub (f : R3)
  | imul (f : R3)
  | imulhs (f : R3)
  | imulhn (f : R3)
  | imins (f : R3)
  | imaxs (f : R3)
  | iminn (f : R3)
  | imaxn (f : R3)
  | iabsd (f : R3)
  | iaddss (f : R3)
  | iaddsn (f : R3)
  | isubss (f : R3)
  | isubsn (f : R3)
  | imac (f : R3)
  | imach (f : R3)
  | and (f : R3)
  | or (f : R3)
  | xor (f : R3)
  | andn (f : R3)
  | orn (f : R3)
  | xnor (f : R3)
  | shl (f : R3)
  | shr (f : R3)
  | sra (f : R3)
  | rol (f : R3)
  | ror (f : R3)
  | bfx (f : R3)
  | bfi (f : R3)
  | clz (f : R2)
  | popc (f : R2)
  | brev (f : R2)
  | iaddi (f : RI)
  | andi (f : RI)
  | ori (f : RI)
  | xori (f : RI)
  | shli (f : RS)
  | shri (f : RS)
  | srai (f : RS)
  | rori (f : RS)
  | movi (f : RU)
  | movhi (f : RU)
  | smovi (f : RU)
  | smovhi (f : RU)
  | sadd (f : R3)
  | ssub (f : R3)
  | smul (f : R3)
  | sand (f : R3)
  | sor (f : R3)
  | sxor (f : R3)
  | sshl (f : R3)
  | sshr (f : R3)
  | ssra (f : R3)
  | smins (f : R3)
  | smaxs (f : R3)
  | sminn (f : R3)
  | smaxn (f : R3)
  | sclz (f : R2)
  | spopc (f : R2)
  | smov (f : RB)
  | mov (f : RB)
  | vbcast (f : R3)
  | vextr (f : R3)
  | vinsr (f : R3)
  | movx (f : R3)
  | sel (g : BitVec 4) (d : BitVec 6) (a : BitVec 6) (b : BitVec 6) (x : BitVec 1) (p : BitVec 3)
  | srd (g : BitVec 4) (d : BitVec 6) (r : BitVec 12)
  | swr (g : BitVec 4) (d : BitVec 6) (r : BitVec 12)
  | fadd (f : R3)
  | fsub (f : R3)
  | fmul (f : R3)
  | fmin (f : R3)
  | fmax (f : R3)
  | fcpsgn (f : R3)
  | ffma (f : R3)
  | ffms (f : R3)
  | fabs (f : R2)
  | fneg (f : R2)
  | frcp (f : R2)
  | frsq (f : R2)
  | fsqrt (f : R2)
  | fexp2 (f : R2)
  | flog2 (f : R2)
  | fsinpi (f : R2)
  | fcospi (f : R2)
  | ftanh (f : R2)
  | ffract (f : R2)
  | frnd (f : R2)
  | fclass (f : R2)
  | fdiv (f : R3)
  | fldexp (f : R3)
  | fsat (f : R2)
  | hadd2 (f : R3)
  | hmul2 (f : R3)
  | hfma2 (f : R3)
  | hmin2 (f : R3)
  | hmax2 (f : R3)
  | badd2 (f : R3)
  | bmul2 (f : R3)
  | bfma2 (f : R3)
  | cvtf (g : BitVec 4) (d : BitVec 6) (a : BitVec 6) (s : BitVec 3) (t : BitVec 3) (u : BitVec 1) (r : BitVec 3)
  | cvti (g : BitVec 4) (d : BitVec 6) (a : BitVec 6) (v : BitVec 1) (i : BitVec 3) (f : BitVec 2) (h : BitVec 1) (r : BitVec 3)
  | prmt (f : R3)
  | pk2h (f : R3)
  | pk2b (f : R3)
  | upk2h (f : R2)
  | upk2b (f : R2)
  | pk4q (g : BitVec 4) (d : BitVec 6) (a : BitVec 6) (r : BitVec 3) (s : BitVec 1) (f : BitVec 2)
  | upk4q (g : BitVec 4) (d : BitVec 6) (a : BitVec 6) (f : BitVec 2)
  | icmp (g : BitVec 4) (p : BitVec 3) (c : BitVec 3) (a : BitVec 6) (b : BitVec 6) (x : BitVec 1) (k : BitVec 3)
  | fcmp (g : BitVec 4) (p : BitVec 3) (c : BitVec 3) (a : BitVec 6) (b : BitVec 6) (x : BitVec 1) (k : BitVec 3)
  | pand (f : RP)
  | por (f : RP)
  | pxor (f : RP)
  | pnot (f : R2)
  | pmov (f : R2)
  | ptos (f : R2)
  | pfroms (f : R2)
  | vany (g : BitVec 4) (d : BitVec 6) (a : BitVec 6) (h : BitVec 1)
  | vall (g : BitVec 4) (d : BitVec 6) (a : BitVec 6) (h : BitVec 1)
  | ballot (g : BitVec 4) (d : BitVec 6) (a : BitVec 6) (h : BitVec 1)
  | gwid (g : BitVec 4) (d : BitVec 6) (h : BitVec 1)
  | gred (g : BitVec 4) (d : BitVec 6) (a : BitVec 6) (o : BitVec 4) (h : BitVec 1)
  | gmatch (g : BitVec 4) (d : BitVec 6) (a : BitVec 6) (h : BitVec 1)
  | gelect (g : BitVec 4) (d : BitVec 6) (h : BitVec 1)
  | wsync (g : BitVec 4)
  | shfli (f : R3)
  | shflu (f : R3)
  | shfld (f : R3)
  | shflx (f : R3)
  | segsc (f : RP)
  | segscf (f : RP)
  | gbcst (g : BitVec 4) (d : BitVec 6) (a : BitVec 6) (w : BitVec 1)
  | bra (g : BitVec 4) (o : BitVec 22)
  | call (g : BitVec 4) (o : BitVec 22)
  | rcvp (g : BitVec 4) (o : BitVec 22)
  | jmpx (g : BitVec 4) (a : BitVec 6)
  | callx (f : R2)
  | ret (g : BitVec 4) (a : BitVec 6)
  | callq (g : BitVec 4) (a : BitVec 6) (b : BitVec 6) (x : BitVec 1)
  | retq (g : BitVec 4)
  | exit (g : BitVec 4)
  | yield (g : BitVec 4)
  | nop (g : BitVec 4)
  | rpt (g : BitVec 4) (l : BitVec 4) (d : BitVec 2) (s : BitVec 2) (t : BitVec 2) (c : BitVec 5)
  | qwr (f : R2)
  | qrd (f : R2)
  | qtry (f : RP)
  | qcnt (f : R2)
  | bararv (g : BitVec 4) (i : BitVec 8)
  | barsyn (g : BitVec 4) (i : BitVec 8)
  | barinit (g : BitVec 4) (i : BitVec 8) (a : BitVec 6)
  | barwt (g : BitVec 4) (i : BitVec 8)
  | barqry (g : BitVec 4) (i : BitVec 8) (a : BitVec 6)
  | tbarsyn (g : BitVec 4) (i : BitVec 8)
  | tbarinit (g : BitVec 4) (i : BitVec 8) (a : BitVec 6)
  | ose (f : R3)
  | osen (f : R3)
  | osx (g : BitVec 4) (a : BitVec 6)
  | osini (g : BitVec 4) (a : BitVec 6) (b : BitVec 6) (x : BitVec 1)
  | osfree (g : BitVec 4) (a : BitVec 6)
  | osqry (f : R2)
  | ostk (f : R2)
  | dqpsh (f : R3)
  | dqpop (g : BitVec 4) (d : BitVec 6)
  | dqspl (f : RB)
  | dqstl (f : RB)
  | dqcnt (g : BitVec 4) (d : BitVec 6)
  | dqclr (g : BitVec 4)
  | send (g : BitVec 4) (r : BitVec 1) (a : BitVec 6) (b : BitVec 6) (x : BitVec 1)
  | sendh (g : BitVec 4) (r : BitVec 1) (a : BitVec 6) (b : BitVec 6) (x : BitVec 1)
  | waitm (g : BitVec 4) (n : BitVec 1) (b : BitVec 6) (x : BitVec 1)
  | recvm (g : BitVec 4) (d : BitVec 6) (n : BitVec 1) (b : BitVec 6) (x : BitVec 1)
  | mcnt (g : BitVec 4) (d : BitVec 6) (n : BitVec 1) (b : BitVec 6) (x : BitVec 1)
  | hret (g : BitVec 4)
  | svreq (g : BitVec 4) (a : BitVec 6) (b : BitVec 6) (x : BitVec 1)
  | waitc (g : BitVec 4) (c : BitVec 3) (b : BitVec 6) (x : BitVec 1)
  | fence (g : BitVec 4) (o : BitVec 3) (s : BitVec 3)
  | ifence (g : BitVec 4)
  | trap (g : BitVec 4) (n : BitVec 6)
  | brk (g : BitVec 4) (n : BitVec 6)
  | tret (g : BitVec 4)
  | eret (g : BitVec 4)
  | mramp (g : BitVec 4) (b : BitVec 6) (x : BitVec 1)
  | haltg (g : BitVec 4)
  | plarm (f : R3)
  | plbit (f : R3)
  | plcom (f : R3)
  | plqry (f : R2)
  | pldis (f : R2)
  -- 64-bit SIMT forms
  | ld (m : MemF)
  | st (m : MemF)
  | sld (m : MemF)
  | sst (m : MemF)
  | aadd (m : MemF)
  | amins (m : MemF)
  | amaxs (m : MemF)
  | aminn (m : MemF)
  | amaxn (m : MemF)
  | aand (m : MemF)
  | aor (m : MemF)
  | axor (m : MemF)
  | axchg (m : MemF)
  | acas (m : MemF)
  | afadd (m : MemF)
  | afmin (m : MemF)
  | afmax (m : MemF)
  | ahadd2 (m : MemF)
  | ldr (m : MemF)
  | stc (m : MemF)
  | pref (m : MemF)
  | linv (m : MemF)
  | lwb (m : MemF)
  | lcln (m : MemF)
  | icinv (m : MemF)
  | pclr (m : MemF)
  | femt (m : MemF)
  | fful (m : MemF)
  | tcopy (g : BitVec 4) (ds : BitVec 6) (ts : BitVec 6) (rel : BitVec 1) (eng : BitVec 2)
  | stbind (g : BitVec 4) (d : BitVec 6) (a : BitVec 6) (space : BitVec 3) (port : BitVec 2)
  | stunb (g : BitVec 4) (port : BitVec 2)
  | ststat (g : BitVec 4) (d : BitVec 6) (port : BitVec 2)
  | mma (f : MmaF)
  | mmas (f : MmaF)
  | malloc (g : BitVec 4) (d : BitVec 6) (a : BitVec 6)
  | mfree (g : BitVec 4) (a : BitVec 6)
  | mzero (g : BitVec 4) (t : BitVec 6)
  | mld (g : BitVec 4) (a : BitVec 6) (t : BitVec 6) (off : BitVec 16)
  | mst (g : BitVec 4) (a : BitVec 6) (t : BitVec 6) (off : BitVec 16)
  | mrdv (g : BitVec 4) (d : BitVec 6) (t : BitVec 6) (part : BitVec 2)
  | mwrv (g : BitVec 4) (d : BitVec 6) (t : BitVec 6) (part : BitVec 2)
  | mcvts (g : BitVec 4) (d : BitVec 6) (t : BitVec 6) (part : BitVec 2) (fmt : BitVec 2) (rsel : BitVec 3) (sat : BitVec 1)
  | mreq (g : BitVec 4) (d : BitVec 6) (a : BitVec 6) (b : BitVec 6) (csrc : BitVec 2) (sc : BitVec 6) (ks : BitVec 5) (etype : BitVec 3) (cs : BitVec 5)
  | trq (f : TrqF)
  | trpoll (g : BitVec 4) (d : BitVec 6)
  | trkill (g : BitVec 4) (sc : BitVec 1)
  | trpin (g : BitVec 4) (d : BitVec 6) (a : BitVec 6)
  | trunp (g : BitVec 4) (a : BitVec 6)
  | trpub (g : BitVec 4) (d : BitVec 6) (a : BitVec 6) (b : BitVec 6) (inv : BitVec 1)
  | trload (g : BitVec 4) (d : BitVec 6) (a : BitVec 6) (b : BitVec 6) (c : BitVec 5)
  | lqpsh (g : BitVec 4) (d : BitVec 6) (qs : BitVec 6) (rs : BitVec 6) (rel : BitVec 1)
  | lqstat (g : BitVec 4) (d : BitVec 6) (qs : BitVec 6)
  -- traversal words
  | tNfch (a : BitVec 5)
  | tNdec (d : BitVec 5) (b : BitVec 5) (w : BitVec 5)
  | tNdecX (f : T3)
  | tNqbx (d : BitVec 5) (j : BitVec 3)
  | tBox8 (d : BitVec 5) (a : BitVec 5)
  | tSbox8 (d : BitVec 5) (a : BitVec 5)
  | tTri (d : BitVec 5) (a : BitVec 5) (b : BitVec 5) (j : BitVec 2)
  | tSphd (d : BitVec 5) (a : BitVec 5) (j : BitVec 2)
  | tKcmp8 (d : BitVec 5) (a : BitVec 5) (t : BitVec 2)
  | tVdist (f : T3)
  | tPushm (b : BitVec 5)
  | tPushmE (a : BitVec 5) (b : BitVec 5)
  | tPop (d : BitVec 5)
  | tStkq (d : BitVec 5) (f : BitVec 2)
  | tBrc (c : BitVec 5) (i : BitVec 11)
  | tJmp (d : BitVec 5) (a : BitVec 5)
  | tEnd
  | tEmit (a : BitVec 5) (b : BitVec 5) (n : BitVec 3)
  | tMigr (a : BitVec 5)
  | tYld
  | tAdd (f : T3)
  | tAddImm (f : TI)
  | tSub (f : T3)
  | tSubImm (f : TI)
  | tMul (f : T3)
  | tMulImm (f : TI)
  | tAnd (f : T3)
  | tAndImm (f : TI)
  | tOr (f : T3)
  | tOrImm (f : TI)
  | tXor (f : T3)
  | tXorImm (f : TI)
  | tShl (f : T3)
  | tShlImm (f : TI)
  | tShr (f : T3)
  | tShrImm (f : TI)
  | tMin (f : T3)
  | tMinImm (f : TI)
  | tMax (f : T3)
  | tMaxImm (f : TI)
  | tFadd (f : T3)
  | tFsub (f : T3)
  | tFmul (f : T3)
  | tFmin (f : T3)
  | tFmax (f : T3)
  | tFcmp (a : BitVec 5) (b : BitVec 5)
  | tMovi (d : BitVec 5) (i : BitVec 16)
  | tMoviHi (d : BitVec 5) (i : BitVec 16)
  | tSel (d : BitVec 5) (a : BitVec 5) (b : BitVec 5) (c : BitVec 5)
  -- device events (spec/95, the steps no word encodes)
  | evLoadDataReturn (op : Nat)
  | evStoreAcknowledge (op : Nat)
  | evUnitAnswerArrival (op : Nat)
  | evParkReevaluation (core : Nat) (slot : Nat)
  | evHoldVisitLimit (core : Nat) (slot : Nat)
  | evFairnessSwitch (core : Nat) (slot : Nat)
  | evSlotRelease (core : Nat) (slot : Nat)
  | evRetirementCounted (core : Nat) (slot : Nat)
  | evTeamBarrierArrival (flight : Nat)
  | evMessageArrival (flight : Nat)
  | evMessageRetry (flight : Nat)
  | evHandlerQueueArrival (flight : Nat)
  | evHandlerStart (core : Nat)
  | evHandlerRunLimit (core : Nat) (slot : Nat)
  | evLwinAccessAtHome (flight : Nat)
  | evServiceRequestRetry (flight : Nat)
  | evTextureRequest (flight : Nat)
  | evRasterRequest (flight : Nat)
  | evBlockExpansionComplete (flight : Nat)
  | evPoolWaitTimeout (core : Nat) (slot : Nat)
  | evGlobalRequestAtHome (flight : Nat)
  | evAtomicReserve (flight : Nat)
  | evAtomicGrant (unit : Nat)
  | evAtomicUnitRelease (unit : Nat)
  | evSystemAtomicopCompletion (flight : Nat) (refused : Bool)
  | evCopyRequestArrival (flight : Nat)
  | evCopyRequestRetry (flight : Nat)
  | evCopyRequestStart (engine : Nat)
  | evCopyRequestEnd (engine : Nat) (idx : Nat)
  | evCopyPoolTimeout (engine : Nat) (idx : Nat)
  | evStreamRefill (core : Nat) (slot : Nat) (port : Nat)
  | evStreamBufferReturn (op : Nat)
  | evOsecRequestAtHome (flight : Nat)
  | evSectionOverrun (core : Nat) (slot : Nat)
  | evHang (asid : Nat)
  | evLaunchRecordSubmit (queue : Nat) (words : List Word)
  | evRecordAdmission (flight : Nat)
  | evDependencyPoll (queue : Nat)
  | evLevelAging (queue : Nat)
  | evTeamPlacement (queue : Nat) (cores : List Nat)
  | evDrainDelayExpiry (queue : Nat) (cluster : Nat)
  | evGridCompletion (grid : Nat)
  | evPreemptionRequest (queue : Nat) (group : Nat)
  | evGroupSave (group : Nat)
  | evGroupResume (group : Nat)
  | evRepackTimeout (core : Nat) (rq : Nat)
  | evRepackWarpStart (core : Nat)
  | evStealArrival (flight : Nat)
  | evMatrixCommandStart (core : Nat)
  | evMatrixStepEnd (core : Nat)
  | evMatrixCommandEnd (core : Nat)
  | evFillerEnd (core : Nat)
  | evRampHoldEnd (core : Nat)
  | evRemoteMmaArrival (flight : Nat)
  | evTeamFragmentArrival (flight : Nat)
  | evThreadSlotFill (core : Nat)
  | evNodeFetchComplete (core : Nat) (thread : Nat)
  | evVectorReadComplete (core : Nat) (thread : Nat)
  | evStackReloadComplete (core : Nat) (thread : Nat)
  | evEmitAcknowledge (core : Nat) (thread : Nat)
  | evInboundContextArrival (flight : Nat)
  | evMigrationRetry (flight : Nat)
  | evMigrationRefusalLimit (flight : Nat)
  | evTraversalCompletion (flight : Nat)
  | evKernelLoadRequest (flight : Nat)
  | evTableRequest (flight : Nat)
  | evPlarmReadComplete (flight : Nat)
  | evPlbitReadComplete (flight : Nat)
  | evPlcomArrival (flight : Nat)
  | evPlanWriteComplete (slot : Nat)
  | evDeadlineExpiry (slot : Nat)
  | evEqresRetry (idx : Nat)
  | evEqresDecline (idx : Nat)
  | evXlinvAsid (asid : Nat)
  | evXlinvPage (asid : Nat) (page : Nat)
  | evXlinvAll
  | evHanglimWrite (asid : Nat) (value : Word)
  | evSectlimWrite (asid : Nat) (value : Word)
  | evMcapWrite (core : Nat) (slot : Nat) (hi : Bool) (value : Word)
  | evCycloRead (core : Nat) (slot : Nat) (d : Nat)
  | evTimeloRead (core : Nat) (slot : Nat) (d : Nat)
  | evSystemRegisterWrite (reg : Nat) (value : Word)
  | evUcClusterExtent (inst : Nat) (d0 : Word)
  | evUcRawRegion (inst : Nat) (d0 : Word) (d1 : Word) (d2 : Word)
  | evUcPoolFail (inst : Nat) (d0 : Word)
  | evUcLaunchQueue (inst : Nat) (d0 : Word) (d1 : Word)
  | evLaunchQueueFlush (queue : Nat)
  | evUcRangeDeque (inst : Nat) (d0 : Word)
  | evUcStructure (inst : Nat) (d0 : Word)
  | evUcPlanSlot (inst : Nat) (d0 : Word)
  | evUcProgramMemory (inst : Nat) (d0 : Word) (d1 : Word) (d2 : Word)
  | evAttach (core : Nat) (asid : Nat) (on : Bool)
  | evHalt (core : Nat) (slot : Nat)
  | evResume (core : Nat) (slot : Nat)
  | evStep (core : Nat) (slot : Nat)
  | evStepStallLimit (core : Nat)
  | evRead (core : Nat) (slot : Nat) (off : Nat) (len : Nat)
  | evWrite (core : Nat) (slot : Nat) (off : Nat) (data : List Word)
  | evWatch (core : Nat) (n : Nat) (addr : Word) (addrHi : Word) (ctl : Word)
  | evMem (core : Nat) (space : Nat) (addr : Nat) (len : Nat) (write : Bool) (data : List Byte)
  | evClearReport (core : Nat)
  | evSensors
  | evLog (idx : Nat) (count : Nat)
  | evStage (addr : Nat) (len : Nat)
  | evCommit
  | evAttest (nonce : List Byte)
  | evLogFlashWrite
  | evShock (axis : Nat) (level : Nat)
  | evBar2Access (off : Nat) (write : Bool) (data : List Byte)
  | evHostAtomicop (off : Nat)
  | evDropsWrite (queue : Nat) (value : Word)
  | evPeerctlWrite (value : Word)
  | evDeviceReset
  | evPowerLoss
  | evContextTeardown (asid : Nat)
  | evLinkTraining (port : Nat) (far : Nat) (major : Nat)
  | evPeerRequestArrival (flight : Nat)
  | evPeerAcknowledge (flight : Nat)
  | evLaneRepair (port : Nat) (lane : Nat)
  | evLaneRetrainComplete (port : Nat)
  | evPeerLoss (dev : Nat)
  | evThrottleStep (raise : Bool)
  | evThermalShutdown
  | evStackEntryReady (core : Nat) (thread : Nat) (idx : Nat)
  | evEqheadWrite (value : Word)
  | evLinkFailure (port : Nat)
  | evPowerOn
  | evFlashCommitComplete
  | evIcinvCompletion (op : Nat)
  | evPlanRequestArrival (flight : Nat)
deriving DecidableEq, Repr

end Sys2Proof
end

