-- ==== Sys2Proof/WellFormed.lean ====
section
/-! DEFINITION. Which instructions are well-formed: no reserved code in a field that selects an operation, a space or
an ordering (02 R45, Table 02-6; step 4 of R46). Operand codes (step 5) are `operandsOk` of Machine/Operands.lean. -/

namespace Sys2Proof

/-- G = 0b1111 is no guard (02 R28). -/
def guardOk (g : BitVec 4) : Bool := g != 15#4

/-- The field codes common to every memory form (02 Table 02-6, 07 R190): `freeScope` marks LINV and ICINV. -/
def MemF.codes (m : MemF) (spaces szs ords : List Nat) (freeScope : Bool := false) : Bool :=
  guardOk m.g && spaces.contains m.space.toNat && szs.contains m.sz.toNat && ords.contains m.ord.toNat
    && decide (m.scope.toNat ≤ 5) && (freeScope || m.ord != 0 || m.scope == 0)

/-- CP is 0, or anything in GLOBAL (07 Table 07-6). -/
def MemF.cpOk (m : MemF) : Bool := m.cp == 0 || m.space == 3

/-- SYNC and TAKE are accepted in LOCAL only (06 R150). -/
def MemF.syncOk (m : MemF) : Bool := (m.ord != 5 && m.ord != 6) || m.space == 0

def MemF.load (m : MemF) : Bool := m.codes [0, 1, 2, 3] [0, 1, 2, 3, 4, 5] [0, 1, 4, 5, 6] && m.cpOk && m.syncOk
def MemF.store (m : MemF) : Bool := m.codes [0, 1, 2, 3] [0, 1, 2, 3, 4, 5] [0, 2, 4, 5, 6] && m.cpOk && m.syncOk
def MemF.sload (m : MemF) : Bool := m.codes [0, 1, 2, 3] [0, 1, 2, 3, 4] [0, 1, 4] && m.cpOk && m.a == 0
def MemF.sstore (m : MemF) : Bool := m.codes [0, 1, 2, 3] [0, 1, 2, 3, 4] [0, 2, 4] && m.cpOk && m.a == 0
def MemF.atom (m : MemF) : Bool := m.codes [0, 1, 2, 3] [2, 3] [0, 1, 2, 3, 4] && m.cp == 0
def MemF.atomF (m : MemF) : Bool := m.codes [0, 1, 2, 3] [2] [0, 1, 2, 3, 4] && m.cp == 0
def MemF.ldrOk (m : MemF) : Bool := m.codes [3] [2, 3] [0, 1, 4] && m.cp == 0
def MemF.stcOk (m : MemF) : Bool := m.codes [3] [2, 3] [0, 2, 4] && m.cp == 0
/-- PREF, LWB, LCLN (07 R205-R206); PREF accepts CP 0 to 2. -/
def MemF.cmem (m : MemF) (cps : List Nat) : Bool :=
  m.codes [2, 3] [0] [0] && m.d == 0 && m.scope == 0 && cps.contains m.cp.toNat
def MemF.linvOk (m : MemF) : Bool := m.codes [2, 3] [0] [0] true && m.d == 0 && m.cp == 0
def MemF.icinvOk (m : MemF) : Bool := m.codes [3] [0] [0] true && m.d == 0 && m.cp == 0
def MemF.pclrOk (m : MemF) : Bool := m.codes [3] [0] [0, 2] && m.d == 0 && m.cp == 0
def MemF.fe (m : MemF) : Bool := m.codes [0, 1] [2] [0, 2] && m.cp == 0

/-- MMA and MMAS (12 R310): `sparse` for MMAS. -/
def MmaF.ok (f : MmaF) (sparse : Bool) : Bool :=
  guardOk f.g && f.csrc != 3 && (f.csrc == 2 || f.ct == 0) && (f.etype == 4 || f.sc == 0)
    && (if sparse then f.etype != 5 else f.mt == 0 && f.spn == 0)

/-- TRQ (13 R359). -/
def TrqF.ok (f : TrqF) : Bool :=
  guardOk f.g && decide (f.spsh.toNat ≤ 9)
    && (if f.mode == 0 then f.nres != 7 && f.tgt == 0 && f.note == 0
        else f.nres == 0 && (f.note == 1 || f.d == 0))

/-- Every reserved-code check of step 4 of R46, and the reserved function and condition codes of 13 R333. -/
def Instr.wf : Instr → Bool
  | .iadd f => guardOk f.g
  | .isub f => guardOk f.g
  | .imul f => guardOk f.g
  | .imulhs f => guardOk f.g
  | .imulhn f => guardOk f.g
  | .imins f => guardOk f.g
  | .imaxs f => guardOk f.g
  | .iminn f => guardOk f.g
  | .imaxn f => guardOk f.g
  | .iabsd f => guardOk f.g
  | .iaddss f => guardOk f.g
  | .iaddsn f => guardOk f.g
  | .isubss f => guardOk f.g
  | .isubsn f => guardOk f.g
  | .imac f => guardOk f.g
  | .imach f => guardOk f.g
  | .and f => guardOk f.g
  | .or f => guardOk f.g
  | .xor f => guardOk f.g
  | .andn f => guardOk f.g
  | .orn f => guardOk f.g
  | .xnor f => guardOk f.g
  | .shl f => guardOk f.g
  | .shr f => guardOk f.g
  | .sra f => guardOk f.g
  | .rol f => guardOk f.g
  | .ror f => guardOk f.g
  | .bfx f => guardOk f.g
  | .bfi f => guardOk f.g
  | .clz f => guardOk f.g
  | .popc f => guardOk f.g
  | .brev f => guardOk f.g
  | .iaddi f => guardOk f.g
  | .andi f => guardOk f.g
  | .ori f => guardOk f.g
  | .xori f => guardOk f.g
  | .shli f => guardOk f.g
  | .shri f => guardOk f.g
  | .srai f => guardOk f.g
  | .rori f => guardOk f.g
  | .movi f => guardOk f.g
  | .movhi f => guardOk f.g
  | .smovi f => guardOk f.g
  | .smovhi f => guardOk f.g
  | .sadd f => guardOk f.g
  | .ssub f => guardOk f.g
  | .smul f => guardOk f.g
  | .sand f => guardOk f.g
  | .sor f => guardOk f.g
  | .sxor f => guardOk f.g
  | .sshl f => guardOk f.g
  | .sshr f => guardOk f.g
  | .ssra f => guardOk f.g
  | .smins f => guardOk f.g
  | .smaxs f => guardOk f.g
  | .sminn f => guardOk f.g
  | .smaxn f => guardOk f.g
  | .sclz f => guardOk f.g
  | .spopc f => guardOk f.g
  | .smov f => guardOk f.g
  | .mov f => guardOk f.g
  | .vbcast f => guardOk f.g
  | .vextr f => guardOk f.g
  | .vinsr f => guardOk f.g
  | .movx f => guardOk f.g
  | .sel g _ _ _ _ _ => guardOk g
  | .srd g _ _ => guardOk g
  | .swr g _ _ => guardOk g
  | .fadd f => guardOk f.g
  | .fsub f => guardOk f.g
  | .fmul f => guardOk f.g
  | .fmin f => guardOk f.g
  | .fmax f => guardOk f.g
  | .fcpsgn f => guardOk f.g
  | .ffma f => guardOk f.g
  | .ffms f => guardOk f.g
  | .fabs f => guardOk f.g
  | .fneg f => guardOk f.g
  | .frcp f => guardOk f.g
  | .frsq f => guardOk f.g
  | .fsqrt f => guardOk f.g
  | .fexp2 f => guardOk f.g
  | .flog2 f => guardOk f.g
  | .fsinpi f => guardOk f.g
  | .fcospi f => guardOk f.g
  | .ftanh f => guardOk f.g
  | .ffract f => guardOk f.g
  | .frnd f => guardOk f.g
  | .fclass f => guardOk f.g
  | .fdiv f => guardOk f.g
  | .fldexp f => guardOk f.g
  | .fsat f => guardOk f.g
  | .hadd2 f => guardOk f.g
  | .hmul2 f => guardOk f.g
  | .hfma2 f => guardOk f.g
  | .hmin2 f => guardOk f.g
  | .hmax2 f => guardOk f.g
  | .badd2 f => guardOk f.g
  | .bmul2 f => guardOk f.g
  | .bfma2 f => guardOk f.g
  | .cvtf g _ _ s t _ r => guardOk g && s != 7 && t != 7 && decide (r.toNat ≤ 5)
  | .cvti g _ _ v i f h r => guardOk g && decide (i.toNat ≤ 5) && f != 3 && decide (r.toNat ≤ 5)
    && (h == 0 || (if v == 0 then f != 0 else i == 1 || i == 4))
  | .prmt f => guardOk f.g
  | .pk2h f => guardOk f.g
  | .pk2b f => guardOk f.g
  | .upk2h f => guardOk f.g
  | .upk2b f => guardOk f.g
  | .pk4q g _ _ r _ f => guardOk g && decide (r.toNat ≤ 5) && f != 3
  | .upk4q g _ _ f => guardOk g && f != 3
  | .icmp g _ _ _ _ _ k => guardOk g && decide (k.toNat ≤ 3)
  | .fcmp g _ _ _ _ _ k => guardOk g && decide (k.toNat ≤ 3)
  | .pand f => guardOk f.g
  | .por f => guardOk f.g
  | .pxor f => guardOk f.g
  | .pnot f => guardOk f.g
  | .pmov f => guardOk f.g
  | .ptos f => guardOk f.g
  | .pfroms f => guardOk f.g
  | .vany g _ _ _ => guardOk g
  | .vall g _ _ _ => guardOk g
  | .ballot g _ _ _ => guardOk g
  | .gwid g _ _ => guardOk g
  | .gred g _ _ o _ => guardOk g && decide (o.toNat ≤ 10)
  | .gmatch g _ _ _ => guardOk g
  | .gelect g _ _ => guardOk g
  | .wsync g => guardOk g
  | .shfli f => guardOk f.g
  | .shflu f => guardOk f.g
  | .shfld f => guardOk f.g
  | .shflx f => guardOk f.g
  | .segsc f => guardOk f.g
  | .segscf f => guardOk f.g
  | .gbcst g _ _ _ => guardOk g
  | .bra g _ => guardOk g
  | .call g _ => guardOk g
  | .rcvp g _ => guardOk g
  | .jmpx g _ => guardOk g
  | .callx f => guardOk f.g
  | .ret g _ => guardOk g
  | .callq g _ _ _ => guardOk g
  | .retq g => guardOk g
  | .exit g => guardOk g
  | .yield g => guardOk g
  | .nop g => guardOk g
  | .rpt g _ _ _ _ _ => guardOk g
  | .qwr f => guardOk f.g
  | .qrd f => guardOk f.g
  | .qtry f => guardOk f.g
  | .qcnt f => guardOk f.g
  | .bararv g _ => guardOk g
  | .barsyn g _ => guardOk g
  | .barinit g _ _ => guardOk g
  | .barwt g _ => guardOk g
  | .barqry g _ _ => guardOk g
  | .tbarsyn g _ => guardOk g
  | .tbarinit g _ _ => guardOk g
  | .ose f => guardOk f.g
  | .osen f => guardOk f.g
  | .osx g _ => guardOk g
  | .osini g _ _ _ => guardOk g
  | .osfree g _ => guardOk g
  | .osqry f => guardOk f.g
  | .ostk f => guardOk f.g
  | .dqpsh f => guardOk f.g
  | .dqpop g _ => guardOk g
  | .dqspl f => guardOk f.g
  | .dqstl f => guardOk f.g
  | .dqcnt g _ => guardOk g
  | .dqclr g => guardOk g
  | .send g _ _ _ _ => guardOk g
  | .sendh g _ _ _ _ => guardOk g
  | .waitm g _ _ _ => guardOk g
  | .recvm g _ _ _ _ => guardOk g
  | .mcnt g _ _ _ _ => guardOk g
  | .hret g => guardOk g
  | .svreq g _ _ _ => guardOk g
  | .waitc g c _ _ => guardOk g && decide (c.toNat ≤ 5)
  | .fence g o s => guardOk g && decide (1 ≤ o.toNat ∧ o.toNat ≤ 4) && decide (s.toNat ≤ 5)
  | .ifence g => guardOk g
  | .trap g _ => guardOk g
  | .brk g _ => guardOk g
  | .tret g => guardOk g
  | .eret g => guardOk g
  | .mramp g _ _ => guardOk g
  | .haltg g => guardOk g
  | .plarm f => guardOk f.g
  | .plbit f => guardOk f.g
  | .plcom f => guardOk f.g
  | .plqry f => guardOk f.g
  | .pldis f => guardOk f.g
  | .ld m => m.load
  | .st m => m.store
  | .sld m => m.sload
  | .sst m => m.sstore
  | .aadd m => m.atom
  | .amins m => m.atom
  | .amaxs m => m.atom
  | .aminn m => m.atom
  | .amaxn m => m.atom
  | .aand m => m.atom
  | .aor m => m.atom
  | .axor m => m.atom
  | .axchg m => m.atom
  | .acas m => m.atom
  | .afadd m => m.atomF
  | .afmin m => m.atomF
  | .afmax m => m.atomF
  | .ahadd2 m => m.atomF
  | .ldr m => m.ldrOk
  | .stc m => m.stcOk
  | .pref m => m.cmem [0, 1, 2]
  | .linv m => m.linvOk
  | .lwb m => m.cmem [0]
  | .lcln m => m.cmem [0]
  | .icinv m => m.icinvOk
  | .pclr m => m.pclrOk
  | .femt m => m.fe
  | .fful m => m.fe
  | .tcopy g _ _ _ eng => guardOk g && eng != 3
  | .stbind g _ _ space _ => guardOk g && (space == 0 || space == 2)
  | .stunb g _ => guardOk g
  | .ststat g _ _ => guardOk g
  | .mma f => f.ok false
  | .mmas f => f.ok true
  | .malloc g _ _ => guardOk g
  | .mfree g _ => guardOk g
  | .mzero g _ => guardOk g
  | .mld g _ _ _ => guardOk g
  | .mst g _ _ _ => guardOk g
  | .mrdv g _ _ _ => guardOk g
  | .mwrv g _ _ _ => guardOk g
  | .mcvts g _ _ part fmt rsel _ => guardOk g && decide (rsel.toNat ≤ 5) && (if decide (fmt.toNat ≤ 1) then decide (part.toNat ≤ 1) else part == 0)
  | .mreq g _ _ _ csrc sc _ etype _ => guardOk g && decide (csrc.toNat ≤ 1) && (etype == 4 || sc == 0)
  | .trq f => f.ok
  | .trpoll g _ => guardOk g
  | .trkill g _ => guardOk g
  | .trpin g _ _ => guardOk g
  | .trunp g _ => guardOk g
  | .trpub g _ _ _ _ => guardOk g
  | .trload g _ _ _ _ => guardOk g
  | .lqpsh g _ _ _ _ => guardOk g
  | .lqstat g _ _ => guardOk g
  | .tNfch _ => true
  | .tNdec _ _ _ => true
  | .tNdecX _ => true
  | .tNqbx _ _ => true
  | .tBox8 _ _ => true
  | .tSbox8 _ _ => true
  | .tTri _ _ _ j => j != 3
  | .tSphd _ _ j => j != 3
  | .tKcmp8 _ _ t => t != 3
  | .tVdist _ => true
  | .tPushm _ => true
  | .tPushmE _ _ => true
  | .tPop _ => true
  | .tStkq _ f => f != 3
  | .tBrc c _ => decide (c.toNat ≤ 10)
  | .tJmp _ _ => true
  | .tEnd => true
  | .tEmit _ _ _ => true
  | .tMigr _ => true
  | .tYld => true
  | .tAdd _ => true
  | .tAddImm _ => true
  | .tSub _ => true
  | .tSubImm _ => true
  | .tMul _ => true
  | .tMulImm _ => true
  | .tAnd _ => true
  | .tAndImm _ => true
  | .tOr _ => true
  | .tOrImm _ => true
  | .tXor _ => true
  | .tXorImm _ => true
  | .tShl _ => true
  | .tShlImm _ => true
  | .tShr _ => true
  | .tShrImm _ => true
  | .tMin _ => true
  | .tMinImm _ => true
  | .tMax _ => true
  | .tMaxImm _ => true
  | .tFadd _ => true
  | .tFsub _ => true
  | .tFmul _ => true
  | .tFmin _ => true
  | .tFmax _ => true
  | .tFcmp _ _ => true
  | .tMovi _ _ => true
  | .tMoviHi _ _ => true
  | .tSel _ _ _ c => decide (c.toNat ≤ 10)
  | .evLoadDataReturn _ => true
  | .evStoreAcknowledge _ => true
  | .evUnitAnswerArrival _ => true
  | .evParkReevaluation _ _ => true
  | .evHoldVisitLimit _ _ => true
  | .evFairnessSwitch _ _ => true
  | .evSlotRelease _ _ => true
  | .evRetirementCounted _ _ => true
  | .evTeamBarrierArrival _ => true
  | .evMessageArrival _ => true
  | .evMessageRetry _ => true
  | .evHandlerQueueArrival _ => true
  | .evHandlerStart _ => true
  | .evHandlerRunLimit _ _ => true
  | .evLwinAccessAtHome _ => true
  | .evServiceRequestRetry _ => true
  | .evTextureRequest _ => true
  | .evRasterRequest _ => true
  | .evBlockExpansionComplete _ => true
  | .evPoolWaitTimeout _ _ => true
  | .evGlobalRequestAtHome _ => true
  | .evAtomicReserve _ => true
  | .evAtomicGrant _ => true
  | .evAtomicUnitRelease _ => true
  | .evSystemAtomicopCompletion _ _ => true
  | .evCopyRequestArrival _ => true
  | .evCopyRequestRetry _ => true
  | .evCopyRequestStart _ => true
  | .evCopyRequestEnd _ _ => true
  | .evCopyPoolTimeout _ _ => true
  | .evStreamRefill _ _ _ => true
  | .evStreamBufferReturn _ => true
  | .evOsecRequestAtHome _ => true
  | .evSectionOverrun _ _ => true
  | .evHang _ => true
  | .evLaunchRecordSubmit _ _ => true
  | .evRecordAdmission _ => true
  | .evDependencyPoll _ => true
  | .evLevelAging _ => true
  | .evTeamPlacement _ _ => true
  | .evDrainDelayExpiry _ _ => true
  | .evGridCompletion _ => true
  | .evPreemptionRequest _ _ => true
  | .evGroupSave _ => true
  | .evGroupResume _ => true
  | .evRepackTimeout _ _ => true
  | .evRepackWarpStart _ => true
  | .evStealArrival _ => true
  | .evMatrixCommandStart _ => true
  | .evMatrixStepEnd _ => true
  | .evMatrixCommandEnd _ => true
  | .evFillerEnd _ => true
  | .evRampHoldEnd _ => true
  | .evRemoteMmaArrival _ => true
  | .evTeamFragmentArrival _ => true
  | .evThreadSlotFill _ => true
  | .evNodeFetchComplete _ _ => true
  | .evVectorReadComplete _ _ => true
  | .evStackReloadComplete _ _ => true
  | .evEmitAcknowledge _ _ => true
  | .evInboundContextArrival _ => true
  | .evMigrationRetry _ => true
  | .evMigrationRefusalLimit _ => true
  | .evTraversalCompletion _ => true
  | .evKernelLoadRequest _ => true
  | .evTableRequest _ => true
  | .evPlarmReadComplete _ => true
  | .evPlbitReadComplete _ => true
  | .evPlcomArrival _ => true
  | .evPlanWriteComplete _ => true
  | .evDeadlineExpiry _ => true
  | .evEqresRetry _ => true
  | .evEqresDecline _ => true
  | .evXlinvAsid _ => true
  | .evXlinvPage _ _ => true
  | .evXlinvAll => true
  | .evHanglimWrite _ _ => true
  | .evSectlimWrite _ _ => true
  | .evMcapWrite _ _ _ _ => true
  | .evCycloRead _ _ _ => true
  | .evTimeloRead _ _ _ => true
  | .evSystemRegisterWrite _ _ => true
  | .evUcClusterExtent _ _ => true
  | .evUcRawRegion _ _ _ _ => true
  | .evUcPoolFail _ _ => true
  | .evUcLaunchQueue _ _ _ => true
  | .evLaunchQueueFlush _ => true
  | .evUcRangeDeque _ _ => true
  | .evUcStructure _ _ => true
  | .evUcPlanSlot _ _ => true
  | .evUcProgramMemory _ _ _ _ => true
  | .evAttach _ _ _ => true
  | .evHalt _ _ => true
  | .evResume _ _ => true
  | .evStep _ _ => true
  | .evStepStallLimit _ => true
  | .evRead _ _ _ _ => true
  | .evWrite _ _ _ _ => true
  | .evWatch _ _ _ _ _ => true
  | .evMem _ _ _ _ _ _ => true
  | .evClearReport _ => true
  | .evSensors => true
  | .evLog _ _ => true
  | .evStage _ _ => true
  | .evCommit => true
  | .evAttest _ => true
  | .evLogFlashWrite => true
  | .evShock _ _ => true
  | .evBar2Access _ _ _ => true
  | .evHostAtomicop _ => true
  | .evDropsWrite _ _ => true
  | .evPeerctlWrite _ => true
  | .evDeviceReset => true
  | .evPowerLoss => true
  | .evContextTeardown _ => true
  | .evLinkTraining _ _ _ => true
  | .evPeerRequestArrival _ => true
  | .evPeerAcknowledge _ => true
  | .evLaneRepair _ _ => true
  | .evLaneRetrainComplete _ => true
  | .evPeerLoss _ => true
  | .evThrottleStep _ => true
  | .evThermalShutdown => true
  | .evStackEntryReady _ _ _ => true
  | .evEqheadWrite _ => true
  | .evLinkFailure _ => true
  | .evPowerOn => true
  | .evFlashCommitComplete => true
  | .evIcinvCompletion _ => true
  | .evPlanRequestArrival _ => true

end Sys2Proof
end

