-- ==== Sys2Proof/Decode.lean ====
section
/-! DEFINITION. From words to instructions (02 R27-R47, 13 R332-R334) and back. The decoder is total and rejects by
name; `encode` is written from the same encoding tables. -/

namespace Sys2Proof

/-- Why a word is no instruction: steps 2 and 4 of 02 R46, or 13 R333. -/
inductive Reject where
  /-- G = 0b1111 (R28). -/
  | guardNever
  /-- A reserved major or opcode (R44, R333). -/
  | reservedMajor
  /-- An unassigned F (R44). -/
  | unassignedF
  /-- A one in a must-be-zero bit (R33). -/
  | mustBeZero
  /-- A reserved field code (R45). -/
  | reservedCode
  /-- Too few bytes for the instruction. -/
  | truncated
deriving DecidableEq, Repr

/-- Bits [lo + n - 1 : lo] of a word. -/
def fld (w : Word) (lo n : Nat) : BitVec n := w.extractLsb' lo n

/-- Accepts `i` when no bit of `w` under the mask is one. -/
def zeros (mask : Nat) (w : Word) (i : Instr) : Except Reject Instr :=
  if w &&& BitVec.ofNat 32 mask = 0 then .ok i else .error .mustBeZero

/-- `zeros` over both words of a 64-bit instruction. -/
def zeros2 (m0 : Nat) (w0 : Word) (m1 : Nat) (w1 : Word) (i : Instr) : Except Reject Instr :=
  if w0 &&& BitVec.ofNat 32 m0 = 0 ∧ w1 &&& BitVec.ofNat 32 m1 = 0 then .ok i else .error .mustBeZero

/-- R format with every field. -/
def r3 (c : R3 → Instr) (w : Word) : Except Reject Instr :=
  .ok (c ⟨fld w 28 4, fld w 16 6, fld w 10 6, fld w 4 6, fld w 3 1⟩)

/-- R format of a unary form: B and X zero (R33). -/
def r2 (c : R2 → Instr) (w : Word) : Except Reject Instr :=
  zeros 0x3F8 w (c ⟨fld w 28 4, fld w 16 6, fld w 10 6⟩)

/-- R format of a form that names no A: A zero. -/
def rb (c : RB → Instr) (w : Word) : Except Reject Instr :=
  zeros 0xFC00 w (c ⟨fld w 28 4, fld w 16 6, fld w 4 6, fld w 3 1⟩)

/-- R format of a form whose X must be zero. -/
def rp (c : RP → Instr) (w : Word) : Except Reject Instr :=
  zeros 0x8 w (c ⟨fld w 28 4, fld w 16 6, fld w 10 6, fld w 4 6⟩)

/-- RI format. -/
def ri (c : RI → Instr) (w : Word) : Except Reject Instr :=
  .ok (c ⟨fld w 28 4, fld w 16 6, fld w 10 6, fld w 0 10⟩)

/-- RU format. -/
def ru (c : RU → Instr) (w : Word) : Except Reject Instr :=
  .ok (c ⟨fld w 28 4, fld w 16 6, fld w 0 16⟩)

/-- SHI: IMM10[9:8] selects the form and IMM10[7:5] must be zero (R32). -/
def shi (w : Word) : Except Reject Instr :=
  let f : RS := ⟨fld w 28 4, fld w 16 6, fld w 10 6, fld w 0 5⟩
  zeros 0xE0 w (match (fld w 8 2).toNat with
    | 0 => .shli f | 1 => .shri f | 2 => .srai f | _ => .rori f)

/-- The form that F = word0[2:0] selects. -/
def pick (w : Word) (forms : List (Word → Except Reject Instr)) : Except Reject Instr :=
  match forms[(fld w 0 3).toNat]? with
  | some h => h w
  | none => .error .unassignedF

/-- The form that F = word1[2:0] selects (R34). -/
def pick1 (w1 : Word) (forms : List (Word → Except Reject Instr)) : Except Reject Instr :=
  match forms[(fld w1 0 3).toNat]? with
  | some h => h w1
  | none => .error .unassignedF

/-- Long M format (R31). -/
def mem (w : Word) (c : MemF → Instr) (w1 : Word) : Except Reject Instr :=
  .ok (c ⟨fld w 28 4, fld w 16 6, fld w 10 6, fld w 4 6, fld w 3 1, fld w 0 3,
    fld w1 16 16, fld w1 13 3, fld w1 10 3, fld w1 7 3, fld w1 5 2, fld w1 3 2⟩)

/-- The fields of MMA and MMAS (12 Table 12-3). -/
def mmaFields (w w1 : Word) : MmaF :=
  ⟨fld w 28 4, fld w 16 6, fld w 10 6, fld w 4 6, fld w1 30 2, fld w1 26 4, fld w1 20 6, fld w1 14 6,
    fld w1 11 3, fld w1 9 2, fld w1 8 1⟩

/-- The fields of TRQ (13 Table 13-8). -/
def trqFields (w w1 : Word) : TrqF :=
  ⟨fld w 28 4, fld w 16 6, fld w 10 6, fld w 4 6, fld w1 28 4, fld w1 20 8, fld w1 19 1, fld w1 18 1,
    fld w1 17 1, fld w1 12 5, fld w1 9 3, fld w1 5 4, fld w1 4 1⟩

/-- Steps 2 and 4 of 02 R46 for a 32-bit major, before the reserved-code check. -/
def fields32 (w : Word) : Except Reject Instr :=
  match (fld w 22 6).toNat with
  | 0x01 => pick w [r3 .iadd, r3 .isub, r3 .imul, r3 .imulhs, r3 .imulhn, r3 .imins, r3 .imaxs, r3 .iminn]
  | 0x02 => pick w [r3 .imaxn, r3 .iabsd, r3 .iaddss, r3 .iaddsn, r3 .isubss, r3 .isubsn, r3 .imac, r3 .imach]
  | 0x03 => pick w [r3 .and, r3 .or, r3 .xor, r3 .andn, r3 .orn, r3 .xnor, r3 .shl, r3 .shr]
  | 0x04 => pick w [r3 .sra, r3 .rol, r3 .ror, r3 .bfx, r3 .bfi, r2 .clz, r2 .popc, r2 .brev]
  | 0x05 => ri .iaddi w
  | 0x06 => ri .andi w
  | 0x07 => ri .ori w
  | 0x08 => ri .xori w
  | 0x09 => shi w
  | 0x0A => ru .movi w
  | 0x0B => ru .movhi w
  | 0x0C => ru .smovi w
  | 0x0D => ru .smovhi w
  | 0x0E => pick w [r3 .sadd, r3 .ssub, r3 .smul, r3 .sand, r3 .sor, r3 .sxor, r3 .sshl, r3 .sshr]
  | 0x0F => pick w [r3 .ssra, r3 .smins, r3 .smaxs, r3 .sminn, r3 .smaxn, r2 .sclz, r2 .spopc, rb .smov]
  | 0x10 => pick w [rb .mov, r3 .vbcast, r3 .vextr, r3 .vinsr, r3 .movx]
  | 0x11 => .ok (.sel (fld w 28 4) (fld w 16 6) (fld w 10 6) (fld w 4 6) (fld w 3 1) (fld w 0 3))
  | 0x12 => zeros 0xF000 w (.srd (fld w 28 4) (fld w 16 6) (fld w 0 12))
  | 0x13 => zeros 0xF000 w (.swr (fld w 28 4) (fld w 16 6) (fld w 0 12))
  | 0x14 => pick w [r3 .fadd, r3 .fsub, r3 .fmul, r3 .fmin, r3 .fmax, r3 .fcpsgn, r3 .ffma, r3 .ffms]
  | 0x15 => pick w [r2 .fabs, r2 .fneg, r2 .frcp, r2 .frsq, r2 .fsqrt, r2 .fexp2, r2 .flog2, r2 .fsinpi]
  | 0x16 => pick w [r2 .fcospi, r2 .ftanh, r2 .ffract, r2 .frnd, r2 .fclass, r3 .fdiv, r3 .fldexp, r2 .fsat]
  | 0x17 => pick w [r3 .hadd2, r3 .hmul2, r3 .hfma2, r3 .hmin2, r3 .hmax2, r3 .badd2, r3 .bmul2, r3 .bfma2]
  | 0x18 => zeros 0x0 w (.cvtf (fld w 28 4) (fld w 16 6) (fld w 10 6) (fld w 7 3) (fld w 4 3) (fld w 3 1) (fld w 0 3))
  | 0x19 => zeros 0x0 w (.cvti (fld w 28 4) (fld w 16 6) (fld w 10 6) (fld w 9 1) (fld w 6 3) (fld w 4 2) (fld w 3 1) (fld w 0 3))
  | 0x1A => pick w [r3 .prmt, r3 .pk2h, r3 .pk2b, r2 .upk2h, r2 .upk2b, (fun w => zeros 0x8 w (.pk4q (fld w 28 4) (fld w 16 6) (fld w 10 6) (fld w 7 3) (fld w 6 1) (fld w 4 2))), (fun w => zeros 0x3C8 w (.upk4q (fld w 28 4) (fld w 16 6) (fld w 10 6) (fld w 4 2)))]
  | 0x1B => zeros 0x0 w (.icmp (fld w 28 4) (fld w 19 3) (fld w 16 3) (fld w 10 6) (fld w 4 6) (fld w 3 1) (fld w 0 3))
  | 0x1C => zeros 0x0 w (.fcmp (fld w 28 4) (fld w 19 3) (fld w 16 3) (fld w 10 6) (fld w 4 6) (fld w 3 1) (fld w 0 3))
  | 0x1D => pick w [rp .pand, rp .por, rp .pxor, r2 .pnot, r2 .pmov, r2 .ptos, r2 .pfroms]
  | 0x1E => pick w [(fun w => zeros 0x3E8 w (.vany (fld w 28 4) (fld w 16 6) (fld w 10 6) (fld w 4 1))), (fun w => zeros 0x3E8 w (.vall (fld w 28 4) (fld w 16 6) (fld w 10 6) (fld w 4 1))), (fun w => zeros 0x3E8 w (.ballot (fld w 28 4) (fld w 16 6) (fld w 10 6) (fld w 4 1))), (fun w => zeros 0xFFE8 w (.gwid (fld w 28 4) (fld w 16 6) (fld w 4 1))), (fun w => zeros 0x208 w (.gred (fld w 28 4) (fld w 16 6) (fld w 10 6) (fld w 5 4) (fld w 4 1))), (fun w => zeros 0x3E8 w (.gmatch (fld w 28 4) (fld w 16 6) (fld w 10 6) (fld w 4 1))), (fun w => zeros 0xFFE8 w (.gelect (fld w 28 4) (fld w 16 6) (fld w 4 1))), (fun w => zeros 0x3FFFF8 w (.wsync (fld w 28 4)))]
  | 0x1F => pick w [r3 .shfli, r3 .shflu, r3 .shfld, r3 .shflx, rp .segsc, rp .segscf, (fun w => zeros 0x3E8 w (.gbcst (fld w 28 4) (fld w 16 6) (fld w 10 6) (fld w 4 1)))]
  | 0x20 => zeros 0x0 w (.bra (fld w 28 4) (fld w 0 22))
  | 0x21 => zeros 0x0 w (.call (fld w 28 4) (fld w 0 22))
  | 0x22 => zeros 0x0 w (.rcvp (fld w 28 4) (fld w 0 22))
  | 0x23 => pick w [(fun w => zeros 0x3F03F8 w (.jmpx (fld w 28 4) (fld w 10 6))), r2 .callx, (fun w => zeros 0x3F03F8 w (.ret (fld w 28 4) (fld w 10 6))), (fun w => zeros 0x3F0000 w (.callq (fld w 28 4) (fld w 10 6) (fld w 4 6) (fld w 3 1))), (fun w => zeros 0x3FFFF8 w (.retq (fld w 28 4))), (fun w => zeros 0x3FFFF8 w (.exit (fld w 28 4))), (fun w => zeros 0x3FFFF8 w (.yield (fld w 28 4)))]
  | 0x24 => zeros 0x3FFFFF w (.nop (fld w 28 4))
  | 0x25 => zeros 0xC1F w (.rpt (fld w 28 4) (fld w 18 4) (fld w 16 2) (fld w 14 2) (fld w 12 2) (fld w 5 5))
  | 0x26 => pick w [r2 .qwr, r2 .qrd, rp .qtry, r2 .qcnt]
  | 0x27 => pick w [(fun w => zeros 0x3FF8 w (.bararv (fld w 28 4) (fld w 14 8))), (fun w => zeros 0x3FF8 w (.barsyn (fld w 28 4) (fld w 14 8))), (fun w => zeros 0xF8 w (.barinit (fld w 28 4) (fld w 14 8) (fld w 8 6))), (fun w => zeros 0x3FF8 w (.barwt (fld w 28 4) (fld w 14 8))), (fun w => zeros 0xF8 w (.barqry (fld w 28 4) (fld w 14 8) (fld w 8 6))), (fun w => zeros 0x3FF8 w (.tbarsyn (fld w 28 4) (fld w 14 8))), (fun w => zeros 0xF8 w (.tbarinit (fld w 28 4) (fld w 14 8) (fld w 8 6)))]
  | 0x28 => pick w [r3 .ose, r3 .osen, (fun w => zeros 0x3F03F8 w (.osx (fld w 28 4) (fld w 10 6))), (fun w => zeros 0x3F0000 w (.osini (fld w 28 4) (fld w 10 6) (fld w 4 6) (fld w 3 1))), (fun w => zeros 0x3F03F8 w (.osfree (fld w 28 4) (fld w 10 6))), r2 .osqry, r2 .ostk]
  | 0x29 => pick w [r3 .dqpsh, (fun w => zeros 0xFFF8 w (.dqpop (fld w 28 4) (fld w 16 6))), rb .dqspl, rb .dqstl, (fun w => zeros 0xFFF8 w (.dqcnt (fld w 28 4) (fld w 16 6))), (fun w => zeros 0x3FFFF8 w (.dqclr (fld w 28 4)))]
  | 0x2A => pick w [(fun w => zeros 0x3E0000 w (.send (fld w 28 4) (fld w 16 1) (fld w 10 6) (fld w 4 6) (fld w 3 1))), (fun w => zeros 0x3E0000 w (.sendh (fld w 28 4) (fld w 16 1) (fld w 10 6) (fld w 4 6) (fld w 3 1))), (fun w => zeros 0x3FF800 w (.waitm (fld w 28 4) (fld w 10 1) (fld w 4 6) (fld w 3 1))), (fun w => zeros 0xF800 w (.recvm (fld w 28 4) (fld w 16 6) (fld w 10 1) (fld w 4 6) (fld w 3 1))), (fun w => zeros 0xF800 w (.mcnt (fld w 28 4) (fld w 16 6) (fld w 10 1) (fld w 4 6) (fld w 3 1))), (fun w => zeros 0x3FFFF8 w (.hret (fld w 28 4))), (fun w => zeros 0x3F0000 w (.svreq (fld w 28 4) (fld w 10 6) (fld w 4 6) (fld w 3 1)))]
  | 0x2B => pick w [(fun w => zeros 0x38FC00 w (.waitc (fld w 28 4) (fld w 16 3) (fld w 4 6) (fld w 3 1))), (fun w => zeros 0x38E3F8 w (.fence (fld w 28 4) (fld w 16 3) (fld w 10 3))), (fun w => zeros 0x3FFFF8 w (.ifence (fld w 28 4)))]
  | 0x2C => pick w [(fun w => zeros 0xFFF8 w (.trap (fld w 28 4) (fld w 16 6))), (fun w => zeros 0xFFF8 w (.brk (fld w 28 4) (fld w 16 6))), (fun w => zeros 0x3FFFF8 w (.tret (fld w 28 4))), (fun w => zeros 0x3FFFF8 w (.eret (fld w 28 4))), (fun w => zeros 0x3FFC00 w (.mramp (fld w 28 4) (fld w 4 6) (fld w 3 1))), (fun w => zeros 0x3FFFF8 w (.haltg (fld w 28 4)))]
  | 0x2D => pick w [r3 .plarm, r3 .plbit, r3 .plcom, r2 .plqry, r2 .pldis]
  | _ => .error .reservedMajor

/-- Steps 2 and 4 of 02 R46 for a 64-bit major, before the reserved-code check. -/
def fields64 (w w1 : Word) : Except Reject Instr :=
  let g : BitVec 4 := fld w 28 4
  let d : BitVec 6 := fld w 16 6
  let a : BitVec 6 := fld w 10 6
  let b : BitVec 6 := fld w 4 6
  match (fld w 22 6).toNat with
  | 0x30 => pick1 w1 [mem w .ld]
  | 0x31 => pick1 w1 [mem w .st]
  | 0x32 => pick1 w1 [mem w .sld, mem w .sst]
  | 0x33 => pick1 w1 [mem w .aadd, mem w .amins, mem w .amaxs, mem w .aminn, mem w .amaxn, mem w .aand, mem w .aor, mem w .axor]
  | 0x34 => pick1 w1 [mem w .axchg, mem w .acas, mem w .afadd, mem w .afmin, mem w .afmax, mem w .ahadd2, mem w .ldr, mem w .stc]
  | 0x35 => pick1 w1 [mem w .pref, mem w .linv, mem w .lwb, mem w .lcln, mem w .icinv, mem w .pclr, mem w .femt, mem w .fful]
  | 0x36 => pick1 w1 [(fun w1 => zeros2 0x3FF w 0xFFFF7F98 w1 (.tcopy g d a (fld w1 15 1) (fld w1 5 2)))]
  | 0x37 => pick1 w1 [(fun w1 => zeros2 0x3FF w 0xFFFF1F98 w1 (.stbind g d a (fld w1 13 3) (fld w1 5 2))),
      (fun w1 => zeros2 0x3FFFFF w 0xFFFFFF98 w1 (.stunb g (fld w1 5 2))),
      (fun w1 => zeros2 0xFFFF w 0xFFFFFF98 w1 (.ststat g d (fld w1 5 2)))]
  | 0x38 => pick1 w1 [(fun w1 => zeros2 0xF w 0xF8 w1 (.mma (mmaFields w w1))),
      (fun w1 => zeros2 0xF w 0xF8 w1 (.mmas (mmaFields w w1)))]
  | 0x39 => pick1 w1 [(fun w1 => zeros2 0x3FF w 0xFFFFFFF8 w1 (.malloc g d a)),
      (fun w1 => zeros2 0x3F03FF w 0xFFFFFFF8 w1 (.mfree g a)),
      (fun w1 => zeros2 0x3FFC0F w 0xFFFFFFF8 w1 (.mzero g b)),
      (fun w1 => zeros2 0x3F000F w 0xFFF8 w1 (.mld g a b (fld w1 16 16))),
      (fun w1 => zeros2 0x3F000F w 0xFFF8 w1 (.mst g a b (fld w1 16 16))),
      (fun w1 => zeros2 0xFC0F w 0xFFFFE7F8 w1 (.mrdv g d b (fld w1 11 2))),
      (fun w1 => zeros2 0xFC0F w 0xFFFFE7F8 w1 (.mwrv g d b (fld w1 11 2))),
      (fun w1 => zeros2 0xFC0F w 0xFFFFE018 w1 (.mcvts g d b (fld w1 11 2) (fld w1 9 2) (fld w1 6 3) (fld w1 5 1)))]
  | 0x3A => pick1 w1 [(fun w1 => zeros2 0xF w 0x3C004608 w1 (.mreq g d a b (fld w1 30 2) (fld w1 20 6) (fld w1 15 5) (fld w1 11 3) (fld w1 4 5)))]
  | 0x3B => pick1 w1 [(fun w1 => zeros2 0xF w 0x8 w1 (.trq (trqFields w w1)))]
  | 0x3C => pick1 w1 [(fun w1 => zeros2 0xFFFF w 0xFFFFFFF8 w1 (.trpoll g d)),
      (fun w1 => zeros2 0x3FFFFF w 0xFFFFFFF0 w1 (.trkill g (fld w1 3 1))),
      (fun w1 => zeros2 0x3FF w 0xFFFFFFF8 w1 (.trpin g d a)),
      (fun w1 => zeros2 0x3F03FF w 0xFFFFFFF8 w1 (.trunp g a)),
      (fun w1 => zeros2 0xF w 0xFFFFFFF0 w1 (.trpub g d a b (fld w1 3 1))),
      (fun w1 => zeros2 0xF w 0xFFFFE0F8 w1 (.trload g d a b (fld w1 8 5)))]
  | 0x3D => pick1 w1 [(fun w1 => zeros2 0xF w 0xFFFF7FF8 w1 (.lqpsh g d a b (fld w1 15 1))),
      (fun w1 => zeros2 0x3FF w 0xFFFFFFF8 w1 (.lqstat g d a))]
  | _ => .error .reservedMajor

/-- The checks of 13 R333 that depend on the word alone: opcode and must-be-zero fields. -/
noncomputable def fieldsTrav (w : Word) : Except Reject Instr :=
  match (fld w 26 6).toNat with
  | 0x01 => zeros 0x3E0FFFF w (.tNfch (fld w 16 5))
  | 0x02 => if w &&& 0x20#32 = 0 then zeros 0x1F07E0 w (.tNdec (fld w 21 5) (fld w 11 5) (fld w 0 5)) else zeros 0x7DF w (.tNdecX ⟨fld w 21 5, fld w 16 5, fld w 11 5⟩)
  | 0x03 => zeros 0x1FFFF8 w (.tNqbx (fld w 21 5) (fld w 0 3))
  | 0x04 => zeros 0xFFFF w (.tBox8 (fld w 21 5) (fld w 16 5))
  | 0x05 => zeros 0xFFFF w (.tSbox8 (fld w 21 5) (fld w 16 5))
  | 0x06 => zeros 0x7FC w (.tTri (fld w 21 5) (fld w 16 5) (fld w 11 5) (fld w 0 2))
  | 0x07 => zeros 0xFFFC w (.tSphd (fld w 21 5) (fld w 16 5) (fld w 0 2))
  | 0x08 => zeros 0xFFFC w (.tKcmp8 (fld w 21 5) (fld w 16 5) (fld w 0 2))
  | 0x09 => zeros 0x7FF w (.tVdist ⟨fld w 21 5, fld w 16 5, fld w 11 5⟩)
  | 0x0A => if w &&& 0x1#32 = 0 then zeros 0x3FF07FF w (.tPushm (fld w 11 5)) else zeros 0x3E007FE w (.tPushmE (fld w 16 5) (fld w 11 5))
  | 0x0B => zeros 0x1FFFFF w (.tPop (fld w 21 5))
  | 0x0C => zeros 0x1FFFFC w (.tStkq (fld w 21 5) (fld w 0 2))
  | 0x0D => zeros 0x1FF800 w (.tBrc (fld w 21 5) (fld w 0 11))
  | 0x0E => zeros 0xFFFF w (.tJmp (fld w 21 5) (fld w 16 5))
  | 0x0F => zeros 0x3FFFFFF w (.tEnd)
  | 0x10 => zeros 0x3E007F8 w (.tEmit (fld w 16 5) (fld w 11 5) (fld w 0 3))
  | 0x11 => zeros 0x3E0FFFF w (.tMigr (fld w 16 5))
  | 0x12 => zeros 0x3FFFFFF w (.tYld)
  | 0x13 => if w &&& 0x400#32 = 0 then zeros 0x7FF w (.tAdd ⟨fld w 21 5, fld w 16 5, fld w 11 5⟩) else zeros 0xF800 w (.tAddImm ⟨fld w 21 5, fld w 16 5, fld w 0 10⟩)
  | 0x14 => if w &&& 0x400#32 = 0 then zeros 0x7FF w (.tSub ⟨fld w 21 5, fld w 16 5, fld w 11 5⟩) else zeros 0xF800 w (.tSubImm ⟨fld w 21 5, fld w 16 5, fld w 0 10⟩)
  | 0x15 => if w &&& 0x400#32 = 0 then zeros 0x7FF w (.tMul ⟨fld w 21 5, fld w 16 5, fld w 11 5⟩) else zeros 0xF800 w (.tMulImm ⟨fld w 21 5, fld w 16 5, fld w 0 10⟩)
  | 0x16 => if w &&& 0x400#32 = 0 then zeros 0x7FF w (.tAnd ⟨fld w 21 5, fld w 16 5, fld w 11 5⟩) else zeros 0xF800 w (.tAndImm ⟨fld w 21 5, fld w 16 5, fld w 0 10⟩)
  | 0x17 => if w &&& 0x400#32 = 0 then zeros 0x7FF w (.tOr ⟨fld w 21 5, fld w 16 5, fld w 11 5⟩) else zeros 0xF800 w (.tOrImm ⟨fld w 21 5, fld w 16 5, fld w 0 10⟩)
  | 0x18 => if w &&& 0x400#32 = 0 then zeros 0x7FF w (.tXor ⟨fld w 21 5, fld w 16 5, fld w 11 5⟩) else zeros 0xF800 w (.tXorImm ⟨fld w 21 5, fld w 16 5, fld w 0 10⟩)
  | 0x19 => if w &&& 0x400#32 = 0 then zeros 0x7FF w (.tShl ⟨fld w 21 5, fld w 16 5, fld w 11 5⟩) else zeros 0xF800 w (.tShlImm ⟨fld w 21 5, fld w 16 5, fld w 0 10⟩)
  | 0x1A => if w &&& 0x400#32 = 0 then zeros 0x7FF w (.tShr ⟨fld w 21 5, fld w 16 5, fld w 11 5⟩) else zeros 0xF800 w (.tShrImm ⟨fld w 21 5, fld w 16 5, fld w 0 10⟩)
  | 0x1B => if w &&& 0x400#32 = 0 then zeros 0x7FF w (.tMin ⟨fld w 21 5, fld w 16 5, fld w 11 5⟩) else zeros 0xF800 w (.tMinImm ⟨fld w 21 5, fld w 16 5, fld w 0 10⟩)
  | 0x1C => if w &&& 0x400#32 = 0 then zeros 0x7FF w (.tMax ⟨fld w 21 5, fld w 16 5, fld w 11 5⟩) else zeros 0xF800 w (.tMaxImm ⟨fld w 21 5, fld w 16 5, fld w 0 10⟩)
  | 0x1D => zeros 0x7FF w (.tFadd ⟨fld w 21 5, fld w 16 5, fld w 11 5⟩)
  | 0x1E => zeros 0x7FF w (.tFsub ⟨fld w 21 5, fld w 16 5, fld w 11 5⟩)
  | 0x1F => zeros 0x7FF w (.tFmul ⟨fld w 21 5, fld w 16 5, fld w 11 5⟩)
  | 0x20 => zeros 0x7FF w (.tFmin ⟨fld w 21 5, fld w 16 5, fld w 11 5⟩)
  | 0x21 => zeros 0x7FF w (.tFmax ⟨fld w 21 5, fld w 16 5, fld w 11 5⟩)
  | 0x22 => zeros 0x3E007FF w (.tFcmp (fld w 16 5) (fld w 11 5))
  | 0x23 => if w &&& 0x10000#32 = 0 then zeros 0x1F0000 w (.tMovi (fld w 21 5) (fld w 0 16)) else zeros 0x1E0000 w (.tMoviHi (fld w 21 5) (fld w 0 16))
  | 0x24 => zeros 0x7E0 w (.tSel (fld w 21 5) (fld w 16 5) (fld w 11 5) (fld w 0 5))
  | _ => .error .reservedMajor

/-- Rejects an instruction whose field codes are reserved (step 4 of R46). -/
def checked : Except Reject Instr → Except Reject Instr
  | .ok i => if i.wf then .ok i else .error .reservedCode
  | .error r => .error r

/-- The length of a SIMT instruction in bytes; the major alone fixes it (R27). -/
def simtLen (w : Word) : Nat := if (fld w 22 6).toNat < 0x30 then 4 else 8

/-- Step 2 of R46: the words that are illegal before word1 is fetched. -/
def rejectedEarly (w : Word) : Bool :=
  fld w 28 4 == 15#4 || [0x00, 0x2E, 0x2F, 0x3E, 0x3F].contains (fld w 22 6).toNat

/-- SIMT decoding (steps 2 and 4 of R46): word0, and word1 where the major is long. -/
def decodeSimt (w w1 : Word) : Except Reject Instr :=
  if fld w 28 4 = 15#4 then .error .guardNever
  else if (fld w 22 6).toNat < 0x30 then checked (fields32 w) else checked (fields64 w w1)

/-- Traversal decoding (13 R332-R334). -/
noncomputable def decodeTrav (w : Word) : Except Reject Instr := checked (fieldsTrav w)

/-- A little-endian word from the front of a list of bytes (01 R24). -/
def takeWord : List Byte → Option (Word × List Byte)
  | b0 :: b1 :: b2 :: b3 :: rest => some (b3 ++ b2 ++ b1 ++ b0, rest)
  | _ => none

/-- SIMT decoding of a list of bytes: the instruction and the bytes after it. -/
def decodeBytes (bs : List Byte) : Except Reject (Instr × List Byte) :=
  match takeWord bs with
  | none => .error .truncated
  | some (w, rest) =>
    if simtLen w = 4 then (decodeSimt w 0).map (·, rest)
    else match takeWord rest with
      | none => .error .truncated
      | some (w1, rest') => (decodeSimt w w1).map (·, rest')

/-- A word's bytes, lowest address first. -/
def wordBytes (w : Word) : List Byte :=
  [w.extractLsb' 0 8, w.extractLsb' 8 8, w.extractLsb' 16 8, w.extractLsb' 24 8]

/-- The instruction in `Except` form as an option. -/
def okOf : Except Reject Instr → Option Instr
  | .ok i => some i
  | .error _ => none

/-- The decoder's answer for the table's words. The table holds two instruction sets whose words overlap (13 R334): a
word of 32 bits with G = 0b0000 or 0b0111 is read as SIMT first, any other word as a traversal word first, and each falls
back to the other set (DESIGN CHOICE, log 8: a reading aid of this function only; `decodeSimt` and `decodeTrav` are
what the machine uses). -/
noncomputable def decodeTableWord (nbits w : Nat) : Option Instr :=
  let w0 := BitVec.ofNat 32 w
  let w1 := BitVec.ofNat 32 (w / 2 ^ 32)
  let simt := if nbits ≤ 32 ∧ simtLen w0 = 8 then none else okOf (decodeSimt w0 w1)
  let trav := if nbits ≤ 32 then okOf (decodeTrav w0) else none
  let g := (fld w0 28 4).toNat
  if g = 0 ∨ g = 7 then simt.orElse fun _ => trav else trav.orElse fun _ => simt

/-- R format word. -/
def R3.enc (f : R3) (maj : BitVec 6) (fn : BitVec 3) : Word := f.g ++ maj ++ f.d ++ f.a ++ f.b ++ f.x ++ fn
def R2.enc (f : R2) (maj : BitVec 6) (fn : BitVec 3) : Word := f.g ++ maj ++ f.d ++ f.a ++ 0#7 ++ fn
def RB.enc (f : RB) (maj : BitVec 6) (fn : BitVec 3) : Word := f.g ++ maj ++ f.d ++ 0#6 ++ f.b ++ f.x ++ fn
def RP.enc (f : RP) (maj : BitVec 6) (fn : BitVec 3) : Word := f.g ++ maj ++ f.d ++ f.a ++ f.b ++ 0#1 ++ fn
/-- RI format word. -/
def RI.enc (f : RI) (maj : BitVec 6) : Word := f.g ++ maj ++ f.d ++ f.a ++ f.i
/-- SHI word; `form` is IMM10[9:8]. -/
def RS.enc (f : RS) (form : BitVec 2) : Word := f.g ++ 0x09#6 ++ f.d ++ f.a ++ form ++ 0#3 ++ f.n
/-- RU format word. -/
def RU.enc (f : RU) (maj : BitVec 6) : Word := f.g ++ maj ++ f.d ++ f.i
/-- Long M word0. -/
def MemF.enc0 (m : MemF) (maj : BitVec 6) : Word := m.g ++ maj ++ m.d ++ m.a ++ m.b ++ m.x ++ m.sz
/-- Long M word1. -/
def MemF.enc1 (m : MemF) (fn : BitVec 3) : Word := m.off ++ m.space ++ m.ord ++ m.scope ++ m.cp ++ m.wt ++ fn
/-- MMA word0. -/
def MmaF.enc0 (f : MmaF) : Word := f.g ++ 0x38#6 ++ f.d ++ f.a ++ f.b ++ 0#4
/-- MMA word1. -/
def MmaF.enc1 (f : MmaF) (fn : BitVec 3) : Word :=
  f.csrc ++ f.ct ++ f.sc ++ f.mt ++ f.etype ++ f.spn ++ f.team ++ 0#5 ++ fn
/-- TRQ word0. -/
def TrqF.enc0 (f : TrqF) : Word := f.g ++ 0x3B#6 ++ f.d ++ f.a ++ f.sp ++ 0#4
/-- TRQ word1. -/
def TrqF.enc1 (f : TrqF) : Word :=
  f.kid ++ f.struct ++ f.mig ++ f.ord ++ f.mode ++ f.tgt ++ f.nres ++ f.spsh ++ f.note ++ 0#1 ++ 0#3

/-- The words of an instruction, first word first, from the encoding tables of the spec (02 Table 02-2, 03, 08 to 14);
a device step has none. -/
def encode : Instr → List Word
  | .iadd f => [f.enc 0x01 0]
  | .isub f => [f.enc 0x01 1]
  | .imul f => [f.enc 0x01 2]
  | .imulhs f => [f.enc 0x01 3]
  | .imulhn f => [f.enc 0x01 4]
  | .imins f => [f.enc 0x01 5]
  | .imaxs f => [f.enc 0x01 6]
  | .iminn f => [f.enc 0x01 7]
  | .imaxn f => [f.enc 0x02 0]
  | .iabsd f => [f.enc 0x02 1]
  | .iaddss f => [f.enc 0x02 2]
  | .iaddsn f => [f.enc 0x02 3]
  | .isubss f => [f.enc 0x02 4]
  | .isubsn f => [f.enc 0x02 5]
  | .imac f => [f.enc 0x02 6]
  | .imach f => [f.enc 0x02 7]
  | .and f => [f.enc 0x03 0]
  | .or f => [f.enc 0x03 1]
  | .xor f => [f.enc 0x03 2]
  | .andn f => [f.enc 0x03 3]
  | .orn f => [f.enc 0x03 4]
  | .xnor f => [f.enc 0x03 5]
  | .shl f => [f.enc 0x03 6]
  | .shr f => [f.enc 0x03 7]
  | .sra f => [f.enc 0x04 0]
  | .rol f => [f.enc 0x04 1]
  | .ror f => [f.enc 0x04 2]
  | .bfx f => [f.enc 0x04 3]
  | .bfi f => [f.enc 0x04 4]
  | .clz f => [f.enc 0x04 5]
  | .popc f => [f.enc 0x04 6]
  | .brev f => [f.enc 0x04 7]
  | .iaddi f => [f.enc 0x05]
  | .andi f => [f.enc 0x06]
  | .ori f => [f.enc 0x07]
  | .xori f => [f.enc 0x08]
  | .shli f => [f.enc 0]
  | .shri f => [f.enc 1]
  | .srai f => [f.enc 2]
  | .rori f => [f.enc 3]
  | .movi f => [f.enc 0x0A]
  | .movhi f => [f.enc 0x0B]
  | .smovi f => [f.enc 0x0C]
  | .smovhi f => [f.enc 0x0D]
  | .sadd f => [f.enc 0x0E 0]
  | .ssub f => [f.enc 0x0E 1]
  | .smul f => [f.enc 0x0E 2]
  | .sand f => [f.enc 0x0E 3]
  | .sor f => [f.enc 0x0E 4]
  | .sxor f => [f.enc 0x0E 5]
  | .sshl f => [f.enc 0x0E 6]
  | .sshr f => [f.enc 0x0E 7]
  | .ssra f => [f.enc 0x0F 0]
  | .smins f => [f.enc 0x0F 1]
  | .smaxs f => [f.enc 0x0F 2]
  | .sminn f => [f.enc 0x0F 3]
  | .smaxn f => [f.enc 0x0F 4]
  | .sclz f => [f.enc 0x0F 5]
  | .spopc f => [f.enc 0x0F 6]
  | .smov f => [f.enc 0x0F 7]
  | .mov f => [f.enc 0x10 0]
  | .vbcast f => [f.enc 0x10 1]
  | .vextr f => [f.enc 0x10 2]
  | .vinsr f => [f.enc 0x10 3]
  | .movx f => [f.enc 0x10 4]
  | .sel g d a b x p => [g ++ 0x11#6 ++ d ++ a ++ b ++ x ++ p]
  | .srd g d r => [g ++ 0x12#6 ++ d ++ 0#4 ++ r]
  | .swr g d r => [g ++ 0x13#6 ++ d ++ 0#4 ++ r]
  | .fadd f => [f.enc 0x14 0]
  | .fsub f => [f.enc 0x14 1]
  | .fmul f => [f.enc 0x14 2]
  | .fmin f => [f.enc 0x14 3]
  | .fmax f => [f.enc 0x14 4]
  | .fcpsgn f => [f.enc 0x14 5]
  | .ffma f => [f.enc 0x14 6]
  | .ffms f => [f.enc 0x14 7]
  | .fabs f => [f.enc 0x15 0]
  | .fneg f => [f.enc 0x15 1]
  | .frcp f => [f.enc 0x15 2]
  | .frsq f => [f.enc 0x15 3]
  | .fsqrt f => [f.enc 0x15 4]
  | .fexp2 f => [f.enc 0x15 5]
  | .flog2 f => [f.enc 0x15 6]
  | .fsinpi f => [f.enc 0x15 7]
  | .fcospi f => [f.enc 0x16 0]
  | .ftanh f => [f.enc 0x16 1]
  | .ffract f => [f.enc 0x16 2]
  | .frnd f => [f.enc 0x16 3]
  | .fclass f => [f.enc 0x16 4]
  | .fdiv f => [f.enc 0x16 5]
  | .fldexp f => [f.enc 0x16 6]
  | .fsat f => [f.enc 0x16 7]
  | .hadd2 f => [f.enc 0x17 0]
  | .hmul2 f => [f.enc 0x17 1]
  | .hfma2 f => [f.enc 0x17 2]
  | .hmin2 f => [f.enc 0x17 3]
  | .hmax2 f => [f.enc 0x17 4]
  | .badd2 f => [f.enc 0x17 5]
  | .bmul2 f => [f.enc 0x17 6]
  | .bfma2 f => [f.enc 0x17 7]
  | .cvtf g d a s t u r => [g ++ 0x18#6 ++ d ++ a ++ s ++ t ++ u ++ r]
  | .cvti g d a v i f h r => [g ++ 0x19#6 ++ d ++ a ++ v ++ i ++ f ++ h ++ r]
  | .prmt f => [f.enc 0x1A 0]
  | .pk2h f => [f.enc 0x1A 1]
  | .pk2b f => [f.enc 0x1A 2]
  | .upk2h f => [f.enc 0x1A 3]
  | .upk2b f => [f.enc 0x1A 4]
  | .pk4q g d a r s f => [g ++ 0x1A#6 ++ d ++ a ++ r ++ s ++ f ++ 5#4]
  | .upk4q g d a f => [g ++ 0x1A#6 ++ d ++ a ++ 0#4 ++ f ++ 6#4]
  | .icmp g p c a b x k => [g ++ 0x1B#6 ++ p ++ c ++ a ++ b ++ x ++ k]
  | .fcmp g p c a b x k => [g ++ 0x1C#6 ++ p ++ c ++ a ++ b ++ x ++ k]
  | .pand f => [f.enc 0x1D 0]
  | .por f => [f.enc 0x1D 1]
  | .pxor f => [f.enc 0x1D 2]
  | .pnot f => [f.enc 0x1D 3]
  | .pmov f => [f.enc 0x1D 4]
  | .ptos f => [f.enc 0x1D 5]
  | .pfroms f => [f.enc 0x1D 6]
  | .vany g d a h => [g ++ 0x1E#6 ++ d ++ a ++ 0#5 ++ h ++ 0#4]
  | .vall g d a h => [g ++ 0x1E#6 ++ d ++ a ++ 0#5 ++ h ++ 1#4]
  | .ballot g d a h => [g ++ 0x1E#6 ++ d ++ a ++ 0#5 ++ h ++ 2#4]
  | .gwid g d h => [g ++ 0x1E#6 ++ d ++ 0#11 ++ h ++ 3#4]
  | .gred g d a o h => [g ++ 0x1E#6 ++ d ++ a ++ 0#1 ++ o ++ h ++ 4#4]
  | .gmatch g d a h => [g ++ 0x1E#6 ++ d ++ a ++ 0#5 ++ h ++ 5#4]
  | .gelect g d h => [g ++ 0x1E#6 ++ d ++ 0#11 ++ h ++ 6#4]
  | .wsync g => [g ++ 0x1E#6 ++ 7#22]
  | .shfli f => [f.enc 0x1F 0]
  | .shflu f => [f.enc 0x1F 1]
  | .shfld f => [f.enc 0x1F 2]
  | .shflx f => [f.enc 0x1F 3]
  | .segsc f => [f.enc 0x1F 4]
  | .segscf f => [f.enc 0x1F 5]
  | .gbcst g d a w => [g ++ 0x1F#6 ++ d ++ a ++ 0#5 ++ w ++ 6#4]
  | .bra g o => [g ++ 0x20#6 ++ o]
  | .call g o => [g ++ 0x21#6 ++ o]
  | .rcvp g o => [g ++ 0x22#6 ++ o]
  | .jmpx g a => [g ++ 0x23#6 ++ 0#6 ++ a ++ 0#10]
  | .callx f => [f.enc 0x23 1]
  | .ret g a => [g ++ 0x23#6 ++ 0#6 ++ a ++ 2#10]
  | .callq g a b x => [g ++ 0x23#6 ++ 0#6 ++ a ++ b ++ x ++ 3#3]
  | .retq g => [g ++ 0x23#6 ++ 4#22]
  | .exit g => [g ++ 0x23#6 ++ 5#22]
  | .yield g => [g ++ 0x23#6 ++ 6#22]
  | .nop g => [g ++ 0x24#6 ++ 0#22]
  | .rpt g l d s t c => [g ++ 0x25#6 ++ l ++ d ++ s ++ t ++ 0#2 ++ c ++ 0#5]
  | .qwr f => [f.enc 0x26 0]
  | .qrd f => [f.enc 0x26 1]
  | .qtry f => [f.enc 0x26 2]
  | .qcnt f => [f.enc 0x26 3]
  | .bararv g i => [g ++ 0x27#6 ++ i ++ 0#14]
  | .barsyn g i => [g ++ 0x27#6 ++ i ++ 1#14]
  | .barinit g i a => [g ++ 0x27#6 ++ i ++ a ++ 2#8]
  | .barwt g i => [g ++ 0x27#6 ++ i ++ 3#14]
  | .barqry g i a => [g ++ 0x27#6 ++ i ++ a ++ 4#8]
  | .tbarsyn g i => [g ++ 0x27#6 ++ i ++ 5#14]
  | .tbarinit g i a => [g ++ 0x27#6 ++ i ++ a ++ 6#8]
  | .ose f => [f.enc 0x28 0]
  | .osen f => [f.enc 0x28 1]
  | .osx g a => [g ++ 0x28#6 ++ 0#6 ++ a ++ 2#10]
  | .osini g a b x => [g ++ 0x28#6 ++ 0#6 ++ a ++ b ++ x ++ 3#3]
  | .osfree g a => [g ++ 0x28#6 ++ 0#6 ++ a ++ 4#10]
  | .osqry f => [f.enc 0x28 5]
  | .ostk f => [f.enc 0x28 6]
  | .dqpsh f => [f.enc 0x29 0]
  | .dqpop g d => [g ++ 0x29#6 ++ d ++ 1#16]
  | .dqspl f => [f.enc 0x29 2]
  | .dqstl f => [f.enc 0x29 3]
  | .dqcnt g d => [g ++ 0x29#6 ++ d ++ 4#16]
  | .dqclr g => [g ++ 0x29#6 ++ 5#22]
  | .send g r a b x => [g ++ 0x2A#6 ++ 0#5 ++ r ++ a ++ b ++ x ++ 0#3]
  | .sendh g r a b x => [g ++ 0x2A#6 ++ 0#5 ++ r ++ a ++ b ++ x ++ 1#3]
  | .waitm g n b x => [g ++ 0x2A#6 ++ 0#11 ++ n ++ b ++ x ++ 2#3]
  | .recvm g d n b x => [g ++ 0x2A#6 ++ d ++ 0#5 ++ n ++ b ++ x ++ 3#3]
  | .mcnt g d n b x => [g ++ 0x2A#6 ++ d ++ 0#5 ++ n ++ b ++ x ++ 4#3]
  | .hret g => [g ++ 0x2A#6 ++ 5#22]
  | .svreq g a b x => [g ++ 0x2A#6 ++ 0#6 ++ a ++ b ++ x ++ 6#3]
  | .waitc g c b x => [g ++ 0x2B#6 ++ 0#3 ++ c ++ 0#6 ++ b ++ x ++ 0#3]
  | .fence g o s => [g ++ 0x2B#6 ++ 0#3 ++ o ++ 0#3 ++ s ++ 1#10]
  | .ifence g => [g ++ 0x2B#6 ++ 2#22]
  | .trap g n => [g ++ 0x2C#6 ++ n ++ 0#16]
  | .brk g n => [g ++ 0x2C#6 ++ n ++ 1#16]
  | .tret g => [g ++ 0x2C#6 ++ 2#22]
  | .eret g => [g ++ 0x2C#6 ++ 3#22]
  | .mramp g b x => [g ++ 0x2C#6 ++ 0#12 ++ b ++ x ++ 4#3]
  | .haltg g => [g ++ 0x2C#6 ++ 5#22]
  | .plarm f => [f.enc 0x2D 0]
  | .plbit f => [f.enc 0x2D 1]
  | .plcom f => [f.enc 0x2D 2]
  | .plqry f => [f.enc 0x2D 3]
  | .pldis f => [f.enc 0x2D 4]
  | .ld m => [m.enc0 0x30, m.enc1 0]
  | .st m => [m.enc0 0x31, m.enc1 0]
  | .sld m => [m.enc0 0x32, m.enc1 0]
  | .sst m => [m.enc0 0x32, m.enc1 1]
  | .aadd m => [m.enc0 0x33, m.enc1 0]
  | .amins m => [m.enc0 0x33, m.enc1 1]
  | .amaxs m => [m.enc0 0x33, m.enc1 2]
  | .aminn m => [m.enc0 0x33, m.enc1 3]
  | .amaxn m => [m.enc0 0x33, m.enc1 4]
  | .aand m => [m.enc0 0x33, m.enc1 5]
  | .aor m => [m.enc0 0x33, m.enc1 6]
  | .axor m => [m.enc0 0x33, m.enc1 7]
  | .axchg m => [m.enc0 0x34, m.enc1 0]
  | .acas m => [m.enc0 0x34, m.enc1 1]
  | .afadd m => [m.enc0 0x34, m.enc1 2]
  | .afmin m => [m.enc0 0x34, m.enc1 3]
  | .afmax m => [m.enc0 0x34, m.enc1 4]
  | .ahadd2 m => [m.enc0 0x34, m.enc1 5]
  | .ldr m => [m.enc0 0x34, m.enc1 6]
  | .stc m => [m.enc0 0x34, m.enc1 7]
  | .pref m => [m.enc0 0x35, m.enc1 0]
  | .linv m => [m.enc0 0x35, m.enc1 1]
  | .lwb m => [m.enc0 0x35, m.enc1 2]
  | .lcln m => [m.enc0 0x35, m.enc1 3]
  | .icinv m => [m.enc0 0x35, m.enc1 4]
  | .pclr m => [m.enc0 0x35, m.enc1 5]
  | .femt m => [m.enc0 0x35, m.enc1 6]
  | .fful m => [m.enc0 0x35, m.enc1 7]
  | .tcopy g ds ts rel eng => [g ++ 0x36#6 ++ ds ++ ts ++ 0#6 ++ 0#4, 0#16 ++ rel ++ 0#8 ++ eng ++ 0#2 ++ 0#3]
  | .stbind g d a space port => [g ++ 0x37#6 ++ d ++ a ++ 0#6 ++ 0#4, 0#16 ++ space ++ 0#6 ++ port ++ 0#2 ++ 0#3]
  | .stunb g port => [g ++ 0x37#6 ++ 0#6 ++ 0#6 ++ 0#6 ++ 0#4, 0#16 ++ 0#3 ++ 0#6 ++ port ++ 0#2 ++ 1#3]
  | .ststat g d port => [g ++ 0x37#6 ++ d ++ 0#6 ++ 0#6 ++ 0#4, 0#16 ++ 0#3 ++ 0#6 ++ port ++ 0#2 ++ 2#3]
  | .mma f => [f.enc0, f.enc1 0]
  | .mmas f => [f.enc0, f.enc1 1]
  | .malloc g d a => [g ++ 0x39#6 ++ d ++ a ++ 0#6 ++ 0#4, 0#29 ++ 0#3]
  | .mfree g a => [g ++ 0x39#6 ++ 0#6 ++ a ++ 0#6 ++ 0#4, 0#29 ++ 1#3]
  | .mzero g t => [g ++ 0x39#6 ++ 0#6 ++ 0#6 ++ t ++ 0#4, 0#29 ++ 2#3]
  | .mld g a t off => [g ++ 0x39#6 ++ 0#6 ++ a ++ t ++ 0#4, off ++ 0#13 ++ 3#3]
  | .mst g a t off => [g ++ 0x39#6 ++ 0#6 ++ a ++ t ++ 0#4, off ++ 0#13 ++ 4#3]
  | .mrdv g d t part => [g ++ 0x39#6 ++ d ++ 0#6 ++ t ++ 0#4, 0#19 ++ part ++ 0#8 ++ 5#3]
  | .mwrv g d t part => [g ++ 0x39#6 ++ d ++ 0#6 ++ t ++ 0#4, 0#19 ++ part ++ 0#8 ++ 6#3]
  | .mcvts g d t part fmt rsel sat => [g ++ 0x39#6 ++ d ++ 0#6 ++ t ++ 0#4, 0#19 ++ part ++ fmt ++ rsel ++ sat ++ 0#2 ++ 7#3]
  | .mreq g d a b csrc sc ks etype cs => [g ++ 0x3A#6 ++ d ++ a ++ b ++ 0#4, csrc ++ 0#4 ++ sc ++ ks ++ 0#1 ++ etype ++ 0#2 ++ cs ++ 0#1 ++ 0#3]
  | .trq f => [f.enc0, f.enc1]
  | .trpoll g d => [g ++ 0x3C#6 ++ d ++ 0#6 ++ 0#6 ++ 0#4, 0#29 ++ 0#3]
  | .trkill g sc => [g ++ 0x3C#6 ++ 0#6 ++ 0#6 ++ 0#6 ++ 0#4, 0#28 ++ sc ++ 1#3]
  | .trpin g d a => [g ++ 0x3C#6 ++ d ++ a ++ 0#6 ++ 0#4, 0#29 ++ 2#3]
  | .trunp g a => [g ++ 0x3C#6 ++ 0#6 ++ a ++ 0#6 ++ 0#4, 0#29 ++ 3#3]
  | .trpub g d a b inv => [g ++ 0x3C#6 ++ d ++ a ++ b ++ 0#4, 0#28 ++ inv ++ 4#3]
  | .trload g d a b c => [g ++ 0x3C#6 ++ d ++ a ++ b ++ 0#4, 0#19 ++ c ++ 0#5 ++ 5#3]
  | .lqpsh g d qs rs rel => [g ++ 0x3D#6 ++ d ++ qs ++ rs ++ 0#4, 0#16 ++ rel ++ 0#12 ++ 0#3]
  | .lqstat g d qs => [g ++ 0x3D#6 ++ d ++ qs ++ 0#6 ++ 0#4, 0#29 ++ 1#3]
  | .tNfch a => [0x01#6 ++ 0#5 ++ a ++ 0#16]
  | .tNdec d b w => [0x02#6 ++ d ++ 0#5 ++ b ++ 0#6 ++ w]
  | .tNdecX f => [0x02#6 ++ f.d ++ f.a ++ f.b ++ 32#11]
  | .tNqbx d j => [0x03#6 ++ d ++ 0#18 ++ j]
  | .tBox8 d a => [0x04#6 ++ d ++ a ++ 0#16]
  | .tSbox8 d a => [0x05#6 ++ d ++ a ++ 0#16]
  | .tTri d a b j => [0x06#6 ++ d ++ a ++ b ++ 0#9 ++ j]
  | .tSphd d a j => [0x07#6 ++ d ++ a ++ 0#14 ++ j]
  | .tKcmp8 d a t => [0x08#6 ++ d ++ a ++ 0#14 ++ t]
  | .tVdist f => [0x09#6 ++ f.d ++ f.a ++ f.b ++ 0#11]
  | .tPushm b => [0x0A#6 ++ 0#10 ++ b ++ 0#11]
  | .tPushmE a b => [0x0A#6 ++ 0#5 ++ a ++ b ++ 1#11]
  | .tPop d => [0x0B#6 ++ d ++ 0#21]
  | .tStkq d f => [0x0C#6 ++ d ++ 0#19 ++ f]
  | .tBrc c i => [0x0D#6 ++ c ++ 0#10 ++ i]
  | .tJmp d a => [0x0E#6 ++ d ++ a ++ 0#16]
  | .tEnd => [0x0F#6 ++ 0#26]
  | .tEmit a b n => [0x10#6 ++ 0#5 ++ a ++ b ++ 0#8 ++ n]
  | .tMigr a => [0x11#6 ++ 0#5 ++ a ++ 0#16]
  | .tYld => [0x12#6 ++ 0#26]
  | .tAdd f => [0x13#6 ++ f.d ++ f.a ++ f.b ++ 0#11]
  | .tAddImm f => [0x13#6 ++ f.d ++ f.a ++ 1#6 ++ f.i]
  | .tSub f => [0x14#6 ++ f.d ++ f.a ++ f.b ++ 0#11]
  | .tSubImm f => [0x14#6 ++ f.d ++ f.a ++ 1#6 ++ f.i]
  | .tMul f => [0x15#6 ++ f.d ++ f.a ++ f.b ++ 0#11]
  | .tMulImm f => [0x15#6 ++ f.d ++ f.a ++ 1#6 ++ f.i]
  | .tAnd f => [0x16#6 ++ f.d ++ f.a ++ f.b ++ 0#11]
  | .tAndImm f => [0x16#6 ++ f.d ++ f.a ++ 1#6 ++ f.i]
  | .tOr f => [0x17#6 ++ f.d ++ f.a ++ f.b ++ 0#11]
  | .tOrImm f => [0x17#6 ++ f.d ++ f.a ++ 1#6 ++ f.i]
  | .tXor f => [0x18#6 ++ f.d ++ f.a ++ f.b ++ 0#11]
  | .tXorImm f => [0x18#6 ++ f.d ++ f.a ++ 1#6 ++ f.i]
  | .tShl f => [0x19#6 ++ f.d ++ f.a ++ f.b ++ 0#11]
  | .tShlImm f => [0x19#6 ++ f.d ++ f.a ++ 1#6 ++ f.i]
  | .tShr f => [0x1A#6 ++ f.d ++ f.a ++ f.b ++ 0#11]
  | .tShrImm f => [0x1A#6 ++ f.d ++ f.a ++ 1#6 ++ f.i]
  | .tMin f => [0x1B#6 ++ f.d ++ f.a ++ f.b ++ 0#11]
  | .tMinImm f => [0x1B#6 ++ f.d ++ f.a ++ 1#6 ++ f.i]
  | .tMax f => [0x1C#6 ++ f.d ++ f.a ++ f.b ++ 0#11]
  | .tMaxImm f => [0x1C#6 ++ f.d ++ f.a ++ 1#6 ++ f.i]
  | .tFadd f => [0x1D#6 ++ f.d ++ f.a ++ f.b ++ 0#11]
  | .tFsub f => [0x1E#6 ++ f.d ++ f.a ++ f.b ++ 0#11]
  | .tFmul f => [0x1F#6 ++ f.d ++ f.a ++ f.b ++ 0#11]
  | .tFmin f => [0x20#6 ++ f.d ++ f.a ++ f.b ++ 0#11]
  | .tFmax f => [0x21#6 ++ f.d ++ f.a ++ f.b ++ 0#11]
  | .tFcmp a b => [0x22#6 ++ 0#5 ++ a ++ b ++ 0#11]
  | .tMovi d i => [0x23#6 ++ d ++ 0#5 ++ i]
  | .tMoviHi d i => [0x23#6 ++ d ++ 1#5 ++ i]
  | .tSel d a b c => [0x24#6 ++ d ++ a ++ b ++ 0#6 ++ c]
  | .evLoadDataReturn _ => []
  | .evStoreAcknowledge _ => []
  | .evUnitAnswerArrival _ => []
  | .evParkReevaluation _ _ => []
  | .evHoldVisitLimit _ _ => []
  | .evFairnessSwitch _ _ => []
  | .evSlotRelease _ _ => []
  | .evRetirementCounted _ _ => []
  | .evTeamBarrierArrival _ => []
  | .evMessageArrival _ => []
  | .evMessageRetry _ => []
  | .evHandlerQueueArrival _ => []
  | .evHandlerStart _ => []
  | .evHandlerRunLimit _ _ => []
  | .evLwinAccessAtHome _ => []
  | .evServiceRequestRetry _ => []
  | .evTextureRequest _ => []
  | .evRasterRequest _ => []
  | .evBlockExpansionComplete _ => []
  | .evPoolWaitTimeout _ _ => []
  | .evGlobalRequestAtHome _ => []
  | .evAtomicReserve _ => []
  | .evAtomicGrant _ => []
  | .evAtomicUnitRelease _ => []
  | .evSystemAtomicopCompletion _ _ => []
  | .evCopyRequestArrival _ => []
  | .evCopyRequestRetry _ => []
  | .evCopyRequestStart _ => []
  | .evCopyRequestEnd _ _ => []
  | .evCopyPoolTimeout _ _ => []
  | .evStreamRefill _ _ _ => []
  | .evStreamBufferReturn _ => []
  | .evOsecRequestAtHome _ => []
  | .evSectionOverrun _ _ => []
  | .evHang _ => []
  | .evLaunchRecordSubmit _ _ => []
  | .evRecordAdmission _ => []
  | .evDependencyPoll _ => []
  | .evLevelAging _ => []
  | .evTeamPlacement _ _ => []
  | .evDrainDelayExpiry _ _ => []
  | .evGridCompletion _ => []
  | .evPreemptionRequest _ _ => []
  | .evGroupSave _ => []
  | .evGroupResume _ => []
  | .evRepackTimeout _ _ => []
  | .evRepackWarpStart _ => []
  | .evStealArrival _ => []
  | .evMatrixCommandStart _ => []
  | .evMatrixStepEnd _ => []
  | .evMatrixCommandEnd _ => []
  | .evFillerEnd _ => []
  | .evRampHoldEnd _ => []
  | .evRemoteMmaArrival _ => []
  | .evTeamFragmentArrival _ => []
  | .evThreadSlotFill _ => []
  | .evNodeFetchComplete _ _ => []
  | .evVectorReadComplete _ _ => []
  | .evStackReloadComplete _ _ => []
  | .evEmitAcknowledge _ _ => []
  | .evInboundContextArrival _ => []
  | .evMigrationRetry _ => []
  | .evMigrationRefusalLimit _ => []
  | .evTraversalCompletion _ => []
  | .evKernelLoadRequest _ => []
  | .evTableRequest _ => []
  | .evPlarmReadComplete _ => []
  | .evPlbitReadComplete _ => []
  | .evPlcomArrival _ => []
  | .evPlanWriteComplete _ => []
  | .evDeadlineExpiry _ => []
  | .evEqresRetry _ => []
  | .evEqresDecline _ => []
  | .evXlinvAsid _ => []
  | .evXlinvPage _ _ => []
  | .evXlinvAll => []
  | .evHanglimWrite _ _ => []
  | .evSectlimWrite _ _ => []
  | .evMcapWrite _ _ _ _ => []
  | .evCycloRead _ _ _ => []
  | .evTimeloRead _ _ _ => []
  | .evSystemRegisterWrite _ _ => []
  | .evUcClusterExtent _ _ => []
  | .evUcRawRegion _ _ _ _ => []
  | .evUcPoolFail _ _ => []
  | .evUcLaunchQueue _ _ _ => []
  | .evLaunchQueueFlush _ => []
  | .evUcRangeDeque _ _ => []
  | .evUcStructure _ _ => []
  | .evUcPlanSlot _ _ => []
  | .evUcProgramMemory _ _ _ _ => []
  | .evAttach _ _ _ => []
  | .evHalt _ _ => []
  | .evResume _ _ => []
  | .evStep _ _ => []
  | .evStepStallLimit _ => []
  | .evRead _ _ _ _ => []
  | .evWrite _ _ _ _ => []
  | .evWatch _ _ _ _ _ => []
  | .evMem _ _ _ _ _ _ => []
  | .evClearReport _ => []
  | .evSensors => []
  | .evLog _ _ => []
  | .evStage _ _ => []
  | .evCommit => []
  | .evAttest _ => []
  | .evLogFlashWrite => []
  | .evShock _ _ => []
  | .evBar2Access _ _ _ => []
  | .evHostAtomicop _ => []
  | .evDropsWrite _ _ => []
  | .evPeerctlWrite _ => []
  | .evDeviceReset => []
  | .evPowerLoss => []
  | .evContextTeardown _ => []
  | .evLinkTraining _ _ _ => []
  | .evPeerRequestArrival _ => []
  | .evPeerAcknowledge _ => []
  | .evLaneRepair _ _ => []
  | .evLaneRetrainComplete _ => []
  | .evPeerLoss _ => []
  | .evThrottleStep _ => []
  | .evThermalShutdown => []
  | .evStackEntryReady _ _ _ => []
  | .evEqheadWrite _ => []
  | .evLinkFailure _ => []
  | .evPowerOn => []
  | .evFlashCommitComplete => []
  | .evIcinvCompletion _ => []
  | .evPlanRequestArrival _ => []

end Sys2Proof
end

