-- ==== Sys2Proof/Machine/State.lean ====
section
/-! DEFINITION. The state of the whole device as plain data: cores, slices, memories, units, messages and operations in
flight. Each structure cites the rules of spec/ that give its fields; default values are the values at reset or, where the
manual gives none, those of logs 5 to 7. -/

namespace Sys2Proof.Machine

/-- A sparse table: keys rising; a key not listed holds the table's default. -/
abbrev Tab (β : Type) := List (Nat × β)

/-- Sparse memory (log 5): addresses rising, no zero byte listed; an unlisted byte reads 0. -/
abbrev Memory := List Host.Cell

/-- The operations a slice can name as a fault (15 Table 15-6): the code, the value for TADDR, whether TPC is the next
instruction, whether the fault is per lane or deferred, and the faulting lanes of each slot. -/
structure FaultRec where
  code : Nat
  addr : Nat := 0
  /-- TRAP_INSTR: TPC names the next instruction (R407). -/
  next : Bool := false
  /-- TCAUSE.PART (R406 L). -/
  part : Bool := false
  /-- TCAUSE.DEFER, and the PC of the instruction that caused it (R407). -/
  defer : Option Addr := none
  /-- Faulting lanes of each slot. -/
  lanes : Tab Pred := []
deriving DecidableEq, Repr

/-- What a slice is parked on (01 R23, 15 R449). -/
inductive Park where
  /-- A named barrier of the core: physical number, the phase waited for to end, and whether its end lets the slice go on
  after its instruction (R251) rather than evaluate it again. -/
  | barrier (core id : Nat) (phase leave : Bool)
  /-- A team barrier of the cluster, likewise. -/
  | teamBarrier (cluster id : Nat) (phase leave : Bool)
  /-- Ordered-section entries: domain and keys, the lowest waiting lane's first. -/
  | osec (domain : Nat) (keys : List Nat)
  /-- A physical queue register of the core. -/
  | queue (core id : Nat)
  /-- Words of local memory, as keys of the memory, the lowest waiting lane's first. -/
  | fullEmpty (words : List Nat)
  /-- The core's mailbox: the TAG waited for, or none for ANY. -/
  | mailbox (core : Nat) (tag : Option Word)
  /-- A rendezvous of the home warp (R89). -/
  | rendezvous
  /-- The segment pool of a cluster (R174): the TIME at which the park began, the address of the lowest lane that waits for
  admission, and those lanes. -/
  | pool (cluster since addr : Nat) (lanes : Pred)
  /-- The core's miss entries (R184). -/
  | miss (core : Nat)
  /-- A REPLAY record (R405). -/
  | replay (idx : Nat)
  /-- An operation whose answer the slice waits for (an OSE on its way to its homes, ICINV, SWR of a device register). -/
  | answer (op : Nat)
deriving DecidableEq, Repr

/-- STATE of a path-table entry (04 Table 04-1). -/
inductive PathState where
  | free | run | join
deriving DecidableEq, Repr

/-- Path-table entry (04 Table 04-1). `born` orders creation for R84; `level` counts the trap handlers the path runs in
(R408: a handler runs on the current path only; DEDUCED, log 17). -/
structure Path where
  state : PathState := .free
  mask : Pred := 0
  pc : Addr := 0
  depth : BitVec 8 := 0
  rpc : Option Addr := none
  link : Option Nat := none
  decl : Option Addr := none
  out : Nat := 0
  born : Nat := 0
  level : Nat := 0
deriving DecidableEq, Repr

/-- An open hold (04 R87). -/
structure Hold where
  pc : Addr
  depth : BitVec 8
  set : Pred
  visits : Nat
deriving DecidableEq, Repr

/-- One set of trap registers (15 Table 15-3): TPC … TINFO, or EPC … EINFO. -/
structure TrapRegs where
  pc : Word := 0
  pcHi : Word := 0
  cause : Word := 0
  mask : Word := 0
  addr : Word := 0
  addrHi : Word := 0
  info : Word := 0
deriving DecidableEq, Repr

/-- Repeat frame (04 R107-R111): RPTSTATE's fields, the RPT's own fields and count, the captured words and the frame
gang. -/
structure Frame where
  act : Bool := false
  susp : Bool := false
  j : Nat := 0
  i : Nat := 0
  n : Nat := 0
  dst : Nat := 0
  ast : Nat := 0
  bst : Nat := 0
  body : List (Word × Word) := []
  gang : Nat := 0
  /-- Address of the RPT. -/
  pc : Addr := 0
deriving DecidableEq, Repr

/-- A counted instruction (07 R187-R188): its counter code, its operation, and whether it has completed; a slice lists
them in issue order. -/
structure Counted where
  code : Nat
  op : Nat
  done : Bool
deriving DecidableEq, Repr

/-- A register pending on an operation (01 R11). -/
structure Pending where
  /-- 0 a V register, 1 an S register, 2 a predicate (10 R259), 9 every register (an MLD or MST in progress, 12 R318). -/
  file : Nat
  idx : Nat
  op : Nat
  /-- It has been written in this cycle: the slice is ready in the next (R11). -/
  done : Bool := false
deriving DecidableEq, Repr

/-- A reservation of one lane (07 R198), listed in order of issue: granule key and the cycle of the LDR's issue. -/
structure Resv where
  lane : Nat
  granule : Nat
  cycle : Nat
  /-- The LDR's operation: the reservation counts once all of it is performed without poison. -/
  op : Nat := 0
  /-- None until the lane is performed; then whether it still holds, or has been broken (R200). -/
  held : Option Bool := none
deriving DecidableEq, Repr

/-- Life of a slice slot (04 R77). -/
inductive Phase where
  | empty | live | retired
deriving DecidableEq, Repr

/-- An acquire in progress (09 R236): its operation and whether the near cache is invalidated at its end. -/
structure Acquire where
  op : Nat
  invalidate : Bool
deriving DecidableEq, Repr

/-- A stream port N0 to N3 of a slice (08 R218-R225): the space and the 32 bytes of its pattern, the elements popped and
fetched, those on hand (oldest first), and the operation of its STBIND, in progress until the first element has come. -/
structure Port where
  bound : Bool := false
  space : Nat := 0
  pattern : List Byte := []
  popped : Nat := 0
  fetched : Nat := 0
  buf : List (List Word) := []
  op : Nat := 0
deriving DecidableEq, Repr

/-- A slice slot (04, 05 R115-R118, 15 R400). -/
structure Slice where
  phase : Phase := .empty
  asid : Nat := 0
  /-- Key of the group in State.groups; handlers and empty slots 0. -/
  group : Nat := 0
  warp : Nat := 0
  /-- SLICE, the index in the home warp. -/
  ix : Nat := 0
  width : Nat := 1
  repacked : Bool := false
  handler : Bool := false
  startCycle : Nat := 0
  /-- The handler's run limit has been reported (06 R165). -/
  limitTaken : Bool := false
  v : Tab Word := []
  s : Tab Word := []
  p : Tab Pred := []
  fpctl : Word := 0
  fpflags : Word := 0
  paths : List Path := []
  cur : Nat := 0
  fair : Nat := 0
  born : Nat := 0
  hold : Option Hold := none
  park : Option Park := none
  /-- The parked-on object has changed: the parked instruction is evaluated again at the next visit (R23). -/
  woken : Bool := false
  /-- The rendezvous that the current instruction needs has completed (R89). -/
  met : Bool := false
  trapvec : Word := 0
  t : TrapRegs := {}
  e : TrapRegs := {}
  system : Bool := false
  userEvent : Nat := 0
  sysEvent : Nat := 0
  frame : Frame := {}
  counted : List Counted := []
  pending : List Pending := []
  deferred : List FaultRec := []
  resv : List Resv := []
  ports : Tab Port := []
  cycleShadow : Option Word := none
  timeShadow : Option Word := none
  acquires : List Acquire := []
  halted : Bool := false
  killed : Bool := false
  /-- The trap in system mode that ended its group (15 R408 step 4), which a STEP reports (R417). -/
  fatal : Option TrapRegs := none
  /-- The retirement has been counted at the barriers (10 R252). -/
  retCounted : Bool := false
  /-- Cycle + 1 of the last visit in which the slice took part in a gang (R10: at most one issue a visit). -/
  stamp : Nat := 0
  /-- Grants whose overrun has been reported (10 R265): keys. -/
  overrun : List Nat := []
  /-- WATCHPOINT is suppressed for the instruction being stepped (15 R417). -/
  wskip : Bool := false
  /-- TIME at which the access at PC first parked on the cluster pool (06 R174, R176). -/
  poolSince : Option Nat := none
  /-- Order in which the instruction at PC first parked (06 R174, 07 R184). -/
  parkSeq : Option Nat := none
  /-- Cycles that the slice has spent saved, and the cycle of its save: they do not count as run (06 R165). -/
  pausedCycles : Nat := 0
  savedAt : Nat := 0
deriving DecidableEq, Repr

/-- A message (06 R157): its eight words and the context it carries. -/
structure Msg where
  asid : Nat
  words : List Word
deriving DecidableEq, Repr

/-- Named or team barrier (10 Table 10-1). `owner` is the group or team it is allotted to, `name` its number there;
`arrived` lists slice keys. -/
structure Barrier where
  owner : Nat := 0
  name : Nat := 0
  used : Bool := false
  expect : Nat := 0
  auto : Bool := true
  phase : Bool := false
  arrived : List Nat := []
deriving DecidableEq, Repr

/-- A queue register (05 R119-R120): owner group, its name Qn there, and the entries, oldest first. -/
structure QReg where
  used : Bool := false
  owner : Nat := 0
  name : Nat := 0
  entries : List (List Word) := []
deriving DecidableEq, Repr

/-- A near-cache line (07 R179-R181): physical line key, sectors held, age class. -/
structure NearLine where
  line : Nat
  sectors : List Nat
  evictFirst : Bool
deriving DecidableEq, Repr

/-- A translation held in a cache (15 R403): context, page base, page size in bits, the leaf entry's word. -/
structure TlbEntry where
  asid : Nat
  base : Nat
  bits : Nat
  leaf : Nat
  level : Nat
deriving DecidableEq, Repr

/-- A repack queue (11 R288): its key and records of eight words, oldest first, each with the cycle it came. -/
structure RepackQ where
  key : Option (Nat × Nat) := none
  records : List (List Word × Nat) := []
  /-- Its oldest record has waited TIMEOUT (R290). -/
  due : Bool := false
deriving DecidableEq, Repr

/-- A steal that has taken the only entry of a deque, of one item (11 R298): the thief's operation, slot and destination, whether it
is a ring steal, and BASE and TAG of the entry. -/
structure Lent where
  op : Nat
  slot : Nat
  d : Nat
  ring : Bool
  base : Nat
  tag : Nat
deriving DecidableEq, Repr

/-- The range deque (11 R294): owner and entries (BASE, COUNT, TAG), bottom (newest) first. -/
structure Deque where
  owner : Option Nat := none
  entries : List (Nat × Nat × Nat) := []
  /-- Until the cycle ends, a steal of it that a DQPOP or DQSPL would undo. -/
  lent : Option Lent := none
deriving DecidableEq, Repr

/-- An atomic form (07 Table 07-7). -/
inductive AtomForm where
  | add | mins | maxs | minn | maxn | and | or | xor | xchg | cas | fadd | fmin | fmax | hadd2
deriving DecidableEq, Repr

/-- What a request does at its home (07 R183, R191-R206; 06 R151, R154). -/
inductive AccForm where
  | load | ldr | store | atomic (f : AtomForm) | stc | pclr
  | linv (scope : Nat) | lwb | lcln | femt | fful
deriving DecidableEq, Repr

/-- One lane of a request: the slot and lane, the address in its space, the key of the first byte in memory, the nibble
select, the operand (the compare value, for ACAS) and the second operand. -/
structure LaneAcc where
  slot : Nat
  lane : Nat
  va : Nat
  pa : Nat
  hi : Bool := false
  val : Nat := 0
  val2 : Nat := 0
deriving DecidableEq, Repr

/-- A request of one instruction to one home: the form, the bytes per lane (SZ in bytes; 0 for a nibble), the lanes in
ascending order, the sectors a load fetches and those whose miss entries it holds, and the cache policy. -/
structure Acc where
  form : AccForm
  size : Nat
  lanes : List LaneAcc
  sectors : List Nat := []
  own : List Nat := []
  cp : Nat := 0
deriving DecidableEq, Repr

/-- Where an operation's results go. -/
inductive Dest where
  | none
  /-- V[d] of each lane and the registers after it, `n` words. -/
  | v (d n : Nat)
  /-- S[d] and the registers after it, `n` words. -/
  | s (d n : Nat)
deriving DecidableEq, Repr

/-- A register write an operation will make: slot, file (0 V, 1 S, 2 P bit), key (8 × register + lane; register), value. -/
structure RegWrite where
  slot : Nat
  file : Nat
  key : Nat
  val : Nat
deriving DecidableEq, Repr

/-- An operation on its way: the instruction that issued it, its members, what it still waits for and what it will
write (07 R187-R188, R194; log 2). -/
structure Op where
  id : Nat
  core : Nat
  asid : Nat
  pc : Addr
  /-- Member slots with an active lane, ascending. -/
  members : List Nat
  /-- Counter code (07 Table 07-5), none for an instruction that counts nowhere. -/
  code : Option Nat := none
  dest : Dest := .none
  /-- Requests not yet performed or answered. -/
  left : Nat := 0
  writes : List RegWrite := []
  /-- Debug WRITEs of registers pending on it, made after its own (15 R415). -/
  late : List RegWrite := []
  /-- Lanes that met poison: (slot, lane, address). -/
  poisoned : List (Nat × Nat × Nat) := []
  /-- A deferred fault the members take when the operation ends (R153, R197, R323): code and address. -/
  fault : Option (Nat × Nat) := none
  /-- Per-lane faults (OSX, OSTK, OSINI): (slot, lane, code, value). -/
  laneFaults : List (Nat × Nat × Nat × Nat) := []
  /-- An atomic or STC: poison is per lane (R203). -/
  perLane : Bool := false
  /-- Near-cache sectors being fetched and still fit to be shared (R184) or kept (R181), and whether to fill. -/
  fresh : List Nat := []
  fill : Bool := false
  evictFirst : Bool := false
  /-- Data of the sectors fetched. -/
  data : Memory := []
  /-- Miss entries held (R184). -/
  entries : Nat := 0
  /-- A plain load other than BYP: its fetches may be shared (R184). -/
  share : Bool := false
  /-- The members are parked on the answer, and the instruction's length for the advance when it comes. -/
  await : Nat := 0
  /-- What the operation is: 1 OSE, 2 OSEN, 3 OSX, 4 OSINI, 5 OSTK (10 R260-R263), 9 STUNB (08 R224), 0 any other; the grants
  of an OSE as (slot, lane, key), and its keys. -/
  osec : Nat := 0
  granted : List (Nat × Nat × Nat) := []
  keys : List Nat := []
  /-- Slot and key of each lane of an OSEC form, by LANE (15 R449). -/
  laneKeys : List (Nat × Nat) := []
  pd : Nat := 0
  /-- A store with a PEER or SYSTEM page among its lanes (09 Table 09-3). -/
  far : Bool := false
  /-- An OSE whose entries have changed since it left the core (10 R260). -/
  dirty : Bool := false
  /-- Active lanes: (slot, lane), by LANE. -/
  lanes : List (Nat × Nat) := []
  /-- Members whose slots have been released since (04 R77). -/
  gone : List Nat := []
  /-- Its members' group is saved; the operation ends when the group resumes (15 R412), at once if it has ended meanwhile. -/
  away : Bool := false
  ended : Bool := false
deriving DecidableEq, Repr

/-- Who waits on a REPLAY record or the pool beside a slice (15 R405). -/
inductive Waiter where
  | slice (core slot : Nat)
  | thread (core thread : Nat)
  | copy (engine seq : Nat)
  /-- A kernel load or a read of the deadline commit unit (13 R367, 14 R388-R389). -/
  | flight (id : Nat)
deriving DecidableEq, Repr

/-- A REPLAY record awaiting resolution: its index, who waits, and the fault a decline gives (code, address). -/
structure Replay where
  idx : Nat
  who : Waiter
  asid : Nat
  code : Nat
  addr : Nat
  /-- Failing lanes of each slot. -/
  lanes : Tab Pred := []
  /-- It was declined while its slices were saved; they take the fault when they resume (Table 15-8). -/
  declined : Bool := false
deriving DecidableEq, Repr

/-- What a copy request waits for (08 R215). -/
inductive CopyWait where
  | none
  | replay (idx : Nat)
  | pool (since : Nat)
deriving DecidableEq, Repr

/-- Why a copy ends other than OK: status of 08 Table 08-4, element, address and its space. -/
structure CopyErr where
  status : Nat
  elem : Nat
  addr : Nat
  space : Nat
deriving DecidableEq, Repr

/-- A copy request (08 R209-R217): its issuer, descriptor bytes and TAG, and the run that LOCAL names. -/
structure CopyReq where
  seq : Nat
  op : Nat
  core : Nat
  slot : Nat
  asid : Nat
  tag : Word
  desc : List Byte
  handler : Bool
  base : Nat
  len : Nat
  wait : CopyWait := .none
  /-- The failing access while it waits on a REPLAY record, for a decline. -/
  asked : Option CopyErr := none
  /-- PLAIN: the first element after the burst under way, and the burst's elements still to do, that under way first (R207).
  EXPAND: elements done; COMPRESS: blocks done. -/
  next : Nat := 0
  todo : List Nat := []
  /-- Segments of the image so far. -/
  segs : Nat := 0
  /-- The first poisoned element (08 R216), and what stopped the request. -/
  poison : Option CopyErr := none
  stop : Option CopyErr := none
  /-- Every element is done, or the request is stopped. -/
  ended : Bool := false
deriving DecidableEq, Repr

/-- A copy engine (08 R207-R208). -/
structure Engine where
  queue : List CopyReq := []
  active : List CopyReq := []
  refused : List Nat := []
  /-- The request that took the last step and is within a burst. -/
  burst : Option Nat := none
deriving DecidableEq, Repr

/-- Clean bytes that a copy request has written so far to a sector that is poisoned or has an error, as a mask (07 R204, 08 R216). -/
structure CleanMask where
  engine : Nat
  seq : Nat
  sector : Nat
  mask : Nat
deriving DecidableEq, Repr

/-- Kinds of matrix command (12 R303). -/
inductive MKind where
  /-- MMA, MMAS or remote MMA. -/
  | mma
  /-- The zeroing of MALLOC or MZERO: physical tiles, ascending. -/
  | zero (tiles : List Nat)
  | mld (addr : Nat)
  | mst (addr : Nat)
  | mrdv (d part : Nat)
  | mwrv (part : Nat)
  | mcvts (d part fmt rsel : Nat) (sat : Bool)
deriving DecidableEq, Repr

/-- A matrix command with what it captured (12 R311). Fragments are tables keyed 64 × register + LANE. -/
structure MCmd where
  kind : MKind
  group : Nat
  cls : Nat
  d : Nat
  c : Nat := 0
  csrc : Nat := 0
  etype : Nat := 0
  sparse : Bool := false
  spn : Nat := 0
  a : Nat := 0
  b : Nat := 0
  sc : Nat := 0
  mt : Nat := 0
  frag : Tab Word := []
  ftz : Bool := false
  zskip : Bool := false
  /-- Team form: 0 no, 1 A source, 2 A taken from the partner; and the number j of the fragment (R314). -/
  team : Nat := 0
  j : Nat := 0
  /-- Active lanes by LANE, with the slot of each. -/
  lanes : List (Nat × Nat) := []
  /-- RM of each member slot (R320). -/
  rms : Tab Nat := []
  op : Nat := 0
  /-- Steps done, and words moved by an MLD or MST. -/
  step : Nat := 0
  entered : Nat := 0
deriving DecidableEq, Repr

/-- The matrix unit of a core (12 R303-R305, R321, R325-R326). -/
structure MUnit where
  /-- Four class queues, oldest first. -/
  q0 : List MCmd := []
  q1 : List MCmd := []
  q2 : List MCmd := []
  q3 : List MCmd := []
  /-- The running command and the cycle in which its current step, or the whole command, ends. -/
  running : Option (MCmd × Nat) := none
  /-- First cycle of the idle run in progress, while nothing below is in force (R325). -/
  since : Nat := 0
  /-- Last cycle of the filler in progress, and of the MRAMP hold. -/
  filler : Option Nat := none
  /-- The filler began for a queued command, not for an MRAMP. -/
  fillerCmd : Bool := false
  /-- The classes for whose heads such fillers began: these commands take no further filler (R325). -/
  served : List Nat := []
  holdEnd : Option Nat := none
  mcap : BitVec 64 := 0
  owner : Option Nat := none
  /-- Remote commands refused by a full class queue, oldest first: flight and class (R323, 06 R160). -/
  refused : List (Nat × Nat) := []
  /-- Multicast A fragments received: group, number j, fragment. -/
  afrags : List (Nat × Nat × Tab Word) := []
deriving DecidableEq, Repr

/-- A physical tile (12 R300-R301). -/
structure Tile where
  used : Bool := false
  owner : Nat := 0
  name : Nat := 0
  alloc : Bool := false
deriving DecidableEq, Repr

/-- What a traversal thread waits for (13 R329). -/
inductive TWait where
  | ready
  /-- NFCH: LWIN or GLOBAL, and the address. -/
  | node (lwin : Bool) (addr : Nat)
  /-- VDIST: destination register, first register of the query's pair, register of the descriptor. -/
  | vector (d a b : Nat)
  /-- POP or STKQ.top with DEPTH = 0: destination and whether it is STKQ. -/
  | reload (d : Nat) (stkq : Bool)
  /-- EMIT stores before END (status, PC) or before a migration. -/
  | ending (status pc : Nat)
  /-- A migration on its way: by NFCH, target core and device, whether its context has been sent, cycles of the first and the last
  refusal. -/
  | migrating (nfch : Bool) (core dev : Nat) (sent : Bool) (refused : Option (Nat × Nat))
  /-- Arrived by a migration: the on-chip entries are being read back (R357). -/
  | restore
  /-- A REPLAY record; the instruction is executed again when it is resolved. -/
  | replay (idx : Nat)
deriving DecidableEq, Repr

/-- A thread slot of a rake (13 R327-R331, R352). `stack` holds the on-chip entries, top first, with READY. -/
structure Thread where
  used : Bool := false
  asid : Nat := 0
  w : Tab Word := []
  node : Option (List Word) := none
  /-- Hits and keys of the eight slots. -/
  test : Option (List (Bool × Word)) := none
  stack : List (Nat × Bool) := []
  wait : TWait := .ready
  emits : Nat := 0
  /-- The NFCH at PC is executed again after a migration or an abandonment, and does not migrate (R356). -/
  inPlace : Bool := false
  /-- YLD: every other ready thread issues first (R341). -/
  yielded : List Nat := []
deriving DecidableEq, Repr

/-- A request entry (13 R327, R360). -/
structure TReq where
  used : Bool := false
  slot : Nat := 0
  lane : Nat := 0
  asid : Nat := 0
  op : Nat := 0
  repack : Bool := false
  d : Nat := 0
  n : Nat := 0
  tgt : Nat := 0
  /-- Structure and slot pinned, if any. -/
  pin : Option (Nat × Nat) := none
  note : Bool := false
  kill : Bool := false
  /-- Pinned and not yet started. -/
  waiting : Bool := false
  /-- Start context W0 to W31. -/
  w : List Word := []
  /-- A completion that waits for a pre-empted group (R361). -/
  held : Option (List Word) := none
  /-- The group of the slice and the cycle of its start, which with the slot name it for ever. -/
  group : Nat := 0
  start : Nat := 0
deriving DecidableEq, Repr

/-- A context that has migrated in (13 R357). -/
structure Inbound where
  asid : Nat
  w : List Word
  nfch : Bool
deriving DecidableEq, Repr

/-- A traversal processor (13 R327-R329, R367). -/
structure Rake where
  threads : Tab Thread := []
  reqs : Tab TReq := []
  /-- Waiting local requests, oldest first. -/
  order : List Nat := []
  inbound : List Inbound := []
  /-- Refused contexts, oldest first: flights. -/
  refused : List Nat := []
  program : Tab Word := []
  /-- Program-memory regions: index, context, first word, length. -/
  regions : List (Nat × Nat × Nat × Nat) := []
  /-- Loaded kernels: context, KID, offset, length. -/
  kernels : List (Nat × Nat × Nat × Nat) := []
  /-- Kernel loads under way: context and KID. -/
  loading : List (Nat × Nat) := []
  lastInbound : Bool := false
  last : Nat := 31
  /-- Cycle + 1 of the last issue: at most one a cycle (R329). -/
  stamp : Nat := 0
  /-- Per TRQ and member that asked for TRAV_DONE: number, TAG, threads, ended other than OK, lowest status, still out
  (R362). -/
  notes : List (Nat × Word × Nat × Nat × Nat × Nat) := []
deriving DecidableEq, Repr

/-- A MEM command of the debugger that waits (15 R450): space, address, length, and the bytes of a write. -/
structure DebugMem where
  space : Nat
  addr : Nat
  len : Nat
  write : Bool
  data : List Byte
deriving DecidableEq, Repr

/-- A core's shared state. -/
structure Core where
  mailbox : List Msg := []
  mailRefused : List Nat := []
  handlerQ : List Msg := []
  handlerRefused : List Nat := []
  queues : Tab QReg := []
  barriers : Tab Barrier := []
  near : List NearLine := []
  nearData : Memory := []
  /-- Instruction-cache lines (128 bytes), oldest first, and their bytes. -/
  icache : List Nat := []
  icacheData : Memory := []
  tlb : List TlbEntry := []
  tiles : Tab Tile := []
  tileData : Tab Word := []
  mat : MUnit := {}
  deque : Deque := {}
  repack : Tab RepackQ := []
  rake : Rake := {}
  streamUsed : Nat := 0
  wpaddr : Tab Word := []
  wpaddrHi : Tab Word := []
  wpctl : Tab Word := []
  dbgctl : Word := 0
  dbgstat : Word := 0
  report : List Word := []
  reportsWaiting : List (List Word) := []
  dbgArgs : Tab Word := []
  dbgStatus : Word := 0
  dbgData : Tab Word := []
  /-- A STEP under way: slot and the TIME at which it began (15 R417). -/
  stepping : Option (Nat × Nat) := none
  /-- A MEM under way that waits (15 R415, R450). -/
  dbgMem : Option DebugMem := none
deriving DecidableEq, Repr

/-- A cluster's shared state. -/
structure Cluster where
  /-- Owners of the 192 extents (06 R169); an extent not listed is unassigned. -/
  extents : Tab Nat := []
  /-- Segments of each block's encoded copy (06 R171); 0 is ZERO. -/
  segs : Tab Nat := []
  /-- Expanded blocks (block, dirty), most recently used first (06 R172). -/
  grainer : List (Nat × Bool) := []
  /-- RAW regions: index, first block, count (06 R173). -/
  raw : List (Nat × Nat × Nat) := []
  poolLowArmed : Bool := true
  poolParkSent : Bool := false
  engine0 : Engine := {}
  engine1 : Engine := {}
  tlb : List TlbEntry := []
  /-- Team barriers (10 R255). -/
  barriers : Tab Barrier := []
  /-- The queue waiting to drain this cluster and its level (11 R280). -/
  drain : Option (Nat × Nat) := none
deriving DecidableEq, Repr

/-- A launch record in a queue (11 R273): its words, its next team, and its grid once a team is placed. -/
structure LRec where
  words : List Word
  next : Nat := 0
  grid : Option Nat := none
  checked : Bool := false
  depOk : Bool := false
deriving DecidableEq, Repr

/-- A completion that waits at the port of the peer of its DONEADDR (11 R282, 18 R441): queue, context, record, status and grid. -/
structure DoneWait where
  queue : Nat
  asid : Nat
  words : List Word
  status : Nat
  grid : Nat
deriving DecidableEq, Repr

/-- A launch queue (11 R270-R278, 18 R436). -/
structure LaunchQ where
  enable : Bool := false
  asid : Option Nat := none
  level : Nat := 0
  shed : Bool := false
  devq : Bool := false
  depth : Nat := 0
  records : List LRec := []
  eff : Nat := 0
  /-- Cycle at which the head became eligible and unplaced. -/
  since : Option Nat := none
  /-- Cycle of the last rise of the effective level, or of the start of its aging. -/
  aged : Nat := 0
  drops : Word := 0
  buffer : Tab Word := []
deriving DecidableEq, Repr

/-- A grid (11 R279, R282). -/
structure Grid where
  queue : Nat
  asid : Nat
  words : List Word
  groupsLeft : Nat
  allPlaced : Bool
  killed : Bool
deriving DecidableEq, Repr

/-- A group (01 R14, 11 R279, 15 Table 15-12). -/
structure Group where
  asid : Nat
  grid : Nat
  /-- Key of the team in State.teams; 0 for a repacked warp. -/
  team : Nat
  /-- Index of the team in its grid, and of the group in its team (TEAMID, GROUPID). -/
  teamIx : Nat
  ix : Nat
  core : Nat
  slots : List Nat
  localBase : Nat
  localLen : Nat
  mclass : Nat
  barriers : Nat
  queues : Nat
  tiles : Nat
  teamSize : Nat
  level : Nat
  repacked : Bool := false
  ret : Nat := 0
  retired : Bool := false
  killed : Bool := false
  /-- Halt requested and not resumed: 1 debugger, 2 pre-emption. -/
  halt : Nat := 0
  haltTime : Nat := 0
  saved : Bool := false
  /-- Slices by slot of a saved group, with what Table 15-9 does not show (15 R412); slots 120 to 127 are handlers saved with
  the core state of the context, when `savedCore`. -/
  savedSlices : Tab Slice := []
  savedQueues : Tab QReg := []
  savedTiles : Tab Tile := []
  savedCore : Bool := false
  /-- The deque of the saved core state has not been reassigned meanwhile (11 R294). -/
  savedDeque : Bool := false
  frags : Nat := 0
  /-- MCAP of a saved owner (12 R321). -/
  mcap : Option (BitVec 64) := none
deriving DecidableEq, Repr

/-- A team (10 R255). -/
structure Team where
  cluster : Nat
  groups : List Nat
  ret : Nat
  barriers : List Nat
deriving DecidableEq, Repr

/-- The lane that holds an ordered section (10 Table 10-4). -/
structure Holder where
  core : Nat
  slot : Nat
  lane : Nat
  /-- The group's key; 0 for a handler. -/
  group : Nat
  asid : Nat
  cycle : Nat
deriving DecidableEq, Repr

/-- An ordered-section entry (10 Table 10-4), kept under 2^32 × domain + key. -/
structure Section where
  used : Bool := false
  abandoned : Bool := false
  next : Word := 0
  ticket : Word := 0
  holder : Option Holder := none
deriving DecidableEq, Repr

/-- A version slot of a structure (14 Table 14-2). STATE 0 FREE, 1 CURRENT, 2 OLD. -/
structure VSlot where
  state : Nat := 0
  num : Word := 0
  root : BitVec 64 := 0
  pins : Nat := 0
  qpins : Nat := 0
  bcore : Nat := 0
deriving DecidableEq, Repr

/-- A structure (14 R377); `asid` stays after release for the VERSION_RETIRED of its draining slots. -/
structure Struct where
  assigned : Bool := false
  asid : Nat := 0
  vcount : Word := 0
  lastinv : Word := 0
  cur : Option Nat := none
  slots : Tab VSlot := []
deriving DecidableEq, Repr

/-- A plan slot (14 Table 14-5). STATE 0 FREE, 1 ARMED, 2 COMMITTING, 3 DONE. -/
structure Plan where
  assigned : Bool := false
  asid : Nat := 0
  state : Nat := 0
  deadline : BitVec 64 := 0
  fb : List Byte := []
  outp : Nat := 0
  ncore : Nat := 0
  tag : Word := 0
  outcome : Nat := 0
  /-- COMMITTING: the TIME of the decision; the commit record waits as a message of the unit to itself. -/
  jobTime : Nat := 0
  /-- TIME at which it was armed: a deadline already passed then expires in the next tick (14 R388). -/
  armed : Nat := 0
deriving DecidableEq, Repr

/-- What the device keeps of a resident context (10 R267-R268, 15 R397). -/
structure Ctx where
  hang : Nat := 0
  hanglim : Nat := 0
  sectlim : Nat := 0
  /-- Cycle at which its last resident group was saved, for the section limit (10 R265). -/
  left : Nat := 0
deriving DecidableEq, Repr

/-- A traversal completion on its way (13 R361, R363): RQE, words W0 to W6, status word. -/
structure TDone where
  rqe : Nat
  words : List Word
  status : Word
deriving DecidableEq, Repr

/-- A request to the structure version table (14 R378, R380). -/
inductive TableReq where
  | pinLanes (struct core op : Nat) (entries : List Nat)
  | pin (struct op slot d : Nat)
  | unpin (struct vslot : Nat)
  | publish (struct op slot d core : Nat) (root : BitVec 64) (inv : Bool)
deriving DecidableEq, Repr

/-- A request to the deadline commit unit (14 R387-R392): operation, member slot, destination S, record bytes. -/
inductive PlanReq where
  | arm (op slot d : Nat) (rec : List Byte)
  | bit (op slot d : Nat) (rec : List Byte)
  | com (op slot d : Nat) (rec : List Byte)
  | qry (op slot d : Nat)
  | dis (op slot d : Nat)
deriving DecidableEq, Repr

/-- A message in flight between units. -/
inductive Pkt where
  /-- LWIN access (06 R154). -/
  | lwin (a : Acc)
  /-- CLUSTER access that waits for its blocks (06 R170, R172). -/
  | cluster (a : Acc)
  /-- GLOBAL request to a home slice, a peer or the host (07 R180); further loads that share it. -/
  | global (a : Acc) (sharers : List (Nat × Acc))
  /-- Reserve of an atomic unit (07 R195). -/
  | reserve (a : Acc)
  /-- One lane's PCIe AtomicOp (07 R197). -/
  | sysAtomic (a : Acc)
  | msg (m : Msg) (handler : Bool) (unit : Bool)
  /-- Texture or rasteriser request (06 R166): request words, and its number in order of refusal, 0 when it is not refused. -/
  | service (core : Nat) (raster : Bool) (words : List Word) (refused : Nat)
  /-- A copy request and the cycle of its last refusal (08 R208). -/
  | copy (r : CopyReq) (refused : Option Nat)
  /-- OSEC request for one key (10 R259): form F and its lanes (slot, lane, sequence or start value). -/
  | osec (form key : Nat) (lanes : List (Nat × Nat × Word))
  /-- TBARSYN or TBARINIT of a slice of a team (10 R255). -/
  | teamArrive (team : Option Nat) (slot barrier : Nat) (wait : Bool) (init : Option Word)
  | launch (queue : Nat) (words : List Word) (reply : Option (Nat × Nat))
  | lqstat (queue slot d : Nat)
  | steal (slot d victim : Nat) (ring : Bool)
  | mreq (m : MCmd) (cap : BitVec 64) (tile : Nat) (slots : List Nat)
  | afrag (group j : Nat) (a : Tab Word)
  | inbound (c : Inbound) (thread : Nat)
  | tdone (c : TDone)
  | kload (slot d kid o n : Nat) (addr : Nat) (core : Nat)
  | table (r : TableReq)
  | plan (slot : Nat) (r : PlanReq)
  /-- A request whose fallback or plan is being read (14 R388-R390), with the output that PLARM resolved. -/
  | planData (slot : Nat) (r : PlanReq) (outp : Nat)
  /-- A peer's request to this device with its link sequence number (18 R439). -/
  | peerIn (seq : Nat) (a : Acc)
  /-- An EMIT store of a thread: bytes (13 R340). -/
  | tstore (thread : Nat) (key : Nat) (bytes : List Byte)
deriving DecidableEq, Repr

/-- A message in flight: from and to are unit numbers (`Node`), in order of sending. -/
structure Flight where
  id : Nat
  src : Nat
  dst : Nat
  asid : Nat
  op : Option Nat := none
  pkt : Pkt
deriving DecidableEq, Repr

/-- An atomic unit that is held (07 R195): its key (address / 8), the holder's flight, whether it has been applied, and the
flights queued behind it, oldest first. A queued flight, and a holder's, stays in flight until it is performed. -/
structure AUnit where
  key : Nat
  holder : Flight
  applied : Bool
  queue : List Nat
deriving DecidableEq, Repr

/-- A UALink port (18 R438-R440). STATE 0 down, 1 training, 2 up. -/
structure LinkPort where
  state : Nat := 0
  spare : Bool := false
  /-- Devices that the port reaches: one, or several through a switch (R438). -/
  far : List Nat := []
  lane : Nat := 0
  since : Nat := 0
  /-- Flits that have come, and those of the last 2^20 that had a corrected error, each with its lane (R440). -/
  flits : Nat := 0
  errors : List (Nat × Nat) := []
deriving DecidableEq, Repr

/-- What the device keeps for a peer (18 R439-R441, 09 R240). -/
structure Peer where
  /-- Number of the next request to it, and the requests unacknowledged: flight and number. -/
  nextSeq : Nat := 0
  unacked : List (Nat × Nat) := []
  /-- Number of the next request from it, and the numbers acknowledged to it, oldest first. -/
  recvSeq : Nat := 0
  acks : List Nat := []
  held : Bool := false
  /-- A path exists: PEERSTAT's bit. -/
  path : Bool := false
  discarded : Nat := 0
deriving DecidableEq, Repr

/-- System registers of device scope (15 Table 15-3). -/
structure SysRegs where
  sysvec : Word := 0
  sysvecHi : Word := 0
  ctxtab : Word := 0
  ctxtabHi : Word := 0
  xlinva : Word := 0
  xlinv : Word := 0
  eqbase : Word := 0
  eqbaseHi : Word := 0
  eqhead : Word := 0
  eqtail : Word := 0
  ucsel : Word := 0
  ucdata0 : Word := 0
  ucdata1 : Word := 0
  ucdata2 : Word := 0
  ucstat : Word := 0
deriving DecidableEq, Repr

/-- What the host's last request to BAR2 or AtomicOp was answered: data, and whether with UR or EP (18 R433, R435). -/
structure HostReply where
  data : List Byte := []
  ur : Bool := false
  ep : Bool := false
deriving DecidableEq, Repr

/-- Host port, device page and management subsystem (18 R433-R447). -/
structure Mgmt where
  devnum : Nat := 0
  bar2base : Nat := 0
  bar2size : Nat := 0x10000000
  /-- PWRSTAT: profile in W, clock in MHz, limit. -/
  profile : Nat := 600
  clock : Nat := 2200
  limit : Nat := 0
  shockThreshold : Nat := 0
  /-- Other values of the configuration record (R445): threshold of corrected errors (R440), lowest and highest clock, and the
  temperatures of R447 in eighths of a degree. -/
  errThreshold : Nat := 0
  clockLow : Nat := 0
  clockHigh : Nat := 2200
  throttleAt : Nat := 760
  raiseBelow : Nat := 736
  shutdownAt : Nat := 840
  reply : HostReply := {}
  /-- MSI-X vectors raised and not yet taken, oldest first. -/
  raised : List Nat := []
  msixTable : Tab Word := []
  /-- Sampled temperatures in steps of 0.125 °C, the rails' samples, and a rail whose current is above its limit (R443, R447). -/
  sensors : Tab Nat := []
  rails : List Nat := []
  overRail : Option Nat := none
  /-- Event log records (R444), oldest first, and how many of them have reached the flash. -/
  log : List (List Byte) := []
  flushed : Nat := 0
  /-- Ticks since the oldest record that has not reached the flash was written (R444). -/
  flashAge : Nat := 0
  /-- The staged image, that in flash and whether it passes the check at boot, and that loaded at boot (R445). -/
  staged : List Byte := []
  flash : List Byte := []
  flashOk : Bool := true
  running : List Byte := []
  /-- The image that a COMMIT is writing. -/
  committing : Option (List Byte) := none
  recovery : Bool := false
  /-- Management mailbox: STATUS [15:8], and the data area. -/
  result : Nat := 0
  data : List Byte := []
  /-- Its argument words, as the host last wrote them (R443). -/
  args : Tab Word := []
  /-- Every core has halted at 105 °C (R447). -/
  shutdown : Bool := false
  /-- A shutdown has been decided and waits for a commit (14 R395): TIME of the decision, and the PLAN_STATUS messages of the fallbacks
  published, each with its core. -/
  closing : Option (Nat × List (Nat × Msg)) := none
  power : Bool := true
  /-- TIME of the last throttle step. -/
  lastThrottle : Nat := 0
deriving DecidableEq, Repr

/-- What comes to the device from outside, beside the device steps (log 26). -/
inductive Input where
  /-- Flits come over a port, the last with a corrected error on a lane if one is named (18 R440). -/
  | flits (port n : Nat) (lane : Option Nat)
  /-- The controller samples its sensors (18 R443): temperatures, rails, and a rail over its limit. -/
  | sample (sensors : Tab Nat) (rails : List Nat) (high : Option Nat)
  /-- Stored data of a sector goes bad, with the cause that its poison will have (07 R201). -/
  | spoil (sector cause : Nat)
  /-- The host resizes BAR2 to a power of two (18 R435). -/
  | bar2Size (log : Nat)
  /-- A paired device sends a request with its sequence number (18 R439), or a traversal context to a rake (13 R357). -/
  | peerRequest (dev seq : Nat) (a : Acc)
  | peerContext (dev core thread : Nat) (c : Inbound)
deriving DecidableEq, Repr

/-- Who takes the next turn (log 1). -/
inductive Turn where
  /-- The rotation's next datapath visit (01 R10). -/
  | visit
  /-- The rake of a core issues (13 R329). -/
  | rake (core : Nat)
  /-- A device step. -/
  | event (i : Instr)
  /-- TIME advances by one tick (01 R18). -/
  | tick
  /-- The host reads, or writes, a word of BAR0 (18 R434). -/
  | hostRead (off : Nat)
  | hostWrite (off : Nat) (w : Word)
  /-- Something comes from outside. -/
  | input (x : Input)
deriving DecidableEq, Repr

/-- The gang an instruction runs for, and the PC and length of the instruction (log 2). -/
structure Issuer where
  core : Nat := 0
  slots : List Nat := []
  pc : Addr := 0
deriving DecidableEq, Repr

/-- The machine. -/
structure State where
  agenda : List Turn := []
  visitCore : Nat := 0
  visitDp : Nat := 0
  issuer : Issuer := {}
  /-- Core and thread of the traversal instruction being executed. -/
  rakeCore : Nat := 0
  rakeThread : Nat := 0
  freeCount : Nat := 0
  nextId : Nat := 1
  cycle : BitVec 64 := 0
  time : BitVec 64 := 0
  mem : Memory := []
  /-- Words of local memory whose bit is empty (06 R148), as keys / 4, rising. -/
  emptyWords : List Nat := []
  /-- Poisoned sectors (07 R201), as keys / 64, rising. -/
  poison : List Nat := []
  /-- Sectors whose stored data has an error that no read has yet found, with the cause that its poison will have (R201):
  1 ECC, 2 a soft error of the device cache. -/
  bad : Tab Nat := []
  /-- What the copy requests have written clean of poisoned sectors (R204). -/
  clean : List CleanMask := []
  /-- Device-cache lines held: line, dirty, EVICT_FIRST (07 R179, R182; log 12). -/
  dcache : List (Nat × Bool × Bool) := []
  units : List AUnit := []
  slices : Tab Slice := []
  cores : Tab Core := []
  clusters : Tab Cluster := []
  sys : SysRegs := {}
  ctxs : Tab Ctx := []
  replays : List Replay := []
  nextReplay : Nat := 0
  /-- Records waiting for ring space (15 R405), each with the MSI-X vectors that report it (18 R437). -/
  eqWaiting : List (List Word × List Nat) := []
  queues : Tab LaunchQ := []
  /-- Completions that wait at a peer's port, oldest first. -/
  doneWaits : List DoneWait := []
  /-- Last queue placed at each level (11 R277). -/
  lastQueue : Tab Nat := []
  drainDly : Nat := 0
  grids : Tab Grid := []
  teams : Tab Team := []
  groups : Tab Group := []
  sections : Tab Section := []
  structs : Tab Struct := []
  plans : Tab Plan := []
  ops : List Op := []
  flights : List Flight := []
  links : Tab LinkPort := []
  peers : Tab Peer := []
  mgmt : Mgmt := {}
deriving DecidableEq, Repr

/-- The machine right after reset: every field at its default. -/
def State.reset : State := {}

/-- Reasons for which a step stops the machine. -/
inductive Fault where
  /-- An access to memory that the device does not have. Raised by nothing: a LOCAL page at or above 96 GiB fails in
  translation (log 28), so no step stops the machine. Safe. -/
  | noSuchMemory
deriving DecidableEq, Repr

/-- Reasons for which a step has no meaning. -/
inductive Refusal where
  /-- An instruction not modelled yet, by its mnemonic. Raised by Dispatch. Safe. -/
  | notModelled (mnemonic : String)
deriving DecidableEq, Repr

end Sys2Proof.Machine
end

