-- ==== Sys2Proof/Machine/Ops.lean ====
section
/-! DEFINITION. The named operations over memory, registers, paths and units that every meaning uses; translation (15
R401-R404), the event queue (15 R405), and taking and returning from a trap (15 R407-R409). -/

namespace Sys2Proof.Machine

/-! ## Tables and memory -/

/-- The value at a key, or the default `d`. -/
def tget {β : Type} (d : β) : Tab β → Nat → β
  | [], _ => d
  | (k, v) :: t, n => if k = n then v else tget d t n

/-- Sets the value at a key, keeping keys rising. -/
def tset {β : Type} : Tab β → Nat → β → Tab β
  | [], n, x => [(n, x)]
  | (k, v) :: t, n, x => if k = n then (n, x) :: t else if n < k then (n, x) :: (k, v) :: t else (k, v) :: tset t n x

/-- Removes a key. -/
def tdel {β : Type} : Tab β → Nat → Tab β
  | [], _ => []
  | (k, v) :: t, n => if k = n then t else (k, v) :: tdel t n

/-- The byte at an address; an unlisted byte reads 0 (log 5). -/
def mget (m : Memory) (a : Nat) : Byte := tget 0 m a

/-- Writes a byte, keeping the canonical form: a zero byte is not listed. -/
def mset (m : Memory) (a : Nat) (b : Byte) : Memory := if b = 0 then tdel m a else tset m a b

/-- `n` bytes from an address as a little-endian number (01 R24). -/
def mread (m : Memory) (a : Nat) : Nat → Nat
  | 0 => 0
  | n + 1 => (mget m a).toNat + 256 * mread m (a + 1) n

/-- Writes the low `n` bytes of a number, little-endian. -/
def mwrite (m : Memory) (a : Nat) : Nat → Nat → Memory
  | 0, _ => m
  | n + 1, v => mwrite (mset m a (BitVec.ofNat 8 v)) (a + 1) n (v / 256)

/-- Writes a list of bytes. -/
def mwriteBytes (m : Memory) (a : Nat) : List Byte → Memory
  | [] => m
  | b :: bs => mwriteBytes (mset m a b) (a + 1) bs

/-- `n` bytes from an address. -/
def mbytes (m : Memory) (a : Nat) : Nat → List Byte
  | 0 => []
  | n + 1 => mget m a :: mbytes m (a + 1) n

/-- The listed bytes of a range. -/
def mrange (m : Memory) (a n : Nat) : Memory := m.filter fun c => decide (a ≤ c.1) && decide (c.1 < a + n)

/-- Drops the bytes of a range. -/
def mclear (m : Memory) (a n : Nat) : Memory := m.filter fun c => !(decide (a ≤ c.1) && decide (c.1 < a + n))

/-- Replaces the range of `m` by that of `src`. -/
def mcopy (m src : Memory) (a n : Nat) : Memory := (mrange src a n).foldl (fun m c => mset m c.1 c.2) (mclear m a n)

/-- Keys rising from `lo`, no zero byte. -/
def wfFrom : Nat → Memory → Bool
  | _, [] => true
  | lo, (a, b) :: t => decide (lo ≤ a) && b != 0 && wfFrom (a + 1) t

/-- The canonical form of memory. -/
def Memory.wf (m : Memory) : Bool := wfFrom 0 m

/-- Membership bits kept as rising lists of numbers. -/
def bitIns : List Nat → Nat → List Nat
  | [], n => [n]
  | k :: t, n => if k = n then k :: t else if n < k then n :: k :: t else k :: bitIns t n

/-- The words of a byte list, little-endian. -/
def bytesNat : List Byte → Nat
  | [] => 0
  | b :: t => b.toNat + 256 * bytesNat t

/-- Word `i` of a byte list. -/
def wordAt (bs : List Byte) (i : Nat) : Word := BitVec.ofNat 32 (bytesNat ((bs.drop (4 * i)).take 4))

/-- 64 bits at byte `i` of a byte list. -/
def dwordAt (bs : List Byte) (i : Nat) : Nat := bytesNat ((bs.drop i).take 8)

/-- Words as bytes. -/
def wordsBytes (ws : List Word) : List Byte := ws.flatMap wordBytes

/-- The value of one bit field of a word. -/
def bits (w : Word) (lo n : Nat) : Nat := w.toNat / 2 ^ lo % 2 ^ n

def w32 (n : Nat) : Word := BitVec.ofNat 32 n

/-! ## Where each space lies in memory (log 5) -/

def peerBase (dev : Nat) : Nat := (1 + dev) * 2 ^ 52
def hostBase : Nat := 16 * 2 ^ 52
def localBase (core : Nat) : Nat := 32 * 2 ^ 52 + core * 2 ^ 18
def clusterBase (c : Nat) : Nat := 33 * 2 ^ 52 + c * 2 ^ 24
/-- Bytes of GDDR7 (00 Table 00-2, 01 Table 01-1). -/
def dramSize : Nat := 96 * 2 ^ 30
/-- Bytes of local memory of a core (01 Table 01-3). -/
def localSize : Nat := 0x30000

/-! ## Parts of the state -/

def skey (core slot : Nat) : Nat := 128 * core + slot
def State.slice (s : State) (core slot : Nat) : Slice := tget {} s.slices (skey core slot)
def State.setSlice (s : State) (core slot : Nat) (x : Slice) : State := { s with slices := tset s.slices (skey core slot) x }
def State.modSlice (s : State) (core slot : Nat) (f : Slice → Slice) : State := s.setSlice core slot (f (s.slice core slot))
def State.core (s : State) (k : Nat) : Core := tget {} s.cores k
def State.modCore (s : State) (k : Nat) (f : Core → Core) : State := { s with cores := tset s.cores k (f (s.core k)) }
def State.cluster (s : State) (c : Nat) : Cluster := tget {} s.clusters c
def State.modCluster (s : State) (c : Nat) (f : Cluster → Cluster) : State :=
  { s with clusters := tset s.clusters c (f (s.cluster c)) }
def State.ctx (s : State) (a : Nat) : Ctx := tget {} s.ctxs a
def State.modCtx (s : State) (a : Nat) (f : Ctx → Ctx) : State := { s with ctxs := tset s.ctxs a (f (s.ctx a)) }
def State.group? (s : State) (g : Nat) : Option Group := s.groups.lookup g
def State.modGroup (s : State) (g : Nat) (f : Group → Group) : State :=
  match s.group? g with
  | some x => { s with groups := tset s.groups g (f x) }
  | none => s
def State.queue (s : State) (q : Nat) : LaunchQ := tget {} s.queues q
def State.modQueue (s : State) (q : Nat) (f : LaunchQ → LaunchQ) : State :=
  { s with queues := tset s.queues q (f (s.queue q)) }
def State.struct (s : State) (n : Nat) : Struct := tget {} s.structs n
def State.modStruct (s : State) (n : Nat) (f : Struct → Struct) : State :=
  { s with structs := tset s.structs n (f (s.struct n)) }
def State.plan (s : State) (n : Nat) : Plan := tget {} s.plans n
def State.modPlan (s : State) (n : Nat) (f : Plan → Plan) : State := { s with plans := tset s.plans n (f (s.plan n)) }
def State.rake (s : State) (k : Nat) : Rake := (s.core k).rake
def State.modRake (s : State) (k : Nat) (f : Rake → Rake) : State := s.modCore k fun c => { c with rake := f c.rake }
def State.thread (s : State) (k t : Nat) : Thread := tget {} (s.rake k).threads t
def State.modThread (s : State) (k t : Nat) (f : Thread → Thread) : State :=
  s.modRake k fun r => { r with threads := tset r.threads t (f (tget {} r.threads t)) }
def State.op? (s : State) (id : Nat) : Option Op := s.ops.find? (·.id == id)
def State.modOp (s : State) (id : Nat) (f : Op → Op) : State :=
  { s with ops := s.ops.map fun o => if o.id == id then f o else o }
def State.dropOp (s : State) (id : Nat) : State := { s with ops := s.ops.filter (·.id != id) }
def State.flight? (s : State) (id : Nat) : Option Flight := s.flights.find? (·.id == id)
def State.dropFlight (s : State) (id : Nat) : State := { s with flights := s.flights.filter (·.id != id) }
/-- Sends a message: it takes the next number and stands behind all that were sent before. -/
def State.send (s : State) (src dst asid : Nat) (op : Option Nat) (pkt : Pkt) : State :=
  { s with flights := s.flights ++ [⟨s.nextId, src, dst, asid, op, pkt⟩], nextId := s.nextId + 1 }
def State.sends (s : State) (l : List (Nat × Nat × Nat × Option Nat × Pkt)) : State :=
  l.foldl (fun s x => s.send x.1 x.2.1 x.2.2.1 x.2.2.2.1 x.2.2.2.2) s
/-- No earlier message goes from the same unit to the same unit (06 R154, 07 R180, 10 R259). -/
def State.first (s : State) (f : Flight) : Bool :=
  (s.flights.find? fun g => g.src == f.src && g.dst == f.dst).map (·.id) == some f.id
def clusterOf (core : Nat) : Nat := core / 16
/-- Raises an MSI-X vector (18 R437). -/
def State.raise (s : State) (v : Nat) : State := { s with mgmt := { s.mgmt with raised := s.mgmt.raised ++ [v] } }
/-- A fresh word the manual leaves unstated (log 3). -/
def State.free (s : State) : Word × State := (Config.freeWord s.freeCount, { s with freeCount := s.freeCount + 1 })

/-- Unit numbers in flights: cores 0-255, then the units below. -/
def nodeHome (slice : Nat) : Nat := 1000 + slice
def nodePeer (dev : Nat) : Nat := 1100 + dev
def nodeHost : Nat := 1200
def nodeCluster (c : Nat) : Nat := 1300 + c
def nodeEngine (e : Nat) : Nat := 1400 + e
def nodeOsec (c : Nat) : Nat := 1500 + c
def nodeTeam (c : Nat) : Nat := 1600 + c
def nodeTable : Nat := 1700
def nodePlan : Nat := 1701
def nodeLaunch : Nat := 1702
def nodeRaster (n : Nat) : Nat := 1800 + n
def nodeTexture (c : Nat) : Nat := 1900 + c
def nodeRake (k : Nat) : Nat := 2000 + k

/-- Home slice of a LOCAL-attribute address (07 R179). -/
def homeSlice (p : Nat) : Nat :=
  let f (lo : Nat) : Nat := p / 2 ^ lo % 32
  (((((f 8).xor (f 13)).xor (f 18)).xor (f 23)).xor (f 28)).xor (p / 2 ^ 33 % 16)

/-- The unit that performs an access at a memory key (07 Table 07-1). -/
def homeOf (key : Nat) : Nat :=
  if key < 2 ^ 52 then nodeHome (homeSlice key)
  else if key < hostBase then nodePeer (key / 2 ^ 52 - 1)
  else nodeHost

/-! ## Registers -/

/-- V[n].lane[l]. -/
def Slice.vr (x : Slice) (n l : Nat) : Word := tget 0 x.v (8 * n + l)
def Slice.setV (x : Slice) (n l : Nat) (w : Word) : Slice := { x with v := tset x.v (8 * n + l) w }
/-- S[n]. -/
def Slice.sr (x : Slice) (n : Nat) : Word := tget 0 x.s n
def Slice.setS (x : Slice) (n : Nat) (w : Word) : Slice := { x with s := tset x.s n w }
/-- S.pair[n] as N64 (01 Table 01-5). -/
def Slice.spair (x : Slice) (n : Nat) : Nat := (x.sr n).toNat + 2 ^ 32 * (x.sr (n + 1)).toNat
/-- P[n]; P7 reads ones (02 R28, 05 R116). -/
def Slice.pr (x : Slice) (n : Nat) : Pred := if n = 7 then 0xFF else tget 0 x.p n
/-- Writes P[n]; a write to P7 is discarded (02 R38). -/
def Slice.setP (x : Slice) (n : Nat) (m : Pred) : Slice := if n = 7 then x else { x with p := tset x.p n m }
def Slice.setPBit (x : Slice) (n l : Nat) (b : Bool) : Slice :=
  let m := x.pr n
  x.setP n (if b then m ||| ((1 : Pred) <<< l) else m &&& ~~~((1 : Pred) <<< l))
/-- ORs flags into FPFLAGS (03 R63). -/
def Slice.orFlags (x : Slice) (f : BitVec 5) : Slice := { x with fpflags := x.fpflags ||| f.setWidth 32 }

/-- The current path (04 R81). -/
def Slice.path (x : Slice) : Path := x.paths.getD x.cur {}
def Slice.setPath (x : Slice) (i : Nat) (p : Path) : Slice := { x with paths := x.paths.set i p }
def Slice.modPath (x : Slice) (f : Path → Path) : Slice := x.setPath x.cur (f x.path)
/-- Guard bits of 02 R28: P[GP] XOR GN. -/
def Slice.guard (x : Slice) (g : BitVec 4) : Pred :=
  let p := x.pr (g.toNat % 8)
  if g.getLsbD 3 then ~~~p else p
/-- The active lanes of 02 R29. -/
def Slice.active (x : Slice) (g : BitVec 4) : Pred := x.path.mask &&& x.guard g
/-- Lanes of a mask, ascending. -/
def lanesOf (m : Pred) : List Nat := (List.range 8).filter fun l => m.getLsbD l
def Slice.lanes (x : Slice) (g : BitVec 4) : List Nat := lanesOf (x.active g)
/-- LANE of a lane (01 R15). -/
def Slice.laneIx (x : Slice) (l : Nat) : Nat := 8 * x.ix + l
def Slice.live (x : Slice) : Bool := x.phase == .live
def Slice.inh (x : Slice) : Bool := x.t.info.getLsbD 16
/-- Trap handlers the slice is in; paths of a lower level do not run meanwhile (R408; log 17). -/
def Slice.nesting (x : Slice) : Nat := (if x.inh then 1 else 0) + (if x.system then 1 else 0)
/-- A counter of 07 R187-R188. -/
def Slice.count (x : Slice) (code : Nat) : Nat := (x.counted.filter (·.code == code)).length
def Slice.pendingReg (x : Slice) (file idx : Nat) : Bool := x.pending.any fun p => p.file == file && p.idx == idx
/-- Completion of a counted operation; counters drop in issue order (06 R155, 07 R188). -/
def dropDone (code : Nat) : List Counted → List Counted
  | [] => []
  | c :: t => if c.code = code then (if c.done then dropDone code t else c :: t) else c :: dropDone code t
def Slice.complete (x : Slice) (op : Nat) : Slice :=
  let l := x.counted.map fun c => if c.op == op then { c with done := true } else c
  { x with counted := [0, 1, 2, 3, 4, 5].foldl (fun l c => dropDone c l) l }
/-- The registers pending on an operation have been written: no longer pending from the next cycle on (01 R11). -/
def Slice.unpend (x : Slice) (op : Nat) : Slice :=
  { x with pending := x.pending.map fun p => if p.op == op then { p with done := true } else p }
/-- A cycle ends: the registers written in it are readable (01 R11). -/
def Slice.settlePending (x : Slice) : Slice := { x with pending := x.pending.filter fun p => !p.done }
def RegWrite.apply (w : RegWrite) (x : Slice) : Slice :=
  match w.file with
  | 0 => x.setV (w.key / 8) (w.key % 8) (w32 w.val)
  | 1 => x.setS w.key (w32 w.val)
  | _ => x.setPBit (w.key / 8) (w.key % 8) (w.val == 1)

/-- Slots of the live slices of the home warp of a slice (04 R78). -/
def State.warpSlots (s : State) (core slot : Nat) : List Nat :=
  let x := s.slice core slot
  if x.handler then [slot]
  else
    let first := slot - x.ix
    ((List.range x.width).map (first + ·)).filter fun t =>
      let y := s.slice core t
      y.live && y.group == x.group && y.warp == x.warp && !y.handler
/-- Mask by SLICE of some slots of one warp. -/
def State.ixMask (s : State) (core : Nat) (slots : List Nat) : Pred :=
  slots.foldl (fun m t => m ||| (1 <<< (s.slice core t).ix)) 0
def State.liveMask (s : State) (core slot : Nat) : Pred := s.ixMask core (s.warpSlots core slot)

/-- Marks the slices parked on matching objects for evaluation at their next visit (01 R23). -/
def State.wake (s : State) (p : Park → Bool) : State :=
  { s with slices := s.slices.map fun (k, x) =>
      (k, match x.park with | some o => if p o then { x with woken := true } else x | none => x) }

/-- Ends a park. -/
def Slice.unpark (x : Slice) : Slice := { x with park := none, woken := false }

/-- Takes one slice as parked on an object. -/
def Slice.parkOn (x : Slice) (o : Park) : Slice := { x with park := some o, woken := false }

/-! ## Contexts and translation -/

/-- Address of the descriptor of a context (15 R396). -/
def State.ctxAddr (s : State) (asid : Nat) : Nat :=
  bits s.sys.ctxtabHi 0 20 * 2 ^ 32 + s.sys.ctxtab.toNat + 64 * asid
/-- `n` bytes at byte `i` of a context's descriptor (15 Table 15-1). -/
def State.ctxField (s : State) (asid i n : Nat) : Nat := mread s.mem (s.ctxAddr asid + i) n
def State.ctxValid (s : State) (asid : Nat) : Bool := s.ctxField asid 0 1 % 2 == 1
def State.domain (s : State) (asid : Nat) : Nat := s.ctxField asid 8 2

/-- What an access needs of a page (15 R404). -/
inductive Access where
  | load | store | atomic | fetch
  /-- LINV, LWB, LCLN, ICINV: translation only (07 R206, 04 R112). -/
  | none
deriving DecidableEq, Repr

/-- Why a translation fails: the fault code, the reason and the level (15 R404-R405). -/
inductive XFail where
  | fail (code reason level : Nat)
deriving DecidableEq, Repr

def tlbGet (l : List TlbEntry) (asid va : Nat) : Option TlbEntry :=
  l.find? fun e => e.asid == asid && e.base == va / 2 ^ e.bits * 2 ^ e.bits

/-- Fills a cache of `cap` entries, oldest dropped first (log 10). -/
def tlbPut (l : List TlbEntry) (cap : Nat) (e : TlbEntry) : List TlbEntry :=
  let l := l.filter (· != e) ++ [e]
  l.drop (l.length - cap)

def bitAt (n i : Nat) : Bool := n / 2 ^ i % 2 == 1

/-- Whether a leaf entry breaks R401 or R402 (reason 2). -/
def leafBad (devnum e : Nat) (alignBits : Nat) : Bool :=
  e / 2 ^ 12 % 16 != 0 || e / 2 ^ 52 != 0 || e / 64 % 4 == 3 ||
  (e / 64 % 4 != 1 && e / 256 % 8 != 0) || (e / 64 % 4 == 1 && e / 256 % 8 == devnum) ||
  e / 2 ^ 16 % 2 ^ (alignBits - 16) != 0

/-- The walk of 15 R401-R402. -/
def State.walk (s : State) (asid va : Nat) : Except XFail TlbEntry :=
  let root := s.ctxField asid 0 8 / 2 ^ 13 % 2 ^ 39 * 2 ^ 13
  let e1 := mread s.mem (root + 8 * (va / 2 ^ 42 % 2 ^ 10)) 8
  if !bitAt e1 0 then .error (.fail 0x06 1 1)
  else if e1 / 2 % 2 ^ 15 != 0 || e1 / 2 ^ 52 != 0 then .error (.fail 0x06 2 1)
  else
    let t2 := e1 / 2 ^ 16 % 2 ^ 36 * 2 ^ 16
    let e2 := mread s.mem (t2 + 8 * (va / 2 ^ 29 % 2 ^ 13)) 8
    if !bitAt e2 0 then .error (.fail 0x06 1 2)
    else if bitAt e2 1 then
      let n := if bitAt e2 11 then 35 else 29
      if leafBad s.mgmt.devnum e2 n then .error (.fail 0x06 2 2)
      else .ok ⟨asid, va / 2 ^ n * 2 ^ n, n, e2, 2⟩
    else if e2 / 4 % 2 ^ 14 != 0 || e2 / 2 ^ 52 != 0 then .error (.fail 0x06 2 2)
    else
      let t3 := e2 / 2 ^ 16 % 2 ^ 36 * 2 ^ 16
      let e3 := mread s.mem (t3 + 8 * (va / 2 ^ 16 % 2 ^ 13)) 8
      let n := if bitAt e3 11 then 21 else 16
      if !bitAt e3 0 then .error (.fail 0x06 1 3)
      else if !bitAt e3 1 || leafBad s.mgmt.devnum e3 n then .error (.fail 0x06 2 3)
      else .ok ⟨asid, va / 2 ^ n * 2 ^ n, n, e3, 3⟩

/-- Permission of a leaf for an access (15 R404 reasons 3 and 4). -/
def leafAllows (e : TlbEntry) (acc : Access) (system : Bool) : Option XFail :=
  let rd := bitAt e.leaf 2
  let wr := bitAt e.leaf 3
  let ex := bitAt e.leaf 4
  let ok := match acc with | .load => rd | .store => wr | .atomic => rd && wr | .fetch => ex | .none => true
  if !ok then some (.fail 0x07 3 e.level)
  else if !system && !bitAt e.leaf 5 && acc != .none then some (.fail 0x07 4 e.level)
  else none

/-- The memory key of an address under a leaf. A LOCAL page address above the device's memory fails as a malformed entry, reason
2 (log 28). -/
def leafKey (e : TlbEntry) (va : Nat) : Except XFail Nat :=
  let pa := e.leaf / 2 ^ 16 % 2 ^ 36 * 2 ^ 16 + va % 2 ^ e.bits
  match e.leaf / 64 % 4 with
  | 0 => if pa < dramSize then .ok pa else .error (.fail 0x06 2 e.level)
  | 1 => .ok (peerBase (e.leaf / 256 % 8) + pa)
  | _ => .ok (hostBase + pa)

/-- Translation for a unit, which walks the tables afresh each time (log 10), by the rules of user mode (log 68). -/
def State.translateUnit (s : State) (asid va : Nat) (acc : Access) : Except XFail Nat :=
  match s.walk asid va with
  | .error f => .error f
  | .ok e =>
    match leafAllows e acc false with
    | some f => .error f
    | none => leafKey e va

/-! ## The event queue -/

/-- Keys from here on are local and cluster memory, which know neither reservations nor poison. -/
def nearKeys : Nat := 32 * 2 ^ 52

/-- A reservation is broken; one that an LDR has yet to set is not (07 R200). -/
def Resv.broken (r : Resv) : Resv := if r.held.isSome then { r with held := some false } else r

/-- A write breaks the reservations on its granules (07 R200). -/
def State.breakResv (s : State) (key n : Nat) : State :=
  if nearKeys ≤ key then s
  else
    let hit (r : Resv) : Bool := decide (key / 64 ≤ r.granule) && decide (r.granule ≤ (key + n - 1) / 64)
    { s with slices := s.slices.map fun (k, x) =>
        (k, if x.resv.any hit then { x with resv := x.resv.map fun r => if hit r then r.broken else r } else x) }

/-- Bytes of a plain access by another agent meet a held unit (07 R195). -/
def State.heldRange (s : State) (key n : Nat) : Bool :=
  s.units.any fun u => decide (key / 8 ≤ u.key) && decide (u.key ≤ (key + n - 1) / 8)

/-- Bytes of a number, little-endian. -/
def natBytes (n v : Nat) : List Byte := mbytes (mwrite [] 0 n v) 0 n

/-- Adds a record to the event log, a ring of 8,192 (18 R444): TIME, type and payload, padded with zeros (log 27). Types 1 to
7 raise vector 0 (18 R437). -/
def State.log (s : State) (type : Nat) (payload : List Byte) : State :=
  let r := natBytes 8 s.time.toNat ++ [BitVec.ofNat 8 type] ++ (payload ++ List.replicate 23 0).take 23
  let l := s.mgmt.log ++ [r]
  let excess := l.length - 8192
  let s := { s with mgmt := { s.mgmt with log := l.drop excess, flushed := s.mgmt.flushed - excess } }
  if type ≤ 7 then s.raise 0 else s

/-- Word 0 of an event record: KIND, fault code, ASID. -/
def evWord (kind code asid : Nat) : Word := w32 (kind * 2 ^ 24 + code * 2 ^ 16 + asid % 2 ^ 16)

/-- A sector's poison bit is set, and logged (07 R201, 18 R444). -/
def State.notePoison (s : State) (sector cause : Nat) : State :=
  ({ s with poison := bitIns s.poison sector, bad := tdel s.bad sector,
            clean := s.clean.filter fun c => c.sector != sector } : State).log 9
    (BitVec.ofNat 8 cause :: natBytes 8 (64 * sector % 2 ^ 52))
/-- The record of a poison bit set (15 Table 15-5). -/
def poisonRecord (sector cause asid : Nat) : List Word :=
  let a := 64 * sector % 2 ^ 52
  [evWord 0x94 0x08 asid, w32 cause, w32 a, w32 (a / 2 ^ 32), 0, 0, 0, 0]

/-- The record slot at EQTAIL. -/
def State.eqSlot (s : State) : Nat :=
  bits s.sys.eqbaseHi 0 20 * 2 ^ 32 + s.sys.eqbase.toNat + 32 * bits s.sys.eqtail 0 12

/-- Writes a record at EQTAIL (15 R405). Where the write, of half a sector, finds an error of the sector, the record of that joins
those that wait (07 R201). -/
def State.eqWrite (s : State) (ws : List Word) : State :=
  let tail := bits s.sys.eqtail 0 12
  let at_ := s.eqSlot
  let empty := bits s.sys.eqhead 0 12 == tail
  let s := s.breakResv at_ 32
  let s := { s with mem := mwriteBytes s.mem at_ (wordsBytes ws), sys := { s.sys with eqtail := w32 ((tail + 1) % 4096) } }
  let s := if empty then s.raise 1 else s
  match s.bad.lookup (at_ / 64) with
  | some c => { s.notePoison (at_ / 64) c with eqWaiting := s.eqWaiting ++ [(poisonRecord (at_ / 64) c 0, [])] }
  | none => s

def State.eqFull (s : State) : Bool := (bits s.sys.eqtail 0 12 + 1) % 4096 == bits s.sys.eqhead 0 12
/-- A record cannot be written: the ring is full, or an atomic holds a unit of the slot (15 R405, 07 R195). -/
def State.eqBlocked (s : State) : Bool := s.eqFull || s.heldRange s.eqSlot 32

/-- Writes a record, then raises the vectors that report it (18 R437). -/
def State.eqWriteThen (s : State) (ws : List Word) (vs : List Nat) : State := vs.foldl State.raise (s.eqWrite ws)

/-- Writes up to `n` waiting records, oldest first, while they can be written. -/
def State.drainEq : Nat → State → State
  | 0, s => s
  | n + 1, s => match s.eqWaiting with
    | [] => s
    | r :: rest => if s.eqBlocked then s else State.drainEq n (({ s with eqWaiting := rest } : State).eqWriteThen r.1 r.2)
/-- Writes the waiting records, and those that this adds. -/
def State.eqGo (s : State) : State := State.drainEq (s.eqWaiting.length + s.bad.length) s

/-- Posts a record and the vectors that report it; while it cannot be written both wait (15 R405, 18 R437). -/
def State.postThen (s : State) (ws : List Word) (vs : List Nat) : State :=
  ({ s with eqWaiting := s.eqWaiting ++ [(ws, vs)] } : State).eqGo
/-- Posts a record (15 R405). -/
def State.post (s : State) (ws : List Word) : State := s.postThen ws []

/-- Posts a REPLAY record (15 Table 15-5): `source` is its SRC code, `slot` the slot or thread slot, `acc` its code. -/
def State.postReplay (s : State) (who : Waiter) (asid source slot acc va tpc code reason level : Nat)
    (lanes : Tab Pred := []) : State × Nat :=
  let idx := s.nextReplay % 4096
  let s := { s with replays := s.replays ++ [({ idx, who, asid, code, addr := va, lanes } : Replay)], nextReplay := s.nextReplay + 1 }
  (s.post [evWord 0x90 code asid, w32 (source + slot * 2 ^ 16 + acc * 2 ^ 24), w32 va, w32 (va / 2 ^ 32), w32 tpc,
    w32 (reason + level * 8), w32 idx, s.time.setWidth 32], idx)

/-- Sets a sector's poison bit, logs it and posts its record (07 R201). -/
def State.setPoison (s : State) (sector cause asid : Nat) : State :=
  (s.notePoison sector cause).post (poisonRecord sector cause asid)
/-- A read of sectors finds their errors (07 R201). A walk or a fetch that reads a poisoned sector takes its bytes as they stand (log
69). -/
def State.findErrors (s : State) (asid : Nat) (sectors : List Nat) : State :=
  sectors.foldl (fun s k => match s.bad.lookup k with | some c => s.setPoison k c asid | none => s) s

/-- A firmware request that crosses a limit is not carried out, and is logged (11 R281, 18 R444): the row of 11 Table 11-3 (1 placement,
4 draining, 5 pre-emption, 6 power profile) and the number of the queue or the profile (log 27). -/
def State.policyRefused (s : State) (matter n : Nat) : State := s.log 7 (BitVec.ofNat 8 matter :: natBytes 2 n)

/-- The table entries that a walk reads (15 R401). -/
def State.walkAddrs (s : State) (asid va : Nat) : List Nat :=
  let a1 := s.ctxField asid 0 8 / 2 ^ 13 % 2 ^ 39 * 2 ^ 13 + 8 * (va / 2 ^ 42 % 2 ^ 10)
  let e1 := mread s.mem a1 8
  let a2 := e1 / 2 ^ 16 % 2 ^ 36 * 2 ^ 16 + 8 * (va / 2 ^ 29 % 2 ^ 13)
  let e2 := mread s.mem a2 8
  let a3 := e2 / 2 ^ 16 % 2 ^ 36 * 2 ^ 16 + 8 * (va / 2 ^ 16 % 2 ^ 13)
  a1 :: if bitAt e1 0 then a2 :: (if e2 % 4 = 1 then [a3] else []) else []
/-- The sectors that a walk reads, the context's descriptor first. -/
def State.walkSectors (s : State) (asid va : Nat) : List Nat := s.ctxAddr asid / 64 :: (s.walkAddrs asid va).map (· / 64)

/-- The leaf for an address: the core's cache, its cluster's cache, then a walk that fills both (15 R403). -/
def State.leaf (s : State) (core asid va : Nat) : State × Except XFail TlbEntry :=
  match tlbGet (s.core core).tlb asid va with
  | some e => (s, .ok e)
  | none =>
    let c := clusterOf core
    match tlbGet (s.cluster c).tlb asid va with
    | some e => (s.modCore core fun k => { k with tlb := tlbPut k.tlb 64 e }, .ok e)
    | none =>
      let s := s.findErrors asid (s.walkSectors asid va)
      match s.walk asid va with
      | .error f => (s, .error f)
      | .ok e =>
        ((s.modCore core fun k => { k with tlb := tlbPut k.tlb 64 e }).modCluster c
          fun k => { k with tlb := tlbPut k.tlb 2048 e }, .ok e)

/-- Translation of a GLOBAL address (15 R401-R404): the state with its caches filled, and the memory key or a failure. -/
def State.translate (s : State) (core asid va : Nat) (acc : Access) (system : Bool) : State × Except XFail Nat :=
  match s.leaf core asid va with
  | (s, .error f) => (s, .error f)
  | (s, .ok e) =>
    match leafAllows e acc system with
    | some f => (s, .error f)
    | none => (s, leafKey e va)

def accCode : Access → Nat
  | .load => 1 | .store => 2 | .atomic => 3 | .fetch => 4 | .none => 1

/-! ## Messages to mailboxes -/

/-- A core holds a group of a context (06 R152, R160). -/
def State.holds (s : State) (asid core : Nat) : Bool :=
  s.groups.any fun (_, g) => g.asid == asid && g.core == core && !g.retired
/-- The reach map of a context (06 R152). -/
def State.reach (s : State) (asid core : Nat) : Bool := decide (core < 256) && s.holds asid core

/-- A message of a unit (06 R157). -/
def unitMsgOf (asid kind srcCode : Nat) (tag : Word) (payload : List Word) : Msg :=
  { asid := asid, words := w32 (kind * 2 ^ 24 + srcCode) :: tag :: payload }
/-- It leaves for a core's mailbox (06 R157-R160). -/
def State.sendMsg (s : State) (src core : Nat) (m : Msg) : State := s.send src core m.asid none (Pkt.msg m false true)
/-- A unit's message to a core's mailbox (06 R157-R160). -/
def State.unitMsg (s : State) (src core asid kind srcCode : Nat) (tag : Word) (payload : List Word) : State :=
  s.sendMsg src core (unitMsgOf asid kind srcCode tag payload)

/-- An instruction address: a multiple of 4 (02 R27). What a register or a record gives beyond that is dropped (log 58). -/
def instrAddr (a : Addr) : Addr := a &&& ~~~3

/-- The issues that a core makes in a cycle are all made, and none of the next one's (10 R251, 12 R303). -/
def State.coreDone (s : State) (core : Nat) : Bool := decide (core < s.visitCore) || (s.visitCore == 0 && s.visitDp == 0)
/-- The last cycle whose issues a core has made (12 R303). -/
def State.doneCycle (s : State) : Nat := if s.visitCore = 0 ∧ s.visitDp = 0 then s.cycle.toNat - 1 else s.cycle.toNat
/-- None of the issues that a core makes in the cycle is made yet (11 R298). -/
def State.coreFresh (s : State) (core : Nat) : Bool := decide (s.visitCore < core) || (s.visitCore == core && s.visitDp == 0)

/-! ## Moving on, sections, barriers and retirement -/

/-- Bytes of a captured instruction. -/
def bodyLen (w : Word × Word) : Nat := simtLen w.1
/-- Address of body instruction `j` of a frame (04 R109, R111). -/
def Frame.addr (f : Frame) (j : Nat) : Addr := f.pc + 4 + BitVec.ofNat 52 ((f.body.take j).map bodyLen).sum

/-- The instruction is done: the PC moves past it, or the open frame moves to its next replay (04 R109). -/
def Slice.advance (x : Slice) (len : Nat) : Slice :=
  let x := { x with poolSince := none, parkSeq := none }
  let f := x.frame
  if f.act && !f.susp then
    if f.j + 1 < f.body.length then { x with frame := { f with j := f.j + 1 } }
    else if f.i + 1 < f.n then { x with frame := { f with j := 0, i := f.i + 1 } }
    else { x with frame := {} }.modPath fun p => { p with pc := f.addr f.body.length }
  else x.modPath fun p => { p with pc := p.pc + BitVec.ofNat 52 len }

/-- Slices parked on a barrier's phase: those that arrived go on after their instruction, the others are evaluated again
(10 R251). `p` gives the `leave` of a matching park. A saved slice keeps the mark until it resumes (15 R414; log 20). -/
def State.release (s : State) (p : Park → Option Bool) : State :=
  let mark (x : Slice) : Slice := if (x.park.bind p).isSome then { x with woken := true } else x
  { s with slices := s.slices.map fun (k, x) =>
      (k, match x.park.bind p with
        | some true => x.unpark.advance 4
        | some false => { x with woken := true }
        | none => x),
           groups := s.groups.map fun (k, g) => (k, { g with savedSlices := g.savedSlices.map fun (t, x) => (t, mark x) }) }

/-- The near cache of a core is invalidated; fills under way are not kept and no later load shares them (07 R181, R184,
09 Table 09-3). -/
def State.nearInvalidate (s : State) (core : Nat) : State :=
  { s.modCore core (fun k => { k with near := [], nearData := [] }) with
    ops := s.ops.map fun o => if o.core == core then { o with fresh := [], fill := false } else o }

/-- A completed acquire of a slice of the core (09 Table 09-3): at TEAM scope and above the near cache is invalidated. -/
def State.acquireNow (s : State) (core scope : Nat) : State := if 3 ≤ scope then s.nearInvalidate core else s

def sectionKey (domain key : Nat) : Nat := 2 ^ 32 * domain + key
/-- An entry has changed: parked requests on it, and those on their way, are evaluated again (10 R260). -/
def State.wakeSection (s : State) (domain key : Nat) : State :=
  { s.wake (fun o => match o with | .osec d ks => d == domain && ks.contains key | _ => false) with
    ops := s.ops.map fun o => if o.osec != 0 && s.domain o.asid == domain && o.keys.contains key then { o with dirty := true }
      else o }

/-- Entries whose holder satisfies `p` become ABANDONED, each with an event (10 R264). -/
def State.abandonIf (s : State) (p : Holder → Bool) : State :=
  s.sections.foldl (fun s (k, x) =>
    match x.holder with
    | some h =>
      if p h then
        let domain := k / 2 ^ 32
        let key := k % 2 ^ 32
        let s := { s with sections := tset s.sections k { x with abandoned := true, holder := none } }
        (s.post [evWord 0x92 0x0B h.asid, w32 key, w32 domain, 0, 0, 0, 0, 0]).wakeSection domain key
      else s
    | none => s) s

/-- COUNT of a barrier (10 R250). -/
def Barrier.total (b : Barrier) (ret : Nat) : Nat := b.arrived.length + (if b.auto then ret else 0)

/-- Physical number of the barrier that a group or team calls `name`. -/
def findBarrier (t : Tab Barrier) (owner name : Nat) : Option Nat :=
  (t.find? fun (_, b) => b.used && b.owner == owner && b.name == name).map (·.1)

/-- Team of a slice's group. -/
def State.teamOf (s : State) (core slot : Nat) : Option Nat := (s.group? (s.slice core slot).group).map (·.team)

/-- Completion of a named barrier (10 R251). -/
def State.evalBarrier (s : State) (core id ret : Nat) : State :=
  let b := tget {} (s.core core).barriers id
  if b.used && decide (b.expect ≤ b.total ret) then
    (s.modCore core fun k => { k with barriers := tset k.barriers id { b with phase := !b.phase, arrived := [] } }).release
      fun o => match o with | .barrier c i p l => if c == core && i == id && p == b.phase then some l else none | _ => none
  else s

/-- Completion of a team barrier (10 R255): the slices that leave acquire at TEAM scope (R247). -/
def State.evalTeamBarrier (s : State) (c id ret : Nat) : State :=
  let b := tget {} (s.cluster c).barriers id
  if b.used && decide (b.expect ≤ b.total ret) then
    let hit (o : Park) : Option Bool :=
      match o with | .teamBarrier d i p l => if d == c && i == id && p == b.phase then some l else none | _ => none
    let leaving := s.slices.filter fun x => x.2.park.bind hit == some true
    let s := leaving.foldl (fun s x => s.acquireNow (x.1 / 128) 3) s
    (s.modCluster c fun k => { k with barriers := tset k.barriers id { b with phase := !b.phase, arrived := [] } }).release hit
  else s

/-- The rendezvous of a home warp completes when every live slice of it is parked on it (04 R89). The slices evaluate again
from the next cycle on, in the gangs that R79 then forms. -/
def State.evalRendezvous (s : State) (core slot : Nat) : State :=
  let slots := s.warpSlots core slot
  if !slots.isEmpty && slots.all fun t => (s.slice core t).park == some .rendezvous then
    slots.foldl (fun s t => s.modSlice core t fun x => { x.unpark with met := true, stamp := s.cycle.toNat + 1 }) s
  else s

/-- A command of the unit belongs to a group. -/
def MUnit.has (u : MUnit) (g : Nat) : Bool :=
  (u.q0 ++ u.q1 ++ u.q2 ++ u.q3).any (·.group == g) || match u.running with | some (c, _) => c.group == g | none => false

/-- The tiles of a retired group return once its commands have been performed (12 R300), and with them the fragments that its
commands did not take (R314). -/
def Core.freeTiles (k : Core) (g : Nat) : Core :=
  if k.mat.has g then k
  else { k with tiles := k.tiles.filter fun t => !(t.2.used && t.2.owner == g),
                mat := { k.mat with afrags := k.mat.afrags.filter (·.1 != g) } }

/-- What a retired group gives back to its core: barriers (10 R249), queue registers (05 R119), MCAP (12 R321), tiles. -/
def Core.releaseGroup (k : Core) (g : Nat) : Core :=
  let own := k.mat.owner == some g
  ({ k with barriers := k.barriers.filter fun b => !(b.2.used && b.2.owner == g),
            queues := k.queues.filter fun q => !(q.2.used && q.2.owner == g),
            mat := { k.mat with mcap := if own then 0 else k.mat.mcap, owner := if own then none else k.mat.owner } } : Core).freeTiles g

/-- A group's grid loses one group (11 R282). -/
def State.groupGone (s : State) (grid : Nat) (killed : Bool) : State :=
  match s.grids.lookup grid with
  | some g => { s with grids := tset s.grids grid { g with groupsLeft := g.groupsLeft - 1, killed := g.killed || killed } }
  | none => s

/-- A context has a group on some core that is neither retired nor saved, or a handler that runs. -/
def State.residentCtx (s : State) (asid : Nat) : Bool :=
  (s.groups.any fun (_, g) => g.asid == asid && !g.retired && !g.saved) ||
    s.slices.any fun x => x.2.live && x.2.handler && x.2.asid == asid
/-- The context may have left the device: the section limit does not count from now on (10 R265). -/
def State.noteLeave (s : State) (asid : Nat) : State :=
  if s.residentCtx asid then s else s.modCtx asid fun c => { c with left := s.cycle.toNat }

/-- A group retires with its last slice (04 R77). -/
def State.groupEnd (s : State) (g : Nat) : State :=
  match s.group? g with
  | none => s
  | some x =>
    if x.retired || x.slots.any fun t => (s.slice x.core t).live && (s.slice x.core t).group == g then s
    else
      (((s.modGroup g fun y => { y with retired := true }).groupGone x.grid x.killed).modCore x.core fun k =>
        k.releaseGroup g).noteLeave x.asid

/-- A slice retires (04 R77): it issues nothing more; its stream buffers return (08 R218), its sections are abandoned
(10 R264), a rendezvous of the rest may complete, and its group may retire with it. -/
def State.retire (s : State) (core slot : Nat) : State :=
  let x := s.slice core slot
  let bound := (x.ports.filter fun p => p.2.bound).length
  let s := s.setSlice core slot { x.unpark with phase := .retired, hold := none, ports := [], deferred := [], met := false }
  let s := s.modCore core fun k => { k with streamUsed := k.streamUsed - bound }
  let s := x.ports.foldl (fun s p => (s.dropOp p.2.op).modSlice core slot fun y => (y.complete p.2.op).unpend p.2.op) s
  let s := s.abandonIf fun h => h.core == core && h.slot == slot && h.group == x.group
  let s := x.deferred.foldl (fun s f => s.post [evWord 0x91 f.code x.asid, w32 (core + slot * 2 ^ 16), w32 f.addr,
    w32 (f.addr / 2 ^ 32), (f.defer.getD 0).setWidth 32, 0, 0, 0]) s
  if x.handler then s.noteLeave x.asid
  else
    let s := s.groupEnd x.group
    match (s.warpSlots core slot).head? with
    | some t => s.evalRendezvous core t
    | none => s

/-- Kills a group (15 R408): every slice stops, its sections are abandoned, its grid counts it as killed. -/
def State.killGroup (s : State) (g : Nat) : State :=
  match s.group? g with
  | none => s
  | some x =>
    let s := s.modGroup g fun x => { x with killed := true }
    x.slots.foldl (fun s t => if (s.slice x.core t).live && (s.slice x.core t).group == g
      then (s.modSlice x.core t fun y => { y with killed := true }).retire x.core t else s) s

/-! ## Halting and reports -/

/-- The context is attached to the core's debugger (15 R415, DBGCTL). -/
def State.attached (s : State) (core asid : Nat) : Bool :=
  let d := (s.core core).dbgctl
  d.getLsbD 16 && bits d 0 16 == asid

/-- Posts a debug report (15 R416); one that finds a report pending waits. -/
def State.report (s : State) (core slot code : Nat) (pc : Addr) (lanes : Pred) (gang : Pred) (addr : Nat) : State :=
  let x := s.slice core slot
  let g := s.group? x.group
  let ws : List Word := [w32 (code + slot * 256), pc.setWidth 32, w32 (pc.toNat / 2 ^ 32),
    w32 (lanes.toNat + x.path.mask.toNat * 2 ^ 8 + gang.toNat * 2 ^ 16 + (s.liveMask core slot).toNat * 2 ^ 24),
    w32 addr, w32 (addr / 2 ^ 32), w32 ((g.map (·.ix)).getD 0 + x.warp * 2 ^ 8), s.time.setWidth 32]
  s.modCore core fun k =>
    if k.dbgstat.getLsbD 0 then { k with reportsWaiting := k.reportsWaiting ++ [ws] }
    else { k with report := ws, dbgstat := w32 (1 + slot * 2 ^ 8) }

/-- Halts every slice of the group of a slice, or a handler alone (15 R411, Table 15-8). -/
def State.haltGroup (s : State) (core slot kind : Nat) : State :=
  let x := s.slice core slot
  if x.handler then s.modSlice core slot fun y => { y with halted := true }
  else
    match s.group? x.group with
    | none => s
    | some g =>
      let s := s.modGroup x.group fun g => { g with halt := kind, haltTime := s.time.toNat }
      g.slots.foldl (fun s t => if (s.slice g.core t).group == x.group then
        s.modSlice g.core t fun y => { y with halted := true } else s) s

/-! ## Taking a trap (15 R407-R408) -/

/-- TCAUSE of 15 Table 15-3. -/
def causeWord (f : FaultRec) : Word :=
  w32 (f.code + (if f.defer.isSome then 2 ^ 8 else 0) + (if f.part then 2 ^ 9 else 0))

/-- The trap registers as 15 R407 sets them: TPC, cause, masks, address, and the gang and live masks with INH. -/
def trapRegs (x : Slice) (f : FaultRec) (pc : Addr) (lanes gang live : Pred) (inh : Bool) : TrapRegs where
  pc := pc.setWidth 32
  pcHi := w32 (pc.toNat / 2 ^ 32)
  cause := causeWord f
  mask := w32 (lanes.toNat + x.path.mask.toNat * 2 ^ 8)
  addr := w32 f.addr
  addrHi := w32 (f.addr / 2 ^ 32 % 2 ^ 20)
  info := w32 (gang.toNat + live.toNat * 2 ^ 8 + (if inh then 2 ^ 16 else 0))

/-- What a trap entry does to the slice whatever handler it enters: the park ends, reservations break (07 R200), the
shadows of R19 clear, an open frame is suspended (04 R111). -/
def Slice.trapEnter (x : Slice) : Slice :=
  { x.unpark with resv := x.resv.map Resv.broken, cycleShadow := none, timeShadow := none, met := false, poolSince := none, parkSeq := none,
                  frame := if x.frame.act then { x.frame with susp := true } else x.frame }

/-- A user trap is delivered to the program (15 R408, step 2). -/
def Slice.takesUser (x : Slice) (f : FaultRec) : Bool :=
  !x.system && !x.inh && x.trapvec != 0 && !(f.code == 0x11 && decide (32 ≤ f.addr) && decide (f.addr < 64))

/-- Takes a fault in one slice (15 R408): user handler, system handler, or the end of the group. `pc` is TPC. -/
def State.trapSlice (s : State) (core slot : Nat) (f : FaultRec) (pc : Addr) (lanes gang : Pred) (event : Nat) : State :=
  let x := s.slice core slot
  let live := s.liveMask core slot
  if x.takesUser f then
    let y := x.trapEnter
    s.setSlice core slot ({ y with t := trapRegs x f pc lanes gang live true, userEvent := event }.modPath fun p =>
      { p with pc := instrAddr ((p.pc.extractLsb' 32 20) ++ x.trapvec), level := p.level + 1 })
  else if !x.system then
    let y := x.trapEnter
    s.setSlice core slot ({ y with e := trapRegs x f pc lanes gang live x.inh, system := true, sysEvent := event }.modPath
      fun p => { p with pc := instrAddr ((s.sys.sysvecHi.extractLsb' 0 20) ++ s.sys.sysvec), level := p.level + 1 })
  else
    let s := s.post [evWord 0x95 f.code x.asid, w32 (core + slot * 2 ^ 16), causeWord f, pc.setWidth 32, 0, 0, 0, 0]
    let s := s.modSlice core slot fun y => { y with fatal := some (trapRegs x f pc lanes gang live x.inh) }
    if x.handler then (s.modSlice core slot fun y => { y with killed := true }).retire core slot else s.killGroup x.group

/-- A trap event of a gang (04 R92, 15 R408): every member takes it, with its own faulting lanes. -/
def State.trap (s : State) (core : Nat) (slots : List Nat) (f : FaultRec) (pc next : Addr) : State :=
  let gang := s.ixMask core slots
  let tpc := match f.defer with | some p => p | none => if f.next then next else pc
  let asid := (s.slice core (slots.headD 0)).asid
  if (f.code == 0x12 || f.code == 0x13 || f.code == 0x14) && s.attached core asid then
    match slots.head? with
    | none => s
    | some t =>
      let s := s.report core t f.code tpc (tget 0 f.lanes t) gang f.addr
      s.haltGroup core t 1
  else
    let event := s.nextId
    slots.foldl (fun s t => if (s.slice core t).live then s.trapSlice core t f tpc (tget 0 f.lanes t) gang event else s)
      { s with nextId := s.nextId + 1 }

/-- A handler returns to `pc`; a suspended frame resumes instead (15 R409, 04 R111). -/
def Slice.returnTo (x : Slice) (pc : Addr) : Slice :=
  if x.frame.susp then
    { x with frame := { x.frame with susp := false } }.modPath fun p => { p with pc := x.frame.pc, level := p.level - 1 }
  else x.modPath fun p => { p with pc := instrAddr pc, level := p.level - 1 }

/-- Return from a user handler (15 R409 TRET): PC[51:32] : TPC, and INH clear. -/
def Slice.tret (x : Slice) : Slice :=
  { x with t := { x.t with info := x.t.info &&& ~~~(w32 (2 ^ 16)) }, userEvent := 0 }.returnTo
    (x.path.pc.extractLsb' 32 20 ++ x.t.pc)

/-- Return from system mode (15 R409 ERET). -/
def Slice.eret (x : Slice) : Slice :=
  let inh := x.e.info.getLsbD 16
  let info := if inh then x.t.info ||| w32 (2 ^ 16) else x.t.info &&& ~~~(w32 (2 ^ 16))
  { x with t := { x.t with info := info }, system := false, sysEvent := 0 }.returnTo (x.e.pcHi.extractLsb' 0 20 ++ x.e.pc)

end Sys2Proof.Machine
end

