-- ==== Sys2Proof/Machine/Operands.lean ====
section
/-! DEFINITION. Operand forms (02 R35-R40), and the frame in which every SIMT instruction runs for its gang: decode-time
operand checks, privilege, stalls, rendezvous, the member slices in order, faults, parks and the advance of the PC (01
R21-R23, 02 R46-R47, 04 R79-R80, R89, R92). -/

namespace Sys2Proof.Machine

/-- Why an instruction ends without its effect. -/
inductive Stop where
  /-- A fault (01 R22). -/
  | fault (f : FaultRec)
  /-- The gang parks (01 R23, 04 R80). -/
  | park (o : Park)
  /-- The gang parks, each member, by slot, on its own part of the object (15 R449). -/
  | parks (l : List (Nat × Park))
  /-- The gang issues nothing in this cycle. -/
  | stall
  /-- A fault after the instruction's walks: what they filled and found stays (07 R201). -/
  | found (s : State) (f : FaultRec)
deriving DecidableEq, Repr

abbrev Meaning := Host.Outcome State Fault Refusal

/-! ## Operand codes -/

/-- B of an R or PC format in a vector form (02 Table 02-3). -/
def vbOk (b : BitVec 6) (x : BitVec 1) : Bool := x == 0 || decide (b.toNat < 44) || (decide (48 ≤ b.toNat) && decide (b.toNat ≤ 53))
/-- A code marked Yes in Table 02-3. -/
def codeOk (b : BitVec 6) : Bool := decide (b.toNat < 32) || b.toNat == 48 || b.toNat == 51 || b.toNat == 52 || b.toNat == 53
/-- B of a uniform form (02 R37). -/
def sbOk (b : BitVec 6) (x : BitVec 1) : Bool := if x == 0 then decide (b.toNat < 32) else codeOk b
/-- An S index in a 6-bit field. -/
def sOk (a : BitVec 6) : Bool := decide (a.toNat < 32)
/-- A predicate in a 6-bit field (02 R38). -/
def pOk (a : BitVec 6) : Bool := decide (a.toNat < 8)
/-- A register group's alignment (02 R39). -/
def alignOk (a : BitVec 6) (n : Nat) : Bool := a.toNat % n == 0

/-- Registers a B operand reads: (file, index). -/
def bSrc (b : BitVec 6) (x : BitVec 1) : List (Nat × Nat) :=
  if x == 0 then [(0, b.toNat)] else if b.toNat < 32 then [(1, b.toNat)] else []
/-- Registers a uniform B operand reads. -/
def sbSrc (b : BitVec 6) (x : BitVec 1) : List (Nat × Nat) :=
  if x == 0 || decide (b.toNat < 32) then [(1, b.toNat)] else []
/-- A group of `n` registers from `a`. -/
def group (file a n : Nat) : List (Nat × Nat) := (List.range n).map fun i => (file, a + i)

/-- A uniform operand (02 R37): S[B], or a code of Table 02-3. -/
def Slice.uniform (y : Slice) (b : BitVec 6) (x : BitVec 1) : Word :=
  if x == 0 || decide (b.toNat < 32) then y.sr b.toNat
  else if b.toNat = 51 then w32 y.ix
  else if b.toNat = 52 then 1
  else if b.toNat = 53 then 0x3F800000
  else 0

/-- Physical queue register that the slice's group calls Q`n` (05 R119). -/
def State.queueOf (s : State) (core slot n : Nat) : Option Nat :=
  let x := s.slice core slot
  if x.handler then none
  else ((s.core core).queues.find? fun (_, q) => q.used && q.owner == x.group && q.name == n).map (·.1)

/-- Slices parked on a queue are evaluated again after it changes (05 R121): from their next visit on, which for a gang of a higher
datapath of the same position is in the same cycle (DESIGN CHOICE, log 75). -/
def State.setQueue (s : State) (core q : Nat) (es : List (List Word)) : State :=
  (s.modCore core fun k => { k with queues := tset k.queues q { tget {} k.queues q with entries := es } }).wake
    fun o => o == .queue core q

/-- One pop of a queue register (05 R120). -/
def State.popQ (s : State) (core slot n : Nat) : Except Stop (State × List Word) :=
  match s.queueOf core slot n with
  | none => .error (.fault { code := 0x10 })
  | some q =>
    match (tget {} (s.core core).queues q).entries with
    | [] => .error (.park (.queue core q))
    | e :: es => .ok (s.setQueue core q es, e)

/-- Elements of a bound pattern (08 R220). -/
def Port.total (p : Port) : Nat :=
  ((List.range 4).map fun k => bytesNat ((p.pattern.drop (24 + 2 * k)).take 2) + 1).foldl (· * ·) 1

/-- One pop of a stream port (02 R36, 08 R223). -/
def State.popN (s : State) (core slot n : Nat) : Except Stop (State × List Word) :=
  let x := s.slice core slot
  let p := tget {} x.ports n
  if !p.bound then .error (.fault { code := 0x17 })
  else if p.total ≤ p.popped then .ok (s, [])
  else match p.buf with
    | [] => .error .stall
    | e :: rest => .ok (s.setSlice core slot { x with ports := tset x.ports n { p with buf := rest, popped := p.popped + 1 } }, e)

/-- A fault that names no lane of its own is that of the member's active lanes (04 R92; DEDUCED, log 22). -/
def Slice.laned {α : Type} (x : Slice) (slot : Nat) (g : BitVec 4) : Except Stop α → Except Stop α
  | .error (.fault f) => .error (.fault (if f.lanes.isEmpty then { f with lanes := [(slot, x.active g)] } else f))
  | r => r

/-- The B operand of a vector form for a member slice (02 R35-R36, 05 R124): each lane's value. Qn and Nn pop only when a
lane is active. -/
def State.operandB (s : State) (core slot : Nat) (g : BitVec 4) (b : BitVec 6) (x : BitVec 1) :
    Except Stop (State × (Nat → Word)) :=
  let y := s.slice core slot
  let n := b.toNat
  if x == 0 then .ok (s, fun l => y.vr n l)
  else if n < 32 then .ok (s, fun _ => y.sr n)
  else if n < 40 then
    if y.active g = 0 then .ok (s, fun _ => 0)
    else (y.laned slot g (s.popQ core slot (n - 32))).map fun (s, e) => (s, fun l => e.getD l 0)
  else if n < 44 then
    if y.active g = 0 then .ok (s, fun _ => 0)
    else (y.laned slot g (s.popN core slot (n - 40))).map fun (s, e) => (s, fun l => e.getD l 0)
  else if n = 49 then .ok (s, fun l => w32 (y.laneIx l))
  else if n = 50 then .ok (s, fun l => w32 l)
  else .ok (s, fun _ => y.uniform b x)

/-! ## The frame of a SIMT instruction -/

/-- What an instruction asks before it executes. -/
structure Head where
  /-- Length in bytes. -/
  len : Nat := 4
  /-- Step 5 of 02 R46. -/
  ok : Bool := true
  /-- Step 6 of 02 R46: not legal in user mode. -/
  priv : Bool := false
  /-- Registers it reads: (file, index); none may be pending (04 R80). -/
  srcs : List (Nat × Nat) := []
  /-- A memory access, message, request or fence, which waits for an acquire in progress (09 R236). -/
  mem : Bool := false
  /-- A rendezvous instruction (04 R89). -/
  rdv : Bool := false
  /-- The PC moves past the instruction when it is done. -/
  adv : Bool := true

/-- Objects on which a handler does not park (06 R165). -/
def blocksHandler : Park → Bool
  | .miss _ | .replay _ | .answer _ => false
  | _ => true

/-- Goes on with a next state. -/
def Meaning.andThen (m : Meaning) (f : State → State) : Meaning :=
  match m with
  | .next s => .next (f s)
  | .fault e => .fault e
  | .refused r => .refused r

/-- A gang takes a fault. -/
def State.gangTrap (s : State) (len : Nat) (f : FaultRec) : State :=
  s.trap s.issuer.core s.issuer.slots f s.issuer.pc (s.issuer.pc + BitVec.ofNat 52 len)

/-- The gang parks, each member on its object; the order of first parks is the order of evaluation (06 R174, 07 R184). -/
def State.parkGang (s : State) (o : Nat → Park) : State :=
  s.issuer.slots.foldl (fun s t => s.modSlice s.issuer.core t fun x =>
    { x.parkOn (o t) with parkSeq := some (x.parkSeq.getD (s.nextId - 1)) }) { s with nextId := s.nextId + 1 }

/-- What the walks of a faulting instruction left in `t`; the members have counted no issue. -/
def State.walked (s t : State) : State :=
  s.issuer.slots.foldl (fun u i => u.modSlice s.issuer.core i fun x =>
    { x with fair := (s.slice s.issuer.core i).fair, met := (s.slice s.issuer.core i).met }) t

/-- What a stop does to the gang (01 R22-R23, 04 R80, 06 R165). -/
def State.stop (s : State) (len : Nat) : Stop → Meaning
  | .fault f => .next (s.gangTrap len f)
  | .found t f => .next ((s.walked t).gangTrap len f)
  | .stall => .next s
  | .park o =>
    if blocksHandler o && s.issuer.slots.any fun t => (s.slice s.issuer.core t).handler then
      .next (s.gangTrap len { code := 0x18 })
    else .next (s.parkGang fun _ => o)
  | .parks l =>
    if (l.any fun p => blocksHandler p.2) && s.issuer.slots.any fun t => (s.slice s.issuer.core t).handler then
      .next (s.gangTrap len { code := 0x18 })
    else .next (s.parkGang fun t => (l.lookup t).getD .rendezvous)

/-- An issue of the current path (04 R85); a rendezvous that has been met is used up (R89). -/
def Slice.issued (x : Slice) : Slice := { x with fair := x.fair + 1, met := false }

/-- Every member counts the issue. An attempt that ends in a fault, a stall or a park does not count; what a body parks of itself, as
BARSYN does, counts (DESIGN CHOICE: 04 R85 counts issues and does not say; log 79). -/
def State.countIssue (s : State) : State :=
  s.issuer.slots.foldl (fun s t => s.modSlice s.issuer.core t Slice.issued) s

/-- Every member moves past the instruction. -/
def State.advanceAll (s : State) (len : Nat) : State :=
  s.issuer.slots.foldl (fun s t => s.modSlice s.issuer.core t fun x => x.advance len) s

/-- Runs an instruction for its gang: `body` is the execution of step 7 of 02 R46, over the whole gang. -/
def gangwise (h : Head) (s : State) (body : State → Except Stop State) : Meaning :=
  let core := s.issuer.core
  let slots := s.issuer.slots
  let some1 (p : Slice → Bool) : Bool := slots.any fun t => p (s.slice core t)
  if !h.ok then .next (s.gangTrap h.len { code := 0x02 })
  else if h.priv && some1 (fun x => !x.system) then .next (s.gangTrap h.len { code := 0x03 })
  else if some1 (fun x => x.pendingReg 9 0 || (h.mem && !x.acquires.isEmpty) ||
      h.srcs.any fun r => x.pendingReg r.1 r.2) then .next s
  else if h.rdv && some1 (fun x => !x.met) then
    match s.stop h.len (.park .rendezvous) with
    | .next t => .next (match slots.head? with | some a => t.evalRendezvous core a | none => t)
    | o => o
  else
    match body s.countIssue with
    | .ok t => .next (if h.adv then t.advanceAll h.len else t)
    | .error st => s.stop h.len st

/-- The fault of the lowest lane, with every member's faulting lanes (01 R22, 04 R92): each member is run on its own. -/
def gangFault (s : State) (core : Nat) (slots : List Nat) (body : State → Nat → Nat → Except Stop State) : Option FaultRec :=
  let fs := slots.filterMap fun t =>
    match body s core t with | .error (.fault f) => some (t, f) | _ => none
  fs.head?.map fun x => { x.2 with lanes := fs.map fun y => (y.1, tget 0 y.2.lanes y.1) }

/-- The B operand of every member, ascending: slot and values. A fault names every member that raises it (04 R92). -/
def State.gangOperandB (s : State) (g : BitVec 4) (b : BitVec 6) (x : BitVec 1) :
    Except Stop (State × List (Nat × (Nat → Word))) :=
  match gangFault s s.issuer.core s.issuer.slots fun s core t => (s.operandB core t g b x).map (·.1) with
  | some f => .error (.fault f)
  | none => s.issuer.slots.foldlM (fun p t => (p.1.operandB s.issuer.core t g b x).map fun r => (r.1, p.2 ++ [(t, r.2)])) (s, [])

/-- Runs an instruction that acts in each member slice by itself, in ascending order. -/
def simt (h : Head) (s : State) (body : State → Nat → Nat → Except Stop State) : Meaning :=
  gangwise h s fun s =>
    match gangFault s s.issuer.core s.issuer.slots body with
    | some f => .error (.fault f)
    | none => s.issuer.slots.foldlM (fun s t => body s s.issuer.core t) s

/-- The fault of the lowest failing lane of a member; TMASK names every failing lane. `chk` gives a lane's code and value
for TADDR. -/
def checkLanes (slot : Nat) (lanes : List Nat) (chk : Nat → Option (Nat × Nat)) : Except Stop Unit :=
  match lanes.filter fun l => (chk l).isSome with
  | [] => .ok ()
  | l :: rest =>
    let mask := (l :: rest).foldl (fun (m : Pred) i => m ||| (1 <<< i)) 0
    match chk l with
    | some (code, addr) => .error (.fault { code := code, addr := addr, lanes := [(slot, mask)] })
    | none => .ok ()

/-- Lane masks by slot. -/
def laneMasks (ls : List (Nat × Nat)) : Tab Pred :=
  ls.foldl (fun t p => tset t p.1 (tget 0 t p.1 ||| (1 <<< p.2))) []

/-- A fault that names no lane. -/
def raise {α : Type} (code : Nat) (addr : Nat := 0) : Except Stop α := .error (.fault { code := code, addr := addr })

/-- A fault that some members raise, with their active lanes. -/
def State.faultOf {α : Type} (s : State) (g : BitVec 4) (slots : List Nat) (code addr : Nat) : Except Stop α :=
  .error (.fault { code := code, addr := addr, lanes := slots.map fun t => (t, (s.slice s.issuer.core t).active g) })

/-- A fault that every member with an active lane raises. -/
def State.faultAll {α : Type} (s : State) (g : BitVec 4) (code : Nat) (addr : Nat := 0) : Except Stop α :=
  .error (.fault { code := code, addr := addr,
                   lanes := s.issuer.slots.map fun t => (t, (s.slice s.issuer.core t).active g) })

/-- Members with an active lane, ascending (05 R120). -/
def State.taking (s : State) (g : BitVec 4) : List Nat :=
  s.issuer.slots.filter fun t => (s.slice s.issuer.core t).active g != 0

/-- Opens an operation (log 2): the members' counter, and the registers that are pending until it ends. -/
def State.openOp (s : State) (o : Op) : State :=
  let regs : List Pending := match o.dest with
    | .none => []
    | .v d n => (List.range n).map fun i => ⟨0, d + i, o.id, false⟩
    | .s d n => (List.range n).map fun i => ⟨1, d + i, o.id, false⟩
  o.members.foldl (fun s t => s.modSlice o.core t fun x =>
    { x with counted := (match o.code with | some c => x.counted ++ [⟨c, o.id, false⟩] | none => x.counted),
             pending := x.pending ++ regs }) { s with ops := s.ops ++ [o], nextId := max s.nextId (o.id + 1) }

/-- An operation of one member whose answer a unit writes to S registers. -/
def State.unitOp (s : State) (slot d n : Nat) : Op :=
  { id := s.nextId, core := s.issuer.core, asid := (s.slice s.issuer.core slot).asid, pc := s.issuer.pc, members := [slot],
    left := 1, dest := .s d n }

/-- A unit's answer to an operation of one member: the words of its destination, which UNIT_ANSWER_ARRIVAL writes. -/
def State.answer (s : State) (op slot d : Nat) (ws : List Nat) : State :=
  s.modOp op fun o => { o with left := 0, writes := ((List.range ws.length).zip ws).map fun p => ⟨slot, 1, d + p.1, p.2⟩ }

/-- A uniform instruction: it executes in a member with an active lane (02 R29). -/
def uniformly (h : Head) (g : BitVec 4) (s : State) (body : State → Nat → Nat → Except Stop State) : Meaning :=
  simt h s fun s core slot =>
    let x := s.slice core slot
    if x.active g = 0 then .ok s else x.laned slot g (body s core slot)

/-- Writes V[d] of the active lanes of a member. -/
def Slice.writeLanes (x : Slice) (d : Nat) (lanes : List Nat) (f : Nat → Word) : Slice :=
  lanes.foldl (fun y l => y.setV d l (f l)) x

/-- One result per active lane from A, B and the old D, with flags ORed into FPFLAGS (05 R124). -/
def lanewise (s : State) (core slot : Nat) (g : BitVec 4) (d a : Nat) (b : Nat → Word)
    (f : Word → Word → Word → Word → Word × BitVec 5) : State :=
  let x := s.slice core slot
  let r := fun l => f x.fpctl (x.vr a l) (b l) (x.vr d l)
  let fl := (x.lanes g).foldl (fun m l => m ||| (r l).2) 0
  s.setSlice core slot ((x.writeLanes d (x.lanes g) fun l => (r l).1).orFlags fl)

/-- A vector form with sources A, B and, when `third`, the old D (05 R124). The function takes FPCTL, a, b and d. -/
def vec3 (f : R3) (third : Bool) (s : State) (op : Word → Word → Word → Word → Word × BitVec 5) : Meaning :=
  let d := f.d.toNat
  simt { ok := vbOk f.b f.x, srcs := (0, f.a.toNat) :: bSrc f.b f.x ++ (if third then [(0, d)] else []) } s
    fun s core slot => do
      let (s, b) ← s.operandB core slot f.g f.b f.x
      pure (lanewise s core slot f.g d f.a.toNat b op)

/-- A unary vector form. -/
def vec2 (f : R2) (s : State) (op : Word → Word → Word × BitVec 5) : Meaning :=
  simt { srcs := [(0, f.a.toNat)] } s fun s core slot =>
    .ok (lanewise s core slot f.g f.d.toNat f.a.toNat (fun _ => 0) fun c a _ _ => op c a)

/-- An immediate vector form: the function takes a and the old d. -/
def vecImm (g : BitVec 4) (d a : Nat) (srcs : List (Nat × Nat)) (s : State) (op : Word → Word → Word) : Meaning :=
  simt { srcs := srcs } s fun s core slot =>
    .ok (lanewise s core slot g d a (fun _ => 0) fun _ a _ d => (op a d, 0))

/-- A uniform form over S registers (05 R131). -/
def uni3 (f : R3) (s : State) (op : Word → Word → Word) : Meaning :=
  uniformly { ok := sOk f.d && sOk f.a && sbOk f.b f.x, srcs := (1, f.a.toNat) :: sbSrc f.b f.x } f.g s
    fun s core slot =>
      let x := s.slice core slot
      .ok (s.setSlice core slot (x.setS f.d.toNat (op (x.sr f.a.toNat) (x.uniform f.b f.x))))

/-- A unary uniform form. -/
def uni2 (f : R2) (s : State) (op : Word → Word) : Meaning :=
  uniformly { ok := sOk f.d && sOk f.a, srcs := [(1, f.a.toNat)] } f.g s fun s core slot =>
    let x := s.slice core slot
    .ok (s.setSlice core slot (x.setS f.d.toNat (op (x.sr f.a.toNat))))

end Sys2Proof.Machine
end

