-- ==== Sys2Proof/Machine/Float.lean ====
section
/-! DEFINITION. Floating arithmetic on F32 lanes (05 R134-R138) and the approximate functions of 03 Table 03-5. -/

namespace Sys2Proof.Machine

def one32 : Nat := 0x3F800000
def nan32 : Nat := 0x7FC00000
def inf32 : Nat := 0x7F800000
def sign32 : Nat := 0x80000000

/-- A floating form of A and B on F32 encodings: the function takes FPCTL. -/
def fvec (f : R3) (s : State) (op : Word → Nat → Nat → Nat × Flg) : Meaning :=
  vec3 f false s fun c a b _ => let r := op c a.toNat b.toNat; (w32 r.1, r.2)
/-- A floating form of A, B and the old D. -/
def fvecD (f : R3) (s : State) (op : Word → Nat → Nat → Nat → Nat × Flg) : Meaning :=
  vec3 f true s fun c a b d => let r := op c a.toNat b.toNat d.toNat; (w32 r.1, r.2)
/-- A unary floating form. -/
def fvec1 (f : R2) (s : State) (op : Word → Nat → Nat × Flg) : Meaning :=
  vec2 f s fun c a => let r := op c a.toNat; (w32 r.1, r.2)

def execFadd (f : R3) (s : State) : Meaning := fvec f s f32.fadd
def execFsub (f : R3) (s : State) : Meaning := fvec f s f32.fsub
def execFmul (f : R3) (s : State) : Meaning := fvec f s f32.fmul
def execFmin (f : R3) (s : State) : Meaning := fvec f s fun c a b => f32.minmax (ftzOf c) false a b
def execFmax (f : R3) (s : State) : Meaning := fvec f s fun c a b => f32.minmax (ftzOf c) true a b
/-- Sign operations copy every other bit and set no flag (R135). -/
def execFcpsgn (f : R3) (s : State) : Meaning := fvec f s fun _ a b => (b / sign32 * sign32 + a % sign32, 0)
def execFfma (f : R3) (s : State) : Meaning := fvecD f s f32.ffma
def execFfms (f : R3) (s : State) : Meaning := fvecD f s f32.ffms
def execFabs (f : R2) (s : State) : Meaning := fvec1 f s fun _ a => (a % sign32, 0)
def execFneg (f : R2) (s : State) : Meaning := fvec1 f s fun _ a => ((a + sign32) % 2 ^ 32, 0)
def execFsqrt (f : R2) (s : State) : Meaning := fvec1 f s f32.fsqrt
def execFdiv (f : R3) (s : State) : Meaning := fvec f s f32.fdiv

/-- FLDEXP: b is an integer. Beyond 500 every finite non-zero a overflows or vanishes alike. -/
def fldexp (c : Word) (a b : Nat) : Nat × Flg :=
  let n : Int := (w32 b).toInt
  f32.op1 c (Val.ldexp (if n < -500 then -500 else if n > 500 then 500 else n)) a
def execFldexp (f : R3) (s : State) : Meaning := fvec f s fldexp

/-- The fractional part `x - floor x` of a finite value: +0 for a zero, and for another whole number the zero of an exact difference
(03 R64; log 43). -/
def fractVal (rm : Mode) (neg : Bool) (m : Nat) (e : Int) : Val :=
  let d := (-e).toNat
  let r := m % 2 ^ d
  .fin (r == 0 && m != 0 && rm == .rdn) (if neg && r != 0 then 2 ^ d - r else r) e false

/-- FFRACT (R137). -/
def ffract (c : Word) (a : Nat) : Nat × Flg :=
  match f32.decode (f32.flush (ftzOf c) a) with
  | .nan sn => (nan32, (Val.nan sn).snan)
  | .inf _ => (nan32, nv)
  | .fin neg m e _ =>
    let r := f32.encode (rmOf c) false (ftzOf c) (fractVal (rmOf c) neg m e)
    if r.1 = one32 then (0x3F7FFFFF, nx) else r
def execFfract (f : R2) (s : State) : Meaning := fvec1 f s ffract

/-- FRND (R137). -/
def frnd (c : Word) (a : Nat) : Nat × Flg :=
  let a := f32.flush (ftzOf c) a
  match f32.decode a with
  | .nan sn => (nan32, (Val.nan sn).snan)
  | .inf _ => (a, 0)
  | .fin neg m e _ =>
    let r := (roundUnits (rmOf c) neg m e false 0).1
    ((if decide (0 ≤ e) then (a, 0) else f32.encode .rz false false (.fin neg r 0 false)).1, 0)
def execFrnd (f : R2) (s : State) : Meaning := fvec1 f s frnd

/-- FCLASS's bit (R138). -/
def fclass (a : Nat) : Nat :=
  let neg := decide (sign32 ≤ a)
  match f32.decode a with
  | .nan sn => if sn then 8 else 9
  | .inf n => if n then 0 else 7
  | .fin _ m _ _ =>
    if m = 0 then (if neg then 3 else 4)
    else if f32.subnormal a then (if neg then 2 else 5) else (if neg then 1 else 6)
def execFclass (f : R2) (s : State) : Meaning := fvec1 f s fun _ a => (2 ^ fclass a, 0)

/-- FSAT: Clamp to +0 … 1.0; a NaN gives +0. -/
def fsat (c : Word) (a : Nat) : Nat × Flg :=
  let a := f32.flush (ftzOf c) a
  match f32.decode a with
  | .nan sn => (0, (Val.nan sn).snan)
  | _ => (if sign32 ≤ a then 0 else if one32 < a then one32 else a, 0)
def execFsat (f : R2) (s : State) : Meaning := fvec1 f s fsat

end Sys2Proof.Machine
end

