-- ==== Sys2Proof/Machine/Approx.lean ====
section
/-! DEFINITION. The approximate functions of 03 Table 03-5. Each result is the part's own fixed map (an opaque function of
Config) wherever that lies within the bound of the table; elsewhere it is the exact result rounded to nearest, so that the
bound holds whatever the map is (log 3). Exact results are carried in units of 2^-160, with an error far below the bounds. -/

namespace Sys2Proof.Machine

/-- Fixed-point one. -/
def fx1 : Nat := 2 ^ 160
/-- π and ln 2 in units of 2^-160. -/
def fxPi : Nat := 4591442807048218921384805199743311128454155024418
def fxLn2 : Nat := 1013035739299659071135698605846798551586536899366
def fxMul (a b : Nat) : Nat := a * b / fx1

/-- e^r for r below 1. -/
def fxExp (r : Nat) : Nat := (List.range 45).foldl (fun acc i => fx1 + fxMul r acc / (45 - i)) fx1
/-- sin θ for θ up to π/2. -/
def fxSin (t : Nat) : Nat :=
  fxMul t ((List.range 30).foldl (fun acc i => fx1 - fxMul (fxMul t t) acc / ((2 * (30 - i)) * (2 * (30 - i) + 1))) fx1)
/-- log2 y for y from 1 to 2. -/
def fxLog2 (y : Nat) : Nat :=
  let z := (y - fx1) * fx1 / (y + fx1)
  let z2 := fxMul z z
  let s := (List.range 51).foldl (fun acc i => fx1 / (2 * (50 - i) + 1) + fxMul z2 acc) 0
  2 * fxMul z s * fx1 / fxLn2

/-- The result of a function before it is delivered: its sign and magnitude `m * 2^e` (exactly, when `exact`), and the
bound `mul * 2^unit`. -/
structure Interval where
  neg : Bool
  m : Nat
  e : Int
  exact : Bool
  mul : Nat
  unit : Int
deriving DecidableEq, Repr

/-- Exponent of an ulp at the binade of `m * 2^e`. -/
def ulpAt (m : Nat) (e : Int) : Int := max (e + m.log2) (-126) - 23

/-- A code lies within the bound. -/
def Interval.near (t : Interval) (code : Nat) : Bool :=
  match f32.decode code with
  | .fin n m e _ =>
    let q := min (min e t.e) t.unit
    let d := scaled n m e q - scaled t.neg t.m t.e q
    decide ((d.natAbs : Int) ≤ scaled false t.mul t.unit q + scaled false (2 ^ 40) t.e q)
  | _ => false

/-- Delivers a result: the map's value if it is within the bound; NX unless it is exact; a subnormal one, exact or not, is flushed
under FTZ (R65, R66). -/
def Interval.deliver (t : Interval) (c : Word) (free : Word) : Nat × Flg :=
  let code := if t.near free.toNat then free.toNat else (f32.encode .rne false false (.fin t.neg t.m t.e (!t.exact))).1
  let hit := t.exact && (f32.decode code).cmp (.fin t.neg t.m t.e false) == 0
  let mag := code % sign32
  if ftzOf c && f32.subnormal code then (code - mag, uf ||| nx)
  else if hit then (code, 0)
  else (code, nx ||| flagIf (mag == inf32) ofl ||| flagIf (decide (mag < 2 ^ 23)) uf)

/-- A function with its special results: `sp` for the infinities and zeros, `fn` for the other finite values. -/
def approx (c : Word) (a : Nat) (free : Word → Word) (inf zero : Bool → Nat × Flg)
    (fn : Bool → Nat → Int → Interval ⊕ (Nat × Flg)) : Nat × Flg :=
  let a := f32.flush (ftzOf c) a
  match f32.decode a with
  | .nan sn => (nan32, (Val.nan sn).snan)
  | .inf neg => inf neg
  | .fin neg m e _ =>
    if m = 0 then zero neg
    else match fn neg m e with
      | .inl t => t.deliver c (free (w32 a))
      | .inr r => r

def signed32 (neg : Bool) (code : Nat) : Nat := f32.signed neg code

def frcp (c : Word) (a : Nat) : Nat × Flg :=
  approx c a Config.frcp (fun n => (signed32 n 0, 0)) (fun n => (signed32 n inf32, dz)) fun neg m e =>
    let q := 2 ^ 184 / m
    .inl ⟨neg, q, -e - 184, 2 ^ 184 % m == 0, 1, ulpAt q (-e - 184)⟩

def frsq (c : Word) (a : Nat) : Nat × Flg :=
  approx c a Config.frsq (fun n => if n then (nan32, nv) else (0, 0)) (fun n => (signed32 n inf32, dz)) fun neg m e =>
    if neg then .inr (nan32, nv)
    else
      let odd := e % 2 != 0
      let x := if odd then 2 * m else m
      let h := (if odd then e - 1 else e) / 2
      let r := isqrt (2 ^ 320 / x) 161 0
      .inl ⟨false, r, -h - 160, r * r * x == 2 ^ 320, 1, ulpAt r (-h - 160)⟩

/-- A finite value in units of 2^-160, as its floor and its fraction. -/
def fxSplit (neg : Bool) (m : Nat) (e : Int) : Int × Nat :=
  let z := scaled neg m e (-160)
  (z / fx1, (z % fx1).toNat)

def fexp2 (c : Word) (a : Nat) : Nat × Flg :=
  approx c a Config.fexp2 (fun n => (if n then 0 else inf32, 0)) (fun _ => (one32, 0)) fun neg m e =>
    if !neg && decide (7 ≤ e + m.log2) then .inr (inf32, ofl)
    else
      -- Below -2^10 the result is far under the least subnormal.
      let (k, f) := if decide (10 ≤ e + m.log2) then ((-1024 : Int), 0) else fxSplit neg m e
      let v := fxExp (fxMul f fxLn2)
      .inl ⟨false, v, k - 160, f == 0, 2, ulpAt v (k - 160)⟩

def flog2 (c : Word) (a : Nat) : Nat × Flg :=
  approx c a Config.flog2 (fun n => if n then (nan32, nv) else (inf32, 0)) (fun _ => (signed32 true inf32, dz))
    fun neg m e =>
      if neg then .inr (nan32, nv)
      else
        let y := m * 2 ^ (160 - m.log2)
        let v : Int := (e + m.log2) * fx1 + fxLog2 y
        let inside := decide (-1 ≤ e + m.log2) && (decide (e + m.log2 < 1) || (e + m.log2 == 1 && y == fx1))
        if v = 0 then .inr (0, 0)
        else .inl ⟨decide (v < 0), v.natAbs, -160, y == fx1, if inside then 1 else 2,
          if inside then -22 else ulpAt v.natAbs (-160)⟩

/-- sin(πt) for t in units of 2^-160: sign, magnitude, and whether it is exact. -/
def fxSinPi (t : Int) : Bool × Nat × Bool :=
  let u := (t % (2 * fx1)).toNat
  let neg := decide (fx1 ≤ u)
  let w := u % fx1
  let w := if 2 * w ≤ fx1 then w else fx1 - w
  if 2 * w = fx1 then (neg, fx1, true) else (neg, fxSin (fxMul w fxPi), w == 0)

def fsinpi (c : Word) (a : Nat) : Nat × Flg :=
  approx c a Config.fsinpi (fun _ => (nan32, nv)) (fun n => (signed32 n 0, 0)) fun neg m e =>
    if (fxSplit neg m e).2 = 0 then .inr (signed32 neg 0, 0)
    else
      let (sg, v, ex) := fxSinPi (scaled neg m e (-160))
      .inl ⟨sg, v, -160, ex, 1, -22⟩

def fcospi (c : Word) (a : Nat) : Nat × Flg :=
  approx c a Config.fcospi (fun _ => (nan32, nv))
    (fun n => (Interval.mk false fx1 (-160) true 1 (-22)).deliver c (Config.fcospi (w32 (signed32 n 0)))) fun neg m e =>
    if (fxSplit neg m e).2 = fx1 / 2 then .inr (0, 0)
    else
      let (sg, v, ex) := fxSinPi (scaled neg m e (-160) + (fx1 / 2 : Nat))
      .inl ⟨sg, v, -160, ex, 1, -22⟩

def ftanh (c : Word) (a : Nat) : Nat × Flg :=
  approx c a Config.ftanh (fun n => (signed32 n one32, 0)) (fun n => (signed32 n 0, 0)) fun neg m e =>
    -- Beyond 64 the result is 1 to within 2^-180.
    let y := if decide (6 ≤ e + m.log2) then 128 * fx1 else (2 * scaled false m e (-160)).toNat
    let ex := fxExp (y % fxLn2) * 2 ^ (y / fxLn2)
    let v := (ex - fx1) * fx1 / (ex + fx1)
    let big := decide (0 ≤ e + m.log2)
    .inl ⟨neg, v, -160, false, if big then 2 else 1, if big then ulpAt v (-160) else -22⟩

def execFrcp (f : R2) (s : State) : Meaning := fvec1 f s frcp
def execFrsq (f : R2) (s : State) : Meaning := fvec1 f s frsq
def execFexp2 (f : R2) (s : State) : Meaning := fvec1 f s fexp2
def execFlog2 (f : R2) (s : State) : Meaning := fvec1 f s flog2
def execFsinpi (f : R2) (s : State) : Meaning := fvec1 f s fsinpi
def execFcospi (f : R2) (s : State) : Meaning := fvec1 f s fcospi
def execFtanh (f : R2) (s : State) : Meaning := fvec1 f s ftanh

end Sys2Proof.Machine
end

