-- ==== Sys2Proof/Machine/ClusterMem.lean ====
section
/-! DEFINITION. Cluster memory: blocks and their codec, the expanded-block store and the segment pool (06 R169-R176). The
bytes stand in memory at `clusterBase`; the encoded copy of a block is held as its number of segments. -/

namespace Sys2Proof.Machine

/-- Blocks of a cluster's window, and its segments. -/
def clusterBlocks : Nat := 49152
def clusterSegs : Nat := 262144

/-- Word `i` of a block. -/
def State.blockWord (s : State) (c b i : Nat) : Nat := mread s.mem (clusterBase c + 256 * b + 4 * i) 4

/-- A delta of 06 R171 lies within `n` bits. -/
def deltaFits (n : Nat) (w v : Nat) : Bool :=
  let d := (w32 w - w32 v).toInt
  decide (-(2 ^ (n - 1) : Int) ≤ d) && decide (d < 2 ^ (n - 1))

/-- Segments of a block's encoding (Table 06-9). -/
def segsOf (ws : List Nat) : Nat :=
  let pairs := (ws.drop 1).zip ws
  if ws.all (· == 0) then 0
  else if ws.all (· == ws.headD 0) then 1
  else if pairs.all fun p => deltaFits 8 p.1 p.2 then 3
  else if pairs.all fun p => deltaFits 16 p.1 p.2 then 5
  else 8
def State.blockSegs (s : State) (c b : Nat) : Nat := segsOf ((List.range 64).map (s.blockWord c b))

/-- A block lies in a RAW region (R173). -/
def Cluster.inRaw (k : Cluster) (b : Nat) : Bool := k.raw.any fun r => decide (r.2.1 ≤ b) && decide (b < r.2.1 + r.2.2)
/-- Segments that the encoded copy of a block holds. -/
def Cluster.held (k : Cluster) (b : Nat) : Nat := if k.inRaw b then 8 else tget 0 k.segs b
def Cluster.need (k : Cluster) (b : Nat) : Nat := 8 - k.held b

/-- Inserts a range by its start. -/
def insRange (r : Nat × Nat) : List (Nat × Nat) → List (Nat × Nat)
  | [] => [r]
  | q :: t => if r.1 ≤ q.1 then r :: q :: t else q :: insRange r t
/-- Blocks in some RAW region. -/
def Cluster.rawBlocks (k : Cluster) : Nat :=
  let sorted := k.raw.foldl (fun l r => insRange (r.2.1, r.2.1 + r.2.2) l) []
  (sorted.foldl (fun (acc : Nat × Nat) r =>
    let lo := max acc.1 r.1
    (max acc.1 r.2, acc.2 + (r.2 - lo))) (0, 0)).2
/-- F of R174. -/
def Cluster.free (k : Cluster) : Nat :=
  clusterSegs - 8 * k.rawBlocks - ((k.segs.filter fun p => !k.inRaw p.1).map (·.2)).sum
/-- Need of R174. -/
def Cluster.needSum (k : Cluster) : Nat := ((k.grainer.filter (·.2)).map fun p => k.need p.1).sum

/-- Slices parked on the pool of a cluster, with the TIME of their parks. -/
def State.poolParked (s : State) (c : Nat) : List (Nat × Nat) :=
  s.slices.filterMap fun (k, x) => match x.park with | some (.pool d t _ _) => if c == d then some (k, t) else none | _ => none

/-- Accesses that wait for admission to the pool: those of slices, a gang's once, and those of the copy engines (R175, 08 R214). -/
def State.poolWaits (s : State) (c : Nat) : Nat :=
  let k := s.cluster c
  let gangs := (s.poolParked c).map fun p => (tget {} s.slices p.1).parkSeq
  gangs.eraseDups.length + ((k.engine0.active ++ k.engine1.active).filter fun r => match r.wait with | .pool _ => true | _ => false).length

/-- POOL_LOW to the run-time (R175). -/
def State.poolLow (s : State) (c why : Nat) : State :=
  let k := s.cluster c
  (s.modCluster c fun k => { k with poolParkSent := why == 1 }).post
    [w32 (0x87 * 2 ^ 24 + 0x01B0 + c), 0, w32 k.free, w32 k.needSum, w32 (s.poolWaits c), w32 why, 0, 0]

/-- F or Need has changed: parked accesses are evaluated again, and POOL_LOW is sent or re-armed (R174-R175). -/
def State.poolChanged (s : State) (c : Nat) : State :=
  let s := s.wake fun o => match o with | .pool d _ _ _ => d == c | _ => false
  let k := s.cluster c
  if k.poolLowArmed && decide (k.free < 2048) then (s.modCluster c fun k => { k with poolLowArmed := false }).poolLow c 0
  else if !k.poolLowArmed && decide (3072 ≤ k.free) then s.modCluster c fun k => { k with poolLowArmed := true }
  else s

/-- Re-encodes a block (R172); its expanded copy stays as it is. -/
def State.writeBack (s : State) (c b : Nat) : State :=
  let n := s.blockSegs c b
  (s.modCluster c fun k => { k with segs := if n = 0 then tdel k.segs b else tset k.segs b n }).poolChanged c

/-- Accesses in progress hold their blocks (R172). -/
def State.blockBusy (s : State) (c b : Nat) : Bool :=
  s.flights.any fun f => f.dst == nodeCluster c && match f.pkt with
    | .cluster a => a.lanes.any fun l => (l.pa - clusterBase c) / 256 == b
    | _ => false

/-- Drops a block from the store, written back when dirty. -/
def State.evictBlock (s : State) (c b : Nat) : State :=
  let dirty := (s.cluster c).grainer.any fun p => p.1 == b && p.2
  let s := s.modCluster c fun k => { k with grainer := k.grainer.filter (·.1 != b) }
  if dirty then s.writeBack c b else s.poolChanged c

/-- A writer in progress keeps its block dirty, as it was admitted (R174). -/
def State.blockWriter (s : State) (c b : Nat) : Bool :=
  s.flights.any fun f => f.dst == nodeCluster c && match f.pkt with
    | .cluster a => a.lanes.any (fun l => (l.pa - clusterBase c) / 256 == b) &&
        match a.form with | .store | .atomic _ => true | _ => false
    | _ => false

/-- LWB, LINV and LCLN of a block (07 R206): a dirty block is written back and, unless an access to it is in progress (R172),
leaves the store when asked to. -/
def State.cleanBlock (s : State) (c b : Nat) (leave : Bool) : State :=
  if (s.cluster c).grainer.any (·.1 == b) then
    let dirty := (s.cluster c).grainer.contains (b, true)
    let out := leave && !s.blockBusy c b
    let stays := s.blockWriter c b
    let keep (l : List (Nat × Bool)) : List (Nat × Bool) :=
      if out then l.filter (·.1 != b) else l.map fun p => if p.1 == b then (b, p.2 && stays) else p
    let s := s.modCluster c fun k => { k with grainer := keep k.grainer }
    if dirty then s.writeBack c b else s
  else s

/-- Makes a block expanded, most recently used, and dirty for a writer: none when every entry of a full store is in use, for accesses
in progress or as one of the blocks `keep` of this access. -/
def State.touchBlock (s : State) (c b : Nat) (write : Bool) (keep : List Nat) : Option State :=
  let k := s.cluster c
  let dirty := k.grainer.any fun p => p.1 == b && p.2
  let put (s : State) : State :=
    let s := s.modCluster c fun k => { k with grainer := (b, dirty || write) :: k.grainer.filter (·.1 != b) }
    if write && !dirty then s.poolChanged c else s
  if k.grainer.any (·.1 == b) || decide (k.grainer.length < 256) then some (put s)
  else
    match (k.grainer.reverse.find? fun p => !s.blockBusy c p.1 && !keep.contains p.1) with
    | some p => some (put (s.evictBlock c p.1))
    | none => none

/-- Makes the blocks of an access expanded, in turn. -/
def State.touchBlocks (s : State) (c : Nat) (write : Bool) (bs : List Nat) : Option State :=
  bs.foldlM (fun s b => s.touchBlock c b write bs) s

/-- Admission of a writer to its blocks (R174): each block that it would make dirty adds to Need. -/
def Cluster.admits (k : Cluster) (blocks : List Nat) : Bool :=
  let fresh := blocks.eraseDups.filter fun b => !k.grainer.any fun p => p.1 == b && p.2
  decide (k.needSum + (fresh.map k.need).sum ≤ k.free)

/-- A block becomes ZERO and leaves the store (R169). -/
def State.zeroBlocks (s : State) (c first n : Nat) : State :=
  let inside (b : Nat) : Bool := decide (first ≤ b) && decide (b < first + n)
  let s := { s with mem := mclear s.mem (clusterBase c + 256 * first) (256 * n) }
  (s.modCluster c fun k => { k with segs := k.segs.filter fun p => !inside p.1,
                                     grainer := k.grainer.filter fun p => !inside p.1 }).poolChanged c

/-- Owner of the extent of an address (R169). -/
def State.extentOwner (s : State) (c a : Nat) : Option Nat := (s.cluster c).extents.lookup (a / 0x10000)

end Sys2Proof.Machine
end

