-- ==== Sys2Proof/Machine/IntArith.lean ====
section
/-! DEFINITION. Integer arithmetic (05 R126, Table 05-2), on words, and the vector forms over it. -/

namespace Sys2Proof.Machine

/-- Clamp of 01 Table 01-5. -/
def clamp (x lo hi : Int) : Int := if x < lo then lo else if x > hi then hi else x

def mulhs (a b : Word) : Word := BitVec.ofInt 32 (a.toInt * b.toInt / 2 ^ 32)
def mulhn (a b : Word) : Word := w32 (a.toNat * b.toNat / 2 ^ 32)
def mins (a b : Word) : Word := if a.toInt < b.toInt then a else b
def maxs (a b : Word) : Word := if b.toInt < a.toInt then a else b
def minn (a b : Word) : Word := if a.toNat < b.toNat then a else b
def maxn (a b : Word) : Word := if b.toNat < a.toNat then a else b
def absd (a b : Word) : Word := w32 (a.toInt - b.toInt).natAbs
/-- A sum or difference kept within S32. -/
def satS (x : Int) : Word := BitVec.ofInt 32 (clamp x (-2 ^ 31) (2 ^ 31 - 1))
/-- A sum or difference kept within N32. -/
def satN (x : Int) : Word := BitVec.ofInt 32 (clamp x 0 (2 ^ 32 - 1))
/-- IMACH's two products of halves. -/
def dot2 (a b : Word) : Int :=
  (a.extractLsb' 0 16).toInt * (b.extractLsb' 0 16).toInt + (a.extractLsb' 16 16).toInt * (b.extractLsb' 16 16).toInt

/-- An integer form of A and B. -/
def ivec (f : R3) (s : State) (op : Word → Word → Word) : Meaning := vec3 f false s fun _ a b _ => (op a b, 0)
/-- An integer form of A, B and the old D. -/
def ivecD (f : R3) (s : State) (op : Word → Word → Word → Word) : Meaning := vec3 f true s fun _ a b d => (op a b d, 0)

def execIadd (f : R3) (s : State) : Meaning := ivec f s fun a b => a + b
def execIsub (f : R3) (s : State) : Meaning := ivec f s fun a b => a - b
def execImul (f : R3) (s : State) : Meaning := ivec f s fun a b => a * b
def execImulhs (f : R3) (s : State) : Meaning := ivec f s mulhs
def execImulhn (f : R3) (s : State) : Meaning := ivec f s mulhn
def execImins (f : R3) (s : State) : Meaning := ivec f s mins
def execImaxs (f : R3) (s : State) : Meaning := ivec f s maxs
def execIminn (f : R3) (s : State) : Meaning := ivec f s minn
def execImaxn (f : R3) (s : State) : Meaning := ivec f s maxn
def execIabsd (f : R3) (s : State) : Meaning := ivec f s absd
def execIaddss (f : R3) (s : State) : Meaning := ivec f s fun a b => satS (a.toInt + b.toInt)
def execIaddsn (f : R3) (s : State) : Meaning := ivec f s fun a b => satN (a.toNat + b.toNat)
def execIsubss (f : R3) (s : State) : Meaning := ivec f s fun a b => satS (a.toInt - b.toInt)
def execIsubsn (f : R3) (s : State) : Meaning := ivec f s fun a b => satN ((a.toNat : Int) - b.toNat)
def execImac (f : R3) (s : State) : Meaning := ivecD f s fun a b d => d + a * b
def execImach (f : R3) (s : State) : Meaning := ivecD f s fun a b d => d + BitVec.ofInt 32 (dot2 a b)

end Sys2Proof.Machine
end

