-- ==== Sys2Proof/Machine/Predicate.lean ====
section
/-! DEFINITION. Compares and predicate logic (05 R143-R144). -/

namespace Sys2Proof.Machine

/-- Writes P[d] of the given lanes. -/
def Slice.writePred (x : Slice) (d : Nat) (lanes : List Nat) (f : Nat → Bool) : Slice :=
  lanes.foldl (fun y l => y.setPBit d l (f l)) x

/-- CMB of 02 Table 02-9. -/
def combine (k : Nat) (old c : Bool) : Bool :=
  match k with | 0 => c | 1 => old && c | 2 => old || c | _ => old != c

/-- Conditions of ICMP (Table 05-11). -/
def icond (cc : Nat) (a b : Word) : Bool :=
  match cc with
  | 0 => a == b | 1 => a != b
  | 2 => decide (a.toInt < b.toInt) | 3 => decide (a.toInt ≤ b.toInt)
  | 4 => decide (b.toInt < a.toInt) | 5 => decide (b.toInt ≤ a.toInt)
  | 6 => decide (a.toNat < b.toNat) | _ => decide (a.toNat ≤ b.toNat)

/-- Conditions of FCMP and their flags (Table 05-11). -/
def fcond (cc : Nat) (fpctl a b : Word) : Bool × Flg :=
  let x := f32.decode (f32.flush (ftzOf fpctl) a.toNat)
  let y := f32.decode (f32.flush (ftzOf fpctl) b.toNat)
  let un := x.isNan || y.isNan
  let c := x.cmp y
  let quiet := x.snan ||| y.snan
  let loud := flagIf un nv
  match cc with
  | 0 => (!un && c == 0, quiet) | 1 => (un || c != 0, quiet)
  | 2 => (!un && decide (c < 0), loud) | 3 => (!un && decide (c ≤ 0), loud)
  | 4 => (!un && decide (0 < c), loud) | 5 => (!un && decide (0 ≤ c), loud)
  | 6 => (un, quiet) | _ => (!un, quiet)

/-- A compare of A and B into P[PD]. -/
def cmpForm (g : BitVec 4) (p : BitVec 3) (a b : BitVec 6) (x : BitVec 1) (k : BitVec 3) (s : State)
    (op : Word → Word → Word → Bool × Flg) : Meaning :=
  simt { ok := vbOk b x, srcs := (0, a.toNat) :: bSrc b x } s fun s core slot => do
    let (s, bv) ← s.operandB core slot g b x
    let y := s.slice core slot
    let r := fun l => op y.fpctl (y.vr a.toNat l) (bv l)
    let fl := (y.lanes g).foldl (fun m l => m ||| (r l).2) 0
    let old := y.pr p.toNat
    pure (s.setSlice core slot ((y.writePred p.toNat (y.lanes g) fun l => combine k.toNat (old.getLsbD l) (r l).1).orFlags fl))

def execIcmp (g : BitVec 4) (p c : BitVec 3) (a b : BitVec 6) (x : BitVec 1) (k : BitVec 3) (s : State) : Meaning :=
  cmpForm g p a b x k s fun _ u v => (icond c.toNat u v, 0)
def execFcmp (g : BitVec 4) (p c : BitVec 3) (a b : BitVec 6) (x : BitVec 1) (k : BitVec 3) (s : State) : Meaning :=
  cmpForm g p a b x k s (fcond c.toNat)

/-- A predicate form: active lanes of P[D] take the bits of a mask. -/
def predForm (g : BitVec 4) (d : BitVec 6) (ok : Bool) (srcs : List (Nat × Nat)) (s : State) (op : Slice → Pred) : Meaning :=
  simt { ok := pOk d && ok, srcs := srcs } s fun s core slot =>
    let x := s.slice core slot
    let m := op x
    .ok (s.setSlice core slot (x.writePred d.toNat (x.lanes g) fun l => m.getLsbD l))

def execPand (f : RP) (s : State) : Meaning :=
  predForm f.g f.d (pOk f.a && pOk f.b) [] s fun x => x.pr f.a.toNat &&& x.pr f.b.toNat
def execPor (f : RP) (s : State) : Meaning :=
  predForm f.g f.d (pOk f.a && pOk f.b) [] s fun x => x.pr f.a.toNat ||| x.pr f.b.toNat
def execPxor (f : RP) (s : State) : Meaning :=
  predForm f.g f.d (pOk f.a && pOk f.b) [] s fun x => x.pr f.a.toNat ^^^ x.pr f.b.toNat
def execPnot (f : R2) (s : State) : Meaning := predForm f.g f.d (pOk f.a) [] s fun x => ~~~(x.pr f.a.toNat)
def execPmov (f : R2) (s : State) : Meaning := predForm f.g f.d (pOk f.a) [] s fun x => x.pr f.a.toNat
def execPfroms (f : R2) (s : State) : Meaning :=
  predForm f.g f.d (sOk f.a) [(1, f.a.toNat)] s fun x => (x.sr f.a.toNat).setWidth 8
def execPtos (f : R2) (s : State) : Meaning :=
  uniformly { ok := sOk f.d && pOk f.a } f.g s fun s core slot =>
    let x := s.slice core slot
    .ok (s.setSlice core slot (x.setS f.d.toNat ((x.pr f.a.toNat).setWidth 32)))

end Sys2Proof.Machine
end

