-- ==== Sys2Proof/Machine/Gang.lean ====
section
/-! DEFINITION. Gang instructions (04 R101-R103, Tables 04-5 and 04-6). -/

namespace Sys2Proof.Machine

/-- Active lanes of the gang as (slot, SLANE), in ascending LANE order (R90, R102). -/
def State.gangLanes (s : State) (g : BitVec 4) : List (Nat × Nat) :=
  s.issuer.slots.flatMap fun t => ((s.slice s.issuer.core t).lanes g).map fun l => (t, l)

/-- LANE of a lane of the issuing core. -/
def State.laneIx (s : State) (p : Nat × Nat) : Nat := (s.slice s.issuer.core p.1).laneIx p.2

/-- Changes every member slice. -/
def State.members (s : State) (f : Slice → Slice) : State :=
  s.issuer.slots.foldl (fun s t => s.modSlice s.issuer.core t f) s

/-- Writes a bit of P[d] in the active lanes of every member: the function takes (slot, SLANE). -/
def State.gangPred (s : State) (g : BitVec 4) (d : Nat) (f : Nat × Nat → Bool) : State :=
  s.issuer.slots.foldl (fun s t => s.modSlice s.issuer.core t fun x => x.writePred d (x.lanes g) fun l => f (t, l)) s
/-- Writes V[d] in the active lanes of every member. -/
def State.gangV (s : State) (g : BitVec 4) (d : Nat) (f : Nat × Nat → Word) : State :=
  s.issuer.slots.foldl (fun s t => s.modSlice s.issuer.core t fun x => x.writeLanes d (x.lanes g) fun l => f (t, l)) s

/-- Frame of a GANG form: HOME makes it a rendezvous (R89). -/
def gangForm (h : BitVec 1) (ok : Bool) (srcs : List (Nat × Nat)) (s : State) (eff : State → State) : Meaning :=
  gangwise { ok := ok, srcs := srcs, rdv := h == 1 } s fun s => .ok (eff s)

/-- P[a] of a lane. -/
def State.pbit (s : State) (a : Nat) (p : Nat × Nat) : Bool := ((s.slice s.issuer.core p.1).pr a).getLsbD p.2
/-- V[a] of a lane. -/
def State.vlane (s : State) (a : Nat) (p : Nat × Nat) : Word := (s.slice s.issuer.core p.1).vr a p.2

def execVany (g : BitVec 4) (d a : BitVec 6) (h : BitVec 1) (s : State) : Meaning :=
  gangForm h (pOk d && pOk a) [] s fun s =>
    let t := (s.gangLanes g).any (s.pbit a.toNat)
    s.gangPred g d.toNat fun _ => t
def execVall (g : BitVec 4) (d a : BitVec 6) (h : BitVec 1) (s : State) : Meaning :=
  gangForm h (pOk d && pOk a) [] s fun s =>
    let t := (s.gangLanes g).all (s.pbit a.toNat)
    s.gangPred g d.toNat fun _ => t

/-- Ballot of a predicate over the gang's active lanes, by LANE. -/
def State.ballot (s : State) (g : BitVec 4) (a : Nat) : Nat :=
  ((s.gangLanes g).map fun p => if s.pbit a p then 2 ^ s.laneIx p else 0).sum
def execBallot (g : BitVec 4) (d a : BitVec 6) (h : BitVec 1) (s : State) : Meaning :=
  gangForm h (sOk d && alignOk d 2 && pOk a) [] s fun s =>
    if (s.gangLanes g).isEmpty then s
    else
      let b := s.ballot g a.toNat
      s.members fun x => (x.setS d.toNat (w32 b)).setS (d.toNat + 1) (w32 (b / 2 ^ 32))
/-- GWID: width, live mask and gang mask (R102). -/
def execGwid (g : BitVec 4) (d : BitVec 6) (h : BitVec 1) (s : State) : Meaning :=
  gangForm h (sOk d) [] s fun s =>
    if (s.gangLanes g).isEmpty then s
    else
      let core := s.issuer.core
      let w := (s.ixMask core s.issuer.slots).toNat + (s.liveMask core (s.issuer.slots.headD 0)).toNat * 2 ^ 8 +
        8 * s.issuer.slots.length * 2 ^ 16
      s.members fun x => x.setS d.toNat (w32 w)

/-- One step of a GRED operation (Table 04-6), under the FPCTL of the member on the lowest datapath. -/
def gredOp (o : Nat) (c : Word) (t v : Word) : Word × Flg :=
  let fl (r : Nat × Flg) : Word × Flg := (w32 r.1, r.2)
  match o with
  | 0 => (t + v, 0) | 1 => (mins t v, 0) | 2 => (maxs t v, 0) | 3 => (minn t v, 0) | 4 => (maxn t v, 0)
  | 5 => (t &&& v, 0) | 6 => (t ||| v, 0) | 7 => (t ^^^ v, 0)
  | 8 => fl (f32.fadd c t.toNat v.toNat)
  | 9 => fl (f32.minmax (ftzOf c) false t.toNat v.toNat)
  | _ => fl (f32.minmax (ftzOf c) true t.toNat v.toNat)
/-- The value that an F32 fold starts from: flushed as 03 R65 gives, a NaN canonical, a signalling one with NV (03 R60). -/
def headF (c v : Word) : Word × Flg :=
  let a := f32.flush (ftzOf c) v.toNat
  match f32.decode a with
  | .nan sn => (w32 nan32, (Val.nan sn).snan)
  | _ => (w32 a, 0)
def execGred (g : BitVec 4) (d a : BitVec 6) (o : BitVec 4) (h : BitVec 1) (s : State) : Meaning :=
  gangForm h true [(0, a.toNat)] s fun s =>
    match (s.gangLanes g).map (s.vlane a.toNat) with
    | [] => s
    | v :: vs =>
      let c := (s.slice s.issuer.core (s.issuer.slots.headD 0)).fpctl
      let r := vs.foldl (fun (t : Word × Flg) v => let u := gredOp o.toNat c t.1 v; (u.1, t.2 ||| u.2))
        (if 8 ≤ o.toNat then headF c v else (v, 0))
      (s.gangV g d.toNat fun _ => r.1).members fun x => if x.active g = 0 then x else x.orFlags r.2
def execGmatch (g : BitVec 4) (d a : BitVec 6) (h : BitVec 1) (s : State) : Meaning :=
  gangForm h true [(0, a.toNat)] s fun s =>
    let ls := s.gangLanes g
    s.gangV g d.toNat fun p =>
      match ls.find? fun q => s.vlane a.toNat q == s.vlane a.toNat p with
      | some q => w32 (s.laneIx q)
      | none => 0
def execGelect (g : BitVec 4) (d : BitVec 6) (h : BitVec 1) (s : State) : Meaning :=
  gangForm h (pOk d) [] s fun s =>
    let first := (s.gangLanes g).head?
    s.gangPred g d.toNat fun p => some p == first
/-- WSYNC is the rendezvous alone (R89). -/
def execWsync (_g : BitVec 4) (s : State) : Meaning := gangwise { rdv := true } s .ok

end Sys2Proof.Machine
end

