-- ==== Sys2Proof/Machine/Packed.lean ====
section
/-! DEFINITION. Packed halves (05 R139, Table 05-9). -/

namespace Sys2Proof.Machine

/-- Both 16-bit elements of a lane, their flags ORed. -/
def halves (op : Nat → Nat → Nat → Nat × Flg) (a b d : Nat) : Nat × Flg :=
  let lo := op (a % 2 ^ 16) (b % 2 ^ 16) (d % 2 ^ 16)
  let hi := op (a / 2 ^ 16) (b / 2 ^ 16) (d / 2 ^ 16)
  (lo.1 + 2 ^ 16 * hi.1, lo.2 ||| hi.2)

/-- A HALU form of A and B. -/
def hvec (f : R3) (s : State) (op : Word → Nat → Nat → Nat × Flg) : Meaning :=
  fvec f s fun c a b => halves (fun x y _ => op c x y) a b 0
/-- A HALU form of A, B and the old D. -/
def hvecD (f : R3) (s : State) (op : Word → Nat → Nat → Nat → Nat × Flg) : Meaning :=
  fvecD f s fun c a b d => halves (op c) a b d

def execHadd2 (f : R3) (s : State) : Meaning := hvec f s f16.fadd
def execHmul2 (f : R3) (s : State) : Meaning := hvec f s f16.fmul
def execHfma2 (f : R3) (s : State) : Meaning := hvecD f s f16.ffma
def execHmin2 (f : R3) (s : State) : Meaning := hvec f s fun c a b => f16.minmax (ftzOf c) false a b
def execHmax2 (f : R3) (s : State) : Meaning := hvec f s fun c a b => f16.minmax (ftzOf c) true a b
def execBadd2 (f : R3) (s : State) : Meaning := hvec f s bf16.fadd
def execBmul2 (f : R3) (s : State) : Meaning := hvec f s bf16.fmul
def execBfma2 (f : R3) (s : State) : Meaning := hvecD f s bf16.ffma

end Sys2Proof.Machine
end

