-- ==== Sys2Proof/Machine/Sync.lean ====
section
/-! DEFINITION. Releases, acquires, counters and fences (09 R236-R239, 04 R113). -/

namespace Sys2Proof.Machine

/-- A posted store of the slice to a PEER or SYSTEM page is outstanding (Table 09-3). -/
def State.farStore (s : State) (x : Slice) : Bool :=
  x.counted.any fun c => c.code == 3 && !c.done && ((s.op? c.op).map (·.far)).getD false

/-- The release row of Table 09-3: whether a release of this scope may issue in a slice. Counters: 0 LDL, 1 LDG, 2 PSL,
3 PSG. -/
def State.releaseReady (s : State) (core slot scope : Nat) : Bool :=
  let x := s.slice core slot
  scope == 0 || (x.count 0 == 0 && x.count 1 == 0 && x.count 2 == 0 &&
    (x.count 3 == 0 || (decide (scope < 3) && !s.farStore x)))

/-- Every member with an active lane may release; else the gang issues nothing (R236). -/
def State.releaseGang (s : State) (g : BitVec 4) (scope : Nat) : Except Stop Unit :=
  if s.issuer.slots.all fun t => (s.slice s.issuer.core t).active g == 0 || s.releaseReady s.issuer.core t scope then .ok ()
  else .error .stall

/-- WAITC (R238). -/
def execWaitc (g : BitVec 4) (c : BitVec 3) (b : BitVec 6) (x : BitVec 1) (s : State) : Meaning :=
  uniformly { ok := x == 1 && codeOk b, srcs := sbSrc b x } g s fun s core slot =>
    let y := s.slice core slot
    if y.count c.toNat ≤ (y.uniform b x).toNat then .ok s else .error .stall

/-- FENCE (R239): ORD 1 acquire, 2 release, 3 both, 4 SC. -/
def execFence (g : BitVec 4) (o sc : BitVec 3) (s : State) : Meaning :=
  uniformly { mem := true } g s fun s core slot =>
    let y := s.slice core slot
    let acq := o.toNat != 2
    let rel := o.toNat != 1
    if sc == 0 then .ok s
    else if (rel && !s.releaseReady core slot sc.toNat) || (acq && !(y.count 0 == 0 && y.count 1 == 0)) then .error .stall
    else .ok (if acq then s.acquireNow core sc.toNat else s)

/-- IFENCE (04 R113): the model keeps no prefetched words (log 11). -/
def execIfence (g : BitVec 4) (s : State) : Meaning := uniformly {} g s fun s _ _ => .ok s

end Sys2Proof.Machine
end

