-- ==== Sys2Proof/Machine/Memory.lean ====
section
/-! DEFINITION. What memory accesses do where they are performed (06 R148-R156, 07 R179-R206), the near cache, and the end
of an operation (07 R187-R188, R202-R203, 09 R236). -/

namespace Sys2Proof.Machine

/-! ## Bytes, full/empty bits, reservations, poison -/

/-- A peer to which no path remains (09 R240): loads are poisoned, stores discarded. -/
def State.peerGone (s : State) (key : Nat) : Bool :=
  decide (peerBase 0 ≤ key) && decide (key < hostBase) && !(tget {} s.peers (key / 2 ^ 52 - 1)).path
/-- A sector reads as poisoned (07 R202, 09 R240). -/
def State.poisonedAt (s : State) (sector : Nat) : Bool := s.poison.contains sector || s.peerGone (64 * sector)

/-- A port that is up reaches a device: requests travel (18 R438). -/
def State.portUp (s : State) (d : Nat) : Bool := s.links.any fun p => p.2.state == 2 && p.2.far.contains d
/-- A store or atomic to a peer without a path is discarded: it is counted, and later requests to the peer are held (09 R240, 18
R441). -/
def State.losePeer (s : State) (d : Nat) : State :=
  { s with peers := tset s.peers d { tget {} s.peers d with held := true, discarded := (tget {} s.peers d).discarded + 1 } }

/-- Writes the low `n` bytes of a number. -/
def State.write (s : State) (key n v : Nat) : State :=
  if s.peerGone key then s.losePeer (key / 2 ^ 52 - 1)
  else
    let s := s.breakResv key n
    { s with mem := mwrite s.mem key n v }
/-- Writes bytes. -/
def State.writeBytes (s : State) (key : Nat) (bs : List Byte) : State :=
  if s.peerGone key then s.losePeer (key / 2 ^ 52 - 1)
  else
    let s := s.breakResv key bs.length
    { s with mem := mwriteBytes s.mem key bs }

/-- A lane's bytes as a number; size 0 is a nibble (R191). -/
def State.readLane (s : State) (n : Nat) (l : LaneAcc) : Nat :=
  if n = 0 then (mget s.mem l.pa).toNat / (if l.hi then 16 else 1) % 16 else mread s.mem l.pa n
/-- Stores a lane's value. -/
def State.storeLane (s : State) (n : Nat) (l : LaneAcc) : State :=
  if n = 0 then
    let b := (mget s.mem l.pa).toNat
    s.write l.pa 1 (if l.hi then l.val % 16 * 16 + b % 16 else b / 16 * 16 + l.val % 16)
  else s.write l.pa n l.val

/-- Words of local memory that an access covers (06 R148). -/
def feWords (key n : Nat) : List Nat := (List.range ((key % 4 + max n 1 + 3) / 4)).map (key / 4 + ·)

/-- Marks `n` words empty or full; accesses parked on a word that changes are evaluated again (06 R149, R151). -/
def State.setFe (s : State) (w n : Nat) (empty : Bool) : State :=
  let inside (k : Nat) : Bool := decide (w ≤ k) && decide (k < w + n)
  let old := s.emptyWords
  let changed (k : Nat) : Bool := inside k && old.contains k != empty
  let mid := if empty then (List.range n).map (w + ·) else []
  { s with emptyWords := old.filter (fun k => decide (k < w)) ++ mid ++ old.filter (fun k => decide (w + n ≤ k)) }.wake
    fun o => match o with | .fullEmpty l => l.any changed | _ => false

/-- A whole sector is written: its poison is cleared (R204). -/
def State.clearPoison (s : State) (sector : Nat) : State :=
  { s with poison := s.poison.filter (· != sector), bad := tdel s.bad sector }

/-! ## Arithmetic of atomics -/

def signedOf (n v : Nat) : Int := (BitVec.ofNat (8 * n) v).toInt

/-- What memory receives (R193, R196): `o` old, `v` operand, `w` the new value of ACAS. -/
def AtomForm.apply (f : AtomForm) (n o v w : Nat) : Option Nat :=
  match f with
  | .add => some ((o + v) % 2 ^ (8 * n))
  | .mins => some (if signedOf n v < signedOf n o then v else o)
  | .maxs => some (if signedOf n o < signedOf n v then v else o)
  | .minn => some (min o v)
  | .maxn => some (max o v)
  | .and => some (o.land v)
  | .or => some (o.lor v)
  | .xor => some (o.xor v)
  | .xchg => some v
  | .cas => if o = v then some w else none
  | .fadd => some (f32.fadd 0 o v).1
  | .fmin => some (f32.minmax false false o v).1
  | .fmax => some (f32.minmax false true o v).1
  | .hadd2 => some (halves (fun x y _ => f16.fadd 0 x y) o v 0).1

/-! ## Performing a request -/

/-- The set of a device-cache line: its slice, and one of the slice's 768 sets (Table 07-2; log 12). -/
def dcacheSet (line : Nat) : Nat × Nat := (homeSlice (256 * line), line / 32 % 768)

/-- A line becomes the most recently used; a set of 16 that it enters loses its least recently used line, among EVICT_FIRST lines
first (R179). -/
def State.dcacheIn (s : State) (l : Nat × Bool × Bool) : State :=
  let rest := s.dcache.filter (·.1 != l.1)
  let set := rest.filter fun x => dcacheSet x.1 == dcacheSet l.1
  let victim := if set.length < 16 then none else ((set.filter (·.2.2)).getLast?.orElse fun _ => set.getLast?).map (·.1)
  { s with dcache := l :: rest.filter fun x => some x.1 != victim }

/-- The device cache under a request (R179, R182): lines as (line, dirty, EVICT_FIRST). -/
def State.dcacheFor (s : State) (line cp : Nat) (store : Bool) : State :=
  match s.dcache.find? (·.1 == line) with
  | some (_, d, e) => s.dcacheIn (if store then (line, cp != 3, e || cp != 0) else (line, d, e))
  | none => if 2 ≤ cp then s else s.dcacheIn (line, store, cp == 1)

/-- A lane's reservation holds for an STC of operation `op` (R199): the last LDR before it that met no poison (R198) set it, nothing
broke it, it names the granule, and at most 4,096 cycles lie between the issue of that LDR and that of the STC (R200), which the
lane carries. -/
def State.resvHolds (s : State) (core op : Nat) (l : LaneAcc) : Bool :=
  match ((s.slice core l.slot).resv.filter fun r =>
      r.lane == l.lane && decide (r.op < op) && (s.op? r.op).all (·.poisoned.isEmpty)).getLast? with
  | some r => r.held == some true && r.granule == l.pa / 64 && decide (l.val2 ≤ r.cycle + 4096)
  | none => false

/-- Performs one lane for an operation: the state and the value it returns. -/
def State.performLane (s : State) (op core : Nat) (f : AccForm) (n : Nat) (l : LaneAcc) : State × Nat :=
  match f with
  | .load => (s, s.readLane n l)
  | .ldr => (s.modSlice core l.slot fun x =>
      { x with resv := x.resv.map fun r => if r.op == op && r.lane == l.lane then { r with held := some true } else r },
    s.readLane n l)
  | .store => (s.storeLane n l, 0)
  | .atomic f =>
    let o := mread s.mem l.pa n
    match f.apply n o l.val l.val2 with
    | some r => (s.write l.pa n r, o)
    | none => (s, o)
  | .stc =>
    let ok := s.resvHolds core op l
    let s := if ok then s.write l.pa n l.val else s
    let s := if ok && decide (l.pa < 2 ^ 52) then s.dcacheFor (l.pa / 256) 0 true else s
    (s.modSlice core l.slot fun x => { x with resv := x.resv.filter fun r => r.lane != l.lane || !decide (r.op < op) },
      if ok then 0 else 1)
  | .pclr =>
    let s := s.breakResv l.pa 64
    ({ s with mem := mclear s.mem l.pa 64 }, 0)
  | .femt => (s.setFe (l.pa / 4) l.val true, 0)
  | .fful => (s.setFe (l.pa / 4) l.val false, 0)
  | .linv _ | .lwb | .lcln => (s, 0)

/-- The register writes that deliver a lane's value. -/
def Dest.writes (d : Dest) (l : LaneAcc) (v : Nat) : List RegWrite :=
  match d with
  | .none => []
  | .v r n => (List.range n).map fun i => ⟨l.slot, 0, 8 * (r + i) + l.lane, v / 2 ^ (32 * i) % 2 ^ 32⟩
  | .s r n => (List.range n).map fun i => ⟨l.slot, 1, r + i, v / 2 ^ (32 * i) % 2 ^ 32⟩

/-- Forms whose lanes meet poison (R202, R203). -/
def AccForm.meetsPoison : AccForm → Bool
  | .load | .ldr | .atomic _ | .stc => true
  | _ => false
def AccForm.isStore : AccForm → Bool
  | .store | .pclr => true
  | _ => false

/-- Sectors that a request's lanes touch. -/
def Acc.touched (a : Acc) : List Nat := (a.lanes.map (·.pa / 64)).eraseDups
/-- The request's byte mask covers the whole sector (R204). -/
def Acc.covers (a : Acc) (sector : Nat) : Bool :=
  match a.form with
  | .pclr => true
  | .store => (List.range 64).all fun i => a.size != 0 && a.lanes.any fun l =>
      decide (l.pa ≤ 64 * sector + i) && decide (64 * sector + i < l.pa + a.size)
  | _ => false

/-- Performs a request's lanes, in order, for an operation of a core: its values and the lanes that met poison are noted in
the operation. -/
def State.performAcc (s : State) (op core : Nat) (a : Acc) : State :=
  a.lanes.foldl (fun s l =>
    if a.form.meetsPoison && decide (l.pa < nearKeys) && s.poisonedAt (l.pa / 64) then
      s.modOp op fun o => { o with poisoned := o.poisoned ++ [(l.slot, l.lane, l.va)] }
    else
      let r := s.performLane op core a.form a.size l
      r.1.modOp op fun o => { o with writes := o.writes ++ o.dest.writes l r.2 }) s

/-- One request of an operation is done. -/
def State.lessLeft (s : State) (op : Nat) : State := s.modOp op fun o => { o with left := o.left - 1 }
/-- Miss entries of an operation are freed; gangs that parked for one are evaluated again (R184). -/
def State.freeEntries (s : State) (op core n : Nat) : State :=
  if n = 0 then s else (s.modOp op fun o => { o with entries := o.entries - n }).wake fun p => p == .miss core

/-! ## The near cache -/

/-- The near cache of a core holds a sector (R179). -/
def Core.nearHas (k : Core) (sector : Nat) : Bool := k.near.any fun n => n.line == sector / 4 && n.sectors.contains sector

/-- A hit makes its line the most recently used (log 13). -/
def Core.nearTouch (k : Core) (sector : Nat) : Core :=
  { k with near := k.near.filter (·.line == sector / 4) ++ k.near.filter (·.line != sector / 4) }

/-- Drops a line. -/
def Core.nearDrop (k : Core) (line : Nat) : Core :=
  { k with near := k.near.filter (·.line != line), nearData := mclear k.nearData (256 * line) 256 }

/-- The line of a sector takes an age class (Table 07-3). -/
def Core.nearClass (k : Core) (sector : Nat) (evictFirst : Bool) : Core :=
  { k with near := k.near.map fun n => if n.line = sector / 4 then { n with evictFirst := evictFirst } else n }

/-- Fills a sector: 64 sets of 4 lines, the victim least recently used, among EVICT_FIRST lines first (R179, log 13). -/
def Core.nearFill (k : Core) (sector : Nat) (evictFirst : Bool) (data : Memory) : Core :=
  let line := sector / 4
  let put (k : Core) (l : NearLine) : Core :=
    { k with near := l :: k.near.filter (·.line != line), nearData := mcopy k.nearData data (64 * sector) 64 }
  match k.near.find? (·.line == line) with
  | some l => put k { l with sectors := bitIns l.sectors sector, evictFirst := evictFirst }
  | none =>
    let set := k.near.filter fun n => n.line % 64 == line % 64
    let k := if set.length < 4 then k
      else match (set.filter (·.evictFirst)).getLast? with
        | some v => k.nearDrop v.line
        | none => match set.getLast? with | some v => k.nearDrop v.line | none => k
    put k ⟨line, [sector], evictFirst⟩

/-- Sectors that the core is fetching are no longer fit to be kept or shared (R181, R184). -/
def State.stale (s : State) (core : Nat) (p : Nat → Bool) : State :=
  { s with ops := s.ops.map fun o => if o.core == core then { o with fresh := o.fresh.filter fun k => !p k } else o }

/-- A store of the core reaches its near copies at issue (R181). -/
def State.nearStore (s : State) (core n : Nat) (l : LaneAcc) : State :=
  let k := s.core core
  let s := s.stale core (· == l.pa / 64)
  if !k.nearHas (l.pa / 64) then s
  else
    let old := (mget k.nearData l.pa).toNat
    let d := if n = 0 then mwrite k.nearData l.pa 1 (if l.hi then l.val % 16 * 16 + old % 16 else old / 16 * 16 + l.val % 16)
      else mwrite k.nearData l.pa n l.val
    s.modCore core fun k => { k with nearData := d }

/-- The near copy of a sector leaves the core. -/
def State.nearForget (s : State) (core sector : Nat) : State :=
  (s.stale core (· == sector)).modCore core fun k =>
    { k with near := k.near.map (fun n => { n with sectors := n.sectors.filter (· != sector) }),
             nearData := mclear k.nearData (64 * sector) 64 }

/-- Cores that a SCOPE names for a cache operation (04 R112, 07 R206). -/
def scopeCores (core scope : Nat) : List Nat :=
  if scope ≤ 2 then [core] else if scope = 3 then (List.range 16).map (16 * (core / 16) + ·) else List.range 256

/-- Drops a line from near caches. -/
def State.nearDropAll (s : State) (cores : List Nat) (line : Nat) : State :=
  cores.foldl (fun s c => if (s.core c).near.isEmpty && !(s.ops.any (·.core == c)) then s
    else (s.stale c fun k => k / 4 == line).modCore c fun k => k.nearDrop line) s

/-- The line of a request. -/
def Acc.line (a : Acc) : Nat := (a.lanes.headD ⟨0, 0, 0, 0, false, 0, 0⟩).pa / 256
/-- The near caches that a line form of a core drops its line from (R206). -/
def AccForm.nearScope (core : Nat) : AccForm → List Nat
  | .linv scope => scopeCores core scope
  | .lcln => [core]
  | _ => []
/-- What a line form does to near caches, wherever its line's home is (R206). -/
def State.nearLine (s : State) (core : Nat) (a : Acc) : State := s.nearDropAll (a.form.nearScope core) a.line

/-! ## Requests on their way to a peer -/

def State.peer (s : State) (d : Nat) : Peer := tget {} s.peers d
def State.modPeer (s : State) (d : Nat) (f : Peer → Peer) : State := { s with peers := tset s.peers d (f (s.peer d)) }
/-- A request has been sent and is not acknowledged. -/
def Peer.sent (p : Peer) (flight : Nat) : Bool := p.unacked.any (·.1 == flight)
/-- The request still stands in a queue at its home. -/
def State.queuesAtUnit (s : State) (id : Nat) : Bool :=
  s.units.any fun u => (u.holder.id == id && !u.applied) || u.queue.contains id
/-- A port to a peer. -/
def toPeer (node : Nat) : Bool := decide (nodePeer 0 ≤ node) && decide (node < nodePeer 8)
/-- A request to a peer has been performed there, and only its acknowledge is to come (18 R439). -/
def State.peerDone (s : State) (f : Flight) : Bool :=
  toPeer f.dst && (s.peer (f.dst - nodePeer 0)).sent f.id && !s.queuesAtUnit f.id
/-- A request leaves the port: it takes its number, and its operation waits for the acknowledge too. -/
def State.numbered (s : State) (d : Nat) (f : Flight) : State :=
  (s.modPeer d fun p =>
    { p with unacked := p.unacked ++ [(f.id, p.nextSeq)], nextSeq := (p.nextSeq + 1) % 2 ^ 32 }).modOp (f.op.getD 0)
      fun o => { o with left := o.left + 1 }

/-! ## GLOBAL requests at their home -/

/-- 8-byte units that a request names. -/
def Acc.units (a : Acc) : List Nat :=
  (a.lanes.flatMap fun l => (List.range ((l.pa % 8 + max a.size 1 + 7) / 8)).map (l.pa / 8 + ·)).eraseDups
/-- Miss entries that a request holds (R184). -/
def Acc.entries (a : Acc) : Nat :=
  match a.form with | .load | .ldr => a.own.length | .atomic _ | .stc => 1 | _ => 0

/-- An operation has yet to fetch a sector, by a request of its own or by one that takes its load along (R184). -/
def State.fetching (s : State) (op sector : Nat) : Bool :=
  s.flights.any fun f => !s.peerDone f && match f.pkt with
    | .global a sh => (f.op == some op && a.sectors.contains sector) || sh.any fun x => x.1 == op && x.2.sectors.contains sector
    | _ => false
/-- Loads of some operations `ids` of a core are performed: what its others have fetched of these sectors before is not kept, so that a
later load finds nothing older in the near cache (09 R233). -/
def State.supersede (s : State) (core : Nat) (ids sectors : List Nat) : State :=
  let old (o : Op) : Bool := o.core == core && !ids.contains o.id && o.fresh.any sectors.contains
  { s with ops := s.ops.map fun o => if old o then
      { o with fresh := o.fresh.filter fun k => !sectors.contains k || s.fetching o.id k } else o }

/-- The sectors that a request fetches reach an operation: those without poison may be kept and shared (R181, R184). -/
def State.fetched (s : State) (op : Nat) (a : Acc) : State :=
  let ok := a.sectors.filter fun k => !s.poisonedAt k
  s.modOp op fun o => { o with data := ok.foldl (fun d k => mcopy d s.mem (64 * k) 64) o.data,
                               fresh := o.fresh.filter fun k => !a.sectors.contains k || ok.contains k }

/-- Performs a GLOBAL request at its home, peer or host (R180-R182, R186, R201-R206). -/
def State.performGlobal (s : State) (f : Flight) (a : Acc) (sharers : List (Nat × Acc)) : State :=
  let op := f.op.getD 0
  let core := f.src
  let line := a.line
  let own := decide (line < 2 ^ 44)
  match a.form with
  | .linv _ => (s.nearLine core a).lessLeft op
  | .lwb =>
    { s with dcache := s.dcache.map fun (l, d, e) => (l, d && l != line, e) }.lessLeft op
  | .lcln =>
    (({ s with dcache := s.dcache.filter (·.1 != line) } : State).nearLine core a).lessLeft op
  | _ =>
    let s := s.supersede core (op :: sharers.map (·.1)) a.sectors
    let s := s.findErrors f.asid (((a.touched ++ a.sectors).eraseDups).filter fun k => !a.covers k)
    let s := if own then s.dcacheFor line a.cp a.form.isStore else s
    let s := ((s.performAcc op core a).lessLeft op).freeEntries op core a.entries
    let s := sharers.foldl (fun s x => ((s.performAcc x.1 core x.2).lessLeft x.1).fetched x.1 x.2) s
    ((a.touched.filter a.covers).foldl State.clearPoison s).fetched op a

/-- The held unit that a plain request meets (R195). -/
def State.heldUnit (s : State) (a : Acc) : Option Nat :=
  match a.form with
  | .linv _ | .lwb | .lcln => none
  | _ =>
    let us := a.units ++ a.sectors.flatMap fun k => (List.range 8).map (8 * k + ·)
    (s.units.find? fun u => us.contains u.key).map (·.key)

def State.modUnit (s : State) (u : Nat) (f : AUnit → AUnit) : State :=
  { s with units := s.units.map fun x => if x.key == u then f x else x }

/-- A flight holds a unit, or has joined the queue of one. -/
def State.queued (s : State) (id : Nat) : Bool := s.units.any fun u => u.holder.id == id || u.queue.contains id

/-- Requests kept for a peer: GLOBAL accesses and reserves, in sequence order (18 R439). -/
def State.peerReqs (s : State) (d : Nat) : List Flight :=
  s.flights.filter fun f => f.dst == nodePeer d && match f.pkt with | .global _ _ | .reserve _ => true | _ => false

/-- An access of an engine, a rake, a service or another unit waits at a peer's port: while requests to the peer are held, while its
paths retrain, and while 4,096 requests are unacknowledged (09 R240, 18 R439-R441). -/
def State.unitWaits (s : State) (key : Nat) : Bool :=
  let d := key / 2 ^ 52 - 1
  let p := tget {} s.peers d
  decide (peerBase 0 ≤ key) && decide (key < hostBase) &&
    (p.held || (p.path && (!s.portUp d || decide (4096 ≤ (s.peerReqs d).length))))

/-- A request has been performed: it leaves, or waits for the peer's acknowledge (18 R439). -/
def State.leaveFlight (s : State) (f : Flight) : State := if toPeer f.dst then s else s.dropFlight f.id

/-- A plain GLOBAL request, in flight, arrives: it is performed, or joins the queue of a held unit (R195). Until it is performed
it stays in flight, ahead of its core's later requests to the same home (R180). -/
def State.arriveGlobal (s : State) (f : Flight) (a : Acc) (sharers : List (Nat × Acc)) : State :=
  match s.heldUnit a with
  | some u => s.modUnit u fun x => { x with queue := x.queue ++ [f.id] }
  | none => (s.leaveFlight f).performGlobal f a sharers

/-- A reserve arrives: the unit is granted, or the reserve queues (R195). -/
def State.arriveReserve (s : State) (f : Flight) (a : Acc) : State :=
  let u := (a.lanes.headD ⟨0, 0, 0, 0, false, 0, 0⟩).pa / 8
  if s.units.any (·.key == u) then s.modUnit u fun x => { x with queue := x.queue ++ [f.id] }
  else { s with units := s.units ++ [⟨u, f, false, []⟩] }

/-- The queue behind a released unit: plain requests are performed until a reserve becomes the next holder (R195). -/
def State.forward (u : Nat) : List Nat → State → State
  | [], s => s
  | i :: rest, s =>
    match s.flight? i with
    | some f => match f.pkt with
      | .reserve _ => { s with units := s.units ++ [⟨u, f, false, rest⟩] }
      | .global a sh => State.forward u rest (s.arriveGlobal f a sh)
      | _ => State.forward u rest s
    | none => State.forward u rest s

/-- The holder of a unit applies its lanes (R194-R196, R203). -/
def State.applyUnit (s : State) (unit : Nat) : State :=
  match s.units.find? (·.key == unit) with
  | none => s
  | some u =>
    if u.applied then s
    else match u.holder.pkt with
      | .reserve a =>
        let op := u.holder.op.getD 0
        let s := (s.modUnit unit fun u => { u with applied := true }).findErrors u.holder.asid a.touched
        let s := if unit < 2 ^ 49 then s.dcacheFor (unit / 32) 0 true else s
        (((s.leaveFlight u.holder).performAcc op u.holder.src a).lessLeft op).freeEntries op u.holder.src a.entries
      | _ => s

/-- The slice passes a released unit on, and an event record that waited for it is written (R195, 15 R405). -/
def State.passUnit (s : State) (unit : Nat) : State :=
  match s.units.find? (·.key == unit) with
  | none => s
  | some u => if u.applied then (State.forward unit u.queue { s with units := s.units.filter (·.key != unit) }).eqGo else s

/-- The holders of a unit apply and release, and its queue is performed, until nothing holds it: a holder applies its grant as soon
as it arrives and releases at once (R195). -/
def State.finishUnit : Nat → Nat → State → State
  | 0, _, s => s
  | n + 1, unit, s => match s.units.find? (·.key == unit) with
    | none => s
    | some u => State.finishUnit n unit (if u.applied then s.passUnit unit else s.applyUnit unit)

/-- An access of another agent comes to some units: it joins their queues, and is performed once what stands before it has been
(R195; log 2). -/
def State.settle (s : State) (p : AUnit → Bool) : State :=
  (s.units.filter p).foldl (fun s u => State.finishUnit (2 * s.flights.length + 2) u.key s) s
/-- The units of `n` bytes. -/
def State.settleRange (s : State) (key n : Nat) : State :=
  s.settle fun u => decide (key / 8 ≤ u.key) && decide (u.key ≤ (key + n - 1) / 8)
/-- The units of a peer: it performs requests in sequence order (18 R439). -/
def State.settlePair (s : State) (d : Nat) : State := s.settle fun u => homeOf (8 * u.key) == nodePeer d

/-- An access of a unit to `n` bytes comes to its home: it takes its place among the atomics there, and a sequence number where the
home is a peer (R195, 18 R439). -/
def State.reachHome (s : State) (key n : Nat) : State :=
  let d := key / 2 ^ 52 - 1
  let p := tget {} s.peers d
  if decide (peerBase 0 ≤ key) && decide (key < hostBase) && p.path then
    let s := s.settlePair d
    { s with peers := tset s.peers d { p with nextSeq := (p.nextSeq + 1) % 2 ^ 32 } }
  else s.settleRange key n

/-- Sectors that `n` bytes from a key touch, and those that they cover whole. -/
def touchedBy (key n : Nat) : List Nat := (List.range ((key + n - 1) / 64 - key / 64 + 1)).map (key / 64 + ·)
def coveredBy (key n : Nat) : List Nat := (touchedBy key n).filter fun k => decide (key ≤ 64 * k) && decide (64 * k + 64 ≤ key + n)

/-- A unit of this device comes to `n` bytes of its memory to read them: it takes its place among the atomics there, and finds the
errors of their sectors (R195, R201). -/
def State.comeTo (s : State) (asid key n : Nat) : State :=
  if n = 0 then s
  else
    let s := s.settleRange key n
    if s.bad.isEmpty then s else s.findErrors asid (touchedBy key n)
/-- A unit reads a context's descriptor (15 R396). What a resident context's domain is read from stands as it is: a change of a live
descriptor takes effect at an unstated moment (15 R396; log 2). -/
def State.reachCtx (s : State) (asid : Nat) : State := s.comeTo asid (s.ctxAddr asid) 64

/-- A plain store by a unit, for a context: it takes its place at its home, finds the errors of the sectors that it covers in part, and
clears those that it covers whole (R195, R201, R204). -/
def State.unitStore (s : State) (asid key : Nat) (bs : List Byte) : State :=
  let n := bs.length
  let s := (s.reachHome key n).findErrors asid ((touchedBy key n).filter fun k => !(coveredBy key n).contains k)
  (coveredBy key n).foldl State.clearPoison (s.writeBytes key bs)

/-- A walk of the tables reads its entries in turn: each read takes its place among the atomics on its word, and finds the errors of
its sector (R195, R201, 15 R401). -/
def State.walkNow (s : State) (asid va : Nat) : State :=
  if s.units.isEmpty && s.bad.isEmpty then s
  else
    let s := (List.range 3).foldl (fun s i => match (s.walkAddrs asid va)[i]? with | some a => s.settleRange a 8 | none => s)
      (s.settleRange (s.ctxAddr asid) 64)
    s.findErrors asid (s.walkSectors asid va)
/-- The walk, if any, of a core's access (15 R403). -/
def State.coreWalk (s : State) (core asid va : Nat) : State :=
  if (tlbGet (s.core core).tlb asid va).isSome || (tlbGet (s.cluster (clusterOf core)).tlb asid va).isSome then s
  else s.walkNow asid va
/-- Translation of a core's GLOBAL access. -/
def State.translateCore (s : State) (core asid va : Nat) (acc : Access) (system : Bool) : State × Except XFail Nat :=
  (s.coreWalk core asid va).translate core asid va acc system
/-- Translation of a unit's access (15 R401-R404). -/
def State.translateNow (s : State) (asid va : Nat) (acc : Access) : State × Except XFail Nat :=
  let s := s.walkNow asid va
  (s, s.translateUnit asid va acc)

/-- The requests of an STC to one home, in order (R183). -/
def State.stcRequests (s : State) (f : Flight) : List (Flight × Acc) :=
  s.flights.filterMap fun g => match g.pkt with
    | .global a _ => if g.op == f.op && g.dst == f.dst && a.form == .stc then some (g, a) else none
    | _ => none
/-- An STC waits until its lanes' earlier LDRs are performed, so that their reservations are known (R198). -/
def State.resvOpen (s : State) (f : Flight) : Bool :=
  (s.stcRequests f).any fun q => q.2.lanes.any fun l => (s.slice f.src l.slot).resv.any fun r =>
    r.lane == l.lane && decide (r.op < f.op.getD 0) && (s.op? r.op).any (·.left != 0)
/-- Performs the requests of an STC at one home: each takes its place among the atomics on its unit, and the lanes are performed in
ascending LANE order (R195, R199, R203). -/
def State.performStc (s : State) (f : Flight) : State :=
  let op := f.op.getD 0
  let rs := s.stcRequests f
  let all := rs.flatMap (·.2.lanes)
  let lanes := ((s.op? op).map (·.lanes)).getD [] |>.filterMap fun p => all.find? fun l => l.slot == p.1 && l.lane == p.2
  let s := s.settle fun u => all.any fun l => l.pa / 8 == u.key
  let s := s.findErrors f.asid ((all.map (·.pa / 64)).eraseDups)
  let s := ((all.filter fun l => decide (l.pa < 2 ^ 52)).map (·.pa / 256)).eraseDups.foldl (fun s k => s.dcacheFor k 0 false) s
  let s := rs.foldl (fun s r => s.leaveFlight r.1) s
  let s := match rs with
    | [] => s
    | r :: _ => s.performAcc op f.src { r.2 with lanes := lanes }
  rs.foldl (fun s _ => (s.lessLeft op).freeEntries op f.src 1) s

/-- A request comes to its home (R180, R195, R199). -/
def State.arriveRequest (s : State) (f : Flight) (a : Acc) (sharers : List (Nat × Acc)) : State :=
  if a.form == .stc then s.performStc f else s.arriveGlobal f a sharers

/-! ## LWIN requests at their home -/

/-- A local-memory key lies in a run of a group of the context (06 R146, R153). -/
def State.ownsLocal (s : State) (core asid off : Nat) : Bool :=
  s.groups.any fun (_, g) => g.asid == asid && g.core == core && !g.retired && decide (g.localBase ≤ off) &&
    decide (off < g.localBase + g.localLen)

/-- Bytes a lane of a request covers. -/
def Acc.span (a : Acc) (l : LaneAcc) : Nat :=
  match a.form with | .femt | .fful => 4 * l.val | _ => max a.size 1

/-- Every word that a lane covers lies in runs of the context; runs are whole granules of 1 KiB (06 R145, R153). -/
def State.ownsSpan (s : State) (core asid off n : Nat) : Bool :=
  n == 0 || ((List.range ((off + n - 1) / 1024 - off / 1024 + 1)).all fun i =>
    s.ownsLocal core asid (if i = 0 then off else 1024 * (off / 1024 + i)))

/-- Performs an LWIN request (06 R153-R156): a lane whose words the context does not own gives PERMISSION and zeros. -/
def State.performLwin (s : State) (f : Flight) (a : Acc) : State :=
  let op := f.op.getD 0
  (a.lanes.foldl (fun s l =>
    let h := (l.pa - localBase 0) / 2 ^ 18
    if s.ownsSpan h f.asid (l.pa % 2 ^ 18) (a.span l) then s.performAcc op f.src { a with lanes := [l] }
    else s.modOp op fun o => { o with laneFaults := o.laneFaults ++ [(l.slot, l.lane, 0x07, l.va)],
                                      writes := o.writes ++ o.dest.writes l 0 }) s).lessLeft op

/-! ## CLUSTER requests -/

/-- The block of an access in progress is still expanded and its context's; else the extent was released meanwhile, and the
access does nothing: a load reads the ZERO block (06 R169, R172). -/
def State.clusterLive (s : State) (c : Nat) (asid : Option Nat) (l : LaneAcc) : Bool :=
  let a := l.pa - clusterBase c
  s.extentOwner c a == asid && (s.cluster c).grainer.any (·.1 == a / 256)

/-- Performs a CLUSTER request on expanded blocks (06 R170). -/
def State.performCluster (s : State) (op core : Nat) (a : Acc) : State :=
  let c := clusterOf core
  let blocks := (a.lanes.map fun l => (l.pa - clusterBase c) / 256).eraseDups
  let live (l : LaneAcc) : Bool := s.clusterLive c ((s.op? op).map (·.asid)) l
  match a.form with
  | .linv _ | .lcln => blocks.foldl (fun s b => s.cleanBlock c b true) s
  | .lwb => blocks.foldl (fun s b => s.cleanBlock c b false) s
  | _ => (a.lanes.filter fun l => !live l).foldl (fun s l => s.modOp op fun o => { o with writes := o.writes ++ o.dest.writes l 0 })
      (s.performAcc op core { a with lanes := a.lanes.filter live })

/-- An earlier CLUSTER access of a member still waits (06 R170). -/
def State.clusterBehind (s : State) (core : Nat) (slots : List Nat) : Bool :=
  s.flights.any fun f => f.src == core && match f.pkt with
    | .cluster _ => (f.op.bind s.op?).any fun o => o.members.any slots.contains
    | _ => false

/-! ## The end of an operation -/

/-- A deferred fault of a retired slice is recorded (15 Table 15-5). -/
def State.deferLate (s : State) (core slot : Nat) (f : FaultRec) (asid : Nat) (pc : Addr) : State :=
  s.post [evWord 0x91 f.code asid, w32 (core + slot * 2 ^ 16), w32 f.addr, w32 (f.addr / 2 ^ 32), pc.setWidth 32, 0, 0, 0]
/-- A deferred fault for a slice (15 R406). -/
def State.defer (s : State) (core slot : Nat) (f : FaultRec) (asid : Nat) (pc : Addr) : State :=
  let x := s.slice core slot
  if x.live then s.setSlice core slot { x with deferred := x.deferred ++ [{ f with defer := some pc }] }
  else s.deferLate core slot f asid pc

/-- Lanes of a member in a list of (slot, lane). -/
def slotMask (l : List (Nat × Nat)) (t : Nat) : Pred := tget 0 (laneMasks l) t

/-- The deferred faults that an operation gives its members: poison (R202, R203), PERMISSION of an LWIN lane or of a refused
AtomicOp (06 R153, R197), and a fault of the whole (R323). -/
def Op.deferredOf (o : Op) (t : Nat) : List FaultRec :=
  let po := o.poisoned.filter (·.1 == t)
  let bad := o.laneFaults.filter (·.1 == t)
  let first := o.lanes.findSome? fun p => o.poisoned.find? fun q => q.1 == p.1 && q.2.1 == p.2
  let ps : List FaultRec :=
    if o.perLane then
      match (o.lanes.filter (·.1 == t)).findSome? fun p => po.find? fun q => q.2.1 == p.2 with
      | some q => [{ code := 0x08, addr := q.2.2, part := true, lanes := [(t, slotMask (po.map fun q => (q.1, q.2.1)) t)] }]
      | none => []
    else match first with
      | some q => [{ code := 0x08, addr := q.2.2, lanes := [(t, slotMask (po.map fun q => (q.1, q.2.1)) t)] }]
      | none => []
  let ls : List FaultRec :=
    match (o.lanes.filter (·.1 == t)).findSome? fun p => bad.find? fun q => q.2.1 == p.2 with
    | some q => [{ code := q.2.2.1, addr := q.2.2.2, lanes := [(t, slotMask (bad.map fun q => (q.1, q.2.1)) t)] }]
    | none => []
  let fs : List FaultRec := match o.fault with
    | some (code, addr) => [{ code := code, addr := addr, lanes := [(t, slotMask o.lanes t)] }]
    | none => []
  ps ++ ls ++ fs

/-- The whole instruction writes nothing (R202). -/
def Op.spoilt (o : Op) : Bool := !o.perLane && !o.poisoned.isEmpty

/-- One member at the end of an operation: registers, counter, pending registers and acquire. -/
def Slice.endOp (x : Slice) (o : Op) (t : Nat) : Slice :=
  let ws := (if o.spoilt then [] else o.writes) ++ o.late
  let y := if x.live then (ws.filter (·.slot == t)).foldl (fun x w => w.apply x) x else x
  let z := (y.complete o.id).unpend o.id
  { z with acquires := z.acquires.filter (·.op != o.id),
           resv := if o.spoilt then z.resv.filter (·.op != o.id) else z.resv }

/-- Another load of the core has the sector still to come: the near cache keeps what that one fetches (09 R233). -/
def State.wanted (s : State) (core sector : Nat) : Bool := s.ops.any fun o => o.core == core && o.fresh.contains sector

/-- An operation ends: its members' registers are written and no longer pending, its counters drop, its faults are
deferred, its acquire completes, and its sectors fill the near cache (R187-R188, R202, R181; log 2). One of a saved group
ends when the group resumes. -/
def State.finishOp (s : State) (o : Op) : State :=
  if o.away then s.modOp o.id fun _ => { o with ended := true }
  else
  let acq := o.members.any fun t => (s.slice o.core t).acquires.any fun a => a.op == o.id && a.invalidate
  let s := s.dropOp o.id
  let s := o.members.foldl (fun s t => s.modSlice o.core t fun x => x.endOp o t) s
  let s := o.members.foldl (fun s t => (o.deferredOf t).foldl (fun s f => s.defer o.core t f o.asid o.pc) s) s
  let s := o.gone.foldl (fun s t => (o.deferredOf t).foldl (fun s f => s.deferLate o.core t f o.asid o.pc) s) s
  let s := if o.fill then
      (o.fresh.filter fun k => !s.wanted o.core k).foldl (fun s k => s.modCore o.core fun c =>
        if c.nearHas k then c.nearClass k o.evictFirst else c.nearFill k o.evictFirst o.data) s else s
  let s := if o.entries = 0 then s else s.wake fun p => p == .miss o.core
  if acq && !o.spoilt then s.nearInvalidate o.core else s

end Sys2Proof.Machine
end

