-- ==== Sys2Proof/Machine/MemoryOps.lean ====
section
/-! DEFINITION. Memory instructions at the core: addresses and checks (06 R146, R152, R169, 07 R177), watchpoints (15 R418),
SYNC and TAKE (06 R149), the four spaces, and LD, ST, SLD and SST (07 R191-R192). -/

namespace Sys2Proof.Machine

/-! ## Fields -/

/-- Bytes of SZ; 0 stands for a nibble. -/
def szBytes (z : BitVec 3) : Nat :=
  match z.toNat with | 0 => 1 | 1 => 2 | 2 => 4 | 3 => 8 | 4 => 16 | _ => 0
/-- Registers of a value of `n` bytes. -/
def szRegs (n : Nat) : Nat := max 1 (n / 4)

/-- The memory bases of 02 R40. -/
def memBaseOk (m : MemF) : Bool :=
  if m.space == 3 then m.x == 1 && alignOk m.b 2 && decide (m.b.toNat ≤ 30)
  else if m.x == 0 then m.b == 0 else decide (m.b.toNat < 32) || m.b == 48
def memBaseSrc (m : MemF) : List (Nat × Nat) :=
  if m.space == 3 then group 1 m.b.toNat 2 else if m.x == 1 && decide (m.b.toNat < 32) then [(1, m.b.toNat)] else []
/-- A group of V registers at D (02 R39). -/
def memVOk (m : MemF) (n : Nat) : Bool := alignOk m.d n
/-- A group of S registers at D (07 R192). -/
def memSOk (m : MemF) (n : Nat) : Bool := (n == 1 || alignOk m.d 2) && decide (m.d.toNat + n ≤ 32)

/-- Base and offset of an access, in bytes, or nibbles for SZ = 5 (06 R146, 07 R177, R192). -/
def Slice.memBase (x : Slice) (m : MemF) : Int :=
  if m.space == 3 then (if m.sz == 5 then 2 else 1) * (x.spair m.b.toNat : Int) + m.off.toInt
  else (if m.x == 1 && decide (m.b.toNat < 32) then ((x.sr m.b.toNat).toNat : Int) else 0) + m.off.toInt
/-- Byte address and nibble select of a lane. -/
def Slice.memAddr (x : Slice) (m : MemF) (scalar : Bool) (l : Nat) : Int × Bool :=
  let v := x.vr m.a.toNat l
  let e := x.memBase m + (if scalar then 0 else if m.space == 3 then v.toInt else (v.toNat : Int))
  if m.sz == 5 then (e / 2, e % 2 == 1) else (e, false)

/-- A value of `n` registers from `d` on, as a number. -/
def Slice.vGroup (x : Slice) (d n l : Nat) : Nat := ((List.range n).map fun i => 2 ^ (32 * i) * (x.vr (d + i) l).toNat).sum
def Slice.sGroup (x : Slice) (d n : Nat) : Nat := ((List.range n).map fun i => 2 ^ (32 * i) * (x.sr (d + i)).toNat).sum

/-! ## Where a lane's access lands -/

/-- What a memory instruction does with each lane. -/
structure MemKind where
  form : AccForm
  /-- Bytes per lane; 0 a nibble. -/
  size : Nat
  /-- SLD and SST: no per-lane part, one access per member. -/
  scalar : Bool := false
  acc : Access
  /-- A SYSTEM page takes PERMISSION (07 R197, R206). -/
  noSys : Bool := false
  /-- As watched: bit 0 a load, bit 1 a store (15 R418). -/
  watch : Nat
  dest : Dest := .none
deriving DecidableEq, Repr

/-- Counter of an instruction (07 Table 07-5). -/
def MemKind.code (k : MemKind) (space : Nat) : Option Nat :=
  let posted := match k.form with
    | .load | .ldr | .atomic _ | .stc => false
    | _ => true
  if space = 0 then none else some ((if posted then 2 else 0) + (if space = 3 then 1 else 0))

/-- A lane of a memory instruction: its address, and the lanes that fault with it. -/
structure Tgt where
  slot : Nat
  lane : Nat
  a : Int
  hi : Bool
  mask : Pred
deriving DecidableEq, Repr

/-- Where an access lands. -/
inductive Place where
  | key (k : Nat)
  /-- A precise fault: code and address. -/
  | bad (code addr : Nat)
  /-- A replayable fault: code, reason, level. -/
  | far (code reason level : Nat)
deriving DecidableEq, Repr

/-- An address as TADDR holds it. -/
def taddr (a : Int) : Nat := (a % 2 ^ 52).toNat

/-- Lanes of the instruction in ascending LANE order. A scalar access is its member's lowest active lane's; a precise fault of
it names every active lane, one found at its end the lowest alone (log 67). -/
def State.targets (s : State) (m : MemF) (scalar : Bool) : List Tgt :=
  (s.taking m.g).flatMap fun t =>
    let x := s.slice s.issuer.core t
    if scalar then let e := x.memAddr m true 0; [⟨t, (x.lanes m.g).headD 0, e.1, e.2, x.active m.g⟩]
    else (x.lanes m.g).map fun l => let e := x.memAddr m false l; ⟨t, l, e.1, e.2, 1 <<< l⟩

/-- The LOCAL bytes of a slice (06 R146): offset in the core and length; a handler sees the core's own. -/
def State.localRun (s : State) (x : Slice) : Nat × Nat :=
  if x.handler then (0, localSize)
  else match s.group? x.group with
    | some g => (g.localBase, g.localLen)
    | none => (0, 0)

/-- Checks one access (06 R146, R152, R169; 07 R177), filling the translation caches. A SYSTEM page that the form does not accept
gives a precise PERMISSION (07 R197, R206; log 66). -/
def State.place (s : State) (core slot space n : Nat) (acc : Access) (noSys : Bool) (a : Int) : State × Place :=
  let x := s.slice core slot
  let n := max n 1
  let bad (c : Nat) : State × Place := (s, .bad c (taddr a))
  let o := a.toNat
  if a % n ≠ 0 then bad 0x04
  else if a < 0 then bad 0x05
  else match space with
    | 0 =>
      let (base, len) := s.localRun x
      if len < o + n then bad 0x05
      else if x.handler && !s.ownsLocal core x.asid o then bad 0x07
      else (s, .key (localBase core + base + o))
    | 1 =>
      if 2 ^ 26 ≤ o ∨ localSize < o % 2 ^ 18 + n then bad 0x05
      else if !s.reach x.asid (o / 2 ^ 18) then bad 0x07
      else (s, .key (localBase (o / 2 ^ 18) + o % 2 ^ 18))
    | 2 =>
      let c := clusterOf core
      if 0xC00000 < o + n then bad 0x05
      else if s.extentOwner c o != some x.asid then bad 0x07
      else (s, .key (clusterBase c + o))
    | _ =>
      if 2 ^ 52 < o + n then bad 0x05
      else match s.translateCore core x.asid o acc x.system with
        | (s, .error (.fail c r l)) => (s, .far c r l)
        | (s, .ok k) => if noSys && decide (hostBase ≤ k) then bad 0x07 else (s, .key k)

/-- Every lane checked: those that land, and those that fail. -/
structure Resolved where
  s : State
  ok : List (Tgt × Nat)
  bad : List (Tgt × Place)

def State.resolve (s : State) (space n : Nat) (acc : Access) (noSys : Bool) (ts : List Tgt) : Resolved :=
  ts.foldl (fun r t =>
    match r.s.place r.s.issuer.core t.slot space n acc noSys t.a with
    | (s, .key k) => { r with s := s, ok := r.ok ++ [(t, k)] }
    | (s, p) => { r with s := s, bad := r.bad ++ [(t, p)] }) ⟨s, [], []⟩

/-- Lanes that fault, by slot. -/
def tgtMasks (ts : List Tgt) : Tab Pred := ts.foldl (fun m t => tset m t.slot (tget 0 m t.slot ||| t.mask)) []

/-- The gang parks on a REPLAY record (15 R405). -/
def State.parkReplay (s : State) (t : Tgt) (acc : Access) (code reason level : Nat) (lanes : Tab Pred) : State :=
  let core := s.issuer.core
  let (s, idx) := s.postReplay (.slice core t.slot) (s.slice core t.slot).asid core t.slot (accCode acc) (taddr t.a)
    (s.issuer.pc.setWidth 32).toNat code reason level lanes
  s.members fun x => x.parkOn (.replay idx)

/-- The failure of the lowest lane (01 R22, 07 R177), in the state that the walks left. -/
def State.memStop (s : State) (acc : Access) (bad : List (Tgt × Place)) : Except Stop State :=
  match bad with
  | [] => .ok s
  | (t, p) :: rest =>
    let lanes := tgtMasks (t :: rest.map (·.1))
    match p with
    | .bad code addr => .error (.found s { code := code, addr := addr, lanes := lanes })
    | .far code reason level => .ok (s.parkReplay t acc code reason level lanes)
    | .key _ => .ok s

/-! ## Watchpoints -/

/-- The bytes of an access meet watchpoint `i` of the core (15 R418). An address beyond its space names no memory. -/
def Core.watchHit (k : Core) (core i space kind key va n : Nat) : Bool :=
  let ctl := tget 0 k.wpctl i
  let lo := (tget 0 k.wpaddr i).toNat
  let hi := tget 0 k.wpaddrHi i
  let sp := bits ctl 3 2
  let size := 2 ^ bits ctl 5 4
  let base := match sp with
    | 0 => localBase core + lo
    | 1 => localBase (bits (w32 lo) 18 8) + lo % 2 ^ 18
    | 2 => clusterBase (bits hi 0 4) + lo
    | _ => bits hi 0 20 * 2 ^ 32 + lo
  let named := match sp with
    | 0 => decide (lo < localSize)
    | 1 => decide (lo < 2 ^ 26) && decide (lo % 2 ^ 18 < localSize)
    | 2 => decide (lo < 0xC00000)
    | _ => true
  let at_ := if space = 3 then va else key
  let first := base / size * size
  ctl.getLsbD 0 && named && decide (bits ctl 5 4 ≤ 12) && ((ctl.getLsbD 1 && kind / 2 == 1) || (ctl.getLsbD 2 && kind % 2 == 1)) &&
    (sp == 3) == (space == 3) && decide (at_ < first + size) && decide (first < at_ + n)

/-- WATCHPOINT before any lane is performed, in the state that the walks left; `n` gives the bytes of each lane. -/
def State.watch (s : State) (space kind : Nat) (ok : List (Tgt × Nat)) (n : Tgt → Nat) : Except Stop Unit :=
  let core := s.issuer.core
  let k := s.core core
  let hit (p : Tgt × Nat) : Bool :=
    let x := s.slice core p.1.slot
    s.attached core x.asid && !x.wskip && n p.1 != 0 &&
      (List.range 4).any fun i => k.watchHit core i space kind p.2 p.1.a.toNat (n p.1)
  match ok.filter hit with
  | [] => .ok ()
  | p :: ps => .error (.found s { code := 0x13, addr := taddr p.1.a, lanes := tgtMasks (p.1 :: ps.map (·.1)) })

/-- A slice's access of `n` bytes at a LOCAL offset meets a watchpoint: what a form reads or writes in LOCAL beside its lanes. -/
def State.spanHit (s : State) (slot kind off n : Nat) : Bool :=
  let core := s.issuer.core
  let x := s.slice core slot
  n != 0 && s.attached core x.asid && !x.wskip &&
    (List.range 4).any fun i => (s.core core).watchHit core i 0 kind (localBase core + (s.localRun x).1 + off) off n
/-- WATCHPOINT of the records that members read: slot, offset and length of each. -/
def State.watchSpans (s : State) (g : BitVec 4) (ts : List (Nat × Nat × Nat)) : Except Stop Unit :=
  match ts.filter fun p => s.spanHit p.1 1 p.2.1 p.2.2 with
  | [] => .ok ()
  | p :: rest => s.faultOf g (p.1 :: rest.map (·.1)) 0x13 p.2.1

/-! ## Waits -/

/-- Room in the counter, WT and a release, in every member with an active lane (07 R188-R189, 09 R236). -/
def State.memWaits (s : State) (g : BitVec 4) (code : Option Nat) (wt : BitVec 2) (rel : Bool) (scope : Nat) :
    Except Stop Unit :=
  let busy (t : Nat) : Bool :=
    let x := s.slice s.issuer.core t
    (code.any fun c => decide (255 ≤ x.count c)) || (wt.getLsbD 0 && x.count 2 != 0) || (wt.getLsbD 1 && x.count 3 != 0)
  if (s.taking g).any busy then .error .stall else if rel then s.releaseGang g scope else .ok ()

/-! ## LOCAL -/

/-- Performs a request at once; registers are written after every lane (02 R41). -/
def State.performNow (s : State) (a : Acc) (d : Dest) : State :=
  let core := s.issuer.core
  let r := a.lanes.foldl (fun (p : State × List RegWrite) l =>
    let q := p.1.performLane 0 core a.form a.size l
    (q.1, p.2 ++ d.writes l q.2)) (s, [])
  r.2.foldl (fun s w => s.modSlice core w.slot w.apply) r.1

/-- The lanes whose SYNC or TAKE condition fails, each tested as the lower lanes would leave memory (06 R149):
`want` is the state that its words need, `moves` whether the access changes it. -/
def feFailing (emptied : List Nat) (n : Nat) (want moves : Bool) : List Nat → List LaneAcc → List LaneAcc
  | _, [] => []
  | moved, l :: ls =>
    let ws := feWords l.pa n
    if ws.all fun w => emptied.contains w == want && !moved.contains w then
      feFailing emptied n want moves (if moves then moved ++ ws else moved) ls
    else l :: feFailing emptied n want moves moved ls

/-- The words that a member waits for, those of its own lowest waiting lane first (15 R449). -/
def feParks (n : Nat) (failing all : List LaneAcc) (t : Nat) : Park :=
  .fullEmpty (((failing.filter (·.slot == t)) ++ failing ++ all).flatMap fun l => feWords l.pa n).eraseDups

/-- A LOCAL access, with its full/empty behaviour (06 Table 06-1). -/
def State.localAccess (s : State) (ord : Nat) (a : Acc) (d : Dest) : Except Stop State :=
  let store := a.form.isStore
  let cond := ord == 6 || (ord == 5 && !store)
  let words := a.lanes.flatMap fun l => feWords l.pa a.size
  match if cond then feFailing s.emptyWords a.size store (ord == 6) [] a.lanes else [] with
  | f :: fs => .error (.parks (s.issuer.slots.map fun t => (t, feParks a.size (f :: fs) a.lanes t)))
  | [] =>
    let s := s.performNow a d
    .ok (if ord == 6 && !store then words.foldl (fun s w => s.setFe w 1 true) s
      else if store && 5 ≤ ord then words.foldl (fun s w => s.setFe w 1 false) s else s)

/-! ## Operations of the other spaces -/

/-- The operation of a memory instruction of the gang. -/
def State.memOp (s : State) (g : BitVec 4) (code : Option Nat) (k : MemKind) (lanes : List LaneAcc) : Op :=
  let core := s.issuer.core
  { id := s.nextId, core, asid := (s.slice core (s.issuer.slots.headD 0)).asid, pc := s.issuer.pc, members := s.taking g,
    code, dest := k.dest, lanes := lanes.map fun l => (l.slot, l.lane),
    perLane := match k.form with | .atomic _ | .stc => true | _ => false }

/-- An acquire holds its slice's later accesses until its operation ends (09 Table 09-3). -/
def State.noteAcquire (s : State) (o : Op) (acq : Bool) (scope : Nat) : State :=
  if acq && scope != 0 then
    o.members.foldl (fun s t => s.modSlice o.core t fun x =>
      { x with acquires := x.acquires ++ [⟨o.id, decide (3 ≤ scope)⟩] }) s
  else s

/-- Lanes grouped by a key, the groups in order of their lowest lane. -/
def groupLanes (f : LaneAcc → Nat) (ls : List LaneAcc) : List (Nat × List LaneAcc) :=
  ((ls.map f).eraseDups).map fun k => (k, ls.filter fun l => f l == k)

/-- LWIN: one message to each home, in order of the lowest lane that names it (06 R154; log 2). A run of FEMT or FFUL is one
message per lane (06 R151). -/
def State.lwinAccess (s : State) (g : BitVec 4) (k : MemKind) (a : Acc) (acq : Bool) (scope : Nat) : State :=
  let home (l : LaneAcc) : Nat := (l.pa - localBase 0) / 2 ^ 18
  let parts := match a.form with
    | .femt | .fful => a.lanes.map fun l => (home l, [l])
    | _ => groupLanes home a.lanes
  let o := { s.memOp g (k.code 1) k a.lanes with left := parts.length }
  let s := (s.openOp o).noteAcquire o acq scope
  parts.foldl (fun s p => s.send o.core p.1 o.asid (some o.id) (.lwin { a with lanes := p.2 })) s

/-- A CLUSTER access that must wait for admission parks the gang on the pool (06 R174-R176). -/
def State.parkPool (s : State) (c : Nat) (fresh : LaneAcc → Bool) (lanes : List LaneAcc) : Except Stop State :=
  let core := s.issuer.core
  if s.issuer.slots.any fun t => (s.slice core t).handler then .error (.fault { code := 0x18 })
  else
    let waiting := lanes.filter fresh
    let addr := (waiting.headD ⟨0, 0, 0, 0, false, 0, 0⟩).va
    let since (t : Nat) : Nat := (s.slice core t).poolSince.getD s.time.toNat
    let s := (s.parkGang fun t => .pool c (since t) addr (slotMask (waiting.map fun l => (l.slot, l.lane)) t)).members
      fun x => { x with poolSince := match x.park with | some (.pool _ n _ _) => some n | _ => none }
    .ok (if (s.cluster c).poolParkSent then s else s.poolLow c 1)

/-- An access that parked earlier on such an object is to be evaluated first (06 R174, 07 R184). -/
def State.parkedOlder (s : State) (p : Park → Bool) : Bool :=
  let mine := (s.slice s.issuer.core (s.issuer.slots.headD 0)).parkSeq
  s.slices.any fun (_, x) => x.live && !x.halted && x.woken && x.park.any p &&
    mine.all fun m => decide (x.parkSeq.getD 0 < m)
/-- One parked on the pool of a cluster. -/
def State.poolOlder (s : State) (c : Nat) : Bool := s.parkedOlder fun o => match o with | .pool d _ _ _ => d == c | _ => false
/-- One parked on the core's miss entries. -/
def State.missOlder (s : State) : Bool := s.parkedOlder fun o => o == .miss s.issuer.core

/-- CLUSTER (06 R169-R174): performed at once when its blocks are expanded and no earlier access of a member waits. -/
def State.clusterAccess (s : State) (g : BitVec 4) (k : MemKind) (a : Acc) (acq : Bool) (scope : Nat) : Except Stop State :=
  let core := s.issuer.core
  let c := clusterOf core
  let block (l : LaneAcc) : Nat := (l.pa - clusterBase c) / 256
  let blocks := (a.lanes.map block).eraseDups
  let write := match k.form with | .load => false | _ => true
  let kc := s.cluster c
  let fresh (l : LaneAcc) : Bool := !kc.grainer.any fun p => p.1 == block l && p.2
  if write && s.poolOlder c then .error .stall
  else if write && !kc.admits blocks then s.parkPool c fresh a.lanes
  else
    let hit := blocks.all fun b => kc.grainer.any (·.1 == b)
    match s.touchBlocks c write blocks with
    | none => .error .stall
    | some s =>
      let now := hit && !s.clusterBehind core (s.taking g)
      let o := { s.memOp g (k.code 2) k a.lanes with left := if now then 0 else 1 }
      let s := ((s.openOp o).noteAcquire o acq scope)
      let s := if now then s.performCluster o.id core a
        else s.send core (nodeCluster c) o.asid (some o.id) (.cluster a)
      .ok (s.advanceAll 8)

/-! ## GLOBAL -/

/-- Room for new requests to each peer named (18 R439). -/
def State.peerRoom (s : State) (dsts : List Nat) : Bool :=
  dsts.all fun d => d < nodePeer 0 || nodePeer 8 ≤ d ||
    decide ((s.flights.filter (·.dst == d)).length + (dsts.filter (· == d)).length ≤ 4096)

/-- Miss entries of a core in use (07 R184). -/
def State.entriesUsed (s : State) (core : Nat) : Nat := ((s.ops.filter (·.core == core)).map (·.entries)).sum

/-- A flight of an operation, not yet performed, fetches a sector under an entry of its own. -/
def State.fetches (s : State) (f : Flight) (op sector : Nat) : Bool :=
  f.op == some op && !s.peerDone f && match f.pkt with | .global a _ => a.own.contains sector | _ => false

/-- The operation of the core that is fetching a sector and may share it (07 R184). -/
def State.sharer (s : State) (core sector : Nat) : Option Op :=
  s.ops.find? fun o => o.core == core && o.share && o.fresh.contains sector && s.flights.any (s.fetches · o.id sector)

/-- Joins a load to the fetch of another, whose request takes it along. -/
def State.shareFetch (s : State) (o : Op) (id : Nat) (a : Acc) (sector : Nat) : State :=
  let b := { a with lanes := a.lanes.filter fun l => l.pa / 64 == sector, sectors := [sector] }
  let add (f : Flight) : Flight := if s.fetches f o.id sector then
    { f with pkt := match f.pkt with | .global c sh => .global c (sh ++ [(id, b)]) | p => p } else f
  ({ s with flights := s.flights.map add } : State).modOp id fun p => { p with left := p.left + 1 }

/-- Room for `n` requests in the core's posted-store queue of 64 (07 R185). A request counts until it is performed (log 39). -/
def State.postRoom (s : State) (core n : Nat) : Bool :=
  let posted (f : Flight) : Bool := f.src == core && (f.dst < nodePeer 0 || nodePeer 8 ≤ f.dst) && match f.pkt with
    | .global a _ => match a.form with | .load | .ldr | .atomic _ | .stc => false | _ => true
    | _ => false
  decide ((s.flights.filter posted).length + n ≤ 64)

/-- An LDR notes the reservations that it will set, after those of the lanes' earlier LDRs; with no load of the slice under way only
the last of each lane stands (07 R198). -/
def State.openResv (s : State) (op : Nat) (a : Acc) : State :=
  let core := s.issuer.core
  let prune (x : Slice) : Slice := if x.count 1 != 0 then x
    else { x with resv := x.resv.filter fun r => !x.resv.any fun q => q.lane == r.lane && decide (r.op < q.op) }
  if a.form != .ldr then s
  else
    let s := (a.lanes.map (·.slot)).eraseDups.foldl (fun s t => s.modSlice core t prune) s
    a.lanes.foldl (fun s l => s.modSlice core l.slot fun x =>
      { x with resv := x.resv ++ [{ lane := l.lane, granule := l.pa / 64, cycle := l.val, op := op }] }) s

/-- The requests of a load, each with the sectors that it is the first to fetch. -/
def ownParts : List Nat → List (List LaneAcc) → List (List LaneAcc × List Nat × List Nat)
  | _, [] => []
  | seen, p :: ps =>
    let secs := (p.map (·.pa / 64)).eraseDups
    (p, secs, secs.filter fun k => !seen.contains k) :: ownParts (seen ++ secs) ps

/-- A GLOBAL load (07 R181-R184): hits are served from the near cache, sectors in fetch are shared, the rest is requested, a
line at a time. `bypass` is BYP or an acquire at TEAM scope or wider. -/
def State.globalLoad (s : State) (m : MemF) (k : MemKind) (a : Acc) (acq : Bool) : Except Stop State :=
  let core := s.issuer.core
  let scope := m.scope.toNat
  let bypass := m.cp == 3 || (acq && decide (3 ≤ scope))
  let plain := m.ord == 0 && m.cp != 3
  let kc := s.core core
  let sectors := a.touched
  let near := if bypass then [] else sectors.filter kc.nearHas
  let shared := if plain then sectors.filter fun c => !near.contains c && (s.sharer core c).isSome else []
  let need := sectors.filter fun c => !near.contains c && !shared.contains c
  if !need.isEmpty && s.missOlder then .error .stall
  else if 256 < s.entriesUsed core + need.length then .error (.park (.miss core))
  else
    let part (l : LaneAcc) : Nat := if k.scalar then 128 * (l.pa / 256) + l.slot else l.pa / 256
    let parts := groupLanes part (a.lanes.filter fun l => need.contains (l.pa / 64))
    if !s.peerRoom (parts.map fun p => homeOf (p.2.headD ⟨0, 0, 0, 0, false, 0, 0⟩).pa) then .error .stall
    else
      let fresh := if bypass then [] else need ++ shared
      let fill := !bypass && decide (m.cp.toNat < 2)
      let o := { s.memOp m.g (k.code 3) k a.lanes with left := parts.length, entries := need.length, fresh, fill }
      let o := { o with evictFirst := m.cp == 1, share := plain }
      let s := ((s.openResv o.id a).openOp o).noteAcquire o acq scope
      let s := near.foldl (fun s c => s.modCore core fun x => x.nearTouch c) s
      let s := (a.lanes.filter fun l => near.contains (l.pa / 64)).foldl (fun s l =>
        let r := ({ s with mem := kc.nearData } : State).performLane o.id core k.form k.size l
        ({ r.1 with mem := s.mem } : State).modOp o.id fun p => { p with writes := p.writes ++ p.dest.writes l r.2 }) s
      let s := shared.foldl (fun s c => match s.sharer core c with
        | some p => s.shareFetch p o.id a c
        | none => s) s
      .ok (((ownParts [] (parts.map (·.2))).foldl (fun s p =>
        let b := { a with lanes := p.1, sectors := p.2.1, own := p.2.2 }
        s.send core (homeOf (p.1.headD ⟨0, 0, 0, 0, false, 0, 0⟩).pa) o.asid (some o.id) (.global b [])) s).advanceAll 8)

/-- A posted GLOBAL request: stores, PCLR, LINV, LWB, LCLN (07 R181, R183, R185). -/
def State.globalPosted (s : State) (m : MemF) (k : MemKind) (a : Acc) : Except Stop State :=
  let core := s.issuer.core
  let part (l : LaneAcc) : Nat := if k.scalar then 128 * (l.pa / 256) + l.slot else l.pa / 256
  let parts := groupLanes part a.lanes
  let dst (p : Nat × List LaneAcc) : Nat := homeOf (p.2.headD ⟨0, 0, 0, 0, false, 0, 0⟩).pa
  if !s.peerRoom (parts.map dst) || !s.postRoom core parts.length then .error .stall
  else
    let far := k.form.isStore && a.lanes.any fun l => decide (2 ^ 52 ≤ l.pa)
    let o := { s.memOp m.g (k.code 3) k a.lanes with left := parts.length, far }
    let s := s.openOp o
    let s : State := match k.form with
      | .store => a.lanes.foldl (fun s l => s.nearStore core k.size l) s
      | .pclr => a.lanes.foldl (fun s l => (List.range 16).foldl (fun (s : State) i =>
          s.nearStore core 4 { l with pa := l.pa + 4 * i, val := 0 }) s) s
      | _ => s
    .ok ((parts.foldl (fun s p => s.send core (dst p) o.asid (some o.id) (.global { a with lanes := p.2 } [])) s).advanceAll 8)

/-! ## The frame of the memory majors -/

/-- An acquire in a memory form (09 Table 09-2): ORD 1, 3, 4, and SYNC and TAKE loads. -/
def memAcquires (m : MemF) (load : Bool) : Bool := m.ord == 1 || m.ord == 3 || m.ord == 4 || (load && decide (5 ≤ m.ord.toNat))
/-- A release, or an SC event, which waits as one: ORD 2, 3, 4, and SYNC and TAKE stores. -/
def memReleases (m : MemF) (load : Bool) : Bool := m.ord == 2 || m.ord == 3 || m.ord == 4 || (!load && decide (5 ≤ m.ord.toNat))

/-- Runs a form of majors 0x30 to 0x34 whose lanes have been checked: `val` gives a lane's operands. The acquire half of an SC store,
which has no destination to wait for, completes at its issue (09 R236; DESIGN CHOICE, log 77). -/
def memForm (m : MemF) (k : MemKind) (h : Head) (s : State) (val : Slice → Nat → Nat × Nat)
    (globalPart : State → Acc → Except Stop State) : Meaning :=
  gangwise { h with len := 8, mem := true, adv := false, ok := h.ok && memBaseOk m,
                    srcs := memBaseSrc m ++ (if k.scalar then [] else [(0, m.a.toNat)]) ++ h.srcs } s fun s =>
    if (s.taking m.g).isEmpty then .ok (s.advanceAll 8)
    else do
      let load := k.form == .load
      let space := m.space.toNat
      s.memWaits m.g (k.code space) m.wt (memReleases m load) m.scope.toNat
      let r := s.resolve space k.size k.acc k.noSys (s.targets m k.scalar)
      if !r.bad.isEmpty then r.s.memStop k.acc r.bad
      else
        r.s.watch space k.watch r.ok fun _ => max k.size 1
        let s := r.s
        let lanes := r.ok.map fun (t, key) =>
          let v := val (s.slice s.issuer.core t.slot) t.lane
          ({ slot := t.slot, lane := t.lane, va := taddr t.a, pa := key, hi := t.hi, val := v.1, val2 := v.2 } : LaneAcc)
        let a : Acc := { form := k.form, size := k.size, lanes, cp := m.cp.toNat }
        let acq := memAcquires m load
        match space with
        | 0 => do
          let s ← s.localAccess m.ord.toNat a k.dest
          pure ((if acq then s.acquireNow s.issuer.core m.scope.toNat else s).advanceAll 8)
        | 1 =>
          let s := s.lwinAccess m.g k a (acq && k.dest != .none) m.scope.toNat
          pure ((if acq && k.dest == .none then s.acquireNow s.issuer.core m.scope.toNat else s).advanceAll 8)
        | 2 => do
          let s ← s.clusterAccess m.g k a (acq && k.dest != .none) m.scope.toNat
          pure (if acq && k.dest == .none then s.acquireNow s.issuer.core m.scope.toNat else s)
        | _ => do
          let s ← globalPart s a
          pure (if acq && k.dest == .none then s.acquireNow s.issuer.core m.scope.toNat else s)

/-- LD (07 R191). -/
def execLd (m : MemF) (s : State) : Meaning :=
  let n := szBytes m.sz
  let k : MemKind := { form := .load, size := n, acc := .load, watch := 1, dest := .v m.d.toNat (szRegs n) }
  memForm m k { ok := memVOk m (szRegs n) } s (fun _ _ => (0, 0)) fun s a => s.globalLoad m k a (memAcquires m true)

/-- ST (07 R191). -/
def execSt (m : MemF) (s : State) : Meaning :=
  let n := szBytes m.sz
  let k : MemKind := { form := .store, size := n, acc := .store, watch := 2 }
  memForm m k { ok := memVOk m (szRegs n), srcs := group 0 m.d.toNat (szRegs n) } s
    (fun x l => (x.vGroup m.d.toNat (szRegs n) l, 0)) fun s a => s.globalPosted m k a

/-- SLD (07 R192). -/
def execSld (m : MemF) (s : State) : Meaning :=
  let n := szBytes m.sz
  let k : MemKind := { form := .load, size := n, scalar := true, acc := .load, watch := 1, dest := .s m.d.toNat (szRegs n) }
  memForm m k { ok := memSOk m (szRegs n) } s (fun _ _ => (0, 0)) fun s a => s.globalLoad m k a (memAcquires m true)

/-- SST (07 R192). -/
def execSst (m : MemF) (s : State) : Meaning :=
  let n := szBytes m.sz
  let k : MemKind := { form := .store, size := n, scalar := true, acc := .store, watch := 2 }
  memForm m k { ok := memSOk m (szRegs n), srcs := group 1 m.d.toNat (szRegs n) } s
    (fun x _ => (x.sGroup m.d.toNat (szRegs n), 0)) fun s a => s.globalPosted m k a

end Sys2Proof.Machine
end

