-- ==== Sys2Proof/Machine/Atomic.lean ====
section
/-! DEFINITION. Atomics, LDR and STC (07 R193-R200). -/

namespace Sys2Proof.Machine

/-- GLOBAL atomics (R194-R195, R197): one reserve per 8-byte unit of device memory, in order of its lowest lane; lanes on
SYSTEM pages leave as PCIe AtomicOps, one at a time. An STC forms one request per unit too (R183). -/
def State.globalAtomic (s : State) (m : MemF) (k : MemKind) (a : Acc) : Except Stop State :=
  let core := s.issuer.core
  let sys := a.lanes.filter fun l => decide (hostBase ≤ l.pa)
  let own := a.lanes.filter fun l => decide (l.pa < hostBase)
  let parts := groupLanes (·.pa / 8) own
  let dst (p : Nat × List LaneAcc) : Nat := homeOf (8 * p.1)
  let need := parts.length + sys.length
  if s.missOlder then .error .stall
  else if 256 < s.entriesUsed core + need then .error (.park (.miss core))
  else if !s.peerRoom (parts.map dst) then .error .stall
  else
    let o := { s.memOp m.g (k.code 3) k a.lanes with left := need, entries := need }
    let s := (s.openOp o).noteAcquire o (memAcquires m false) m.scope.toNat
    let s := a.touched.foldl (fun s c => s.nearForget core c) s
    let pkt (ls : List LaneAcc) : Pkt :=
      let b := { a with lanes := ls }
      if k.form == .stc then .global b [] else .reserve b
    let s := parts.foldl (fun s p => s.send core (dst p) o.asid (some o.id) (pkt p.2)) s
    let s := if sys.isEmpty then s else s.send core nodeHost o.asid (some o.id) (.sysAtomic { a with lanes := sys })
    .ok (s.advanceAll 8)

/-- Atomic forms that a SYSTEM page accepts (R197). -/
def AtomForm.pcie : AtomForm → Bool
  | .add | .xchg | .cas => true
  | _ => false

/-- An atomic form (R193): the operand is the group at D; ACAS has its compare value first, then the new value. -/
def atomForm (f : AtomForm) (m : MemF) (s : State) : Meaning :=
  let n := szBytes m.sz
  let r := szRegs n
  let d := m.d.toNat
  let g := if f == .cas then 2 * r else r
  let k : MemKind := { form := .atomic f, size := n, acc := .atomic, noSys := !f.pcie, watch := 3, dest := .v d r }
  memForm m k { ok := memVOk m g, srcs := group 0 d g } s
    (fun x l => (x.vGroup d r l, if f == .cas then x.vGroup (d + r) r l else 0)) fun s a => s.globalAtomic m k a

def execAadd (m : MemF) (s : State) : Meaning := atomForm .add m s
def execAmins (m : MemF) (s : State) : Meaning := atomForm .mins m s
def execAmaxs (m : MemF) (s : State) : Meaning := atomForm .maxs m s
def execAminn (m : MemF) (s : State) : Meaning := atomForm .minn m s
def execAmaxn (m : MemF) (s : State) : Meaning := atomForm .maxn m s
def execAand (m : MemF) (s : State) : Meaning := atomForm .and m s
def execAor (m : MemF) (s : State) : Meaning := atomForm .or m s
def execAxor (m : MemF) (s : State) : Meaning := atomForm .xor m s
def execAxchg (m : MemF) (s : State) : Meaning := atomForm .xchg m s
def execAcas (m : MemF) (s : State) : Meaning := atomForm .cas m s
def execAfadd (m : MemF) (s : State) : Meaning := atomForm .fadd m s
def execAfmin (m : MemF) (s : State) : Meaning := atomForm .fmin m s
def execAfmax (m : MemF) (s : State) : Meaning := atomForm .fmax m s
def execAhadd2 (m : MemF) (s : State) : Meaning := atomForm .hadd2 m s

/-- LDR (R198): a load that sets each lane's reservation where it is performed; the lane carries the cycle of issue. -/
def execLdr (m : MemF) (s : State) : Meaning :=
  let n := szBytes m.sz
  let k : MemKind := { form := .ldr, size := n, acc := .load, noSys := true, watch := 1, dest := .v m.d.toNat (szRegs n) }
  let now := s.cycle.toNat
  memForm m k { ok := memVOk m (szRegs n) } s (fun _ _ => (now, 0)) fun s a => s.globalLoad m k a (memAcquires m false)

/-- STC (R199): the lane carries the cycle of issue, against which R200 judges the age of its reservation. -/
def execStc (m : MemF) (s : State) : Meaning :=
  let n := szBytes m.sz
  let r := szRegs n
  let k : MemKind := { form := .stc, size := n, acc := .store, noSys := true, watch := 3, dest := .v m.d.toNat 1 }
  let now := s.cycle.toNat
  memForm m k { ok := memVOk m r, srcs := group 0 m.d.toNat r } s
    (fun x l => (x.vGroup m.d.toNat r l, now)) fun s a => s.globalAtomic m k a

end Sys2Proof.Machine
end

