-- ==== Sys2Proof/Machine/Queue.lean ====
section
/-! DEFINITION. Queue registers: QWR, QRD, QTRY, QCNT (05 R119-R123). Park objects and pops of a B operand are in
Operands.lean. -/

namespace Sys2Proof.Machine

/-- Entries of a queue register. -/
def queueSize : Nat := 8

/-- Runs a queue form on the physical queue that its code names, once a member takes part; QUEUE_MISUSE when the group was
not allotted it (R119). -/
def queueForm (g : BitVec 4) (q : BitVec 6) (ok : Bool) (srcs : List (Nat × Nat)) (s : State)
    (body : State → Nat → List (List Word) → List Nat → Except Stop State) : Meaning :=
  gangwise { ok := pOk q && ok, srcs := srcs } s fun s =>
    let core := s.issuer.core
    match s.taking g with
    | [] => .ok s
    | t :: ts =>
      match s.queueOf core t q.toNat with
      | none => s.faultAll g 0x10
      | some n => body s n (tget {} (s.core core).queues n).entries (t :: ts)

/-- Hands the oldest entries to the members, in ascending SLICE order; the function changes a member by its entry. -/
def State.popAll (s : State) (n : Nat) (es : List (List Word)) (ts : List Nat) (f : Slice → List Word → Slice) : State :=
  (ts.zip es).foldl (fun s p => s.modSlice s.issuer.core p.1 fun x => f x p.2)
    (s.setQueue s.issuer.core n (es.drop ts.length))

/-- QWR: D names the queue. -/
def execQwr (f : R2) (s : State) : Meaning :=
  queueForm f.g f.d true [(0, f.a.toNat)] s fun s n es ts =>
    if es.length + ts.length ≤ queueSize then
      let new := ts.map fun t => (List.range 8).map fun l => (s.slice s.issuer.core t).vr f.a.toNat l
      .ok (s.setQueue s.issuer.core n (es ++ new))
    else .error (.park (.queue s.issuer.core n))

/-- QRD: A names the queue. -/
def execQrd (f : R2) (s : State) : Meaning :=
  queueForm f.g f.a true [] s fun s n es ts =>
    if ts.length ≤ es.length then
      .ok (s.popAll n es ts fun x e => x.writeLanes f.d.toNat (x.lanes f.g) fun l => e.getD l 0)
    else .error (.park (.queue s.issuer.core n))

/-- QTRY: A names the queue, B the predicate; it never parks. -/
def execQtry (f : RP) (s : State) : Meaning :=
  queueForm f.g f.a (pOk f.b) [] s fun s n es ts =>
    let mark (x : Slice) (b : Bool) : Slice := (x.lanes f.g).foldl (fun y l => y.setPBit f.b.toNat l b) x
    if ts.length ≤ es.length then
      .ok (s.popAll n es ts fun x e => mark (x.writeLanes f.d.toNat (x.lanes f.g) fun l => e.getD l 0) true)
    else .ok (ts.foldl (fun s t => s.modSlice s.issuer.core t fun x => mark x false) s)

/-- QCNT writes every member (R117). -/
def execQcnt (f : R2) (s : State) : Meaning :=
  queueForm f.g f.a (sOk f.d) [] s fun s _ es _ =>
    .ok (s.issuer.slots.foldl (fun s t => s.modSlice s.issuer.core t fun x => x.setS f.d.toNat (w32 es.length)) s)

end Sys2Proof.Machine
end

