-- ==== Sys2Proof/Machine/Barrier.lean ====
section
/-! DEFINITION. Named barriers and team barriers (10 R249-R255). Completion is in Ops.lean. -/

namespace Sys2Proof.Machine

/-- Physical barrier that a slice calls by ID8, with the group's count of retired slices (R249, R254). -/
def State.barrierOf (s : State) (core slot name : Nat) : Option (Nat × Nat) :=
  let x := s.slice core slot
  if x.handler then none
  else match s.group? x.group with
    | some g => (findBarrier (s.core core).barriers x.group name).map fun i => (i, g.ret)
    | none => none

/-- Physical team barrier of the slice's team (R255). -/
def State.teamBarrierOf (s : State) (core slot name : Nat) : Option Nat :=
  let x := s.slice core slot
  if x.handler then none
  else match s.group? x.group with
    | some g => findBarrier (s.cluster (clusterOf core)).barriers g.team name
    | none => none

def State.barrier (s : State) (core id : Nat) : Barrier := tget {} (s.core core).barriers id
def State.setBarrier (s : State) (core id : Nat) (b : Barrier) : State :=
  s.modCore core fun k => { k with barriers := tset k.barriers id b }

/-- A member arrives, and the barrier is evaluated (R251). -/
def State.arrive (s : State) (core slot id ret : Nat) : State :=
  let b := s.barrier core id
  (s.setBarrier core id { b with arrived := bitIns b.arrived (skey core slot) }).evalBarrier core id ret

/-- Members with no active lane only move on (R251). -/
def State.skipInactive (s : State) (g : BitVec 4) : State :=
  s.issuer.slots.foldl (fun s t => s.modSlice s.issuer.core t fun x => if x.active g = 0 then x.advance 4 else x) s

/-- Runs a BAR form on the physical barrier, once a member takes part. `rel`: it is a release at GROUP scope. -/
def barForm (h : Head) (g : BitVec 4) (id : BitVec 8) (rel : Bool) (s : State)
    (body : State → Nat → Nat → List Nat → Except Stop State) : Meaning :=
  gangwise h s fun s =>
    match s.taking g with
    | [] => .ok (if h.adv then s else s.advanceAll 4)
    | t :: ts =>
      match s.barrierOf s.issuer.core t id.toNat with
      | none => s.faultAll g 0x02
      | some (n, ret) => do
        if rel then s.releaseGang g 2
        body s n ret (t :: ts)

/-- A member is in ARRV in the barrier's phase. -/
def State.inArrv (s : State) (core n t : Nat) : Bool := (s.barrier core n).arrived.contains (skey core t)

/-- Each of the members arrives and parks on the phase, whose end lets it go on after its instruction; one that is in ARRV parks
without arriving, and the end of the phase has it evaluated again (R251). -/
def State.arriveParked (s : State) (core n ret : Nat) (ts : List Nat) : State :=
  ts.foldl (fun s t =>
    let b := s.barrier core n
    let again := s.inArrv core n t
    let s := s.modSlice core t fun x => x.parkOn (.barrier core n b.phase (!again))
    if again then s else s.arrive core t n ret) s

/-- A member arrives and goes on. -/
def State.arriveOn (s : State) (core n ret t : Nat) : State := (s.modSlice core t fun x => x.advance 4).arrive core t n ret

/-- Each of the members arrives and goes on, in the phase that the arrivals before it leave; with it the members that were in ARRV at
their turn, which arrive once the phase has ended (R251). -/
def State.arriveEach (s : State) (core n ret : Nat) (ts : List Nat) : State × List Nat :=
  ts.foldl (fun p t => if p.1.inArrv core n t then (p.1, p.2 ++ [t]) else (p.1.arriveOn core n ret t, p.2)) (s, [])

/-- BARARV: every member arrives and goes on. While one that was in ARRV waits for the phase's end (R251), the members of its gang
that take part park with it, once they have arrived (04 R80; log 23); where an arrival of the gang ends the phase, none parks. -/
def execBararv (g : BitVec 4) (i : BitVec 8) (s : State) : Meaning :=
  barForm { mem := true, adv := false } g i true s fun s n ret ts =>
    let core := s.issuer.core
    let s' := s.skipInactive g
    let (u, late) := s'.arriveEach core n ret ts
    .ok (if late.any (u.inArrv core n) then s'.arriveParked core n ret ts
      else late.foldl (fun s t => s.arriveOn core n ret t) u)

/-- BARSYN: arrives and parks on the phase; the completion lets it go on after the instruction (R251). -/
def execBarsyn (g : BitVec 4) (i : BitVec 8) (s : State) : Meaning :=
  barForm { mem := true, adv := false } g i true s fun s n ret ts =>
    .ok ((s.skipInactive g).arriveParked s.issuer.core n ret ts)

/-- BARWT: every member of the gang parks while one that takes part is in ARRV (R254, 04 R80); its acquire at GROUP scope asks nothing
more (Table 09-3). -/
def execBarwt (g : BitVec 4) (i : BitVec 8) (s : State) : Meaning :=
  barForm { mem := true, adv := false } g i false s fun s n _ ts =>
    let core := s.issuer.core
    let b := s.barrier core n
    if ts.any (s.inArrv core n) then
      .ok (s.issuer.slots.foldl (fun s t => s.modSlice core t fun x => x.parkOn (.barrier core n b.phase true)) s)
    else .ok (s.advanceAll 4)

/-- A legal EXPECT and AUTO word (R254, R255). -/
def expectOk (v : Word) (limit : Nat) : Bool := bits v 11 20 == 0 && bits v 0 11 != 0 && decide (bits v 0 11 ≤ limit)

/-- Every member's value is checked before any is used (01 R22). -/
def State.checkExpect (s : State) (g : BitVec 4) (a : BitVec 6) (limit : Nat) (ts : List Nat) : Except Stop Unit :=
  let core := s.issuer.core
  match ts.filter fun t => !expectOk ((s.slice core t).sr a.toNat) limit with
  | [] => .ok ()
  | bad => s.faultOf g bad 0x02 0

def execBarinit (g : BitVec 4) (i : BitVec 8) (a : BitVec 6) (s : State) : Meaning :=
  barForm { ok := sOk a, srcs := [(1, a.toNat)] } g i false s fun s n ret ts => do
    let core := s.issuer.core
    s.checkExpect g a 120 ts
    pure (ts.foldl (fun s t =>
      let v := (s.slice core t).sr a.toNat
      (s.setBarrier core n { s.barrier core n with expect := bits v 0 11, auto := v.getLsbD 31 }).evalBarrier core n ret) s)

def execBarqry (g : BitVec 4) (i : BitVec 8) (a : BitVec 6) (s : State) : Meaning :=
  barForm { ok := sOk a } g i false s fun s n ret ts =>
    let core := s.issuer.core
    let b := s.barrier core n
    let w := w32 (b.expect + b.total ret % 2 ^ 11 * 2 ^ 11 + (if b.auto then 2 ^ 30 else 0) + (if b.phase then 2 ^ 31 else 0))
    .ok (ts.foldl (fun s t => s.modSlice core t fun x => x.setS a.toNat w) s)

/-- Runs a team-barrier form (R255). -/
def tbarForm (h : Head) (g : BitVec 4) (id : BitVec 8) (s : State)
    (body : State → Nat → List Nat → Except Stop State) : Meaning :=
  gangwise { h with ok := h.ok && decide (id.toNat ≤ 3) } s fun s =>
    match s.taking g with
    | [] => .ok (if h.adv then s else s.advanceAll 4)
    | t :: ts =>
      match s.teamBarrierOf s.issuer.core t id.toNat with
      | none => s.faultAll g 0x02
      | some n => body s n (t :: ts)

/-- TBARSYN: a release at TEAM scope; the arrivals leave for the team barrier unit, and the members park. -/
def execTbarsyn (g : BitVec 4) (i : BitVec 8) (s : State) : Meaning :=
  tbarForm { mem := true, adv := false } g i s fun s n ts => do
    s.releaseGang g 3
    let core := s.issuer.core
    pure (ts.foldl (fun s t =>
      (s.modSlice core t fun x => x.parkOn (.answer s.nextId)).send core (nodeTeam (clusterOf core))
        (s.slice core t).asid none (.teamArrive (s.teamOf core t) t n true none)) (s.skipInactive g))

/-- TBARINIT: the values leave for the unit. -/
def execTbarinit (g : BitVec 4) (i : BitVec 8) (a : BitVec 6) (s : State) : Meaning :=
  tbarForm { ok := sOk a, srcs := [(1, a.toNat)], mem := true } g i s fun s n ts => do
    let core := s.issuer.core
    s.checkExpect g a 1920 ts
    pure (ts.foldl (fun s t => s.send core (nodeTeam (clusterOf core)) (s.slice core t).asid none
      (.teamArrive (s.teamOf core t) t n false (some ((s.slice core t).sr a.toNat)))) s)

end Sys2Proof.Machine
end

