-- ==== Sys2Proof/Machine/CacheMaint.lean ====
section
/-! DEFINITION. Cache maintenance and runs of full/empty bits (07 R205-R206, 06 R151, 04 R112). -/

namespace Sys2Proof.Machine

/-- Frame of PREF, LINV, LWB, LCLN, ICINV and PCLR: the lanes, checked, as a request; `drop` drops failing lanes (PREF). -/
def cmemForm (m : MemF) (k : MemKind) (code : Option Nat) (rel drop : Bool) (s : State)
    (body : State → Acc → Except Stop State) : Meaning :=
  gangwise { len := 8, mem := true, adv := false, ok := memBaseOk m, srcs := (0, m.a.toNat) :: memBaseSrc m } s fun s =>
    if (s.taking m.g).isEmpty then .ok (s.advanceAll 8)
    else do
      s.memWaits m.g code m.wt rel m.scope.toNat
      let r := s.resolve m.space.toNat k.size k.acc k.noSys (s.targets m false)
      if !drop && !r.bad.isEmpty then r.s.memStop k.acc r.bad
      else
        r.s.watch m.space.toNat k.watch r.ok fun _ => k.size
        let lanes := r.ok.map fun (t, key) => ({ slot := t.slot, lane := t.lane, va := taddr t.a, pa := key } : LaneAcc)
        body r.s { form := k.form, size := k.size, lanes, cp := m.cp.toNat }

/-- PREF in GLOBAL (R206): fetches the lines as a load does, with no destination; CP 2 fills the device cache alone. It takes
no miss entry and counts nowhere. -/
def State.prefetch (s : State) (m : MemF) (k : MemKind) (a : Acc) : State :=
  let core := s.issuer.core
  let o := { s.memOp m.g none k a.lanes with fill := m.cp != 2, evictFirst := m.cp == 1 }
  let parts := groupLanes (·.pa / 256) a.lanes
  let all (p : Nat × List LaneAcc) : List Nat := (List.range 4).map (4 * p.1 + ·)
  let fresh := if m.cp == 2 then [] else (parts.flatMap all).filter fun c => !(s.core core).nearHas c
  let o := { o with left := parts.length, fresh := fresh }
  let cp := if m.cp == 1 then 1 else 0
  parts.foldl (fun s p => s.send core (homeOf (256 * p.1)) o.asid (some o.id)
    (.global { a with lanes := p.2.take 1, sectors := all p, cp := cp } [])) (s.openOp o)

/-- PREF: a lane that would fault under R146 or R177 is dropped. -/
def execPref (m : MemF) (s : State) : Meaning :=
  let k : MemKind := { form := .load, size := 1, acc := .load, watch := 0 }
  cmemForm m k none false true s fun s a =>
    if a.lanes.isEmpty then .ok (s.advanceAll 8)
    else if m.space == 3 then
      if s.peerRoom ((groupLanes (·.pa / 256) a.lanes).map fun p => homeOf (256 * p.1)) then .ok ((s.prefetch m k a).advanceAll 8)
      else .error .stall
    else
      let c := clusterOf s.issuer.core
      match s.touchBlocks c false ((a.lanes.map fun l => (l.pa - clusterBase c) / 256).eraseDups) with
      | some s => .ok (s.advanceAll 8)
      | none => .error .stall

/-- LINV, LWB and LCLN: translation is checked, permission is not. -/
def lineForm (f : AccForm) (m : MemF) (s : State) : Meaning :=
  let k : MemKind := { form := f, size := 1, acc := .none, watch := 0 }
  cmemForm m k (k.code m.space.toNat) false false s fun s a =>
    if m.space == 3 then s.globalPosted m k a
    else
      let core := s.issuer.core
      let c := clusterOf core
      let now := !s.clusterBehind core (s.taking m.g)
      let o := { s.memOp m.g (k.code 2) k a.lanes with left := if now then 0 else 1 }
      let s := s.openOp o
      .ok ((if now then s.performCluster o.id core a
        else s.send core (nodeCluster c) o.asid (some o.id) (.cluster a)).advanceAll 8)
def execLinv (m : MemF) (s : State) : Meaning := lineForm (.linv m.scope.toNat) m s
def execLwb (m : MemF) (s : State) : Meaning := lineForm .lwb m s
def execLcln (m : MemF) (s : State) : Meaning := lineForm .lcln m s

/-- ICINV (04 R112): the gang parks until every named cache has dropped the lines. -/
def execIcinv (m : MemF) (s : State) : Meaning :=
  let k : MemKind := { form := .linv m.scope.toNat, size := 1, acc := .none, watch := 0 }
  cmemForm m k none false false s fun s a =>
    let o := { s.memOp m.g none k a.lanes with keys := (a.lanes.map fun (l : LaneAcc) => l.pa / 128).eraseDups, await := 8 }
    let o := { o with members := s.issuer.slots, pd := m.scope.toNat }
    .ok (({ s with ops := s.ops ++ [o], nextId := o.id + 1 }).members fun x => x.parkOn (.answer o.id))

/-- PCLR: 64 zero bytes and no poison; a store, on LOCAL and PEER pages. -/
def execPclr (m : MemF) (s : State) : Meaning :=
  let k : MemKind := { form := .pclr, size := 64, acc := .store, noSys := true, watch := 2 }
  cmemForm m k (some 3) (m.ord == 2) false s fun s a => s.globalPosted m k a

/-- The run of `n` words of a lane of FEMT or FFUL (06 R151): where it lands, or the first word that fails. -/
def State.placeRun (s : State) (t : Tgt) (space n : Nat) : State × Place :=
  let core := s.issuer.core
  if 49152 < n then (s, .bad 0x05 (taddr t.a))
  else
    match s.place core t.slot space 4 .none false t.a with
    | (s, .key key) =>
      let fails (i : Nat) : Option Place := match (s.place core t.slot space 4 .none false (t.a + 4 * i)).2 with
        | .key _ => none
        | p => some p
      let last := if n = 0 then none else fails (n - 1)
      let crosses := space = 1 && decide (localSize < t.a.toNat % 2 ^ 18 + 4 * n)
      if (s.slice core t.slot).handler && space = 0 || crosses || last.isSome then
        match (List.range n).findSome? fails with
        | some p => (s, p)
        | none => (s, .key key)
      else (s, .key key)
    | r => r

/-- FEMT and FFUL (06 R151): a lane with no words does nothing. -/
def feForm (f : AccForm) (m : MemF) (s : State) : Meaning :=
  gangwise { len := 8, mem := true, adv := false, ok := memBaseOk m,
             srcs := (0, m.a.toNat) :: (0, m.d.toNat) :: memBaseSrc m } s fun s =>
    if (s.taking m.g).isEmpty then .ok (s.advanceAll 8)
    else do
      let core := s.issuer.core
      let space := m.space.toNat
      let k : MemKind := { form := f, size := 4, acc := .none, watch := 2 }
      s.memWaits m.g (k.code space) m.wt (m.ord == 2) m.scope.toNat
      let count (t : Tgt) : Nat := ((s.slice core t.slot).vr m.d.toNat t.lane).toNat
      let r := ((s.targets m false).filter fun t => count t != 0).foldl (fun (r : Resolved) t =>
        match r.s.placeRun t space (count t) with
        | (s, .key key) => { r with s := s, ok := r.ok ++ [(t, key)] }
        | (s, p) => { r with s := s, bad := r.bad ++ [(t, p)] }) ⟨s, [], []⟩
      if !r.bad.isEmpty then r.s.memStop .none r.bad
      else
        r.s.watch space 2 r.ok fun t => 4 * count t
        let lanes := r.ok.map fun (t, key) =>
          ({ slot := t.slot, lane := t.lane, va := taddr t.a, pa := key, val := count t } : LaneAcc)
        let a : Acc := { form := f, size := 4, lanes }
        if space = 0 then pure ((s.performNow a .none).advanceAll 8)
        else pure ((s.lwinAccess m.g k a false 0).advanceAll 8)
def execFemt (m : MemF) (s : State) : Meaning := feForm .femt m s
def execFful (m : MemF) (s : State) : Meaning := feForm .fful m s

end Sys2Proof.Machine
end

