-- ==== Sys2Proof/Machine/Convert.lean ====
section
/-! DEFINITION. Conversions (03 R67-R72). -/

namespace Sys2Proof.Machine

/-- Formats of CVTF by code (03 Table 03-6); code 6 is E8M0. -/
def fmtOf (c : Nat) : Option Fmt :=
  match c with
  | 0 => some f32 | 1 => some f16 | 2 => some bf16 | 3 => some e4m3 | 4 => some e5m2 | 5 => some e2m1 | _ => none

/-- Value of an element, E8M0 being 2^(code − 127) with 0xFF a NaN (03 R59). -/
def srcVal (c bits : Nat) : Val :=
  match fmtOf c with
  | some f => f.decode (bits % 2 ^ f.width)
  | none => if bits % 256 = 255 then .nan false else .fin false 1 ((bits % 256 : Nat) - 127) false

/-- Delivery in E8M0 (Table 03-7). -/
def toE8m0 (mode : Mode) (sat : Bool) : Val → Nat × Flg
  | .nan _ => (0xFF, 0)
  | .inf _ => (0xFF, nv)
  | .fin _ m e _ =>
    let top : Int := e + m.log2
    if m = 0 ∨ top < -127 then (0, uf ||| nx)
    else
      let exact := m == 2 ^ m.log2
      let up := match mode with
        | .rup => !exact
        | .rne => decide (3 * 2 ^ m.log2 < 2 * m) || (3 * 2 ^ m.log2 == 2 * m && (top + 127) % 2 == 1)
        | .rna => decide (3 * 2 ^ m.log2 ≤ 2 * m)
        | _ => false
      let code := top + 127 + (if up then 1 else 0)
      if 254 < code then (if sat then 0xFE else 0xFF, ofl ||| nx) else (code.toNat, flagIf (!exact) nx)

/-- CVTF of one element (R68): never flushes (R65). -/
def cvtf (src dst : Nat) (sat : Bool) (mode : Mode) (bits : Nat) : Nat × Flg :=
  let v := srcVal src bits
  let r := match fmtOf dst with
    | some f => f.encode mode sat false v
    | none => toE8m0 mode sat v
  (r.1, v.snan ||| r.2)

def execCvtf (g : BitVec 4) (d a : BitVec 6) (src dst : BitVec 3) (sat : BitVec 1) (r : BitVec 3) (s : State) : Meaning :=
  fvec1 ⟨g, d, a⟩ s fun c a => cvtf src.toNat dst.toNat (sat == 1) (rselMode (rmOf c) r.toNat) a

/-- Ends of an ITYPE's range and its width (03 Table 03-8). -/
def itype (i : Nat) : Int × Int × Nat :=
  match i with
  | 0 => (-128, 127, 8) | 1 => (-2 ^ 15, 2 ^ 15 - 1, 16) | 2 => (-2 ^ 31, 2 ^ 31 - 1, 32)
  | 3 => (0, 255, 8) | 4 => (0, 2 ^ 16 - 1, 16) | _ => (0, 2 ^ 32 - 1, 32)

/-- Float to integer (R71). -/
def floatToInt (mode : Mode) (i : Nat) (v : Val) : Nat × Flg :=
  let (lo, hi, _) := itype i
  let put (z : Int) : Nat := (BitVec.ofInt 32 z).toNat
  match v with
  | .nan _ => (0, nv)
  | .inf neg => (put (if neg then lo else hi), nv)
  | .fin neg m e _ =>
    let (z, inexact) := toIntVal mode neg m e
    if z < lo then (put lo, nv) else if hi < z then (put hi, nv) else (put z, flagIf inexact nx)

/-- Integer read as ITYPE. -/
def intOf (i bits : Nat) : Int :=
  let (lo, _, w) := itype i
  let n : Int := (bits % 2 ^ w : Nat)
  if lo < 0 ∧ 2 ^ (w - 1) ≤ n then n - 2 ^ w else n

/-- CVTI of one lane (R70-R71). -/
def cvti (dir : Bool) (i f : Nat) (hi : Bool) (mode : Mode) (bits : Nat) : Nat × Flg :=
  let src := if hi then bits / 2 ^ 16 else bits
  let fmt := (fmtOf f).getD f32
  if dir then fmt.encode mode false false (Val.ofInt (intOf i src) 0)
  else floatToInt mode i (fmt.decode (src % 2 ^ fmt.width))

def execCvti (g : BitVec 4) (d a : BitVec 6) (v : BitVec 1) (i : BitVec 3) (f : BitVec 2) (h : BitVec 1) (r : BitVec 3)
    (s : State) : Meaning :=
  fvec1 ⟨g, d, a⟩ s fun c a => cvti (v == 1) i.toNat f.toNat (h == 1) (rselMode (rmOf c) r.toNat) a

end Sys2Proof.Machine
end

