-- ==== Sys2Proof/Machine/Issue.lean ====
section
/-! DEFINITION. What a visit of the rotation does before an instruction executes (01 R10, 04 R79-R88, R109-R112): paths
merge and rejoin, holds close, deferred faults are taken, the gang forms, and its word is fetched and decoded. -/

namespace Sys2Proof.Machine

/-! ## Paths -/

/-- Lowest SLANE of a mask; 8 when it is empty. -/
def lowLane (m : Pred) : Nat := ((lanesOf m).head?).getD 8

/-- RUN entries that may issue: in a trap handler, those of the handler, and the others once it has none left (04 R85, 15 R408;
log 17). -/
def Slice.runnable (x : Slice) : List Nat :=
  let run := (List.range x.paths.length).filter fun i => (x.paths.getD i {}).state == .run
  let own := run.filter fun i => decide (x.nesting ≤ (x.paths.getD i {}).level)
  if own.isEmpty then run else own

/-- The entry of a list with the lowest SLANE. -/
def Slice.lowestOf (x : Slice) (l : List Nat) : Option Nat :=
  l.foldl (fun b i => match b with
    | none => some i
    | some j => if lowLane (x.paths.getD i {}).mask < lowLane (x.paths.getD j {}).mask then some i else some j) none

/-- A change of path resets the fairness counter (04 R85). -/
def Slice.switchTo (x : Slice) (i : Nat) : Slice := if x.cur = i then x else { x with cur := i, fair := 0 }

/-- When the current entry is not runnable, the runnable entry with the lowest SLANE becomes current (04 R85). -/
def Slice.choose (x : Slice) : Slice :=
  if x.runnable.contains x.cur then x
  else match x.lowestOf x.runnable with | some i => x.switchTo i | none => x

/-- A child of join `j` is gone: OUT falls, and at 0 the join becomes a RUN entry at its point (04 R83). A join with no
lanes is freed in its turn (04 R98); `fuel` bounds the nesting. -/
def Slice.childBack (x : Slice) : Nat → Option Nat → Slice
  | 0, _ => x
  | _, none => x
  | fuel + 1, some j =>
    let p := x.paths.getD j {}
    if p.state != .join then x
    else if p.out > 1 then x.setPath j { p with out := p.out - 1 }
    else if p.mask = 0 then (x.setPath j {}).childBack fuel p.link
    else x.setPath j { p with state := .run, out := 0 }

/-- Two RUN entries with equal PC, DEPTH, RPC and LINK merge into the lower index (04 R83). -/
def Slice.mergeOnce (x : Slice) : Option Slice :=
  let idx := List.range x.paths.length
  (idx.flatMap fun i => idx.map fun j => (i, j)).findSome? fun (i, j) =>
    let p := x.paths.getD i {}
    let q := x.paths.getD j {}
    if i < j && p.state == .run && q.state == .run && p.pc == q.pc && p.depth == q.depth && p.rpc == q.rpc &&
        p.link == q.link && p.level == q.level then
      let y := (x.setPath i { p with mask := p.mask ||| q.mask }).setPath j {}
      some (match p.link with
        | some k => let r := y.paths.getD k {}; if r.state == .join then y.setPath k { r with out := r.out - 1 } else y
        | none => y)
    else none

/-- The current entry has reached its reconvergence point (04 R83). -/
def Slice.rejoinOnce (x : Slice) : Option Slice :=
  let p := x.path
  match p.link with
  | some j =>
    if p.state == .run && p.rpc == some p.pc && (x.paths.getD j {}).depth == p.depth && x.runnable.contains x.cur then
      some ((x.setPath x.cur {}).childBack 8 (some j))
    else none
  | none => none

/-- Merges and rejoins until none is left. -/
def Slice.settlePaths : Nat → Slice → Slice
  | 0, x => x
  | n + 1, x =>
    match x.mergeOnce with
    | some y => settlePaths n y.choose
    | none =>
      match x.rejoinOnce with
      | some y => settlePaths n y.choose
      | none => x

/-- A path at the held point (04 R88). -/
def Hold.at (h : Hold) (p : Path) : Bool := p.pc == h.pc && p.depth == h.depth

/-- The other RUN entries that may issue: with an open hold, those elsewhere than at its point (04 R85, R88). -/
def Slice.others (x : Slice) : List Nat :=
  x.runnable.filter fun i =>
    i != x.cur && match x.hold with | some h => !h.at (x.paths.getD i {}) | none => true

/-- The next RUN entry in ascending order of lowest SLANE, cyclically (04 R85). -/
def Slice.nextPath (x : Slice) : Slice :=
  let here := lowLane x.path.mask
  match x.lowestOf (x.others.filter fun i => decide (here < lowLane (x.paths.getD i {}).mask)) with
  | some i => x.switchTo i
  | none => match x.lowestOf x.others with | some i => x.switchTo i | none => x

/-- The fairness switch is due (04 R85). -/
def Slice.fairDue (x : Slice) : Bool :=
  decide (512 ≤ x.fair) && !x.others.isEmpty && !x.frame.act

/-- With an open hold reached by the current path and another RUN entry elsewhere, that entry runs instead (04 R88). -/
def Slice.holdChoose (x : Slice) : Slice :=
  match x.hold with
  | some h =>
    if h.at x.path then
      match x.lowestOf (x.runnable.filter fun i => !h.at (x.paths.getD i {})) with
      | some i => x.switchTo i
      | none => x
    else x
  | none => x

/-- The slice holds (04 R88). -/
def Slice.holding (x : Slice) : Bool :=
  match x.hold with
  | some h => h.at x.path && x.runnable.all (fun i => h.at (x.paths.getD i {}))
  | none => false

/-- Chooses the path that issues next (04 R83, R85, R88): entries merge and rejoin, the fairness switch is made, a path at the held
point gives way; an entry so chosen is checked in its turn. `fuel` bounds the changes. -/
def Slice.choosePath : Nat → Slice → Slice
  | 0, x => x
  | fuel + 1, x =>
    let y := x.choose.settlePaths 16
    let z := (if y.fairDue then y.nextPath else y).holdChoose
    if z.cur = y.cur then z else choosePath fuel z

/-- What a slice does by itself before a gang forms: a woken park ends, and the path to issue is chosen; an open frame keeps its
path. -/
def Slice.settle (x : Slice) : Slice :=
  if x.halted || !x.live then x
  else if x.park.isSome && !x.woken then x
  else
    let x := if x.park.isSome then x.unpark else x
    if x.frame.act && !x.frame.susp then x else x.choosePath 12

/-- Slots of the whole home warp, live or not. -/
def State.homeSlots (s : State) (core slot : Nat) : List Nat :=
  let x := s.slice core slot
  if x.handler then [slot] else (List.range x.width).map (slot - x.ix + ·)

/-- Every slice of HOLD.SET is retired or holds at the same point (04 R88, R98). -/
def State.holdMet (s : State) (core slot : Nat) (h : Hold) : Bool :=
  (s.homeSlots core slot).all fun t =>
    let y := s.slice core t
    !h.set.getLsbD y.ix || !y.live || y.group != (s.slice core slot).group ||
      (y.holding && match y.hold with | some g => g.pc == h.pc && g.depth == h.depth | none => false)

/-- Closes the hold of a slice. -/
def Slice.closeHold (x : Slice) : Slice := { x with hold := none }

/-- One visit of a holding slice (04 R88): its hold closes in all, or after 512 visits in itself. While a slice of HOLD.SET has taken
part in a gang of this cycle, the gangs of the cycle stand (R79) and the hold closes at a later visit. -/
def State.visitHold (s : State) (core slot : Nat) : State :=
  let x := s.slice core slot
  match x.hold with
  | some h =>
    if !x.holding then s
    else if s.holdMet core slot h && (s.homeSlots core slot).all (fun t =>
        let y := s.slice core t
        !h.set.getLsbD y.ix || y.group != x.group || y.stamp != s.cycle.toNat + 1) then
      (s.homeSlots core slot).foldl (fun s t =>
        let y := s.slice core t
        if h.set.getLsbD y.ix && y.live && y.group == x.group then s.setSlice core t y.closeHold else s) s
    else if 512 ≤ h.visits then s.setSlice core slot x.closeHold
    else s.setSlice core slot { x with hold := some { h with visits := h.visits + 1 } }
  | none => s

/-- Two slices of a home warp are in one gang (04 R79). Members of one frame gang that stand at different replays do not issue as
one (log 59). -/
def sameGang (x y : Slice) : Bool :=
  x.path.pc == y.path.pc && x.path.depth == y.path.depth && y.park.isNone && !y.holding && !y.halted && y.deferred.isEmpty &&
    (x.frame.act && !x.frame.susp) == (y.frame.act && !y.frame.susp) &&
    (!(x.frame.act && !x.frame.susp) || (x.frame.gang == y.frame.gang && x.frame.j == y.frame.j && x.frame.i == y.frame.i)) &&
    x.userEvent == y.userEvent && x.sysEvent == y.sysEvent

/-- The first key whose section the slice has held past SECTLIM and not yet been told of (10 R265). -/
def State.overrunDue (s : State) (core slot : Nat) : Option (Nat × Nat) :=
  let x := s.slice core slot
  let lim := (s.ctx x.asid).sectlim
  if lim = 0 then none
  else s.sections.findSome? fun (k, e) =>
    match e.holder with
    | some h =>
      if h.core == core && h.slot == slot && h.group == x.group && decide (lim < s.cycle.toNat - h.cycle) &&
          !x.overrun.contains k then some (k, h.lane) else none
    | none => none

/-- The gang of a slice among the members that have not taken part in a gang of this cycle. A member that takes a deferred fault or
an overrun at its next issue takes it by itself. -/
def State.gangOf (s : State) (core slot : Nat) : List Nat :=
  let x := s.slice core slot
  if !x.deferred.isEmpty then [slot]
  else (s.warpSlots core slot).filter fun t =>
    t == slot || (sameGang x (s.slice core t) && (s.overrunDue core t).isNone && (s.slice core t).stamp != s.cycle.toNat + 1)

/-! ## Fetch -/

/-- The instruction cache of a core: the line of a memory key, filled on a miss; 256 lines, oldest dropped (log 11). -/
def State.icacheFill (s : State) (core asid key : Nat) : State :=
  let line := key / 128
  if (s.core core).icache.contains line then s
  else
    let s := (s.reachHome (128 * line) 128).findErrors asid [2 * line, 2 * line + 1]
    s.modCore core fun k =>
    let (keep, drop) := if k.icache.length < 256 then (k.icache, none) else (k.icache.drop 1, k.icache.head?)
    let data := match drop with | some d => mclear k.icacheData (128 * d) 128 | none => k.icacheData
    { k with icache := keep ++ [line], icacheData := mcopy data s.mem (128 * line) 128 }

/-- Fetches a word of code (15 R401-R404, 04 R112): the state with its caches filled, and the word or a failure. -/
def State.fetchWord (s : State) (core asid : Nat) (system : Bool) (a : Addr) : State × Except XFail Word :=
  match s.translateCore core asid a.toNat .fetch system with
  | (s, .error f) => (s, .error f)
  | (s, .ok key) =>
    let s := s.icacheFill core asid key
    (s, .ok (w32 (mread (s.core core).icacheData key 4)))

/-- A fetch waits: its line is not held, and stands at a peer whose port holds requests (18 R440-R441). -/
def State.fetchWaits (s : State) (core asid : Nat) (system : Bool) (a : Addr) : Bool :=
  !s.peers.isEmpty && match s.translateCore core asid a.toNat .fetch system with
    | (s, .ok key) => !(s.core core).icache.contains (key / 128) && s.unitWaits key
    | _ => false

/-- What a visit finds to do. -/
inductive Issue where
  /-- Nothing, or a stall. -/
  | idle (s : State)
  /-- A trap or a park has been taken. -/
  | done (s : State)
  /-- An instruction issues for `s.issuer`. -/
  | run (s : State) (i : Instr)

/-- A fetch fails: a REPLAY record, on which the gang parks (15 R404-R405). -/
def State.fetchFail (s : State) (tpc va : Addr) : XFail → State
  | .fail code reason level =>
    let core := s.issuer.core
    let lead := s.issuer.slots.headD 0
    let (s, idx) := s.postReplay (.slice core lead) (s.slice core lead).asid core lead 4 va.toNat
      (tpc.setWidth 32).toNat code reason level
    s.issuer.slots.foldl (fun s t => s.modSlice core t fun x => x.parkOn (.replay idx)) s

/-- The fields of a captured word0 that take stagger, each with its lowest bit and what iteration `i` adds (04 R108-R109). -/
def Frame.staggers (f : Frame) (w : Word) : List (Nat × Nat) :=
  let maj := bits w 22 6
  let ri := decide (0x05 ≤ maj) && decide (maj ≤ 0x09)
  let ru := decide (0x0A ≤ maj) && decide (maj ≤ 0x0D)
  let pc := maj == 0x1B || maj == 0x1C
  (if pc then [] else [(16, f.i * f.dst)]) ++ (if ru then [] else [(10, f.i * f.ast)]) ++
    (if ri || ru then [] else [(4, f.i * f.bst)])

/-- A captured word0 in the form of iteration `i`; a field whose value passes 63 holds 63. -/
def Frame.staggered (f : Frame) (w : Word) : Word :=
  (f.staggers w).foldl (fun u p => u + w32 ((min 63 (bits w p.1 6 + p.2) - bits w p.1 6) * 2 ^ p.1)) w

/-- A field of the word passes 63 in iteration `i` (04 R109). -/
def Frame.passes (f : Frame) (w : Word) : Bool := (f.staggers w).any fun p => decide (63 < bits w p.1 6 + p.2)

/-- Decodes words for the gang (02 R46-R47). -/
def State.decoded (s : State) (w0 w1 : Word) : Issue :=
  match decodeSimt w0 w1 with
  | .ok i => .run s i
  | .error _ => .done (s.gangTrap (simtLen w0) { code := 0x01 })

/-- Fetches and decodes for the gang of `s.issuer` (02 R46 steps 1 to 4). -/
def State.fetchDecode (s : State) : Issue :=
  let core := s.issuer.core
  let x := s.slice core (s.issuer.slots.headD 0)
  let f := x.frame
  if f.act && !f.susp then
    let w := f.body.getD f.j (0, 0)
    let s := { s with issuer := { s.issuer with pc := f.addr f.j } }
    match s.decoded (f.staggered w.1) w.2 with
    | .run s i => if f.passes w.1 then .done (s.gangTrap (bodyLen w) { code := 0x02 }) else .run s i
    | r => r
  else
    let pc := x.path.pc
    let s := { s with issuer := { s.issuer with pc := pc } }
    if s.fetchWaits core x.asid x.system pc then .idle s
    else match s.fetchWord core x.asid x.system pc with
    | (s, .error e) => .done (s.fetchFail pc pc e)
    | (s, .ok w0) =>
      if rejectedEarly w0 then .done (s.gangTrap (simtLen w0) { code := 0x01 })
      else if simtLen w0 = 4 then s.decoded w0 0
      else if s.fetchWaits core x.asid x.system (pc + 4) then .idle s
      else
        match s.fetchWord core x.asid x.system (pc + 4) with
        | (s, .error e) => .done (s.fetchFail pc (pc + 4) e)
        | (s, .ok w1) => s.decoded w0 w1

/-! ## The visit -/

/-- A slice takes a fault by itself, at the instruction it would have issued. -/
def State.trapAlone (s : State) (core slot : Nat) (f : FaultRec) : State :=
  let x := s.slice core slot
  let pc := if x.frame.act && !x.frame.susp then x.frame.addr x.frame.j else x.path.pc
  s.trap core [slot] f pc pc

/-- The slice waits for the answers of an OSEC form that has left the core; what ends a park does not end this wait, and comes after
it (10 R259; log 24). -/
def State.answering (s : State) (core slot : Nat) : Bool :=
  match (s.slice core slot).park with
  | some (.answer id) => (s.op? id).any fun o => decide (1 ≤ o.osec) && decide (o.osec ≤ 5)
  | _ => false

/-- SECTION_OVERRUN (10 R265): taken once per grant; a park ends for it. -/
def State.takeOverrun (s : State) (core slot : Nat) : Option State :=
  if s.answering core slot then none
  else match s.overrunDue core slot with
  | some (k, lane) =>
    let s := s.modSlice core slot fun x => { x with overrun := x.overrun ++ [k] }
    some (s.trapAlone core slot { code := 0x0C, addr := k % 2 ^ 32, lanes := [(slot, 1 <<< lane)] })
  | none => none

/-- A handler has run its 65,536 cycles (06 R165); the cycles it was saved do not count (log 61). -/
def State.runLimitDue (s : State) (core slot : Nat) : Bool :=
  let x := s.slice core slot
  x.live && x.handler && !x.limitTaken && !s.answering core slot && decide (65536 ≤ s.cycle.toNat - x.startCycle - x.pausedCycles)

/-- HANDLER_BLOCK for the run limit. -/
def State.takeRunLimit (s : State) (core slot : Nat) : State :=
  (s.modSlice core slot fun x => { x with limitTaken := true }).trapAlone core slot { code := 0x18 }

/-- The oldest deferred fault (15 R406 D). -/
def State.takeDeferred (s : State) (core slot : Nat) (f : FaultRec) : State :=
  (s.modSlice core slot fun x => { x with deferred := x.deferred.drop 1 }).trapAlone core slot f

/-- Forms the gang of a slice and fetches for it; `alone` makes it a gang of one (04 R91). -/
def State.issueAt (s : State) (core slot : Nat) (alone : Bool) : Issue :=
  let gang := if alone then [slot] else s.gangOf core slot
  let s := gang.foldl (fun s t => s.modSlice core t fun x => { x with stamp := s.cycle.toNat + 1 }) s
  { s with issuer := { core := core, slots := gang, pc := 0 } : State }.fetchDecode

/-- A visit of datapath `dp` of a core in the current cycle (01 R10). -/
def State.visit (s : State) (core dp : Nat) : Issue :=
  let slot := 8 * (s.cycle.toNat % 16) + dp
  let x := s.slice core slot
  if !x.live || x.halted || x.stamp == s.cycle.toNat + 1 then .idle s
  else
    let s := (s.warpSlots core slot).foldl (fun s t =>
      if (s.slice core t).stamp == s.cycle.toNat + 1 then s else s.modSlice core t Slice.settle) s
    match s.takeOverrun core slot with
    | some t => .done t
    | none =>
      if s.runLimitDue core slot then .done (s.takeRunLimit core slot)
      else
        let s := s.visitHold core slot
        let x := s.slice core slot
        if x.park.isSome || x.holding then .idle s
        else match x.deferred with
          | f :: _ => .done (s.takeDeferred core slot f)
          | [] => if (s.gangOf core slot).head? == some slot then s.issueAt core slot false else .idle s

end Sys2Proof.Machine
end

