-- ==== Sys2Proof/Machine/Flow.lean ====
section
/-! DEFINITION. Control flow: branch forms, splits and collapses of the path table, holds, EXIT, YIELD (04 R82-R87,
R94-R100). -/

namespace Sys2Proof.Machine

/-- FREE entries, ascending. -/
def Slice.freeEntries (x : Slice) : List Nat :=
  (List.range x.paths.length).filter fun i => (x.paths.getD i {}).state == .free

/-- The most recently created JOIN entry. -/
def Slice.newestJoin (x : Slice) : Option Nat :=
  (List.range x.paths.length).foldl (fun b i =>
    let p := x.paths.getD i {}
    if p.state != .join then b
    else match b with
      | none => some i
      | some j => if (x.paths.getD j {}).born < p.born then some i else some j) none

/-- Collapses join `j` (R84). -/
def Slice.collapse (x : Slice) (j : Nat) : Slice :=
  let p := x.paths.getD j {}
  let y := { x with paths := x.paths.map fun (q : Path) =>
    if q.state != PathState.free && q.link == some j then { q with rpc := p.rpc, link := p.link } else q }
  let y := y.setPath j {}
  match p.link with
  | some k =>
    let r := y.paths.getD k {}
    if r.state == .join then y.setPath k { r with out := r.out + p.out - 1 } else y
  | none => y

/-- Collapses joins until `n` entries are free or no join is left; `fuel` bounds the joins. -/
def Slice.makeRoom (x : Slice) (n : Nat) : Nat → Slice
  | 0 => x
  | fuel + 1 =>
    if n ≤ x.freeEntries.length then x
    else match x.newestJoin with
      | some j => (x.collapse j).makeRoom n fuel
      | none => x

/-- Puts an entry into the lowest FREE place. The new entries of a split come in ascending order of their lowest SLANE (DESIGN CHOICE:
04 R82 names no places; log 79). -/
def Slice.addEntry (x : Slice) (p : Path) : Slice :=
  match x.freeEntries.head? with
  | some i => { x.setPath i { p with born := x.born } with born := x.born + 1 }
  | none => x

/-- A piece of a split: where it goes and its lanes. -/
structure Piece where
  pc : Addr
  depth : BitVec 8
  mask : Pred
deriving DecidableEq, Repr

/-- The lanes of a path by equal (next PC, depth), in order of lowest SLANE (R82 step 2). -/
def pieces (mask : Pred) (next : Nat → Addr × BitVec 8) : List Piece :=
  let keys := (lanesOf mask).map next
  keys.eraseDups.map fun k =>
    ⟨k.1, k.2, (lanesOf mask).foldl (fun (m : Pred) l => if next l == k then m ||| (1 <<< l) else m) 0⟩

/-- R82 step 5: the current entry keeps the first piece. -/
def Slice.splitFlat (x : Slice) (first : Piece) (rest : List Piece) : Slice :=
  let e := x.path
  let x := x.setPath x.cur { e with pc := first.pc, depth := first.depth, mask := first.mask }
  let x := match e.link with
    | some j =>
      let r := x.paths.getD j {}
      if r.state == .join then x.setPath j { r with out := r.out + rest.length } else x
    | none => x
  rest.foldl (fun x p => x.addEntry { e with pc := p.pc, depth := p.depth, mask := p.mask, decl := none }) x

/-- R82 step 6: the current entry becomes a JOIN at `pt`; the piece with the lowest SLANE becomes current (R85). -/
def Slice.splitJoin (x : Slice) (pt : Addr) (ps : List Piece) : Slice :=
  let e := x.path
  let j := x.cur
  let x := { x.setPath j { e with state := .join, pc := pt, out := ps.length, born := x.born } with born := x.born + 1 }
  let first := x.freeEntries.headD 0
  let x := ps.foldl (fun x p => x.addEntry
    { state := .run, mask := p.mask, pc := p.pc, depth := p.depth, rpc := some pt, link := some j, level := e.level }) x
  x.switchTo first

/-- Resolves a branch form on the current path (R82-R85). -/
def Slice.branch (x : Slice) (next : Nat → Addr × BitVec 8) : Slice :=
  let pt := x.path.decl
  let x := x.modPath fun p => { p with decl := none }
  match pieces x.path.mask next with
  | [] => x
  | [p] => x.modPath fun e => { e with pc := p.pc, depth := p.depth }
  | p :: ps =>
    let n := ps.length + 1
    let x := x.makeRoom (if pt.isSome then n else n - 1) 8
    match pt with
    | some a => if n ≤ x.freeEntries.length then x.splitJoin a (p :: ps) else x.splitFlat p ps
    | none => x.splitFlat p ps

/-- The holds that a branch form opens when it splits its gang (R87); `old` gives each member's declared point and depth
before it. -/
def State.openHolds (s : State) (old : List (Nat × Option Addr × BitVec 8)) : State :=
  let core := s.issuer.core
  let at_ (t : Nat) : Addr × BitVec 8 := let p := (s.slice core t).path; (p.pc, p.depth)
  let all := old.map fun o => at_ o.1
  if all.all fun a => some a == all.head? then s
  else
    let set := s.ixMask core s.issuer.slots
    old.foldl (fun s o =>
      match o.2.1 with
      | some pt => s.modSlice core o.1 fun x =>
          if x.hold.isSome then x else { x with hold := some ⟨pt, o.2.2, set, 0⟩ }
      | none => s) s

/-- A branch form (R96): `tgt` gives a lane's target, `dd` the change of depth, `link` the register that takes the return
address in each active lane. -/
def branchForm (g : BitVec 4) (srcs : List (Nat × Nat)) (dd : BitVec 8) (link : Option Nat) (s : State)
    (tgt : Slice → Nat → Addr) : Meaning :=
  gangwise { srcs := srcs, adv := false } s fun s => do
    let core := s.issuer.core
    match (s.gangLanes g).filter fun p => (tgt (s.slice core p.1) p.2).toNat % 4 != 0 with
    | p :: ps =>
      .error (.fault { code := 0x04, addr := (tgt (s.slice core p.1) p.2).toNat, lanes := laneMasks (p :: ps) })
    | [] =>
      let old := s.issuer.slots.map fun t => let p := (s.slice core t).path; (t, p.decl, p.depth)
      let s := s.members fun x =>
        let pc := x.path.pc
        let act := x.active g
        let e := x.path
        let next := fun l => if act.getLsbD l then (tgt x l, e.depth + dd) else (pc + 4, e.depth)
        let y := match link with
          | some d => x.writeLanes d (x.lanes g) fun _ => (pc + 4).setWidth 32
          | none => x
        y.branch next
      pure (s.openHolds old)

/-- Target of a BR format (R95). -/
def brTarget (o : BitVec 22) (x : Slice) (_l : Nat) : Addr := x.path.pc + 4 * o.signExtend 52
/-- Target held in a register (R95). -/
def regTarget (a : BitVec 6) (x : Slice) (l : Nat) : Addr := (x.path.pc.extractLsb' 32 20) ++ x.vr a.toNat l

def execBra (g : BitVec 4) (o : BitVec 22) (s : State) : Meaning := branchForm g [] 0 none s (brTarget o)
def execCall (g : BitVec 4) (o : BitVec 22) (s : State) : Meaning := branchForm g [] 1 (some 63) s (brTarget o)
def execJmpx (g : BitVec 4) (a : BitVec 6) (s : State) : Meaning :=
  branchForm g [(0, a.toNat)] 0 none s (regTarget a)
def execCallx (f : R2) (s : State) : Meaning :=
  branchForm f.g [(0, f.a.toNat)] 1 (some f.d.toNat) s (regTarget f.a)
def execRet (g : BitVec 4) (a : BitVec 6) (s : State) : Meaning :=
  branchForm g [(0, a.toNat)] (-1) none s (regTarget a)

/-- RCVP (R97). -/
def execRcvp (g : BitVec 4) (o : BitVec 22) (s : State) : Meaning :=
  uniformly {} g s fun s core slot =>
    .ok (s.modSlice core slot fun x => x.modPath fun p => { p with decl := some (brTarget o x 0) })

/-- Lanes leave the current path and every join above it (R98); `fuel` bounds the joins. -/
def Slice.leaveJoins (x : Slice) (m : Pred) : Nat → Option Nat → Slice
  | 0, _ => x
  | _, none => x
  | fuel + 1, some j =>
    let p := x.paths.getD j {}
    (x.setPath j { p with mask := p.mask &&& ~~~m }).leaveJoins m fuel p.link

/-- EXIT of some lanes of the current path: they leave, the others go on after the instruction (R98). -/
def Slice.exitLanes (x : Slice) (m : Pred) : Slice :=
  let e := x.path
  let x := x.leaveJoins m 8 e.link
  if e.mask &&& ~~~m = 0 then ((x.setPath x.cur {}).childBack 8 e.link).choose
  else x.modPath fun p => { p with mask := p.mask &&& ~~~m, pc := p.pc + 4 }

/-- No lane is left. -/
def Slice.empty (x : Slice) : Bool := x.paths.all fun p => p.state == .free

/-- A member leaves by some of its lanes, whose sections are abandoned (10 R264), and retires with its last lane (R77, R98). -/
def State.exitMember (s : State) (core slot : Nat) (m : Pred) : State :=
  let x := s.slice core slot
  let s := s.setSlice core slot (x.exitLanes m)
  let s := s.abandonIf fun h => h.core == core && h.slot == slot && h.group == x.group && m.getLsbD h.lane
  if (s.slice core slot).empty then s.retire core slot else s

def execExit (g : BitVec 4) (s : State) : Meaning :=
  gangwise { adv := false } s fun s =>
    .ok (s.issuer.slots.foldl (fun s t => s.exitMember s.issuer.core t ((s.slice s.issuer.core t).active g)) s)

/-- YIELD (R99). -/
def execYield (g : BitVec 4) (s : State) : Meaning :=
  gangwise { adv := false } s fun s => .ok (s.members fun x =>
    let y := x.advance 4
    if x.active g = 0 then y else y.nextPath)

/-- NOP (R100). -/
def execNop (_g : BitVec 4) (s : State) : Meaning := gangwise {} s .ok

end Sys2Proof.Machine
end

