-- ==== Sys2Proof/Machine/Message.lean ====
section
/-! DEFINITION. Messages, handlers' end and service requests at the core (06 R157-R166). -/

namespace Sys2Proof.Machine

/-- B of a MSG form that takes b (R161); with ANY it must be ZERO. -/
def msgB (b : BitVec 6) (x n : BitVec 1) : Bool := x == 1 && codeOk b && (n == 0 || b == 48)

/-- Messages, copy requests and MREQ commands of a core outbound in its network interface (R162, 08 R210, 12 R323); service
requests and LWIN accesses take no entry (log 54). -/
def State.outbound (s : State) (core : Nat) : Nat :=
  (s.flights.filter fun f => f.src == core && match f.pkt with | .msg _ _ _ | .copy _ _ | .mreq _ _ _ _ => true | _ => false).length

/-- The message a member sends (R162). -/
def sendMsg (x : Slice) (core a : Nat) : Msg :=
  let ws := (List.range 8).map fun i => x.vr a i
  { asid := x.asid, words := w32 (bits (ws.getD 0 0) 24 7 * 2 ^ 24 + core) :: ws.drop 1 }

/-- SEND and SENDH (R162). -/
def sendForm (handler : Bool) (g : BitVec 4) (r : BitVec 1) (a b : BitVec 6) (x : BitVec 1) (s : State) : Meaning :=
  gangwise { ok := msgB b x 0, srcs := (0, a.toNat) :: sbSrc b x, mem := true } s fun s =>
    let core := s.issuer.core
    let ts := s.taking g
    let home (t : Nat) : Nat := ((s.slice core t).uniform b x).toNat
    let bad (t : Nat) : Option Nat :=
      if 255 < home t then some 0x05 else if s.reach (s.slice core t).asid (home t) then none else some 0x07
    match ts.filter fun t => (bad t).isSome with
    | t :: rest => s.faultOf g (t :: rest) ((bad t).getD 0) (home t)
    | [] => do
      if r == 1 then s.releaseGang g 4
      if 16 < s.outbound core + ts.length then .error .stall
      else pure (ts.foldl (fun s t => s.send core (home t) (s.slice core t).asid none
        (.msg (sendMsg (s.slice core t) core a.toNat) handler false)) s)
def execSend (g : BitVec 4) (r : BitVec 1) (a b : BitVec 6) (x : BitVec 1) (s : State) : Meaning := sendForm false g r a b x s
def execSendh (g : BitVec 4) (r : BitVec 1) (a b : BitVec 6) (x : BitVec 1) (s : State) : Meaning := sendForm true g r a b x s

/-- A message matches a member's b (R163). -/
def Msg.hits (m : Msg) (asid : Nat) (n : BitVec 1) (tag : Word) : Bool :=
  m.asid == asid && (n == 1 || m.words.getD 1 0 == tag)

/-- The object on which a receiver parks. -/
def mailPark (core : Nat) (n : BitVec 1) (tag : Word) : Park := .mailbox core (if n == 1 then none else some tag)

/-- The gang parks on the mailbox, each member with its own b. -/
def State.mailParks (s : State) (n : BitVec 1) (b : BitVec 6) (x : BitVec 1) : Stop :=
  .parks (s.issuer.slots.map fun t => (t, mailPark s.issuer.core n ((s.slice s.issuer.core t).uniform b x)))

/-- The first message that satisfies `p`, and the others. -/
def takeMsg (p : Msg → Bool) : List Msg → Option (Msg × List Msg)
  | [] => none
  | m :: t => if p m then some (m, t) else (takeMsg p t).map fun r => (r.1, m :: r.2)

def execWaitm (g : BitVec 4) (n : BitVec 1) (b : BitVec 6) (x : BitVec 1) (s : State) : Meaning :=
  uniformly { ok := msgB b x n, srcs := sbSrc b x } g s fun s core slot =>
    let y := s.slice core slot
    if (s.core core).mailbox.any fun m => m.hits y.asid n (y.uniform b x) then .ok s
    else .error (s.mailParks n b x)

/-- RECVM (R163): every member's message leaves in one step, and the core acquires at DEVICE scope. -/
def execRecvm (g : BitVec 4) (d : BitVec 6) (n : BitVec 1) (b : BitVec 6) (x : BitVec 1) (s : State) : Meaning :=
  gangwise { ok := msgB b x n, srcs := sbSrc b x, mem := true } s fun s =>
    let core := s.issuer.core
    let step (s : State) (t : Nat) : Except Stop State :=
      let y := s.slice core t
      match takeMsg (fun m => m.hits y.asid n (y.uniform b x)) (s.core core).mailbox with
      | none => .error (s.mailParks n b x)
      | some (m, rest) =>
        .ok ((s.modCore core fun k => { k with mailbox := rest }).setSlice core t
          (y.writeLanes d.toNat (List.range 8) fun l => m.words.getD l 0))
    match s.taking g with
    | [] => .ok s
    | ts => (ts.foldlM step s).map fun s => s.acquireNow core 4

/-- MCNT writes every member (R117). -/
def execMcnt (g : BitVec 4) (d : BitVec 6) (n : BitVec 1) (b : BitVec 6) (x : BitVec 1) (s : State) : Meaning :=
  gangwise { ok := sOk d && msgB b x n, srcs := sbSrc b x } s fun s =>
    if (s.taking g).isEmpty then .ok s
    else .ok (s.members fun y => y.setS d.toNat
      (w32 ((s.core s.issuer.core).mailbox.filter fun m => m.hits y.asid n (y.uniform b x)).length))

/-- HRET (R164): ends a handler with all its lanes. -/
def execHret (g : BitVec 4) (s : State) : Meaning :=
  gangwise { adv := false } s fun s =>
    let core := s.issuer.core
    match s.taking g with
    | [] => .ok (s.advanceAll 4)
    | ts =>
      if ts.any fun t => !(s.slice core t).handler then s.faultAll g 0x01
      else .ok (ts.foldl (fun s t => (s.modSlice core t fun x => { x with paths := x.paths.map fun _ => {} }).retire core t) s)

/-- SVREQ (R166): one request per active lane, in ascending LANE order. -/
def execSvreq (g : BitVec 4) (a b : BitVec 6) (x : BitVec 1) (s : State) : Meaning :=
  gangwise { ok := msgB b x 0 && alignOk a 8, srcs := group 0 a.toNat 8 ++ sbSrc b x, mem := true } s fun s =>
    let core := s.issuer.core
    let svc (t : Nat) : Nat := ((s.slice core t).uniform b x).toNat
    match (s.taking g).filter fun t => decide (8 ≤ svc t) && svc t != 16 with
    | t :: rest => s.faultOf g (t :: rest) 0x05 (svc t)
    | [] => .ok ((s.gangLanes g).foldl (fun s p =>
        let y := s.slice core p.1
        let ws := (List.range 8).map fun i => y.vr (a.toNat + i) p.2
        let n := svc p.1
        s.send core (if n < 8 then nodeRaster n else nodeTexture (clusterOf core)) y.asid none
          (.service core (decide (n < 8)) ws 0)) s)

end Sys2Proof.Machine
end

