-- ==== Sys2Proof/Machine/CopyStream.lean ====
section
/-! DEFINITION. Copy requests and stream ports at the core: TCOPY, STBIND, STUNB, STSTAT (08 R209-R210, R218-R225). -/

namespace Sys2Proof.Machine

/-! ## TCOPY -/

/-- Checks of one member of TCOPY (R210): its fault, or the descriptor's bytes. -/
def State.descAt (s : State) (slot d : Nat) : Except (Nat × Nat) (List Byte) :=
  let core := s.issuer.core
  let x := s.slice core slot
  let (base, len) := s.localRun x
  let key := localBase core + base + d
  let span (n : Nat) : Option (Nat × Nat) :=
    if len < d + n then some (0x05, d)
    else if x.handler && !s.ownsSpan core x.asid d n then some (0x07, d) else none
  if d % 16 ≠ 0 then .error (0x04, d)
  else match span 32 with
    | some e => .error e
    | none =>
      let n := mread s.mem key 4 % 16
      let n := if 1 ≤ n ∧ n ≤ 10 then n else 0
      match span (32 + 16 * n) with
      | some e => .error e
      | none => .ok (mbytes s.mem key (32 + 16 * n))

/-- Engine of the core's cluster that ENG names (Table 08-1). -/
def engineOf (core : Nat) (eng : BitVec 2) : Nat :=
  2 * clusterOf core + (if eng == 0 then core % 2 else eng.toNat - 1)

def execTcopy (g : BitVec 4) (ds ts : BitVec 6) (rel : BitVec 1) (eng : BitVec 2) (s : State) : Meaning :=
  gangwise { len := 8, mem := true, ok := sOk ds && sOk ts, srcs := [(1, ds.toNat), (1, ts.toNat)] } s fun s =>
    let core := s.issuer.core
    let mem := s.taking g
    let chk (t : Nat) : Except (Nat × Nat) (List Byte) := s.descAt t ((s.slice core t).sr ds.toNat).toNat
    match mem.filterMap fun t => match chk t with | .error e => some (t, e) | .ok _ => none with
    | (t, e) :: rest => s.faultOf g (t :: rest.map (·.1)) e.1 e.2
    | [] => do
      s.watchSpans g (mem.map fun t => (t, ((s.slice core t).sr ds.toNat).toNat, match chk t with | .ok d => d.length | .error _ => 0))
      s.memWaits g (some 4) 0 (rel == 1) 4
      if 16 < s.outbound core + mem.length then .error .stall
      else pure (mem.foldl (fun s t => match chk t with
        | .ok desc =>
          let x := s.slice core t
          let o := { s.unitOp t 0 0 with dest := .none, code := some 4 }
          let (base, len) := s.localRun x
          let r : CopyReq := { seq := o.id, op := o.id, core, slot := t, asid := x.asid, tag := x.sr ts.toNat, desc,
                               handler := x.handler, base, len }
          (s.openOp o).send core (nodeEngine (engineOf core eng)) x.asid (some o.id) (.copy r none)
        | .error _ => s) s)

/-! ## Stream ports -/

/-- Signed value of `n` bytes. -/
def signedBytes (bs : List Byte) : Int := (BitVec.ofNat (8 * bs.length) (bytesNat bs)).toInt
/-- Stride k of a pattern, and its lane stride (Table 08-8). -/
def patStr (p : List Byte) (k : Nat) : Int := signedBytes ((p.drop (8 + 4 * k)).take 4)
def patLane (p : List Byte) : Int := signedBytes ((p.drop 4).take 2)
def patBase (p : List Byte) : Nat := bytesNat (p.take 4)
/-- Count k, minus one. -/
def patCount (p : List Byte) (k : Nat) : Nat := bytesNat ((p.drop (24 + 2 * k)).take 2)

/-- Address of word `j` of element `x` (R220). -/
def patAddr (p : List Byte) (x j : Nat) : Int :=
  let c k := patCount p k + 1
  (patBase p : Int) + (x % c 0 : Nat) * patStr p 0 + (x / c 0 % c 1 : Nat) * patStr p 1 + (x / (c 0 * c 1) % c 2 : Nat) * patStr p 2
    + (x / (c 0 * c 1 * c 2) % c 3 : Nat) * patStr p 3 + j * patLane p

/-- Least and greatest word address of a pattern (R221). -/
def patSpan (p : List Byte) : Int × Int :=
  let ends := (7 * patLane p) :: (List.range 4).map fun k => (patCount p k : Int) * patStr p k
  ends.foldl (fun (a : Int × Int) e => (a.1 + min 0 e, a.2 + max 0 e)) ((patBase p : Int), (patBase p : Int))

/-- Checks of one member of STBIND (R221): its fault, or the pattern. -/
def State.patternAt (s : State) (slot space a : Nat) : Except (Nat × Nat) (List Byte) :=
  let core := s.issuer.core
  let x := s.slice core slot
  let (base, len) := s.localRun x
  let key := localBase core + base + a
  if a % 16 ≠ 0 then .error (0x04, a)
  else if len < a + 32 then .error (0x05, a)
  else if x.handler && !s.ownsSpan core x.asid a 32 then .error (0x07, a)
  else
    let p := mbytes s.mem key 32
    let vals : List Int := (patBase p : Int) :: patLane p :: (List.range 4).map (patStr p)
    let total := ({ pattern := p } : Port).total
    match vals.find? fun v => v % 4 != 0 with
    | some v => .error (0x04, (v % 2 ^ 32).toNat)
    | none =>
      if 2 ^ 24 < total ∨ bytesNat ((p.drop 6).take 2) ≠ 0 then .error (0x02, 0)
      else
        let (lo, hi) := patSpan p
        let test (v : Int) : Option (Nat × Nat) := match (s.place core slot space 4 .load false v).2 with
          | .bad c d => some (c, d)
          | _ => none
        match test lo, test hi with
        | some e, _ => .error e
        | _, some e => .error e
        | none, none =>
          let first := lo.toNat / 0x10000
          let n := hi.toNat / 0x10000 - first + 1
          if space = 2 then
            match (List.range n).find? fun i => s.extentOwner (clusterOf core) (0x10000 * (first + i)) != some x.asid with
            | some i => .error (0x07, 0x10000 * (first + i))
            | none => .ok p
          else .ok p

/-- The STBIND of a port is counted no longer. -/
def State.endBind (s : State) (core slot : Nat) (p : Port) : State :=
  (s.dropOp p.op).modSlice core slot fun x => (x.complete p.op).unpend p.op

def execStbind (g : BitVec 4) (d a : BitVec 6) (space : BitVec 3) (port : BitVec 2) (s : State) : Meaning :=
  gangwise { len := 8, mem := true, ok := pOk d && sOk a, srcs := [(1, a.toNat)] } s fun s =>
    let core := s.issuer.core
    let n := port.toNat
    let mem := s.taking g
    let chk (t : Nat) : Except (Nat × Nat) (List Byte) := s.patternAt t space.toNat ((s.slice core t).sr a.toNat).toNat
    match mem.filterMap fun t => match chk t with | .error e => some (t, e) | .ok _ => none with
    | (t, e) :: rest => s.faultOf g (t :: rest.map (·.1)) e.1 e.2
    | [] => do
      s.watchSpans g (mem.map fun t => (t, ((s.slice core t).sr a.toNat).toNat, 32))
      s.memWaits g (some 4) 0 false 0
      let portOf (s : State) (t : Nat) : Port := tget {} (s.slice core t).ports n
      let k := (mem.filter fun t => !(portOf s t).bound).length
      let used := (s.core core).streamUsed
      let fits := decide (used + k ≤ 64)
      let mark (x : Slice) : Slice := x.writePred d.toNat (x.lanes g) fun _ => fits
      if !fits then pure (mem.foldl (fun s t => s.modSlice core t mark) s)
      else
        let s := s.modCore core fun c => { c with streamUsed := used + k }
        pure (mem.foldl (fun s t => match chk t with
          | .ok p =>
            let s := s.endBind core t (portOf s t)
            let o := { s.unitOp t 0 0 with dest := .none, code := some 4 }
            let q : Port := { bound := true, space := space.toNat, pattern := p, op := o.id }
            (s.openOp o).modSlice core t fun x => mark { x with ports := tset x.ports n q }
          | .error _ => s) s)

def execStunb (g : BitVec 4) (port : BitVec 2) (s : State) : Meaning :=
  gangwise { len := 8, mem := true } s fun s =>
    let core := s.issuer.core
    let n := port.toNat
    let portOf (s : State) (t : Nat) : Port := tget {} (s.slice core t).ports n
    match (s.taking g).filter fun t => (portOf s t).bound with
    | [] => .ok s
    | ts => do
      s.memWaits g (some 4) 0 false 0
      let s := ts.foldl (fun s t => (s.endBind core t (portOf s t)).modSlice core t fun x =>
        { x with ports := tset x.ports n {} }) s
      let o := { s.unitOp (ts.headD 0) 0 0 with dest := .none, code := some 4, members := ts, await := 0, osec := 9 }
      pure (s.openOp o)

def execStstat (g : BitVec 4) (d : BitVec 6) (port : BitVec 2) (s : State) : Meaning :=
  uniformly { len := 8, ok := sOk d } g s fun s core slot =>
    let x := s.slice core slot
    let p := tget {} x.ports port.toNat
    let w := if p.bound then w32 (2 ^ 31 + p.buf.length * 2 ^ 27 + (p.total - p.popped)) else 0
    .ok (s.setSlice core slot (x.setS d.toNat w))

end Sys2Proof.Machine
end

