-- ==== Sys2Proof/Machine/Deque.lean ====
section
/-! DEFINITION. The range deque (11 R294-R298). -/

namespace Sys2Proof.Machine

/-- Writes a quad: BASE, COUNT taken, TAG and the source core; nothing taken gives zeros and all ones (R295). -/
def Slice.setQuad (x : Slice) (d : Nat) (r : Option (Nat × Nat × Nat)) (core : Nat) : Slice :=
  let (b, n, t) := r.getD (0, 0, 0)
  let src := if r.isSome then core else 0xFFFFFFFF
  (((x.setS d (w32 b)).setS (d + 1) (w32 n)).setS (d + 2) (w32 t)).setS (d + 3) (w32 src)

/-! ## Steals (R297) -/

/-- A steal at a core's deque: what it takes, and the entries left. The top is the oldest entry, last in the list. -/
def stealTop (es : List (Nat × Nat × Nat)) : Option ((Nat × Nat × Nat) × List (Nat × Nat × Nat)) :=
  match es.getLast? with
  | none => none
  | some (b, n, t) =>
    let keep := n / 2
    let rest := es.dropLast
    some (((b + keep) % 2 ^ 32, n - keep, t), if keep = 0 then rest else rest ++ [(b, keep, t)])

/-- A steal takes nothing at core `v`: a ring steal goes on to the next core whose deque the context holds. -/
def State.stealNone (s : State) (o : Op) (slot d v : Nat) (ring : Bool) : State :=
  let own (k : Nat) : Bool := (s.core k).deque.owner == some o.asid
  let hops := (o.core + 256 - v) % 256
  match if ring then ((List.range hops).map fun i => (v + 1 + i) % 256).find? own else none with
  | some w => s.send v w o.asid (some o.id) (.steal slot d w true)
  | none => s.answer o.id slot d [0, 0, 0, 0xFFFFFFFF]

/-- A steal at core `v`. The steals of a cycle come before its owner forms, but for a DQPOP or DQSPL of the same cycle that takes the
only entry, of one item: until the cycle ends, that entry is only lent (R298). -/
def State.stealAt (s : State) (o : Op) (slot d v : Nat) (ring : Bool) : State :=
  let q := (s.core v).deque
  match if q.owner == some o.asid then stealTop q.entries else none with
  | some ((b, n, t), rest) =>
    let one : Option Lent := if q.entries.length = 1 ∧ n = 1 ∧ rest = [] then some ⟨o.id, slot, d, ring, b, t⟩ else q.lent
    (s.modCore v fun k => { k with deque := { q with entries := rest, lent := one } }).answer o.id slot d [b, n, t, v]
  | none => s.stealNone o slot d v ring

/-- The owner takes a lent entry back, and the steal takes nothing (R298). -/
def State.takeBack (s : State) (core : Nat) : State :=
  let q := (s.core core).deque
  match q.entries, q.lent with
  | [], some l =>
    let s := s.modCore core fun k => { k with deque := { q with entries := [(l.base, 1, l.tag)], lent := none } }
    match s.op? l.op with
    | some o => (s.modOp o.id fun o => { o with left := 1, writes := [] }).stealNone o l.slot l.d core l.ring
    | none => s
  | _, _ => s

/-- The cycle ends: what is lent is stolen. -/
def State.endLent (s : State) : State :=
  { s with cores := s.cores.map fun (i, k) => (i, { k with deque := { k.deque with lent := none } }) }
/-- The answer of a steal waits for the end of its cycle. -/
def State.isLent (s : State) (op : Nat) : Bool := s.cores.any fun k => k.2.deque.lent.any (·.op == op)

/-! ## Owner forms -/

/-- An owner form (R296): each member in turn acts on its own core's deque; `pop` for DQPOP and DQSPL. -/
def dequeForm (h : Head) (g : BitVec 4) (pop : Bool) (s : State)
    (body : Slice → List (Nat × Nat × Nat) → Option (List (Nat × Nat × Nat) × Slice)) : Meaning :=
  uniformly h g s fun s core slot =>
    let x := s.slice core slot
    let s := if pop && (s.core core).deque.owner == some x.asid then s.takeBack core else s
    let q := (s.core core).deque
    if q.owner != some x.asid then raise 0x19
    else match body x q.entries with
      | none => raise 0x19
      | some (es, y) => .ok ((s.modCore core fun k => { k with deque := { q with entries := es } }).setSlice core slot y)

def execDqpsh (f : R3) (s : State) : Meaning :=
  dequeForm { ok := sOk f.d && sOk f.a && sbOk f.b f.x, srcs := (1, f.d.toNat) :: (1, f.a.toNat) :: sbSrc f.b f.x } f.g false s
    fun x es =>
      let n := (x.sr f.a.toNat).toNat
      if n = 0 ∨ 64 ≤ es.length then none
      else some (((x.sr f.d.toNat).toNat, n, (x.uniform f.b f.x).toNat) :: es, x)

def quadOk (d : BitVec 6) : Bool := sOk d && alignOk d 4

def execDqpop (g : BitVec 4) (d : BitVec 6) (s : State) : Meaning :=
  let core := s.issuer.core
  dequeForm { ok := quadOk d } g true s fun x es => some (es.drop 1, x.setQuad d.toNat es.head? core)

def execDqspl (f : RB) (s : State) : Meaning :=
  let core := s.issuer.core
  dequeForm { ok := quadOk f.d && sbOk f.b f.x, srcs := sbSrc f.b f.x } f.g true s fun x es =>
    let k := (x.uniform f.b f.x).toNat
    if k = 0 then none
    else match es with
      | [] => some ([], x.setQuad f.d.toNat none core)
      | (b, n, t) :: rest =>
        let m := min k n
        some (if n = m then rest else ((b + m) % 2 ^ 32, n - m, t) :: rest, x.setQuad f.d.toNat (some (b, m, t)) core)

def execDqcnt (g : BitVec 4) (d : BitVec 6) (s : State) : Meaning :=
  dequeForm { ok := sOk d } g false s fun x es => some (es, x.setS d.toNat (w32 es.length))

def execDqclr (g : BitVec 4) (s : State) : Meaning := dequeForm {} g false s fun x _ => some ([], x)

/-- DQSTL (R297): the steal leaves for the victim; the quad is pending until the answer returns. -/
def execDqstl (f : RB) (s : State) : Meaning :=
  uniformly { ok := quadOk f.d && sbOk f.b f.x, srcs := sbSrc f.b f.x, mem := true } f.g s fun s core slot =>
    let x := s.slice core slot
    let v := (x.uniform f.b f.x).toNat
    if 255 < v ∧ v ≠ 0xFFFF then raise 0x05 v
    else
      let ring := v == 0xFFFF
      let id := s.nextId
      let o : Op := { id, core, asid := x.asid, pc := s.issuer.pc, members := [slot], left := 1, dest := .s f.d.toNat 4 }
      let first := if ring then (core + 1) % 256 else v
      .ok ((s.openOp o).send core first x.asid (some id) (.steal slot f.d.toNat first ring))

end Sys2Proof.Machine
end

