-- ==== Sys2Proof/Machine/EvMemory.lean ====
section
/-! DEFINITION. Device steps of the memories (spec/95): what is performed at a home, and what comes back. A step that is not
enabled changes nothing (log 4). -/

namespace Sys2Proof.Machine

/-- A device step on a flight that is the first of its pair (06 R154, 07 R180). -/
def State.onFlight (s : State) (id : Nat) (f : Flight → State → Option State) : Meaning :=
  match s.flight? id with
  | some x => if s.first x then .next ((f x (s.dropFlight id)).getD s) else .next s
  | none => .next s

/-- A device step on a request that stands at its home, and stays in flight until it is performed (07 R180). -/
def State.onHome (s : State) (id : Nat) (f : Flight → State) : Meaning :=
  match s.flight? id with
  | some x => .next (if s.first x && !s.queued id then f x else s)
  | none => .next s

/-- A device step on an operation with nothing left to wait for. -/
def State.onOp (s : State) (id : Nat) (p : Op → Bool) (f : Op → State) : Meaning :=
  match s.op? id with
  | some o => .next (if o.left == 0 && p o then f o else s)
  | none => .next s

/-- The operation of a load or atomic (07 Table 07-5), or of a PREF. -/
def Op.isLoad (o : Op) : Bool :=
  o.code == some 0 || o.code == some 1 || (o.code == none && o.dest == .none && o.await == 0 && o.osec == 0)

/-- LOAD_DATA_RETURN: the data of a load or atomic arrives (01 R11, 07 R184, R188, R202). A PREF meets no poison (07 R206). -/
def execEvLoadDataReturn (op : Nat) (s : State) : Meaning :=
  s.onOp op Op.isLoad fun o => s.finishOp (if o.code == none then { o with poisoned := [] } else o)

/-- STORE_ACKNOWLEDGE: a posted access is acknowledged (06 R155). -/
def execEvStoreAcknowledge (op : Nat) (s : State) : Meaning :=
  s.onOp op (fun o => o.code == some 2 || o.code == some 3) s.finishOp

/-- LWIN_ACCESS_AT_HOME (06 R153-R156). -/
def execEvLwinAccessAtHome (flight : Nat) (s : State) : Meaning :=
  s.onFlight flight fun f s => match f.pkt with | .lwin a => some (s.performLwin f a) | _ => none

/-- BLOCK_EXPANSION_COMPLETE (06 R170, R172): performed in program order of each member. -/
def execEvBlockExpansionComplete (flight : Nat) (s : State) : Meaning :=
  match s.flight? flight with
  | none => .next s
  | some f =>
    match f.pkt, f.op.bind s.op? with
    | .cluster a, some o =>
      let before := s.flights.takeWhile (·.id != flight)
      if ({ s with flights := before } : State).clusterBehind f.src o.members then .next s
      else .next (((s.dropFlight flight).performCluster o.id f.src a).lessLeft o.id)
    | _, _ => .next s

/-- GLOBAL_REQUEST_AT_HOME (07 R180): at a home slice of the device, or in host memory. -/
def execEvGlobalRequestAtHome (flight : Nat) (s : State) : Meaning :=
  s.onHome flight fun f =>
    if toPeer f.dst then s
    else match f.pkt with | .global a sh => if s.resvOpen f then s else s.arriveRequest f a sh | _ => s

/-- ATOMIC_RESERVE (07 R195). -/
def execEvAtomicReserve (flight : Nat) (s : State) : Meaning :=
  s.onHome flight fun f =>
    if toPeer f.dst then s
    else match f.pkt with | .reserve a => s.arriveReserve f a | _ => s

/-- ATOMIC_GRANT: the holder applies its lanes (07 R194-R196, R203). -/
def execEvAtomicGrant (unit : Nat) (s : State) : Meaning := .next (s.applyUnit unit)

/-- ATOMIC_UNIT_RELEASE: the slice passes the unit on (07 R195). -/
def execEvAtomicUnitRelease (unit : Nat) (s : State) : Meaning := .next (s.passUnit unit)

/-- SYSTEM_ATOMICOP_COMPLETION (07 R197): the lanes of a SYSTEM atomic go one at a time; a refusal gives a deferred PERMISSION
and zero in the lane's destination (06 R153). A completion with EP set has its sector poisoned (R201). -/
def execEvSystemAtomicopCompletion (flight : Nat) (refused : Bool) (s : State) : Meaning :=
  match s.flight? flight with
  | none => .next s
  | some f =>
    match f.pkt, f.op with
    | .sysAtomic a, some op =>
      match a.lanes with
      | [] => .next s
      | l :: rest =>
        if !s.first f then .next s
        else
          let s := if refused then s.modOp op fun o => { o with laneFaults := o.laneFaults ++ [(l.slot, l.lane, 0x07, l.va)],
                                                                writes := o.writes ++ o.dest.writes l 0 }
            else (s.findErrors f.asid [l.pa / 64]).performAcc op f.src { a with lanes := [l] }
          let s := (s.lessLeft op).freeEntries op f.src 1
          let go : Pkt := .sysAtomic { a with lanes := rest }
          .next (if rest.isEmpty then s.dropFlight flight
            else { s with flights := s.flights.map fun (g : Flight) => if g.id == flight then { g with pkt := go } else g })
    | _, _ => .next s

/-- The gang that parked on the pool with a slice. -/
def State.poolGang (s : State) (core slot : Nat) : List Nat :=
  let x := s.slice core slot
  (s.warpSlots core slot).filter fun t =>
    let y := s.slice core t
    y.path.pc == x.path.pc && match x.park, y.park with
      | some (.pool c n a _), some (.pool d m b _) => c == d && n == m && a == b
      | _, _ => false

/-- CLUSTER_POOL_EXHAUSTED for the gang of a slice parked on the pool (06 R176). -/
def State.poolFault (s : State) (core slot : Nat) : State :=
  match (s.slice core slot).park with
  | some (.pool _ _ addr _) =>
    let gang := s.poolGang core slot
    let x := s.slice core slot
    let pc := if x.frame.act && !x.frame.susp then x.frame.addr x.frame.j else x.path.pc
    let lanes : Tab Pred := gang.foldl (fun m t => match (s.slice core t).park with
      | some (.pool _ _ _ p) => tset m t p
      | _ => m) []
    s.trap core gang { code := 0x09, addr := addr, lanes := lanes } pc pc
  | _ => s

/-- POOL_WAIT_TIMEOUT (06 R176). -/
def execEvPoolWaitTimeout (core slot : Nat) (s : State) : Meaning :=
  let x := s.slice core slot
  match x.park with
  | some (.pool _ since _ _) =>
    if x.live && !x.halted && decide (100000 ≤ s.time.toNat - since) then .next (s.poolFault core slot) else .next s
  | _ => .next s

/-- Instruction caches drop lines. -/
def State.dropIcache (s : State) (cores lines : List Nat) : State :=
  cores.foldl (fun s c => if (s.core c).icache.isEmpty then s
    else s.modCore c fun k =>
      { k with icache := k.icache.filter fun l => !lines.contains l,
               icacheData := lines.foldl (fun d l => mclear d (128 * l) 128) k.icacheData }) s

/-- ICINV_COMPLETION (04 R112): every named cache has dropped the lines, and the gang goes on. -/
def execEvIcinvCompletion (op : Nat) (s : State) : Meaning :=
  s.onOp op (fun o => o.await == 8 && o.osec == 0) fun o =>
    let s := (s.dropOp op).dropIcache (scopeCores o.core o.pd) o.keys
    o.members.foldl (fun s t => s.modSlice o.core t fun x =>
      if x.live && x.park == some (.answer op) then x.unpark.advance o.await else x) s

end Sys2Proof.Machine
end

