-- ==== Sys2Proof/Machine/EvCopy.lean ====
section
/-! DEFINITION. The copy engines and the refills of stream ports (08 R207-R217, R222-R224). -/

namespace Sys2Proof.Machine

/-! ## Descriptors -/

/-- Fields of a descriptor (08 Tables 08-2 and 08-3). -/
structure Desc where
  ndim : Nat
  esz : Nat
  sspace : Nat
  dspace : Nat
  mode : Nat
  scp : Nat
  dcp : Nat
  sbase : Nat
  dbase : Nat
  /-- COUNT, SSTR, DSTR of each dimension, innermost first. -/
  dims : List (Nat × Int × Int)
deriving DecidableEq, Repr

def Desc.of (b : List Byte) : Desc :=
  let w := bytesNat (b.take 4)
  let dim (k : Nat) : Nat × Int × Int :=
    (bytesNat ((b.drop (32 + 16 * k)).take 4), signedBytes ((b.drop (40 + 16 * k)).take 4),
      signedBytes ((b.drop (44 + 16 * k)).take 4))
  ⟨w % 16, 2 ^ (w / 16 % 4), w / 2 ^ 8 % 8, w / 2 ^ 11 % 8, w / 2 ^ 16 % 4, w / 2 ^ 18 % 4, w / 2 ^ 20 % 4,
    dwordAt b 8, dwordAt b 16, (List.range (w % 16)).map dim⟩

def Desc.count (d : Desc) : Nat := (d.dims.map (·.1)).foldl (· * ·) 1
def Desc.bytes (d : Desc) : Nat := d.count * d.esz

/-- Breaches of R211 to R213 that the descriptor shows. -/
def Desc.malformed (d : Desc) (b : List Byte) : Bool :=
  let w := bytesNat (b.take 4)
  let zero (i n : Nat) : Bool := bytesNat ((b.drop i).take n) == 0
  d.ndim == 0 || decide (10 < d.ndim) || w / 2 ^ 6 % 4 != 0 || w / 2 ^ 14 % 4 != 0 || w / 2 ^ 22 != 0 ||
  decide (3 < d.sspace) || decide (3 < d.dspace) || d.mode == 3 || !zero 4 4 || !zero 24 8 ||
  (List.range d.ndim).any (fun k => !zero (36 + 16 * k) 4) ||
  d.dims.any (fun x => x.1 == 0 || decide (2 ^ 24 < x.1) || x.2.1 % d.esz != 0 || x.2.2 % d.esz != 0 ||
    (d.mode == 1 && x.2.2 != 0) || (d.mode == 2 && x.2.1 != 0)) ||
  d.sbase % d.esz != 0 || d.dbase % d.esz != 0 || decide (2 ^ 32 < d.bytes) ||
  (d.sspace != 3 && decide (2 ^ 32 ≤ d.sbase)) || (d.dspace != 3 && decide (2 ^ 32 ≤ d.dbase)) ||
  (d.mode != 0 && d.bytes % 256 != 0)

/-- Offset of element `x` by the strides that `f` picks (R212). -/
def elemOffset (f : Nat × Int × Int → Int) : List (Nat × Int × Int) → Nat → Int
  | [], _ => 0
  | d :: ds, x => (x % d.1 : Nat) * f d + elemOffset f ds (x / d.1)
def Desc.src (d : Desc) (x : Nat) : Int := d.sbase + elemOffset (fun e => e.2.1) d.dims x
def Desc.dst (d : Desc) (x : Nat) : Int := d.dbase + elemOffset (fun e => e.2.2) d.dims x

/-! ## One access of an engine -/

/-- Where an engine's access lands. -/
inductive EPlace where
  | key (k : Nat)
  /-- A status that stops the request. -/
  | err (status : Nat)
  /-- A replayable failure: code, reason, level. -/
  | far (code reason level : Nat)
deriving DecidableEq, Repr

/-- Checks an access of a request (R212, R214-R215), by the rules of user mode; LOCAL is the run that the request captured, whoever
holds it now (log 68). -/
def State.enginePlace (s : State) (c : Nat) (r : CopyReq) (space n : Nat) (acc : Access) (a : Int) : EPlace :=
  let o := a.toNat
  if a < 0 then .err 2
  else match space with
    | 0 =>
      if r.len < o + n then .err 2
      else if r.handler && !s.ownsSpan r.core r.asid o n then .err 4
      else .key (localBase r.core + r.base + o)
    | 1 =>
      if 2 ^ 26 ≤ o ∨ localSize < o % 2 ^ 18 + n then .err 2
      else if !s.reach r.asid (o / 2 ^ 18) || !s.ownsSpan (o / 2 ^ 18) r.asid (o % 2 ^ 18) n then .err 4
      else .key (localBase (o / 2 ^ 18) + o % 2 ^ 18)
    | 2 =>
      if 0xC00000 < o + n then .err 2
      else if s.extentOwner c o != some r.asid then .err 4
      else .key (clusterBase c + o)
    | _ =>
      if 2 ^ 52 < o + n then .err 2
      else match s.translateUnit r.asid o acc with
        | .ok k => .key k
        | .error (.fail code reason level) => .far code reason level

/-- The sectors of a key range. -/
def sectorsOf (key n : Nat) : List Nat := (List.range ((key + n - 1) / 64 - key / 64 + 1)).map (key / 64 + ·)

/-- Reads for an engine: the value, and whether a sector is poisoned. -/
def State.engineRead (s : State) (asid key n cp : Nat) : State × Nat × Bool :=
  if nearKeys ≤ key then (s, mread s.mem key n, false)
  else
    let s := (s.reachHome key n).findErrors asid (sectorsOf key n)
    let s := if key < 2 ^ 52 then s.dcacheFor (key / 256) cp false else s
    (s, mread s.mem key n, (sectorsOf key n).any s.poisonedAt)

/-- A byte of a sector that is poisoned, or has an error, has been written clean for a request; the sector that it has written whole
is clean, error and all (07 R204). The bytes add up over the whole request, burst after burst, until the sector is poisoned anew
(DESIGN CHOICE, log 76). -/
def State.cleanByte (s : State) (e seq key : Nat) : State :=
  let k := key / 64
  if !s.poisonedAt k && (s.bad.lookup k).isNone then s
  else
    let mine (c : CleanMask) : Bool := c.engine == e && c.seq == seq && c.sector == k
    let m := (((s.clean.find? mine).map fun (c : CleanMask) => c.mask).getD 0).lor (2 ^ (key % 64))
    let s := { s with clean := s.clean.filter fun c => !mine c }
    if m = 2 ^ 64 - 1 then s.clearPoison k else { s with clean := s.clean ++ [⟨e, seq, k, m⟩] }

/-- A request has ended: what it has written in part of a sector with an error has found the error (07 R201). -/
def State.endClean (s : State) (e : Nat) (r : CopyReq) : State :=
  let mine (c : CleanMask) : Bool := c.engine == e && c.seq == r.seq
  ({ s with clean := s.clean.filter fun c => !mine c } : State).findErrors r.asid ((s.clean.filter mine).map CleanMask.sector)

/-- Writes for an engine; poisoned data poisons the GLOBAL sectors it reaches and is not written elsewhere (R214, R216). A
sector that the request has written whole with clean data loses its poison (07 R204). -/
def State.engineWrite (s : State) (e : Nat) (r : CopyReq) (key n v cp : Nat) (poisoned : Bool) : State :=
  if nearKeys ≤ key then
    if poisoned then s
    else
      let s := s.write key n v
      if key < clusterBase 0 then (feWords key n).foldl (fun s w => s.setFe w 1 false) s else s
  else
    let s := (s.reachHome key n).write key n v
    let s := if key < 2 ^ 52 then s.dcacheFor (key / 256) cp true else s
    if poisoned then (sectorsOf key n).foldl (fun s k => s.setPoison k 3 r.asid) s
    else (List.range n).foldl (fun s i => s.cleanByte e r.seq (key + i)) s

/-! ## Steps of a request -/

/-- The request notes its first poisoned element. -/
def CopyReq.notePoison (r : CopyReq) (elem : Nat) (a : Int) (space : Nat) : CopyReq :=
  if r.poison.any fun c => decide (c.elem ≤ elem) then r else { r with poison := some ⟨5, elem, taddr a, space⟩ }

/-- Whether a request can go on. -/
inductive CStep where
  | go (s : State) (r : CopyReq)
  /-- It waits, or has ended. -/
  | wait (s : State) (r : CopyReq)

/-- A status stops the request (R215): of the burst under way, the elements below the failing one are still performed, and then it
ends. -/
def CopyReq.stopAt (r : CopyReq) (c : CopyErr) : CopyReq :=
  let todo := r.todo.filter fun x => decide (x < c.elem)
  { r with wait := .none, stop := some c, todo := todo, ended := todo.isEmpty }

/-- An access does not land: the request stops, or waits on a REPLAY record (R215). -/
def State.engineFail (s : State) (e : Nat) (r : CopyReq) (acc : Access) (elem : Nat) (a : Int) (space : Nat) : EPlace → CStep
  | .err st => .wait s (r.stopAt ⟨st, elem, taddr a, space⟩)
  | .far code reason level =>
    let (s, idx) := s.postReplay (.copy e r.seq) r.asid (0x100 + e) r.slot (accCode acc) (taddr a) 0 code reason level
    .wait s { r with wait := .replay idx, asked := some ⟨if code = 6 then 3 else 4, elem, taddr a, space⟩ }
  | .key _ => .go s r

/-- Makes the block of a CLUSTER access expanded, and admits a write (06 R172, R174). An engine that waits takes no place by age among
the slices parked on the pool (DESIGN CHOICE: 08 R214 and 06 R174 do not say; log 80). -/
def State.engineBlock (s : State) (e : Nat) (r : CopyReq) (key : Nat) (write : Bool) (elem : Nat) (a : Int) : CStep :=
  let c := e / 2
  if key < clusterBase 0 then .go s r
  else
    let b := (key - clusterBase c) / 256
    if write && !(s.cluster c).admits [b] then
      let since := match r.wait with | .pool t => t | _ => s.time.toNat
      .wait s { r with wait := .pool since, asked := some ⟨7, elem, taddr a, 2⟩ }
    else match s.touchBlock c b write [b] with
      | some s => .go s r
      | none => .wait s r

/-- A wait for the pool ends once the step under way has been done, whatever it has been admitted to before (R215). -/
def CopyReq.stepDone (r : CopyReq) : CopyReq := { r with wait := .none, asked := none }

/-- The walk of an engine's access. -/
def State.engineWalk (s : State) (r : CopyReq) (space : Nat) (a : Int) : State :=
  if space < 3 then s else s.walkNow r.asid a.toNat

/-- Reads one element; the value is kept by `f`. -/
def State.readElem (s : State) (e : Nat) (r : CopyReq) (d : Desc) (space elem n : Nat) (a : Int)
    (f : State → CopyReq → Nat → Bool → CStep) : CStep :=
  let s := s.engineWalk r space a
  match s.enginePlace (e / 2) r space n .load a with
  | .key k =>
    if s.unitWaits k then .wait s r
    else match s.engineBlock e r k false elem a with
    | .go s r => let (s, v, p) := s.engineRead r.asid k n d.scp; f s r v p
    | w => w
  | p => s.engineFail e r .load elem a space p

/-- Writes one element; a poisoned one bound for a space without poison is not written, and asks the pool for nothing (R216). -/
def State.writeElem (s : State) (e : Nat) (r : CopyReq) (d : Desc) (elem n : Nat) (a : Int) (v : Nat) (poisoned : Bool) : CStep :=
  let s := s.engineWalk r d.dspace a
  match s.enginePlace (e / 2) r d.dspace n .store a with
  | .key k =>
    if s.unitWaits k then .wait s r
    else if poisoned && decide (nearKeys ≤ k) then .go s r
    else match s.engineBlock e r k true elem a with
    | .go s r => .go (s.engineWrite e r k n v d.dcp poisoned) r
    | w => w
  | p => s.engineFail e r .store elem a d.dspace p

/-- PLAIN: one element (R213). The elements of a burst are performed in an order that a free value picks (R214). -/
def State.plainStep (s : State) (e : Nat) (r : CopyReq) (d : Desc) : CStep :=
  let burst := if r.todo.isEmpty then (List.range (min (256 / d.esz) (d.count - r.next))).map (r.next + ·) else r.todo
  let i := (Config.freeWord s.freeCount).toNat % burst.length
  let pick : List Nat := match r.wait with | .none => (burst[i]?).toList ++ burst.eraseIdx i | _ => burst
  let r := { r with todo := pick, next := if r.todo.isEmpty then r.next + burst.length else r.next }
  match pick with
  | [] => .wait s { r with ended := true }
  | x :: rest =>
    ({ s with freeCount := s.freeCount + 1 } : State).readElem e r d d.sspace x d.esz (d.src x) fun s r v p =>
      let r := if p then r.notePoison x (d.src x) d.sspace else r
      match s.writeElem e r d x d.esz (d.dst x) v p with
      | .go s r => .go s { r.stepDone with
          todo := rest, ended := rest.isEmpty && (r.stop.isSome || decide (d.count ≤ r.next)) }
      | w => w

/-- Bytes of a list of accesses, read in order; none when the request must wait. -/
def State.readBytes (e : Nat) (d : Desc) (space elem n : Nat) : List (Nat × Int) → State → CopyReq → List Byte → Bool →
    (State → CopyReq → List Byte → Bool → CStep) → CStep
  | [], s, r, acc, p, f => f s r acc p
  | (x, a) :: rest, s, r, acc, p, f =>
    s.readElem e r d space (elem + x) n a fun s r v q =>
      let r := if q then r.notePoison (elem + x) a space else r
      State.readBytes e d space elem n rest s r (acc ++ natBytes n v) (p || q) f

/-- Writes a list of accesses in order. -/
def State.writeAll (e : Nat) (d : Desc) (n : Nat) (poisoned : Bool) : List (Nat × Int × Nat) → State → CopyReq →
    (State → CopyReq → CStep) → CStep
  | [], s, r, f => f s r
  | (x, a, v) :: rest, s, r, f =>
    match s.writeElem e r d x n a v poisoned with
    | .go s r => State.writeAll e d n poisoned rest s r f
    | w => w

/-- Directory bytes of an image. -/
def dirBytes (nb : Nat) : Nat := (4 * nb + 31) / 32 * 32

/-- Code and segments of a block (06 Table 06-9). -/
def encodeBlock (ws : List Nat) : Nat × List Byte :=
  let w0 := natBytes 4 (ws.headD 0)
  let ds := (ws.drop 1).zip ws |>.map fun p => (w32 p.1 - w32 p.2).toNat
  let pad (n : Nat) (l : List Byte) : List Byte := l ++ List.replicate (n - l.length) 0
  match segsOf ws with
  | 0 => (0, [])
  | 1 => (1, pad 32 w0)
  | 3 => (2, pad 96 (w0 ++ ds.map fun d => BitVec.ofNat 8 d))
  | 5 => (3, pad 160 (w0 ++ ds.flatMap fun d => natBytes 2 d))
  | _ => (7, ws.flatMap fun w => natBytes 4 w)
/-- Segments of a code. -/
def codeSegs (c : Nat) : Nat := match c with | 0 => 0 | 1 => 1 | 2 => 3 | 3 => 5 | _ => 8
/-- Sums of deltas on a first word. -/
def sumsFrom (w : Word) : List Word → List Word
  | [] => [w]
  | d :: ds => w :: sumsFrom (w + d) ds
/-- The 64 words that segments encode. -/
def decodeBlock (code : Nat) (b : List Byte) : List Word :=
  match code with
  | 0 => List.replicate 64 0
  | 1 => List.replicate 64 (wordAt b 0)
  | 2 => sumsFrom (wordAt b 0) ((List.range 63).map fun i => (b.getD (4 + i) 0).signExtend 32)
  | 3 => sumsFrom (wordAt b 0) ((List.range 63).map fun i =>
      (BitVec.ofNat 16 (bytesNat ((b.drop (4 + 2 * i)).take 2))).signExtend 32)
  | _ => (List.range 64).map (wordAt b)

/-- COMPRESS: one block (R213, R216). A byte of the image that fails has for ERRIDX the first element of its block (DESIGN CHOICE, log
80). -/
def State.compressStep (s : State) (e : Nat) (r : CopyReq) (d : Desc) : CStep :=
  let b := r.next
  let nb := d.bytes / 256
  if nb ≤ b then .wait s { r with ended := true }
  else
    let per := 256 / d.esz
    let first := b * per
    State.readBytes e d d.sspace first d.esz ((List.range per).map fun i => (i, d.src (first + i))) s r [] false
      fun s r bytes p =>
        let (code, segs) := encodeBlock ((List.range 64).map fun i => (wordAt bytes i).toNat)
        let dirWord := natBytes 4 (r.segs * 2 ^ 8 + code)
        let padding := if b = 0 then (List.range (dirBytes nb - 4 * nb)).map fun i => (4 * nb + i, (0 : Byte)) else []
        let put := (List.range 4).map (fun i => (4 * b + i, dirWord.getD i 0)) ++
          (List.range segs.length).map fun i => (dirBytes nb + 32 * r.segs + i, segs.getD i 0)
        let at_ (q : Nat × Byte) : Nat × Int × Nat := (first, (d.dbase : Int) + (q.1 : Nat), q.2.toNat)
        State.writeAll e d 1 false (padding.map at_) s r fun s r =>
          State.writeAll e d 1 p (put.map at_) s r fun s r =>
            .go s { r.stepDone with next := b + 1, segs := r.segs + segs.length / 32 }

/-- Writes elements and notes each as done. -/
def State.writeRest (e : Nat) (d : Desc) (poisoned : Bool) : List (Nat × Int × Nat) → State → CopyReq →
    (State → CopyReq → CStep) → CStep
  | [], s, r, f => f s r
  | (x, a, v) :: rest, s, r, f =>
    match s.writeElem e r d x d.esz a v poisoned with
    | .go s r => State.writeRest e d poisoned rest s { r.stepDone with next := x + 1 } f
    | w => w

/-- EXPAND: the rest of one block (R213, R216). Bits [7:3] of a directory word are not looked at (log 68). A byte of the image that
fails has for ERRIDX the first element of its block, and a poisoned directory word is decoded as it stands, so that its request may
end MALFORMED (DESIGN CHOICE, log 80). -/
def State.expandStep (s : State) (e : Nat) (r : CopyReq) (d : Desc) : CStep :=
  let x := r.next
  let nb := d.bytes / 256
  let per := 256 / d.esz
  let b := x / per
  if nb ≤ b then .wait s { r with ended := true }
  else
    let at_ (o n : Nat) : List (Nat × Int) := (List.range n).map fun i => (0, (d.sbase : Int) + (o + i : Nat))
    State.readBytes e d d.sspace (b * per) 1 (at_ (4 * b) 4) s r [] false fun s r dir p1 =>
      let w := bytesNat dir
      let code := w % 8
      if (4 ≤ code ∧ code ≤ 6) ∨ w / 2 ^ 8 ≠ r.segs then
        .wait s { r with stop := some ⟨1, 64 * b, 0, 0⟩, ended := true }
      else
        State.readBytes e d d.sspace (b * per) 1 (at_ (dirBytes nb + 32 * r.segs) (32 * codeSegs code)) s r [] p1
          fun s r segs p =>
            let bytes := wordsBytes (decodeBlock code segs)
            let elems := (List.range per).map fun i =>
              (b * per + i, d.dst (b * per + i), bytesNat ((bytes.drop (d.esz * i)).take d.esz))
            State.writeRest e d p (elems.drop (x - b * per)) s r
              fun s r => .go s { r with segs := r.segs + codeSegs code }

/-- One step of a request: an element, or a block of an image (R207; log 21); and whether the request goes on. -/
def State.copyGo (s : State) (e : Nat) (r : CopyReq) : State × CopyReq × Bool :=
  let d := Desc.of r.desc
  if d.malformed r.desc then (s, { r with stop := some ⟨1, 0, 0, 0⟩, ended := true }, false)
  else match (match d.mode with | 0 => s.plainStep e r d | 1 => s.compressStep e r d | _ => s.expandStep e r d) with
    | .go s r => (s, r, true)
    | .wait s r => (s, r, false)

/-! ## The engines' queues -/

def State.engine (s : State) (e : Nat) : Engine :=
  let k := s.cluster (e / 2)
  if e % 2 = 0 then k.engine0 else k.engine1
def State.modEngine (s : State) (e : Nat) (f : Engine → Engine) : State :=
  s.modCluster (e / 2) fun k => if e % 2 = 0 then { k with engine0 := f k.engine0 } else { k with engine1 := f k.engine1 }

/-- COPY_REQUEST_ARRIVAL (R208): admitted, or refused and listed. -/
def execEvCopyRequestArrival (flight : Nat) (s : State) : Meaning :=
  match s.flight? flight with
  | none => .next s
  | some f =>
    match f.pkt with
    | .copy r none =>
      let e := f.dst - nodeEngine 0
      let q := s.engine e
      if !s.first f then .next s
      else if q.refused.isEmpty && decide (q.queue.length < 16) then
        .next ((s.dropFlight flight).modEngine e fun q => { q with queue := q.queue ++ [r] })
      else
        let s := s.modEngine e fun q => { q with refused := q.refused ++ [flight] }
        .next { s with flights := s.flights.map fun (g : Flight) =>
          if g.id == flight then { g with pkt := .copy r (some s.cycle.toNat) } else g }
    | _ => .next s

/-- COPY_REQUEST_RETRY (R208): not before 64 cycles after the refusal. A free entry is held for the oldest refused request; any other is
refused again. -/
def execEvCopyRequestRetry (flight : Nat) (s : State) : Meaning :=
  match s.flight? flight with
  | none => .next s
  | some f =>
    match f.pkt with
    | .copy r (some since) =>
      let e := f.dst - nodeEngine 0
      let q := s.engine e
      if s.cycle.toNat < since + 64 then .next s
      else if q.refused.head? == some flight && decide (q.queue.length < 16) then
        .next ((s.dropFlight flight).modEngine e fun q => { q with refused := q.refused.drop 1, queue := q.queue ++ [r] })
      else .next { s with flights := s.flights.map fun (g : Flight) =>
        if g.id == flight then { g with pkt := .copy r (some s.cycle.toNat) } else g }
    | _ => .next s

/-- An active request is within a burst, and does not wait for the pool or a REPLAY record. -/
def CopyReq.bursting (r : CopyReq) : Bool := !r.ended && !r.todo.isEmpty && r.wait == .none
/-- An active request may take a step: no other is within the engine's burst (R207). A request that waits in the midst of its burst
leaves the engine to the others, and goes on between their bursts. -/
def Engine.free (q : Engine) (seq : Nat) : Bool :=
  q.active.all fun r => r.seq == seq || q.burst != some r.seq || !r.bursting

/-- A request that has come to wait for admission to the pool may be the first since the last POOL_LOW (06 R175). -/
def State.enginePark (s : State) (e : Nat) (r : CopyReq) : State :=
  match r.wait with
  | .pool _ => if (s.cluster (e / 2)).poolParkSent then s else s.poolLow (e / 2) 1
  | _ => s

/-- A request takes a step, after which it stands where `put` puts it: the engine goes on with its burst, unless it waits. -/
def State.engineStep (s : State) (e : Nat) (r : CopyReq) (put : CopyReq → Engine → Engine) : State :=
  let (s, r, on) := s.copyGo e r
  (s.modEngine e fun q => { put r q with burst := if on && r.bursting then some r.seq else none }).enginePark e r

/-- COPY_REQUEST_START (R207, R214): in admission order, at most four at work. -/
def execEvCopyRequestStart (engine : Nat) (s : State) : Meaning :=
  let q := s.engine engine
  match q.queue with
  | r :: rest =>
    if q.active.length < 4 && q.free r.seq then
      .next (s.engineStep engine r fun r q => { q with queue := rest, active := q.active ++ [r] })
    else .next s
  | [] => .next s

/-- COPY_DONE's words (R217). Of a request that met poison and was stopped later, the status that stopped it is reported; word 7 of a
COMPRESS that was stopped counts the whole directory and the segments of its finished blocks (DESIGN CHOICE, log 80). -/
def CopyReq.doneWords (r : CopyReq) (e : Nat) : List Word :=
  let d := Desc.of r.desc
  let c := (r.stop.orElse fun _ => r.poison).getD ⟨0, 0, 0, 0⟩
  let image := if d.mode = 1 then dirBytes (d.bytes / 256) + 32 * r.segs else 0
  [w32 (0x80 * 2 ^ 24 + 0x100 + e), r.tag, w32 c.status, w32 c.elem, w32 c.addr, w32 (c.addr / 2 ^ 32), w32 c.space,
    if c.status = 1 then 0 else w32 image]

/-- COPY_REQUEST_END (R217): an ended request sends COPY_DONE; another that does not wait for a REPLAY record takes its next step
(log 21). -/
def execEvCopyRequestEnd (engine idx : Nat) (s : State) : Meaning :=
  match (s.engine engine).active[idx]? with
  | none => .next s
  | some r =>
    if r.ended then
      let s := (s.modEngine engine fun q => { q with active := q.active.eraseIdx idx }).endClean engine r
      .next (s.send (nodeEngine engine) r.core r.asid (some r.op) (.msg ⟨r.asid, r.doneWords engine⟩ false true))
    else match r.wait with
      | .replay _ => .next s
      | _ =>
        if (s.engine engine).free r.seq then .next (s.engineStep engine r fun r q => { q with active := q.active.set idx r })
        else .next s

/-- A request that waits on the pool ends with POOL_EXHAUSTED (R215). -/
def CopyReq.poolEnd (r : CopyReq) : CopyReq :=
  match r.wait with
  | .pool _ => match r.asked with | some c => r.stopAt c | none => r
  | _ => r

/-- COPY_POOL_TIMEOUT (R215). -/
def execEvCopyPoolTimeout (engine idx : Nat) (s : State) : Meaning :=
  match (s.engine engine).active[idx]? with
  | some r =>
    match r.wait with
    | .pool since =>
      if 100000 ≤ s.time.toNat - since then
        .next (s.modEngine engine fun q => { q with active := q.active.set idx r.poolEnd })
      else .next s
    | _ => .next s
  | none => .next s

/-! ## Stream ports -/

/-- STREAM_REFILL (R222): the next element is read as a plain load that ignores full/empty bits. -/
def execEvStreamRefill (core slot port : Nat) (s : State) : Meaning :=
  let x := s.slice core slot
  let p := tget {} x.ports port
  let n := p.fetched
  let c := clusterOf core
  let early := p.space == 2 && s.flights.any fun f => f.src == core && decide (f.op.getD 0 < p.op) && match f.pkt with
    | .cluster _ => (f.op.bind s.op?).any fun o => o.members.contains slot
    | _ => false
  if !x.live || !p.bound || 8 ≤ p.buf.length || p.total ≤ n || early then .next s
  else
    let base := if p.space = 2 then clusterBase c else localBase core + (s.localRun x).1
    let key (j : Nat) : Nat := base + (patAddr p.pattern n j).toNat
    let blocks := if p.space = 2 then ((List.range 8).map fun j => (key j - clusterBase c) / 256).eraseDups else []
    match s.touchBlocks c false blocks with
    | none => .next s
    | some s =>
      let e := (List.range 8).map fun j => w32 (mread s.mem (key j) 4)
      let q := { p with fetched := n + 1, buf := p.buf ++ [e] }
      let s := s.modSlice core slot fun x => { x with ports := tset x.ports port q }
      .next (if n = p.popped then s.endBind core slot p else s)

/-- STREAM_BUFFER_RETURN (R224): the buffers of a STUNB return to the pool. -/
def execEvStreamBufferReturn (op : Nat) (s : State) : Meaning :=
  match s.op? op with
  | some o =>
    if o.code == some 4 && o.left == 1 && o.dest == .none && o.osec == 9 then
      .next ((s.modCore o.core fun k => { k with streamUsed := k.streamUsed - o.members.length }).finishOp { o with left := 0 })
    else .next s
  | none => .next s

end Sys2Proof.Machine
end

