-- ==== Sys2Proof/Machine/EvMessage.lean ====
section
/-! DEFINITION. Mailboxes, handler queues and handlers (06 R160-R165). -/

namespace Sys2Proof.Machine

/-- A message has been admitted, discarded or redirected: the copy request that it reports is counted no longer
(08 R217). -/
def State.messageDone (s : State) (f : Flight) : State :=
  match f.op.bind s.op? with
  | some o => s.finishOp { o with left := 0 }
  | none => s

/-- A message whose context holds no group on the core: discarded, or sent to the run-time (R160). -/
def State.strayMessage (s : State) (f : Flight) (m : Msg) (unit : Bool) : State :=
  let s := s.dropFlight f.id
  (if unit then s.post m.words else s).messageDone f

/-- Admits a message to a mailbox: its context's slices that are parked on the mailbox are evaluated again (R163). -/
def State.admitMail (s : State) (f : Flight) (m : Msg) : State :=
  let s := (s.dropFlight f.id).modCore f.dst fun k => { k with mailbox := k.mailbox ++ [m] }
  ({ s with slices := s.slices.map fun (k, x) => (k, match x.park with
      | some (.mailbox c _) => if c == f.dst && x.asid == m.asid then { x with woken := true } else x
      | _ => x) } : State).messageDone f

def State.admitHandler (s : State) (f : Flight) (m : Msg) : State :=
  ((s.dropFlight f.id).modCore f.dst fun k => { k with handlerQ := k.handlerQ ++ [m] }).messageDone f

/-- A message arrives: admitted, or refused and listed (R160, R164). -/
def State.arriveMessage (s : State) (f : Flight) (m : Msg) (handler unit : Bool) : State :=
  let k := s.core f.dst
  let list := if handler then k.handlerRefused else k.mailRefused
  let room := if handler then decide (k.handlerQ.length < 16) else decide (k.mailbox.length < 64)
  if list.contains f.id then s
  else if !s.holds m.asid f.dst then s.strayMessage f m unit
  else if list.isEmpty && room then (if handler then s.admitHandler f m else s.admitMail f m)
  else s.modCore f.dst fun k => if handler then { k with handlerRefused := k.handlerRefused ++ [f.id] }
    else { k with mailRefused := k.mailRefused ++ [f.id] }

/-- The first message of its pair, by kind (06 R154, R162). -/
def State.onMessage (s : State) (flight : Nat) (handler : Bool) (g : Flight → Msg → Bool → State) : Meaning :=
  match s.flight? flight with
  | some f =>
    match f.pkt with
    | .msg m h unit => .next (if h == handler && s.first f then g f m unit else s)
    | _ => .next s
  | none => .next s

/-- MESSAGE_ARRIVAL (R160). -/
def execEvMessageArrival (flight : Nat) (s : State) : Meaning :=
  s.onMessage flight false fun f m unit => s.arriveMessage f m false unit
/-- HANDLER_QUEUE_ARRIVAL (R164). -/
def execEvHandlerQueueArrival (flight : Nat) (s : State) : Meaning :=
  s.onMessage flight true fun f m unit => s.arriveMessage f m true unit

/-- MESSAGE_RETRY (R160): a free entry is held for the oldest refused message. -/
def execEvMessageRetry (flight : Nat) (s : State) : Meaning :=
  match s.flight? flight with
  | none => .next s
  | some f =>
    match f.pkt with
    | .msg m h unit =>
      let k := s.core f.dst
      let list := if h then k.handlerRefused else k.mailRefused
      let room := if h then decide (k.handlerQ.length < 16) else decide (k.mailbox.length < 64)
      let unlist (s : State) : State := s.modCore f.dst fun k =>
        { k with mailRefused := k.mailRefused.filter (· != flight), handlerRefused := k.handlerRefused.filter (· != flight) }
      if !list.contains flight then .next s
      else if !s.holds m.asid f.dst then .next ((unlist s).strayMessage f m unit)
      else if list.head? == some flight && room then .next (if h then (unlist s).admitHandler f m else (unlist s).admitMail f m)
      else .next s
    | _ => .next s

/-! ## Handlers -/

/-- A path table with one RUN entry (04 R81). -/
def startPaths (mask : Pred) (pc : Addr) : List Path := { state := .run, mask := mask, pc := pc } :: List.replicate 7 {}

/-- Entry PC of a message kind in a context's handler table, and where it lies (R164, 15 Table 15-1; log 28). -/
def State.handlerAt (s : State) (asid kind : Nat) : Nat := s.ctxField asid 24 8 % 2 ^ 52 + 8 * (kind % 16)
def State.handlerEntry (s : State) (asid kind : Nat) : Nat := mread s.mem (s.handlerAt asid kind) 8 % 2 ^ 52
/-- The entry is read: the state that the read leaves (07 R195, R201). -/
def State.reachHandler (s : State) (asid kind : Nat) : State :=
  let s := s.reachCtx asid
  s.comeTo asid (s.handlerAt asid kind) 8

/-- The state of a fresh handler (R164). -/
def handlerSlice (m : Msg) (entry cycle : Nat) : Slice :=
  let x : Slice := { phase := .live, asid := m.asid, handler := true, startCycle := cycle,
                     paths := startPaths 0xFF (instrAddr (BitVec.ofNat 52 entry)) }
  (List.range 8).foldl (fun x l => x.setV 0 l (m.words.getD l 0)) x

/-- The lowest free handler slot of a core. -/
def State.freeHandler (s : State) (core : Nat) : Option Nat :=
  ((List.range 8).map (120 + ·)).find? fun t => (s.slice core t).phase == .empty

/-- The oldest message starts a handler in the lowest free slot; one whose entry is unset is discarded with a record (R164). -/
def State.startHandler (s : State) (core : Nat) : State :=
  match (s.core core).handlerQ with
  | [] => s
  | m :: rest =>
    let kind := bits (m.words.getD 0 0) 24 4
    let s := s.reachHandler m.asid kind
    let entry := s.handlerEntry m.asid kind
    let pop (s : State) : State := s.modCore core fun k => { k with handlerQ := rest }
    if entry = 0 then
      (pop s).post ([evWord 0x96 0 m.asid, w32 (1 + core * 2 ^ 8 + kind * 2 ^ 16), 1] ++ m.words.take 5)
    else match s.freeHandler core with
      | none => s
      | some t => ((pop s).setSlice core t (handlerSlice m entry s.cycle.toNat)).acquireNow core 4

/-- HANDLER_RUN_LIMIT (R165). -/
def execEvHandlerRunLimit (core slot : Nat) (s : State) : Meaning :=
  .next (if s.runLimitDue core slot && !(s.slice core slot).halted then s.takeRunLimit core slot else s)

end Sys2Proof.Machine
end

