-- ==== Sys2Proof/Machine/LaunchQ.lean ====
section
/-! DEFINITION. Device-side enqueue (11 R285-R287) and the repack unit's entry and exit, CALLQ and RETQ (11 R288-R292). -/

namespace Sys2Proof.Machine

/-! ## LQ -/

/-- Words of a launch record in LOCAL memory. -/
def State.recordWords (s : State) (key n : Nat) : List Word := (List.range n).map fun i => w32 (mread s.mem (key + 4 * i) 4)

/-- Checks of one member of LQPSH (R286): its fault, or where its record lies. -/
def State.lqCheck (s : State) (slot q r : Nat) : Except (Nat × Nat) Nat :=
  let core := s.issuer.core
  let x := s.slice core slot
  let c := s.queue q
  if 127 < q then .error (0x05, q)
  else if !c.enable || c.asid != some x.asid || !c.devq then .error (0x07, q)
  else if r % 16 ≠ 0 then .error (0x04, r)
  else
    let (base, len) := s.localRun x
    if len < r + 64 then .error (0x05, r)
    else if x.handler && !s.ownsSpan core x.asid r 64 then .error (0x07, r)
    else .ok (localBase core + base + r)

def execLqpsh (g : BitVec 4) (d qs rs : BitVec 6) (rel : BitVec 1) (s : State) : Meaning :=
  gangwise { len := 8, mem := true, ok := sOk d && sOk qs && sOk rs, srcs := [(1, qs.toNat), (1, rs.toNat)] } s fun s =>
    let core := s.issuer.core
    let ts := s.taking g
    let chk (t : Nat) : Except (Nat × Nat) Nat :=
      let x := s.slice core t
      s.lqCheck t (x.sr qs.toNat).toNat (x.sr rs.toNat).toNat
    match ts.filterMap fun t => match chk t with | .error e => some (t, e) | .ok _ => none with
    | (t, e) :: rest => s.faultOf g (t :: rest.map (·.1)) e.1 e.2
    | [] => do
      s.watchSpans g (ts.map fun t => (t, ((s.slice core t).sr rs.toNat).toNat, 64))
      if rel == 1 then s.releaseGang g 4
      pure (ts.foldl (fun s t => match chk t with
        | .ok key =>
          let o := s.unitOp t d.toNat 1
          let q := ((s.slice core t).sr qs.toNat).toNat
          (s.openOp o).send core nodeLaunch o.asid (some o.id) (.launch q (s.recordWords key 16) (some (t, d.toNat)))
        | .error _ => s) s)

def execLqstat (g : BitVec 4) (d qs : BitVec 6) (s : State) : Meaning :=
  gangwise { len := 8, mem := true, ok := sOk d && sOk qs, srcs := [(1, qs.toNat)] } s fun s =>
    let core := s.issuer.core
    let ts := s.taking g
    let q (t : Nat) : Nat := ((s.slice core t).sr qs.toNat).toNat
    match ts.filter fun t => decide (127 < q t) with
    | t :: rest => s.faultOf g (t :: rest) 0x05 (q t)
    | [] => .ok (ts.foldl (fun s t =>
        let o := s.unitOp t d.toNat 1
        (s.openOp o).send core nodeLaunch o.asid (some o.id) (.lqstat (q t) t d.toNat)) s)

/-! ## The repack unit's queues -/

/-- An entry of a context's repack target table (15 Table 15-1; log 28). -/
structure Target where
  entry : Nat
  param : Nat
  width : Nat
  level : Nat
  timeout : Nat
deriving DecidableEq, Repr

/-- Where an entry of the target table lies. -/
def State.targetAt (s : State) (asid t : Nat) : Nat := s.ctxField asid 32 8 % 2 ^ 52 + 32 * t
/-- The repack unit reads an entry: the state that the read leaves (07 R195, R201). -/
def State.reachTarget (s : State) (asid t : Nat) : State :=
  let s := s.reachCtx asid
  s.comeTo asid (s.targetAt asid t) 32
def State.target (s : State) (asid t : Nat) : Target :=
  let a := s.targetAt asid t
  let w := mread s.mem (a + 16) 4
  ⟨mread s.mem a 8 % 2 ^ 52, mread s.mem (a + 8) 8, w % 4, w / 2 ^ 8 % 64, w / 2 ^ 16⟩

/-- The queue keyed by a context and target, or the lowest without a key. -/
def Core.repackFor (k : Core) (asid t : Nat) : Option Nat :=
  match (List.range 32).find? fun q => (tget {} k.repack q).key == some (asid, t) with
  | some q => some q
  | none => (List.range 32).find? fun q => (tget {} k.repack q).key.isNone

/-- Appends a lane record, which keys an unkeyed queue (R289); nothing when there is no room. -/
def Core.repackPush (k : Core) (asid t : Nat) (ws : List Word) (cycle : Nat) : Option Core :=
  (k.repackFor asid t).bind fun q =>
    let r := tget {} k.repack q
    if r.records.length < 256 then
      some { k with repack := tset k.repack q { r with key := some (asid, t), records := r.records ++ [(ws, cycle)] } }
    else none

/-- Appends lane records in order, or none of them (R289). -/
def Core.repackAll (k : Core) (asid cycle : Nat) (rs : List (Nat × List Word)) : Option Core :=
  rs.foldlM (fun k r => k.repackPush asid r.1 r.2 cycle) k

/-- The DISCARD record of the lane records whose target is unset (R288, 15 Table 15-5). -/
def State.discardLanes (s : State) (core asid : Nat) (rs : List (Nat × List Word)) : State :=
  match rs with
  | [] => s
  | (t, ws) :: _ => s.post ([evWord 0x96 0 asid, w32 (2 + core * 2 ^ 8 + t * 2 ^ 16), w32 rs.length] ++ ws.take 5)

/-- CALLQ (R289). -/
def execCallq (g : BitVec 4) (a b : BitVec 6) (x : BitVec 1) (s : State) : Meaning :=
  gangwise { mem := true, adv := false, ok := alignOk a 8 && vbOk b x, srcs := group 0 a.toNat 8 ++ bSrc b x } s fun s => do
    let core := s.issuer.core
    let asid := (s.slice core (s.issuer.slots.headD 0)).asid
    let (s, bs) ← s.gangOperandB g b x
    let ls := s.gangLanes g
    let tgt (p : Nat × Nat) : Nat := (((bs.lookup p.1).map fun (f : Nat → Word) => f p.2).getD 0).toNat
    match ls.filter fun p => decide (31 < tgt p) with
    | p :: ps => .error (.fault { code := 0x05, addr := tgt p, lanes := laneMasks (p :: ps) })
    | [] =>
      let rs := ls.map fun p => (tgt p, (List.range 8).map fun i => (s.slice core p.1).vr (a.toNat + i) p.2)
      let s := ((rs.map (·.1)).eraseDups).foldl (fun s t => s.reachTarget asid t) s
      let unset (r : Nat × List Word) : Bool := (s.target asid r.1).entry == 0
      match (s.core core).repackAll asid s.cycle.toNat (rs.filter fun r => !unset r) with
      | none => .error .stall
      | some k => do
        s.releaseGang g 4
        let s := (s.modCore core fun _ => k).discardLanes core asid (rs.filter unset)
        pure (s.issuer.slots.foldl (fun s t => s.exitMember core t ((s.slice core t).active g)) s)

/-- RETQ (R292): EXIT in a slice that the repack unit started. -/
def execRetq (g : BitVec 4) (s : State) : Meaning :=
  gangwise { adv := false } s fun s =>
    let core := s.issuer.core
    if (s.taking g).any fun t => !(s.slice core t).repacked then s.faultAll g 0x01
    else .ok (s.issuer.slots.foldl (fun s t => s.exitMember core t ((s.slice core t).active g)) s)

end Sys2Proof.Machine
end

