-- ==== Sys2Proof/Machine/Launch.lean ====
section
/-! DEFINITION. The launch controller: records and their checks, completion, and the placement of groups (11 R270-R282, 04
R76, 05 R116, R119, 06 R145, 10 R249, R255, 12 R300). -/

namespace Sys2Proof.Machine

/-! ## Launch records (Table 11-1) -/

def recW (ws : List Word) (i : Nat) : Word := ws.getD i 0
def recPair (ws : List Word) (i : Nat) : Nat := (recW ws i).toNat + 2 ^ 32 * (recW ws (i + 1)).toNat
def recEntry (ws : List Word) : Nat := recPair ws 0
def recTeams (ws : List Word) : Nat := (recW ws 2).toNat
def recTeamSize (ws : List Word) : Nat := bits (recW ws 3) 0 5
def recWarps (ws : List Word) : Nat := bits (recW ws 3) 8 4
/-- Warp width in slices. -/
def recWidth (ws : List Word) : Nat := 2 ^ bits (recW ws 3) 12 2
def recClass (ws : List Word) : Nat := bits (recW ws 3) 14 2
def recTiles (ws : List Word) : Nat := bits (recW ws 3) 16 5
def recQueues (ws : List Word) : Nat := bits (recW ws 3) 24 4
def recLocal (ws : List Word) : Nat := bits (recW ws 4) 0 18
def recBarriers (ws : List Word) : Nat := bits (recW ws 5) 0 9
def recPrio (ws : List Word) : Nat := bits (recW ws 5) 16 8
def recParam (ws : List Word) : Nat := recPair ws 6
def recDep (ws : List Word) : Nat := recPair ws 8
def recDone (ws : List Word) : Nat := recPair ws 12
def recNotify (ws : List Word) : Bool := (recW ws 14).getLsbD 8

/-- A page for the controller's atomic additions; a SYSTEM page takes no AOR (15 R404). -/
def State.doneKey (s : State) (asid a : Nat) : Except XFail Nat :=
  match s.translateUnit asid a .atomic with
  | .ok k => if hostBase ≤ k then .error (.fail 0x07 3 3) else .ok k
  | e => e
def okKey : Except XFail Nat → Bool
  | .ok _ => true
  | .error _ => false

/-- DONEADDR makes the record malformed (R274). -/
def State.doneBad (s : State) (asid : Nat) (ws : List Word) : Bool :=
  let a := recDone ws
  a != 0 && (decide (2 ^ 52 ≤ a) || a % 8 != 0 || !okKey (s.doneKey asid a))

/-- A malformed record (R274). -/
def State.recBad (s : State) (asid : Nat) (ws : List Word) : Bool :=
  decide (2 ^ 52 ≤ recEntry ws) || recEntry ws % 4 != 0 || recTeams ws == 0 || decide (2 ^ 24 < recTeams ws) ||
  recTeamSize ws == 0 || decide (16 < recTeamSize ws) || recWarps ws == 0 || decide (16 < recTiles ws) ||
  decide (8 < recQueues ws) || decide (localSize < recLocal ws) || recLocal ws % 4 != 0 || decide (256 < recBarriers ws) ||
  bits (recW ws 3) 5 3 != 0 || bits (recW ws 3) 21 3 != 0 || bits (recW ws 3) 28 4 != 0 || bits (recW ws 4) 18 14 != 0 ||
  bits (recW ws 5) 9 7 != 0 || bits (recW ws 5) 24 8 != 0 || decide (2 ^ 52 ≤ recParam ws) ||
  decide (2 ^ 52 ≤ recDep ws) || recDep ws % 8 != 0 || bits (recW ws 14) 9 23 != 0 || recW ws 15 != 0 ||
  s.doneBad asid ws || !okKey (s.translateUnit asid (recEntry ws) .fetch) ||
  (recDep ws != 0 && !okKey (s.translateUnit asid (recDep ws) .load))

/-! ## Completion (R282) -/

/-- Status codes of Table 11-4. -/
def stDone : Nat := 0
def stShed : Nat := 1
def stKilled : Nat := 2
def stMalformed : Nat := 3

/-- The event words of a completion, or the code of the failure that replaces them. A DONEADDR that no head check has seen is
taken as it stands, its low 52 bits; to a peer without a path the additions are discarded, and fail as poison does (DESIGN CHOICE, log
73). -/
def State.eventWords (s : State) (asid a flag : Nat) : State × Option Nat :=
  let s := s.walkNow asid a
  match s.doneKey asid a with
  | .error (.fail code _ _) => (s, some code)
  | .ok k =>
    let s := (s.reachHome k 8).findErrors asid [k / 64]
    if s.peerGone k then (s.losePeer (k / 2 ^ 52 - 1), some 0x08)
    else if s.poisonedAt (k / 64) then (s, some 0x08)
    else
      let s := s.write (k + 4) 4 ((mread s.mem (k + 4) 4).lor flag)
      (s.write k 4 ((mread s.mem k 4 + 1) % 2 ^ 32), none)

/-- Reads the dependency of a queue's head, as an acquire at SYSTEM scope: it is met once the word has reached DEPVAL (R276). A head
whose word has come to read as poisoned, or translates no longer, waits on (DESIGN CHOICE, log 73). -/
def State.pollDep (s : State) (q : Nat) : State :=
  let c := s.queue q
  match c.records, c.asid with
  | r :: rest, some asid =>
    if !r.checked || r.depOk || recDep r.words == 0 then s
    else match s.translateNow asid (recDep r.words) .load with
      | (s, .error _) => s
      | (s, .ok k) =>
        if s.unitWaits k then s else
        let s := (s.reachHome k 4).findErrors asid [k / 64]
        if s.poisonedAt (k / 64) || decide (mread s.mem k 4 < (recW r.words 10).toNat) then s
        else s.modQueue q fun c =>
          { c with records := { r with depOk := true } :: rest, since := if c.enable then some s.cycle.toNat else none,
                   aged := s.cycle.toNat }
  | _, _ => s
/-- Reads the dependencies of all heads. -/
def State.pollDeps (s : State) : State := (s.queues.map (·.1)).foldl State.pollDep s

/-- The walks of a head check (R274). -/
def State.recWalks (s : State) (asid : Nat) (ws : List Word) : State :=
  (recEntry ws :: ([recDep ws, recDone ws].filter (· != 0))).foldl (fun s a => s.walkNow asid a) s

/-- Completes a record of a queue: event words, after which dependencies are read again (R276), or EVENTFAIL; LAUNCH_DONE; and the
queue's interrupt, after the words or the record that it reports (R282, 18 R437). -/
def State.completeNow (s : State) (q asid : Nat) (ws : List Word) (status grid : Nat) : State :=
  let a := recDone ws
  let notify (s : State) : State :=
    if recNotify ws then
      s.unitMsg nodeLaunch (bits (recW ws 14) 0 8) asid 0x88 0x01A2 (recW ws 11)
        [w32 status, w32 grid, w32 q, w32 (recPrio ws), 0, 0]
    else s
  if a == 0 || (status == stMalformed && s.doneBad asid ws) then (notify s).raise (2 + q)
  else match s.eventWords asid a (if status = 0 then 0 else 2 ^ (status - 1)) with
    | (s, none) => (notify s.pollDeps).raise (2 + q)
    | (s, some code) =>
      notify (s.postThen [evWord 0x97 code asid, w32 q, recW ws 11, w32 a, w32 (a / 2 ^ 32), w32 status, 0, 0] [2 + q])

/-- Completes a record, unless its event words stand at a peer whose port holds requests, or an earlier completion of the queue waits
so: it waits for that (18 R440-R441). -/
def State.completeRec (s : State) (q asid : Nat) (ws : List Word) (status grid : Nat) : State :=
  let a := recDone ws
  let held := match s.doneKey asid a with | .ok k => s.unitWaits k | .error _ => false
  if a != 0 && (held || s.doneWaits.any (·.queue == q)) then
    { s with doneWaits := s.doneWaits ++ [⟨q, asid, ws, status, grid⟩] }
  else s.completeNow q asid ws status grid
/-- Completions that wait are tried again, in their order. -/
def State.retryDone (s : State) : State :=
  s.doneWaits.foldl (fun s d => s.completeRec d.queue d.asid d.words d.status d.grid) { s with doneWaits := [] }

/-! ## The head of a queue -/

/-- The team that a queue drained a cluster for is placed, or is its head no longer (R280; log 62). -/
def State.endDrain (s : State) (q : Nat) : State :=
  { s with clusters := s.clusters.map fun (i, k) => (i, { k with drain := if k.drain.any (·.1 == q) then none else k.drain }) }

/-- The effective level of a queue (R277): one more for every 2^20 cycles for which its head has stayed eligible and unplaced. -/
def State.effLevel (s : State) (q : Nat) : Nat :=
  let c := s.queue q
  if c.since.isSome then min 63 (c.eff + (s.cycle.toNat - c.aged) / 2 ^ 20) else c.eff

/-- HEAD_CHECK: malformed heads complete at once (R274); then the head's eligibility and aging are brought up to date. A new head
waits from now on, and a drain for the old one ends (R280). -/
def State.checkHead (q : Nat) : Nat → State → State
  | 0, s => s
  | fuel + 1, s =>
    let c := s.queue q
    match c.records with
    | [] => (s.endDrain q).modQueue q fun c => { c with since := none, eff := s.effLevel q }
    | r :: rest =>
      let asid := c.asid.getD 0
      let s := if r.checked then s else s.recWalks asid r.words
      if !r.checked && s.recBad asid r.words then
        State.checkHead q fuel ((s.modQueue q fun c => { c with records := rest }).completeRec q asid r.words stMalformed 0)
      else
        let now := s.cycle.toNat
        let eligible := c.enable && (recDep r.words == 0 || r.depOk)
        let stays := eligible && r.checked && c.since.isSome
        (if stays then s else s.endDrain q).modQueue q fun c =>
          { c with records := { r with checked := true } :: rest,
                   since := if stays then c.since else if eligible then some now else none,
                   aged := if stays then c.aged else now, eff := if stays then c.eff else s.effLevel q }

def State.refreshHead (s : State) (q : Nat) : State := State.checkHead q ((s.queue q).records.length + 1) s

/-- A record of a queue completes without any team placed. -/
def State.dropRec (s : State) (q : Nat) (r : LRec) (status : Nat) : State :=
  s.completeRec q ((s.queue q).asid.getD 0) r.words status 0

/-- FLUSH (R271): unplaced records complete as KILLED in order; a head partly placed leaves its grid to end. -/
def State.flushQueue (s : State) (q : Nat) : State :=
  let rs := (s.queue q).records
  let s := (s.endDrain q).modQueue q fun c => { c with records := [], since := none, eff := s.effLevel q }
  rs.foldl (fun s r =>
    match r.grid with
    | some g =>
      match s.grids.lookup g with
      | some x =>
        let left := x.groupsLeft - (recTeams r.words - r.next) * recTeamSize r.words
        let x := { x with groupsLeft := left, allPlaced := true, killed := true }
        { s with grids := tset s.grids g x }
      | none => s
    | none => s.dropRec q r stKilled) s

/-! ## Resources of a core -/

/-- Slots of the block (p, d0) of `g` slices. -/
def blockSlots (p d0 g : Nat) : List Nat := (List.range g).map fun i => 8 * p + d0 + i
/-- First free block of `g` slots, in the order of R76. -/
def State.freeBlock (s : State) (core g : Nat) (taken : List Nat) : Option (List Nat) :=
  ((List.range 15).flatMap fun p => (List.range (8 / g)).map fun b => blockSlots p (g * b) g).find? fun l =>
    l.all fun t => (s.slice core t).phase == .empty && !taken.contains t
/-- Slots for some warps. -/
def State.freeWarps (s : State) (core g : Nat) (held : List Nat) : Nat → List (List Nat) → Option (List (List Nat))
  | 0, got => some got
  | n + 1, got =>
    match s.freeBlock core g (held ++ got.flatten) with
    | some l => State.freeWarps s core g held n (got ++ [l])
    | none => none

/-- LOCAL runs in use on a core. -/
def State.runsOf (s : State) (core : Nat) : List (Nat × Nat) :=
  s.groups.filterMap fun (_, g) => if g.core == core && !g.retired && g.localLen != 0 then some (g.localBase, g.localLen) else none
/-- Lowest free run of `n` bytes in granules of 1 KiB (06 R145). -/
def State.freeRun (s : State) (core n : Nat) : Option Nat :=
  let len := (n + 1023) / 1024 * 1024
  if len = 0 then some 0
  else ((List.range 192).map (1024 * ·)).find? fun b =>
    decide (b + len ≤ localSize) && (s.runsOf core).all fun r => decide (b + len ≤ r.1) || decide (r.1 + r.2 ≤ b)

/-- The lowest `n` free numbers below `cap` of a table. -/
def freeNumbers {β : Type} (t : Tab β) (used : β → Bool) (cap n : Nat) : Option (List Nat) :=
  let l := ((List.range cap).filter fun i => !t.any fun p => p.1 == i && used p.2).take n
  if l.length = n then some l else none

/-- What a group takes on a core. -/
structure Allot where
  warps : List (List Nat)
  base : Nat
  barriers : List Nat
  queues : List Nat
  tiles : List Nat
deriving DecidableEq, Repr

/-- Where the entry of a core's save block lies, and the entry, whose bit 0 says that the block is valid (15 R413). -/
def State.saveEntryAt (s : State) (asid core : Nat) : Nat := s.ctxField asid 40 8 % 2 ^ 52 + 8 * core
def State.saveEntry (s : State) (asid core : Nat) : Nat := mread s.mem (s.saveEntryAt asid core) 8
/-- The controller reads the entry: the state that the read leaves (07 R195, R201). -/
def State.reachSave (s : State) (asid core : Nat) : State :=
  let s := s.reachCtx asid
  s.comeTo asid (s.saveEntryAt asid core) 8

/-- Saved groups of a context on a core, whose places in its save block no other group of the context takes (15 R413). -/
def State.savedOn (s : State) (asid core : Nat) : List Group :=
  (s.groups.filter fun g => g.2.saved && g.2.asid == asid && g.2.core == core).map (·.2)

/-- Address of a context's save block for a core, and a word of memory (15 R413). -/
def State.saveBlock (s : State) (asid core : Nat) : Nat := bits (w32 (s.saveEntry asid core / 2 ^ 20)) 0 32 * 2 ^ 20
def State.getWord (s : State) (key i : Nat) : Word := w32 (mread s.mem (key + 4 * i) 4)

/-- The saved group that carries the core state of a context. -/
def State.coreKeeper (s : State) (asid core : Nat) : Option (Nat × Group) :=
  s.groups.find? fun g => g.2.saved && g.2.savedCore && g.2.asid == asid && g.2.core == core

/-- Saved handlers of a context on a core. -/
def Group.savedHandlers (g : Group) : Tab Slice := g.savedSlices.filter fun x => decide (120 ≤ x.1)

/-- A saved repack queue: target and count of the map word `j` (Table 15-11). -/
def State.savedRepack (s : State) (blk j : Nat) : Nat × Nat :=
  let m := s.getWord (blk + 0xC4000) j
  (bits m 0 5, bits m 5 9)

/-- The controller reads what a core's save block says of its core state: the state that the read leaves (07 R195, R201). -/
def State.reachCore (s : State) (asid core : Nat) : State :=
  let s := s.reachSave asid core
  if (s.coreKeeper asid core).isNone then s
  else
    let blk := s.saveBlock asid core
    let s := s.comeTo asid (blk + 0x83000) 16
    s.comeTo asid (blk + 0xC4000) (4 * min 32 (s.getWord (blk + 0x83000) 3).toNat)

/-- The core has room for the core state that the context has saved there, which comes back with its next group there (11 R293-R294,
15 R412; log 63). -/
def State.coreFits (s : State) (asid core : Nat) : Bool :=
  match s.coreKeeper asid core with
  | none => true
  | some h =>
    let k := s.core core
    let blk := s.saveBlock asid core
    let n (i : Nat) : Nat := (s.getWord (blk + 0x83000) i).toNat
    let old (t : Nat) : Option RepackQ := (k.repack.find? fun q => q.2.key == some (asid, t)).map (·.2)
    let rps := (List.range (n 3)).map (s.savedRepack blk)
    h.2.savedHandlers.all (fun x => (s.slice core x.1).phase == .empty) &&
    decide (k.mailbox.length + n 0 ≤ 64) && decide (k.handlerQ.length + n 1 ≤ 16) &&
    rps.all (fun r => match old r.1 with | some q => decide (q.records.length + r.2 ≤ 256) | none => true) &&
    decide ((k.repack.filter fun q => q.2.key.isSome).length + (rps.filter fun r => (old r.1).isNone).length ≤ 32)

/-- The resources of R279 for a group of a record on a core. -/
def State.allot (s : State) (asid core : Nat) (ws : List Word) : Option Allot := do
  let k := s.core core
  let gs := s.savedOn asid core
  let warps ← s.freeWarps core (recWidth ws) (gs.flatMap fun g => g.savedSlices.map (·.1)) (recWarps ws) []
  let base ← s.freeRun core (recLocal ws)
  let barriers ← freeNumbers k.barriers (·.used) 256 (recBarriers ws)
  let queues ← freeNumbers (k.queues ++ gs.flatMap (·.savedQueues)) (·.used) 32 (recQueues ws)
  let tiles ← freeNumbers (k.tiles ++ gs.flatMap (·.savedTiles)) (·.used) 16 (recTiles ws)
  if s.saveEntry asid core % 2 == 1 && s.coreFits asid core then some { warps, base, barriers, queues, tiles } else none

/-- A slice at launch (05 R116). -/
def freshSlice (asid group warp ix width param entry cycle : Nat) (mask : Pred) : Slice :=
  ((({ phase := .live, asid, group, warp, ix, width, startCycle := cycle,
       paths := startPaths mask (instrAddr (BitVec.ofNat 52 entry)) } : Slice).setS 0 (w32 param)).setS 1 (w32 (param / 2 ^ 32)))

/-- Numbers a list from 0. -/
def indexed {α : Type} (l : List α) : List (Nat × α) := (List.range l.length).zip l

/-- Starts a group on a core with what it was allotted (R279). -/
def State.startGroup (s : State) (key core : Nat) (g : Group) (a : Allot) (ws : List Word) (width : Nat)
    (mask : Nat → Nat → Pred) : State :=
  let slices := g.slots.length
  let s := { s with groups := tset s.groups key g }
  let s := s.modCore core fun k =>
    { k with
      barriers := (indexed a.barriers).foldl (fun t p => tset t p.2
        { owner := key, name := p.1, used := true, expect := slices }) k.barriers,
      queues := (indexed a.queues).foldl (fun t p => tset t p.2 { used := true, owner := key, name := p.1 }) k.queues,
      tiles := (indexed a.tiles).foldl (fun t p => tset t p.2 { used := true, owner := key, name := p.1 }) k.tiles }
  let s := { s with mem := mclear s.mem (localBase core + g.localBase) g.localLen }
  let s := s.setFe ((localBase core + g.localBase) / 4) (g.localLen / 4) false
  (indexed a.warps).foldl (fun s w => (indexed w.2).foldl (fun s t =>
    if mask w.1 t.1 = 0 then s
    else s.setSlice core t.2 (freshSlice g.asid key w.1 t.1 width (recParam ws) (recEntry ws) s.cycle.toNat (mask w.1 t.1))) s) s

/-! ## Residency -/

/-- The first group of a context is placed or resumed: its limits come into force (15 R397), and the cycles of its absence
do not count for its sections (10 R265). -/
def State.enterCtx (s : State) (asid : Nat) : State :=
  if s.residentCtx asid then s
  else
    let s := s.reachCtx asid
    let away := s.cycle.toNat - (s.ctx asid).left
    let s := s.modCtx asid fun c => { c with hanglim := s.ctxField asid 48 4, sectlim := s.ctxField asid 52 4, hang := 0 }
    { s with sections := s.sections.map fun (k, e) =>
        (k, match e.holder with
          | some h => if h.asid == asid && decide (h.cycle ≤ s.cycle.toNat - away) then
              { e with holder := some { h with cycle := h.cycle + away } } else e
          | none => e) }

/-! ## Teams -/

/-- A cluster has `n` cores that fit, and team barriers for a team of two or more (R279). -/
def State.clusterFits (s : State) (asid c eff q : Nat) (ws : List Word) : Bool :=
  let n := recTeamSize ws
  (match (s.cluster c).drain with | some (d, l) => d == q || decide (l < eff) | none => true) &&
  (n < 2 || (freeNumbers (s.cluster c).barriers (·.used) 64 4).isSome) &&
  decide (n ≤ (((List.range 16).filter fun i => (s.allot asid (16 * c + i) ws).isSome).length))

/-- The head of a queue is eligible and fits somewhere. -/
def State.headFits (s : State) (q : Nat) : Bool :=
  let c := s.queue q
  match c.since, c.records, c.asid with
  | some _, r :: _, some asid =>
    s.ctxValid asid && (List.range 16).any fun k => s.clusterFits asid k (s.effLevel q) q r.words
  | _, _, _ => false

/-- The controller reads what a choice rests on, of every head's context and every saved group, each at its cores: the state that the
reads leave (07 R195, R201). -/
def State.reachHeads (s : State) : State :=
  if s.units.isEmpty && s.bad.isEmpty then s
  else
    let s := s.queues.foldl (fun s q => match q.2.since, q.2.asid with
      | some _, some asid => (List.range 256).foldl (fun s c => s.reachCore asid c) s
      | _, _ => s) s
    s.groups.foldl (fun s g => if g.2.saved then s.reachCore g.2.asid g.2.core else s) s

/-- Queue `a` comes before queue `b` in the choice of R277. -/
def State.before (s : State) (a b : Nat) : Bool :=
  let ea := s.effLevel a
  let eb := s.effLevel b
  let last := tget 127 s.lastQueue ea
  decide (eb < ea) || (ea == eb && decide ((a + 127 - last) % 128 < (b + 127 - last) % 128))

/-- The queue that the controller would place from now (R277), with the ones that do not fit passed over. -/
def State.chosenQueue (s : State) : Option Nat :=
  (s.queues.map (·.1)).foldl (fun b q =>
    if !s.headFits q then b
    else match b with | none => some q | some p => if s.before q p then some q else some p) none

end Sys2Proof.Machine
end

