-- ==== Sys2Proof/Machine/Osec.lean ====
section
/-! DEFINITION. Ordered sections (10 R256-R264): the OSEC forms at the core, their requests at the table slices, and the
answers. -/

namespace Sys2Proof.Machine

/-- Home slice of a key (R256). -/
def osecHome (k : Nat) : Nat := (List.range 8).foldl (fun h i => h.xor (k / 16 ^ i % 16)) 0
/-- Set of a key (R256). -/
def osecSet (k : Nat) : Nat :=
  (((k / 2 ^ 4 % 256).xor (k / 2 ^ 12 % 256)).xor (k / 2 ^ 20 % 256)).xor (k / 2 ^ 28 % 16)

def State.osecEntry (s : State) (domain key : Nat) : Option Section :=
  (s.sections.lookup (sectionKey domain key)).bind fun e => if e.used then some e else none
/-- Changes an entry; parked requests on it are evaluated again. -/
def State.setSection (s : State) (domain key : Nat) (e : Section) : State :=
  ({ s with sections := tset s.sections (sectionKey domain key) e }).wakeSection domain key
/-- A key's set has a free way (R256-R257). -/
def State.osecRoom (s : State) (key : Nat) : Bool :=
  decide ((s.sections.filter fun (k, e) => e.used && osecHome (k % 2 ^ 32) == osecHome key &&
    osecSet (k % 2 ^ 32) == osecSet key).length < 8)

/-! ## At the core -/

/-- Codes of B that an OSEC form rejects (R258): Qn and Nn. -/
def osecB (b : BitVec 6) (x : BitVec 1) : Bool := vbOk b x && (x == 0 || decide (b.toNat < 32) || decide (48 ≤ b.toNat))

/-- Active lanes of the gang with their key and their B value, by LANE. -/
def State.osecLanes (s : State) (g : BitVec 4) (a b : BitVec 6) (x : BitVec 1) : List ((Nat × Nat) × Nat × Word) :=
  let core := s.issuer.core
  (s.gangLanes g).map fun p =>
    let v := match s.operandB core p.1 g b x with | .ok (_, f) => f p.2 | .error _ => 0
    (p, (s.vlane a.toNat p).toNat, v)

/-- Sends one request per distinct key, in order of the lowest LANE naming it (R259). -/
def State.osecSend (s : State) (form : Nat) (ls : List ((Nat × Nat) × Nat × Word)) (op : Option Nat) : State :=
  let core := s.issuer.core
  let asid := (s.slice core (s.issuer.slots.headD 0)).asid
  ((ls.map fun x => x.2.1).eraseDups).foldl (fun s k =>
    let lanes := (ls.filter fun x => x.2.1 == k).map fun x => (x.1.1, x.1.2, x.2.2)
    s.send core (nodeOsec (osecHome k)) asid op (.osec form k lanes)) s

/-- The operation of an OSEC form that waits for its answers. -/
def State.osecOp (s : State) (form : Nat) (ls : List ((Nat × Nat) × Nat × Word)) (osec d : Nat) (dest : Dest) : State :=
  let core := s.issuer.core
  let keys := (ls.map fun x => x.2.1).eraseDups
  let id := s.nextId
  let o : Op := { id, core, asid := (s.slice core (s.issuer.slots.headD 0)).asid, pc := s.issuer.pc,
                  members := s.issuer.slots, left := keys.length, await := 4, osec, keys, pd := d, dest,
                  lanes := ls.map fun x => x.1, laneKeys := ls.map fun x => (x.1.1, x.2.1) }
  ({ s with ops := s.ops ++ [o], nextId := id + 1 }).osecSend form ls (some id)

/-- The registers that an OSEC form leaves pending (R259): P[D] of OSE and OSEN, V[D] of OSTK. -/
def osecPending (osec d id : Nat) : List Pending :=
  match osec with
  | 1 | 2 => [⟨2, d, id, false⟩]
  | 5 => [⟨0, d, id, false⟩]
  | _ => []

/-- The members wait on the answers, the destination pending; the PC stays at the form until they have come (log 24). -/
def State.osecWait (s : State) (form : Nat) (ls : List ((Nat × Nat) × Nat × Word)) (osec d : Nat) : State :=
  let id := s.nextId
  let t := (s.osecOp form ls osec d .none).members fun x => x.parkOn (.answer id)
  ((ls.map fun x => x.1.1).eraseDups).foldl (fun t slot => t.modSlice s.issuer.core slot fun x =>
    { x with pending := x.pending ++ osecPending osec d id }) t

/-- Lanes whose key and sequence number another active lane also has (R260). -/
def dupLanes (ls : List ((Nat × Nat) × Nat × Word)) : List ((Nat × Nat) × Nat × Word) :=
  ls.filter fun x => (ls.filter fun y => y.2 == x.2).length != 1

/-- OSE and OSEN. -/
def enterForm (osec : Nat) (f : R3) (s : State) : Meaning :=
  gangwise { ok := pOk f.d && osecB f.b f.x, srcs := (0, f.a.toNat) :: bSrc f.b f.x, mem := true, adv := false } s fun s =>
    match s.osecLanes f.g f.a f.b f.x with
    | [] => .ok (s.advanceAll 4)
    | l :: ls =>
      match dupLanes (l :: ls) with
      | [] => .ok (s.osecWait (osec - 1) (l :: ls) osec f.d.toNat)
      | x :: xs => .error (.fault { code := 0x0D, addr := x.2.1, lanes := laneMasks ((x :: xs).map fun y => y.1) })
def execOse (f : R3) (s : State) : Meaning := enterForm 1 f s
def execOsen (f : R3) (s : State) : Meaning := enterForm 2 f s

/-- OSX: a release at DEVICE scope (R261). -/
def execOsx (g : BitVec 4) (a : BitVec 6) (s : State) : Meaning :=
  gangwise { srcs := [(0, a.toNat)], mem := true, adv := false } s fun s =>
    match s.osecLanes g a 48 1 with
    | [] => .ok (s.advanceAll 4)
    | l :: ls => do
      s.releaseGang g 4
      pure (s.osecWait 2 (l :: ls) 3 0)

def execOsini (g : BitVec 4) (a b : BitVec 6) (x : BitVec 1) (s : State) : Meaning :=
  gangwise { ok := osecB b x, srcs := (0, a.toNat) :: bSrc b x, mem := true, adv := false } s fun s =>
    match s.osecLanes g a b x with
    | [] => .ok (s.advanceAll 4)
    | l :: ls => .ok (s.osecWait 3 (l :: ls) 4 0)

/-- OSFREE has no answer. -/
def execOsfree (g : BitVec 4) (a : BitVec 6) (s : State) : Meaning :=
  gangwise { srcs := [(0, a.toNat)], mem := true } s fun s => .ok (s.osecSend 4 (s.osecLanes g a 48 1) none)

/-- OSQRY: its destination pair is pending until the answers arrive. -/
def execOsqry (f : R2) (s : State) : Meaning :=
  gangwise { ok := alignOk f.d 2, srcs := [(0, f.a.toNat)], mem := true } s fun s =>
    match s.osecLanes f.g f.a 48 1 with
    | [] => .ok s
    | l :: ls =>
      let id := s.nextId
      let d := f.d.toNat
      let slots := s.taking f.g
      .ok (slots.foldl (fun s t => s.modSlice s.issuer.core t fun x =>
        { x with pending := x.pending ++ [⟨0, d, id, false⟩, ⟨0, d + 1, id, false⟩] }) (s.osecOp 5 (l :: ls) 0 0 (.v d 2)))

def execOstk (f : R2) (s : State) : Meaning :=
  gangwise { srcs := [(0, f.a.toNat)], mem := true, adv := false } s fun s =>
    match s.osecLanes f.g f.a 48 1 with
    | [] => .ok (s.advanceAll 4)
    | l :: ls => .ok (s.osecWait 6 (l :: ls) 5 f.d.toNat)

/-! ## At the home -/

/-- The holder that a lane of an operation would be. -/
def State.holderOf (s : State) (o : Op) (slot lane : Nat) : Holder :=
  ⟨o.core, slot, lane, (s.slice o.core slot).group, o.asid, s.cycle.toNat⟩
/-- A holder is a lane of a slice. -/
def Holder.isLane (h : Holder) (core slot group lane : Nat) : Bool :=
  h.core == core && h.slot == slot && h.group == group && h.lane == lane

/-- Every lane of a key fails with a code. -/
def failLanes (s : State) (id code key : Nat) (lanes : List (Nat × Nat × Word)) : State :=
  s.modOp id fun o => { o with laneFaults := o.laneFaults ++ lanes.map fun l => (l.1, l.2.1, code, key) }

/-- Members that still wait on the operation. -/
def State.waiting (s : State) (o : Op) : List Nat :=
  o.members.filter fun t => let x := s.slice o.core t; x.live && x.park == some (.answer o.id)

/-- OSE and OSEN of one key at its home, for the lanes that have not died meanwhile (R260, R264). -/
def State.osecEnter (s : State) (o : Op) (key : Nat) (named : List (Nat × Nat × Word)) : State :=
  let lanes := named.filter fun l => (s.waiting o).contains l.1
  if lanes.isEmpty then s else
  let domain := s.domain o.asid
  let e? := s.osecEntry domain key
  if e?.isNone && !s.osecRoom key then failLanes s o.id 0x0A key lanes
  else
    let e := e?.getD { used := true }
    let s := if e?.isNone then s.setSection domain key e else s
    let mine (h : Holder) : Bool := h.core == o.core && o.members.any fun t => h.slot == t && h.group == (s.slice o.core t).group
    if e.abandoned then failLanes s o.id 0x0B key lanes
    else if e.holder.any fun h => mine h && (o.osec == 1 || o.lanes.contains (h.slot, h.lane)) then
      failLanes s o.id 0x0F key lanes
    else if e.holder.isSome then s
    else match lanes.find? fun l => l.2.2 == e.next with
      | some l =>
        let s := s.setSection domain key { e with holder := some (s.holderOf o l.1 l.2.1) }
        let s := s.modSlice o.core l.1 fun x => { x with overrun := x.overrun.filter (· != sectionKey domain key) }
        s.modOp o.id fun o => { o with granted := o.granted ++ [(l.1, l.2.1, key)] }
      | none => s

/-- OSX of one key (R261). -/
def State.osecLeave (s : State) (o : Op) (key : Nat) (lanes : List (Nat × Nat × Word)) : State :=
  let domain := s.domain o.asid
  lanes.foldl (fun s l =>
    match s.osecEntry domain key with
    | some e =>
      if e.holder.any fun h => h.isLane o.core l.1 (s.slice o.core l.1).group l.2.1 then
        s.setSection domain key { e with holder := none, next := e.next + 1 }
      else failLanes s o.id 0x0F key [l]
    | none => failLanes s o.id 0x0F key [l]) s

/-- OSINI of one key (R263). -/
def State.osecInit (s : State) (o : Op) (key : Nat) (lanes : List (Nat × Nat × Word)) : State :=
  let domain := s.domain o.asid
  if (s.osecEntry domain key).isNone && !s.osecRoom key then failLanes s o.id 0x0A key lanes
  else lanes.foldl (fun s l => s.setSection domain key { used := true, next := l.2.2, ticket := l.2.2 }) s

/-- OSTK of one key (R262). -/
def State.osecTicket (s : State) (o : Op) (key : Nat) (lanes : List (Nat × Nat × Word)) : State :=
  let domain := s.domain o.asid
  if (s.osecEntry domain key).isNone && !s.osecRoom key then failLanes s o.id 0x0A key lanes
  else lanes.foldl (fun s l =>
    let e := (s.osecEntry domain key).getD { used := true }
    (s.setSection domain key { e with ticket := e.ticket + 1 }).modOp o.id fun o =>
      { o with writes := o.writes ++ [⟨l.1, 0, 8 * o.pd + l.2.1, e.ticket.toNat⟩] }) s

/-- OSQRY's two words (R263). For an absent key the manual gives STATE 0 only: NEXT and the low half read 0 (DESIGN CHOICE, log 78). -/
def sectionWords (e : Option Section) : Word × Word :=
  match e with
  | none => (0, 0)
  | some e =>
    let st := if e.abandoned then 3 else if e.holder.isSome then 2 else 1
    (e.next, w32 (st * 2 ^ 30 + min (e.ticket - e.next).toNat 0xFFFF))
def State.osecQuery (s : State) (o : Op) (key : Nat) (lanes : List (Nat × Nat × Word)) : State :=
  let r := sectionWords (s.osecEntry (s.domain o.asid) key)
  match o.dest with
  | .v d _ => s.modOp o.id fun o => { o with writes := o.writes ++ lanes.flatMap fun l =>
      [⟨l.1, 0, 8 * d + l.2.1, r.1.toNat⟩, ⟨l.1, 0, 8 * (d + 1) + l.2.1, r.2.toNat⟩] }
  | _ => s

/-- OSFREE of one key (R263). -/
def State.osecFree (s : State) (domain key : Nat) : State :=
  ({ s with sections := tdel s.sections (sectionKey domain key) }).wakeSection domain key

/-- A request is performed at its home. -/
def State.osecPerform (s : State) (f : Flight) (form key : Nat) (lanes : List (Nat × Nat × Word)) : State :=
  match f.op.bind s.op? with
  | none => if form = 4 then s.osecFree (s.domain f.asid) key else s
  | some o =>
    let s := match form with
      | 0 | 1 => s.osecEnter o key lanes
      | 2 => s.osecLeave o key lanes
      | 3 => s.osecInit o key lanes
      | 5 => s.osecQuery o key lanes
      | _ => s.osecTicket o key lanes
    s.modOp o.id fun o => { o with left := o.left - 1 }

/-! ## The answers -/

/-- Takes back a grant (R260). -/
def State.cancelGrant (s : State) (o : Op) (g : Nat × Nat × Nat) : State :=
  let domain := s.domain o.asid
  match s.osecEntry domain g.2.2 with
  | some e =>
    if e.holder.any fun h => h.isLane o.core g.1 (s.slice o.core g.1).group g.2.1 then
      s.setSection domain g.2.2 { e with holder := none }
    else s
  | none => s

/-- The failing lanes of an operation as a fault: the code and key of the lowest LANE. -/
def Op.laneFault (o : Op) (part : Bool) : Option FaultRec :=
  let fs := o.lanes.filterMap fun p => o.laneFaults.find? fun f => f.1 == p.1 && f.2.1 == p.2
  match fs with
  | [] => none
  | f :: _ => some { code := f.2.2.1, addr := f.2.2.2, part := part, lanes := laneMasks (fs.map fun f => (f.1, f.2.1)) }

/-- The members go on after the form. -/
def State.osecDone (s : State) (core : Nat) (slots : List Nat) (len : Nat) (f : Slice → Nat → Slice) : State :=
  slots.foldl (fun s t => s.modSlice core t fun x => (f x t).unpark.advance len) s

/-- What the answers of an OSEC form bring (R260-R263). -/
def State.osecResult (s : State) (o : Op) : State :=
  let s := s.dropOp o.id
  let slots := s.waiting o
  let lost := o.granted.filter fun g => !slots.contains g.1
  let s := lost.foldl (fun s g => s.cancelGrant o g) s
  let next := o.pc + BitVec.ofNat 52 o.await
  let trap (s : State) (f : FaultRec) : State :=
    s.trap o.core slots f o.pc next
  match o.laneFault (decide (3 ≤ o.osec)) with
  | some f =>
    let s := if o.osec ≤ 2 then o.granted.foldl (fun s g => s.cancelGrant o g) s
      else slots.foldl (fun s t => s.modSlice o.core t fun x =>
        (o.writes.filter (·.slot == t)).foldl (fun x w => w.apply x) x) s
    if slots.isEmpty then s else trap s f
  | none =>
    if o.osec = 1 && o.granted.isEmpty then
      if slots.any fun t => (s.slice o.core t).handler then trap s { code := 0x18, lanes := laneMasks o.lanes }
      else slots.foldl (fun s t => s.modSlice o.core t fun x =>
        { x.parkOn (.osec (s.domain o.asid) ((o.laneKeys.lookup t).toList ++ o.keys).eraseDups) with woken := o.dirty }) s
    else if o.osec ≤ 2 then
      let s := if o.granted.isEmpty then s else s.acquireNow o.core 4
      s.osecDone o.core slots o.await fun x t =>
        (o.lanes.filter (·.1 == t)).foldl (fun x p => x.setPBit o.pd p.2 (o.granted.any fun g => g.1 == p.1 && g.2.1 == p.2)) x
    else s.osecDone o.core slots o.await fun x t => (o.writes.filter (·.slot == t)).foldl (fun x w => w.apply x) x

/-- All answers of an OSEC form have come: its destination is pending no longer, and a debugger's WRITE of it follows (15 R415). -/
def State.osecAnswer (s : State) (o : Op) : State :=
  (o.members.filter fun t => (s.slice o.core t).pending.any (·.op == o.id)).foldl (fun s t => s.modSlice o.core t fun x =>
    ((o.late.filter (·.slot == t)).foldl (fun x w => w.apply x) x).unpend o.id) (s.osecResult o)

end Sys2Proof.Machine
end

