-- ==== Sys2Proof/Machine/Structs.lean ====
section
/-! DEFINITION. Acceleration structures and their versions: TRPIN, TRUNP and TRPUB, and the structure version table (14
R377-R380). -/

namespace Sys2Proof.Machine

/-! ## The structure version table -/

def Struct.slot (x : Struct) (n : Nat) : VSlot := tget {} x.slots n
def Struct.modSlot (x : Struct) (n : Nat) (f : VSlot → VSlot) : Struct := { x with slots := tset x.slots n (f (x.slot n)) }

/-- A structure assigned to a context (R377). -/
def State.ownsStruct (s : State) (asid st : Nat) : Bool := (s.struct st).assigned && (s.struct st).asid == asid

/-- An OLD slot without pins retires and tells its builder: VERSION_RETIRED (R378). -/
def State.retireSlot (s : State) (st n : Nat) : State :=
  let x := s.struct st
  let v := x.slot n
  if v.state = 2 ∧ v.pins = 0 then
    (s.modStruct st fun x => x.modSlot n fun _ => {}).unitMsg nodeTable v.bcore x.asid 0x82 0x01A1 (w32 st)
      [w32 (st + n * 2 ^ 8), v.num, v.root.setWidth 32, v.root.extractLsb' 32 32, 0, 0]
  else s

/-- A traversal's completion releases its pin (R378). -/
def State.unpinLane (s : State) (st n : Nat) : State :=
  (s.modStruct st fun x => x.modSlot n fun v => { v with pins := v.pins - 1, qpins := v.qpins - 1 }).retireSlot st n

/-- The pins of a TRQ: none when there is no CURRENT slot (R378), or when the structure has been released meanwhile (log 31). -/
def State.pinLanes (s : State) (asid st k : Nat) : State × Option Nat :=
  match if s.ownsStruct asid st then (s.struct st).cur else none with
  | some n => (s.modStruct st fun x => x.modSlot n fun v => { v with pins := v.pins + k, qpins := v.qpins + k }, some n)
  | none => (s, none)

/-- TRPIN at the table: the words of its quad (R380). A pin that would raise PINS above 2^24 - 1 is refused (R378). -/
def State.pinCurrent (s : State) (asid st : Nat) : State × List Nat :=
  let x := s.struct st
  match if s.ownsStruct asid st then x.cur else none with
  | none => (s, [0, 0, 0, 1])
  | some n =>
    let v := x.slot n
    if 2 ^ 24 - 1 ≤ v.pins then (s, [0, 0, 0, 2])
    else (s.modStruct st fun x => x.modSlot n fun v => { v with pins := v.pins + 1 },
      [v.num.toNat, v.root.toNat % 2 ^ 32, v.root.toNat / 2 ^ 32, n * 2 ^ 8])

/-- TRUNP at the table (R380). -/
def State.unpinSlot (s : State) (st n : Nat) : State :=
  let v := (s.struct st).slot n
  if v.state ≠ 0 ∧ v.qpins < v.pins then (s.modStruct st fun x => x.modSlot n fun v => { v with pins := v.pins - 1 }).retireSlot st n
  else s

/-- TRPUB at the table: the words of its pair (R380). A structure released meanwhile has no slot for it (log 31). -/
def State.publishRoot (s : State) (asid st core : Nat) (root : BitVec 64) (inv : Bool) : State × List Nat :=
  let x := s.struct st
  match if s.ownsStruct asid st then (List.range 4).find? fun n => (x.slot n).state == 0 else none with
  | none => (s, [0, 2])
  | some n =>
    let num := x.vcount + 1
    let s := s.modStruct st fun x =>
      let x := match x.cur with | some c => x.modSlot c fun v => { v with state := 2 } | none => x
      { x.modSlot n (fun _ => { state := 1, num := num, root := root, bcore := core }) with
        vcount := num, cur := some n, lastinv := if inv then num else x.lastinv }
    (match x.cur with | some c => s.retireSlot st c | none => s, [num.toNat, n * 2 ^ 8])

/-- Assignment of a structure (R377); none when it is refused. -/
def State.assignStruct (s : State) (st asid : Nat) : Option State :=
  let x := s.struct st
  if x.assigned || (List.range 4).any fun n => (x.slot n).state != 0 then none
  else some (s.modStruct st fun _ => { assigned := true, asid := asid })

/-- Release of a structure (R377). -/
def State.releaseStruct (s : State) (st : Nat) : State :=
  let s := s.modStruct st fun x =>
    { x with assigned := false, cur := none,
             slots := x.slots.map fun (n, v) => (n, if v.state = 0 then v else { v with state := 2, pins := v.qpins }) }
  (List.range 4).foldl (fun s n => s.retireSlot st n) s

/-! ## TRPIN, TRUNP and TRPUB -/

/-- An address pair in the form of NFCH (13 R342, with the zero field of an LWIN address of 06 R152): the fault it takes, if
any. -/
def pairFault (lo hi : Word) : Option Nat :=
  let res := if hi.getLsbD 31 then bits hi 0 31 != 0 || bits lo 26 6 != 0 else bits hi 20 11 != 0
  if res then some 0x05 else if lo.toNat % 128 ≠ 0 then some 0x04 else none

/-- Every member with an active lane is checked before any request leaves (R380, 01 R22). -/
def State.checkMembers (s : State) (g : BitVec 4) (chk : Slice → Option (Nat × Nat)) : Except Stop Unit :=
  let core := s.issuer.core
  match (s.taking g).filter fun t => (chk (s.slice core t)).isSome with
  | [] => .ok ()
  | t :: rest =>
    match chk (s.slice core t) with
    | some (code, addr) => s.faultOf g (t :: rest) code addr
    | none => .ok ()

/-- A form that reads no record. -/
def noRecord (_ : Slice) : Nat × Nat := (0, 0)

/-- Frame of a uniform form of which each member sends a request (R380, R387); `rec`: offset and length of the record that it reads
in LOCAL. -/
def requestForm (h : Head) (g : BitVec 4) (rel : Bool) (s : State) (chk : Slice → Option (Nat × Nat)) (rec : Slice → Nat × Nat)
    (send : State → Nat → State) : Meaning :=
  gangwise { h with mem := true } s fun s => do
    s.checkMembers g chk
    s.watchSpans g ((s.taking g).map fun t => (t, rec (s.slice s.issuer.core t)))
    if rel && !(s.taking g).isEmpty then s.releaseGang g 4
    pure ((s.taking g).foldl send s)

/-- The check of a structure named by a value (R377, R380). -/
def State.structFault (s : State) (x : Slice) (reserved st v : Nat) : Option (Nat × Nat) :=
  if reserved ≠ 0 then some (0x02, v) else if s.ownsStruct x.asid st then none else some (0x07, st)

/-- TRPIN: acquires at DEVICE scope when its answer comes (R380). -/
def execTrpin (g : BitVec 4) (d a : BitVec 6) (s : State) : Meaning :=
  requestForm { len := 8, ok := sOk d && sOk a && alignOk d 4, srcs := [(1, a.toNat)] } g false s
    (fun x => let v := (x.sr a.toNat).toNat; s.structFault x (v / 2 ^ 8) (v % 2 ^ 8) v) noRecord fun s t =>
      let core := s.issuer.core
      let o := s.unitOp t d.toNat 4
      let s := (s.openOp o).modSlice core t fun x => { x with acquires := x.acquires ++ [⟨o.id, true⟩] }
      s.send core nodeTable o.asid (some o.id) (.table (.pin ((s.slice core t).sr a.toNat).toNat o.id t d.toNat))

/-- TRUNP. -/
def execTrunp (g : BitVec 4) (a : BitVec 6) (s : State) : Meaning :=
  requestForm { len := 8, ok := sOk a, srcs := [(1, a.toNat)] } g false s
    (fun x => let v := (x.sr a.toNat).toNat; s.structFault x (v / 2 ^ 10) (v % 2 ^ 8) v) noRecord fun s t =>
      let core := s.issuer.core
      let v := ((s.slice core t).sr a.toNat).toNat
      s.send core nodeTable (s.slice core t).asid none (.table (.unpin (v % 2 ^ 8) (v / 2 ^ 8 % 4)))

/-- TRPUB: a release at DEVICE scope (R380). -/
def execTrpub (g : BitVec 4) (d a b : BitVec 6) (inv : BitVec 1) (s : State) : Meaning :=
  requestForm { len := 8, ok := sOk d && sOk a && sOk b && alignOk d 2 && alignOk b 2,
                srcs := (1, a.toNat) :: group 1 b.toNat 2 } g true s
    (fun x =>
      let v := (x.sr a.toNat).toNat
      let root := x.spair b.toNat
      match s.structFault x (v / 2 ^ 8) (v % 2 ^ 8) v with
      | some f => some f
      | none => if root = 0 then none else (pairFault (x.sr b.toNat) (x.sr (b.toNat + 1))).map fun c => (c, root % 2 ^ 52))
    noRecord fun s t =>
      let core := s.issuer.core
      let x := s.slice core t
      let o := s.unitOp t d.toNat 2
      (s.openOp o).send core nodeTable o.asid (some o.id)
        (.table (.publish (x.sr a.toNat).toNat o.id t d.toNat core (BitVec.ofNat 64 (x.spair b.toNat)) (inv == 1)))

end Sys2Proof.Machine
end

