-- ==== Sys2Proof/Machine/Plan.lean ====
section
/-! DEFINITION. PLAN instructions and the deadline commit unit's slots (14 R385-R394). -/

namespace Sys2Proof.Machine

/-! ## Instructions -/

/-- The fault of one member: its slot (R386), its record of `n` bytes (R387), and a structure it names (R377). -/
def State.planFault (s : State) (x : Slice) (slot off n : Nat) (com : Bool) : Option (Nat × Nat) :=
  let p := s.plan slot
  let core := s.issuer.core
  let (base, len) := s.localRun x
  if 63 < slot ∨ !p.assigned ∨ p.asid ≠ x.asid then some (0x1A, slot)
  else if n = 0 then none
  else if off % 16 ≠ 0 then some (0x04, off)
  else if len < off + n then some (0x05, off)
  else if x.handler && !s.ownsSpan core x.asid off n then some (0x07, off)
  else if com then
    let w := mread s.mem (localBase core + base + off + 12) 4
    if bitAt w 8 || s.ownsStruct x.asid (w % 2 ^ 8) then none else some (0x07, w % 2 ^ 8)
  else none

/-- The record of a member. -/
def State.planRecord (s : State) (x : Slice) (off n : Nat) : List Byte :=
  mbytes s.mem (localBase s.issuer.core + (s.localRun x).1 + off) n

/-- A PLAN form with a record of `n` bytes. -/
def planForm (f : R3) (n : Nat) (com : Bool) (s : State) (req : Nat → Nat → Nat → List Byte → PlanReq) : Meaning :=
  requestForm { ok := sOk f.d && sOk f.a && sbOk f.b f.x, srcs := (1, f.a.toNat) :: sbSrc f.b f.x } f.g true s
    (fun x => s.planFault x (x.sr f.a.toNat).toNat (x.uniform f.b f.x).toNat n com)
    (fun x => ((x.uniform f.b f.x).toNat, n)) fun s t =>
      let x := s.slice s.issuer.core t
      let o := s.unitOp t f.d.toNat 1
      (s.openOp o).send s.issuer.core nodePlan o.asid (some o.id)
        (.plan (x.sr f.a.toNat).toNat (req o.id t f.d.toNat (s.planRecord x (x.uniform f.b f.x).toNat n)))

def execPlarm (f : R3) (s : State) : Meaning := planForm f 32 false s .arm
def execPlbit (f : R3) (s : State) : Meaning := planForm f 16 false s .bit
def execPlcom (f : R3) (s : State) : Meaning := planForm f 24 true s .com

/-- PLQRY and PLDIS: no record, no release. -/
def planAsk (f : R2) (n : Nat) (s : State) (req : Nat → Nat → Nat → PlanReq) : Meaning :=
  requestForm { ok := sOk f.d && sOk f.a && alignOk f.d n, srcs := [(1, f.a.toNat)] } f.g false s
    (fun x => s.planFault x (x.sr f.a.toNat).toNat 0 0 false) noRecord fun s t =>
      let o := s.unitOp t f.d.toNat n
      (s.openOp o).send s.issuer.core nodePlan o.asid (some o.id)
        (.plan ((s.slice s.issuer.core t).sr f.a.toNat).toNat (req o.id t f.d.toNat))

def execPlqry (f : R2) (s : State) : Meaning := planAsk f 4 s .qry
def execPldis (f : R2) (s : State) : Meaning := planAsk f 1 s .dis

/-! ## The unit -/

def PlanReq.reply (r : PlanReq) (s : State) (ws : List Nat) : State :=
  match r with
  | .arm op slot d _ | .bit op slot d _ | .com op slot d _ | .qry op slot d | .dis op slot d => s.answer op slot d ws

/-- Writes an output as plain stores of whole sectors, which clear poison (R391). -/
def State.writeOutput (s : State) (key : Nat) (bs : List Byte) : State :=
  (coveredBy key bs.length).foldl (fun s k => s.dcacheFor (k / 4) 0 true) (s.unitStore 0 key bs)

/-- PLAN_STATUS of a slot (R393). -/
def State.statusMsg (s : State) (slot outcome bytes time st : Nat) (version : Word) : Msg :=
  let p := s.plan slot
  unitMsgOf p.asid 0x83 0x01A0 p.tag
    [w32 (outcome + slot * 2 ^ 8), w32 bytes, w32 time, w32 (time / 2 ^ 32), w32 st, version]
/-- It leaves for core NCORE (R393). -/
def State.planStatus (s : State) (slot outcome bytes time st : Nat) (version : Word) : State :=
  s.sendMsg nodePlan (s.plan slot).ncore (s.statusMsg slot outcome bytes time st version)

/-- Publishes the fallback of an ARMED slot (R391); `tell` sends PLAN_STATUS. -/
def State.publishFallback (s : State) (slot : Nat) (tell : Bool) : State :=
  let p := s.plan slot
  let s := (s.writeOutput p.outp p.fb).modPlan slot fun p => { p with state := 3, outcome := 2 }
  if tell then s.planStatus slot 2 p.fb.length s.time.toNat 0 0 else s

/-- The tick in which an ARMED slot expires has begun: the first at or after DEADLINE (R391), and after that of the arming
(R388). -/
def Plan.due (p : Plan) (time : Nat) : Bool := p.state == 1 && decide (p.deadline.toNat ≤ time) && decide (p.armed < time)

/-- Expiry of a slot (R391): in the tick itself, before any request that the tick brings and before the tick ends. -/
def State.expireDue (s : State) (slot : Nat) : State :=
  if (s.plan slot).due s.time.toNat then s.publishFallback slot true else s
/-- The expiries of a tick. -/
def State.expireAll (s : State) : State := (s.plans.map (·.1)).foldl State.expireDue s

/-- What a read for the unit gives. -/
inductive PRead where
  | data (s : State) (bs : List Byte)
  /-- A permission failure or poison. -/
  | bad (s : State)
  /-- A translation that the run-time may resolve, after its walk: the address, reason and level. -/
  | ask (s : State) (va reason level : Nat)
  /-- It waits at a peer's port (09 R240, 18 R441). -/
  | wait
deriving DecidableEq, Repr

/-- Reads `n` sectors for a context. -/
def State.unitRead (s : State) (asid va : Nat) : Nat → List Byte → PRead
  | 0, bs => .data s bs
  | n + 1, bs =>
    if 2 ^ 52 ≤ va then .ask s (va % 2 ^ 52) 2 1
    else match s.translateNow asid va .load with
      | (s, .error (.fail code reason level)) => if code = 0x06 then .ask s va reason level else .bad s
      | (s, .ok k) =>
        if s.unitWaits k then .wait
        else
        let s := (s.reachHome k 64).findErrors asid [k / 64]
        if s.poisonedAt (k / 64) then .bad s
        else State.unitRead s asid (va + 64) n (bs ++ mbytes s.mem k 64)

/-- Fields of a record. -/
def recNat (r : List Byte) (i n : Nat) : Nat := bytesNat ((r.drop i).take n)
/-- An address of R388: [63:52] zero and a multiple of 64. -/
def planAddrOk (a : Nat) : Bool := decide (a < 2 ^ 52) && a % 64 == 0
/-- A length of R385: 64 to 4,096, a multiple of 64. -/
def planLenOk (n : Nat) : Bool := decide (64 ≤ n) && decide (n ≤ 4096) && n % 64 == 0

/-- A field outside its limits (R388-R390). -/
def PlanReq.malformed : PlanReq → Bool
  | .arm _ _ _ r => !planAddrOk (recNat r 8 8) || !planAddrOk (recNat r 16 8) || !planLenOk (recNat r 24 2) ||
      recNat r 27 1 != 0
  | .bit _ _ _ r => !planAddrOk (recNat r 0 8) || !planLenOk (recNat r 8 4) || recNat r 12 4 != 0
  | .com _ _ _ r => !planAddrOk (recNat r 0 8) || !planLenOk (recNat r 8 4) || recNat r 12 4 / 2 ^ 9 != 0 ||
      recNat r 20 4 != 0
  | _ => false

/-- The slot is still the context's (R394). -/
def State.ownsPlan (s : State) (asid slot : Nat) : Bool := (s.plan slot).assigned && (s.plan slot).asid == asid

/-- Status codes of Table 14-7. -/
def plDone : Nat := 0
def plLate : Nat := 1
def plStale : Nat := 2
def plNotArmed : Nat := 3
def plBusy : Nat := 4
def plFault : Nat := 5
def plMalformed : Nat := 6

/-- What PLBIT and PLCOM answer when the slot is not ARMED. -/
def Plan.notArmed (p : Plan) : Nat := if p.state = 3 ∧ p.outcome = 2 then plLate else plNotArmed

/-- A read completes (R388-R390): the data, or its failure. -/
def State.planRead (s : State) (f : Flight) (slot : Nat) (r : PlanReq) (outp : Nat) (data : Option (List Byte)) : State :=
  let own := s.ownsPlan f.asid slot
  let p := s.plan slot
  match r, data with
  | .arm _ _ _ b, some bs =>
    if !own then r.reply s [plNotArmed]
    else if p.state = 1 ∨ p.state = 2 then r.reply s [plBusy]
    else r.reply (s.modPlan slot fun p =>
      { p with state := 1, deadline := BitVec.ofNat 64 (recNat b 0 8), fb := bs, outp := outp, ncore := recNat b 26 1,
               tag := w32 (recNat b 28 4), outcome := 0, armed := s.time.toNat }) [plDone]
  | .bit _ _ _ _, some bs =>
    if own && p.state == 1 then r.reply (s.modPlan slot fun p => { p with fb := bs }) [plDone]
    else r.reply s [if own then p.notArmed else plNotArmed]
  | .com _ _ _ b, some bs =>
    let s := (s.writeOutput p.outp bs).modPlan slot fun p => { p with state := 3, outcome := 1 }
    s.planStatus slot 1 bs.length p.jobTime (recNat b 12 1) (w32 (recNat b 16 4))
  | .com _ _ _ _, none =>
    let s := (s.writeOutput p.outp p.fb).modPlan slot fun p => { p with state := 3, outcome := 3 }
    s.planStatus slot 3 p.fb.length p.jobTime 0 0
  | _, none => r.reply s [plFault]
  | _, _ => s

/-- Source and sectors of a request's read. -/
def PlanReq.source : PlanReq → Nat × Nat
  | .arm _ _ _ r => (recNat r 16 8, recNat r 24 2 / 64)
  | .bit _ _ _ r | .com _ _ _ r => (recNat r 0 8, recNat r 8 4 / 64)
  | _ => (0, 0)

/-- A waiter has an open REPLAY record (15 R405). -/
def State.waitsReplay (s : State) (w : Waiter) : Bool := s.replays.any (·.who == w)

/-- A read under way comes to its end, or posts a REPLAY record and waits. -/
def State.readOn (s : State) (f : Flight) (slot : Nat) (r : PlanReq) (outp : Nat) : State :=
  if s.waitsReplay (.flight f.id) then s
  else
    let (va, n) := r.source
    let s := s.expireDue slot
    match s.unitRead f.asid va n [] with
    | .data s bs => (s.dropFlight f.id).planRead f slot r outp (some bs)
    | .bad s => (s.dropFlight f.id).planRead f slot r outp none
    | .ask s va reason level => (s.postReplay (.flight f.id) f.asid 0x01A0 slot 1 va 0 0x06 reason level).1
    | .wait => s

/-- A slot is released (R394, R399): none while it is COMMITTING. -/
def State.releasePlan (s : State) (slot : Nat) : Option State :=
  let p := s.plan slot
  if p.state = 2 then none
  else
    let s := if p.state = 1 then s.publishFallback slot true else s
    some (s.modPlan slot fun _ => {})

end Sys2Proof.Machine
end

