-- ==== Sys2Proof/Machine/EvSlice.lean ====
section
/-! DEFINITION. Device steps of the slices and their synchronisation: answers, parks, holds, retirement, team barriers,
sections, steals and the hang detector (01 R23, 04 R77, R85, R88, 10 R252-R269, 11 R287, R297). -/

namespace Sys2Proof.Machine

/-! ## Answers -/

/-- LQSTAT's word (11 R287). -/
def State.queueWord (s : State) (asid q : Nat) : Nat :=
  let c := s.queue q
  if c.asid ≠ some asid then 0
  else (if c.enable && c.devq then 2 ^ 31 else 0) + (if c.shed then 2 ^ 30 else 0) + c.level * 2 ^ 24 + c.depth * 2 ^ 11 + c.records.length

/-- The queue's answer to a LQSTAT. -/
def State.answerLqstat (s : State) (op : Nat) : State :=
  match s.flights.find? fun f => f.op == some op with
  | some f => match f.pkt with
    | .lqstat q slot d => if s.first f then (s.dropFlight f.id).answer op slot d [s.queueWord f.asid q] else s
    | _ => s
  | none => s

/-- UNIT_ANSWER_ARRIVAL: the answers of an OSEC form, or the words of a unit, reach the slice (10 R259). -/
def execEvUnitAnswerArrival (op : Nat) (s : State) : Meaning :=
  let s := s.answerLqstat op
  match s.op? op with
  | none => .next s
  | some o =>
    let words := match o.dest with | .s _ _ => !o.isLoad | _ => o.osec == 0 && !o.keys.isEmpty
    if o.left ≠ 0 then .next s
    else if decide (1 ≤ o.osec) && decide (o.osec ≤ 5) then .next (s.osecAnswer o)
    else if words && !s.isLent op then .next (s.finishOp o) else .next s

/-! ## Parks, holds and paths -/

/-- PARK_REEVALUATION (01 R23): the instruction is evaluated again at the next visit. -/
def execEvParkReevaluation (core slot : Nat) (s : State) : Meaning :=
  let x := s.slice core slot
  .next (if x.live && !x.halted && x.park.isSome && x.woken then s.setSlice core slot x.unpark else s)

/-- HOLD_VISIT_LIMIT (04 R88). -/
def execEvHoldVisitLimit (core slot : Nat) (s : State) : Meaning :=
  let x := s.slice core slot
  .next (match x.hold with
    | some h => if x.live && x.holding && decide (512 ≤ h.visits) then s.setSlice core slot x.closeHold else s
    | none => s)

/-- FAIRNESS_SWITCH (04 R85). -/
def execEvFairnessSwitch (core slot : Nat) (s : State) : Meaning :=
  let x := s.slice core slot
  .next (if x.live && !x.halted && x.fairDue then s.setSlice core slot x.nextPath else s)

/-! ## Retirement -/

/-- A group whose slots are all released leaves the core, and its team with its last group (04 R77, 10 R255). -/
def State.forgetGroup (s : State) (g : Nat) : State :=
  match s.group? g with
  | none => s
  | some x =>
    if x.saved || x.slots.any fun t => (s.slice x.core t).phase != .empty && (s.slice x.core t).group == g then s
    else
      let s := { s with groups := tdel s.groups g }
      match s.teams.lookup x.team with
      | none => s
      | some t =>
        if t.groups.any fun h => (s.group? h).isSome then s
        else ({ s with teams := tdel s.teams x.team } : State).modCluster t.cluster fun k =>
          { k with barriers := k.barriers.filter fun b => !(b.2.used && b.2.owner == x.team) }

/-- SLOT_RELEASE (04 R77): every counter is zero, and the retirement has been counted. -/
def execEvSlotRelease (core slot : Nat) (s : State) : Meaning :=
  let x := s.slice core slot
  if x.phase != .retired || !x.counted.isEmpty || !(x.handler || x.retCounted) then .next s
  else
    let s := { s.setSlice core slot {} with
      ops := s.ops.map fun o => if o.core == core && o.members.contains slot then
        { o with members := o.members.filter (· != slot), gone := o.gone ++ [slot] } else o }
    .next (if x.handler then s else s.forgetGroup x.group)

/-- A slice leaves ARRV of its group's or team's barriers. -/
def leaveArrv (t : Tab Barrier) (owner key : Nat) : Tab Barrier :=
  t.map fun (i, b) => (i, if b.used && b.owner == owner then { b with arrived := b.arrived.filter (· != key) } else b)

/-- Every barrier of an owner is evaluated. -/
def ownedBarriers (t : Tab Barrier) (owner : Nat) : List Nat := (t.filter fun b => b.2.used && b.2.owner == owner).map (·.1)

/-- RETIREMENT_COUNTED (10 R252, R255), after the cycle's issues of the core (R251). -/
def execEvRetirementCounted (core slot : Nat) (s : State) : Meaning :=
  let x := s.slice core slot
  if x.phase != .retired || x.retCounted || x.handler || !s.coreDone core || [0, 1, 2, 3].any (fun c => x.count c != 0) then
    .next s
  else
    let s := s.setSlice core slot { x with retCounted := true }
    match s.group? x.group with
    | none => .next s
    | some g =>
      let s := (s.modGroup x.group fun g => { g with ret := g.ret + 1 }).modCore core fun k =>
        { k with barriers := leaveArrv k.barriers x.group (skey core slot) }
      let s := (ownedBarriers (s.core core).barriers x.group).foldl (fun s i => s.evalBarrier core i (g.ret + 1)) s
      match s.teams.lookup g.team with
      | none => .next s
      | some t =>
        let s := ({ s with teams := tset s.teams g.team { t with ret := t.ret + 1 } } : State).modCluster t.cluster fun k =>
          { k with barriers := leaveArrv k.barriers g.team (skey core slot) }
        .next ((ownedBarriers (s.cluster t.cluster).barriers g.team).foldl
          (fun s i => s.evalTeamBarrier t.cluster i (t.ret + 1)) s)

/-! ## Team barriers, sections, steals -/

/-- RET of the team that holds a team barrier. -/
def State.teamRet (s : State) (b : Barrier) : Nat := ((s.teams.lookup b.owner).map (·.ret)).getD 0

/-- TEAM_BARRIER_ARRIVAL (10 R255): one arrival or one TBARINIT at the unit. What comes from a team that holds the barrier no longer is
lost, and so is an arrival of a slice that its team has no longer (R252). -/
def execEvTeamBarrierArrival (flight : Nat) (s : State) : Meaning :=
  s.onFlight flight fun f s =>
    match f.pkt with
    | .teamArrive team slot id _ init =>
      let core := f.src
      let c := clusterOf core
      let b : Barrier := tget {} (s.cluster c).barriers id
      let put (s : State) (b : Barrier) : State := s.modCluster c fun k => { k with barriers := tset k.barriers id b }
      if !b.used || some b.owner != team then some s
      else match init with
      | some v => some ((put s { b with expect := bits v 0 11, auto := v.getLsbD 31 }).evalTeamBarrier c id (s.teamRet b))
      | none =>
        let x := s.slice core slot
        let again := b.arrived.contains (skey core slot)
        let s := if x.park == some (.answer f.id) then
          s.setSlice core slot (x.parkOn (.teamBarrier c id b.phase (!again))) else s
        if again || !x.live || s.teamOf core slot != team then some s
        else some ((put s { b with arrived := bitIns b.arrived (skey core slot) }).evalTeamBarrier c id (s.teamRet b))
    | _ => none

/-- OSEC_REQUEST_AT_HOME (10 R259-R263). -/
def execEvOsecRequestAtHome (flight : Nat) (s : State) : Meaning :=
  s.onFlight flight fun f s => match f.pkt with
    | .osec form key lanes => some (s.osecPerform f form key lanes)
    | _ => none

/-- SECTION_OVERRUN (10 R265). -/
def execEvSectionOverrun (core slot : Nat) (s : State) : Meaning :=
  let x := s.slice core slot
  .next (if x.live && !x.halted then (s.takeOverrun core slot).getD s else s)

/-- STEAL_ARRIVAL (11 R297). A steal that comes after owner forms of the core's cycle arrives in the next cycle (R298). -/
def execEvStealArrival (flight : Nat) (s : State) : Meaning :=
  match s.flight? flight with
  | some f =>
    match f.pkt, f.op.bind s.op? with
    | .steal slot d v ring, some o =>
      .next (if s.first f && s.coreFresh v then (s.dropFlight f.id).stealAt o slot d v ring else s)
    | .steal _ _ _ _, none => .next (s.dropFlight f.id)
    | _, _ => .next s
  | none => .next s

/-! ## The wait-for graph and the hang detector (10 R267-R269) -/

/-- KIND and object of a park (10 Table 10-7, 15 R449), with physical numbers (log 33). -/
def parkObject (warp : Nat) : Park → Nat × Nat
  | .barrier c i _ _ => (1, i + c * 2 ^ 8)
  | .teamBarrier c i _ _ => (2, i + c * 2 ^ 8)
  | .osec _ ks => (3, ks.headD 0)
  | .queue c i => (4, i + c * 2 ^ 8)
  | .fullEmpty ws => (5, 4 * ws.headD 0 - localBase 0)
  | .mailbox _ t => (6, (t.getD 0xFFFFFFFF).toNat)
  | .rendezvous => (7, warp)
  | .pool c _ _ _ => (8, c)
  | .miss _ => (9, 0)
  | .replay i => (10, i)
  | .answer _ => (0, 0)

/-- Word 3 of a record for a slice that has not arrived: of slices with the same lowest slot, the one of the lowest core (DESIGN CHOICE:
10 R269 names none for a team barrier; log 81). -/
def liveHolder (l : List (Nat × Nat)) : Nat :=
  match l.foldl (fun (b : Option (Nat × Nat)) p => match b with
    | some q => if p.2 < q.2 then some p else b
    | none => some p) none with
  | some (core, slot) => 2 ^ 31 + slot * 2 ^ 8 + core
  | none => 0

/-- LANE of a holder (01 R15): its slice may be saved. -/
def State.holderLane (s : State) (h : Holder) : Nat :=
  let x := s.slice h.core h.slot
  let y := if x.live && x.group == h.group then x
    else match s.group? h.group with | some g => tget {} g.savedSlices h.slot | none => x
  y.laneIx h.lane

/-- The holder of what a slice is parked on (Table 10-7, word 3). -/
def State.parkHolder (s : State) (o : Park) : Nat :=
  let absent (b : Barrier) (mine : Slice → Bool) : Nat :=
    liveHolder ((s.slices.filter fun x => x.2.live && !x.2.handler && mine x.2 && !b.arrived.contains x.1).map
      fun x => (x.1 / 128, x.1 % 128))
  match o with
  | .barrier c i _ _ => let b := tget {} (s.core c).barriers i; absent b fun x => x.group == b.owner
  | .teamBarrier c i _ _ =>
    let b := tget {} (s.cluster c).barriers i
    absent b fun x => match s.group? x.group with | some g => g.team == b.owner | none => false
  | .osec d ks =>
    match s.osecEntry d (ks.headD 0) with
    | some e => (if e.abandoned then 2 ^ 30 else 0) + match e.holder with
      | some h => 2 ^ 31 + s.holderLane h * 2 ^ 16 + h.slot * 2 ^ 8 + h.core
      | none => 0
    | none => 0
  | _ => 0

/-- Live slices of a context, ascending: key and slice. -/
def State.ctxSlices (s : State) (asid : Nat) : List (Nat × Slice) := s.slices.filter fun x => x.2.live && x.2.asid == asid

/-- A port could still fetch an element. -/
def Port.busy (p : Port) : Bool := p.bound && decide (p.buf.length < 8) && decide (p.fetched < p.total)

/-- The current cycle counts for the context's hang count (R267): a slice whose object has changed is parked no longer. -/
def State.hangCycle (s : State) (asid : Nat) : Bool :=
  let xs := (s.ctxSlices asid).map (·.2)
  !xs.isEmpty &&
  s.slices.all (fun x => x.2.asid != asid || x.2.counted.isEmpty) && !(s.ops.any fun o => o.asid == asid && !o.ended) &&
  xs.all (fun x => !x.handler && !x.halted && !x.woken && !(x.ports.any fun p => p.2.busy) &&
    match x.park with
    | some o => decide (1 ≤ (parkObject 0 o).1) && decide ((parkObject 0 o).1 ≤ 7)
    | none => false) &&
  !(s.cores.any fun k => k.2.handlerQ.any (·.asid == asid) || k.2.rake.threads.any (fun t => t.2.used && t.2.asid == asid) ||
    k.2.rake.reqs.any (fun q => q.2.used && q.2.asid == asid) || k.2.rake.inbound.any (·.asid == asid)) &&
  !(s.clusters.any fun c => [c.2.engine0, c.2.engine1].any fun e => (e.queue ++ e.active).any (·.asid == asid)) &&
  !(s.flights.any (·.asid == asid)) && !(s.replays.any (·.asid == asid)) &&
  !(s.queues.any fun q => q.2.asid == some asid && !q.2.records.isEmpty)

/-- Words of the graph: header and one record for each slice. -/
def State.hangGraph (s : State) (xs : List (Nat × Slice)) : List Word :=
  [w32 xs.length, s.time.setWidth 32, s.time.extractLsb' 32 32, 0] ++
  xs.flatMap fun (k, x) =>
    match x.park with
    | some o =>
      let (kind, obj) := parkObject x.warp o
      [w32 (k / 128 + k % 128 * 2 ^ 8), w32 kind, w32 obj, w32 (s.parkHolder o)]
    | none => [w32 (k / 128 + k % 128 * 2 ^ 8), 0, 0, 0]

/-- Stores of the device into a context's GLOBAL memory, 16 bytes at a time; a piece whose page refuses it is left out. -/
def State.storeGlobal (s : State) (asid va : Nat) : List (List Byte) → State
  | [] => s
  | b :: bs =>
    let s := match s.translateNow asid va .store with
      | (s, .ok k) => s.unitStore asid k b
      | (s, .error _) => s
    State.storeGlobal s asid (va + b.length) bs
/-- A piece stands at a peer whose port holds requests (18 R440-R441). -/
def State.storeWaits (s : State) (asid va : Nat) : List (List Byte) → Bool
  | [] => false
  | b :: bs => (match s.translateUnit asid va .store with | .ok k => s.unitWaits k | .error _ => false) ||
      State.storeWaits s asid (va + b.length) bs

/-- Pieces of `n` bytes. -/
def byteRuns (n : Nat) : Nat → List Byte → List (List Byte)
  | 0, _ => []
  | k + 1, bs => if bs.isEmpty then [] else bs.take n :: byteRuns n k (bs.drop n)

/-- HANG (R268): the graph, HANG in every counted slice, the event, and the count from zero. The rule names no lanes: TMASK names none
(DESIGN CHOICE, log 78). A graph that cannot be stored yet, its area at a peer whose port holds requests, waits with all of it. -/
def execEvHang (asid : Nat) (s : State) : Meaning :=
  let c := s.ctx asid
  if c.hanglim = 0 || decide (c.hang < c.hanglim) || !s.hangCycle asid then .next s
  else
    let xs := s.ctxSlices asid
    let s := s.reachCtx asid
    let area := s.ctxField asid 16 8 % 2 ^ 52
    let bytes := wordsBytes (s.hangGraph xs)
    let runs := if area = 0 then [] else byteRuns 16 bytes.length bytes
    if s.storeWaits asid area runs then .next s
    else
    let s := s.storeGlobal asid area runs
    let s := xs.foldl (fun s x => s.trapAlone (x.1 / 128) (x.1 % 128) { code := 0x0E }) s
    let s := s.post [evWord 0x93 0x0E asid, w32 xs.length, 0, 0, 0, 0, 0, 0]
    .next (s.modCtx asid fun c => { c with hang := 0 })

end Sys2Proof.Machine
end

