-- ==== Sys2Proof/Machine/Matrix.lean ====
section
/-! DEFINITION. Matrix instructions at the core (12 R300-R326): tiles, the entry of commands, and what each captures. -/

namespace Sys2Proof.Machine

/-! ## Operand groups -/

/-- MMAS with N = 1, 2 or 4, which doubles the logical K. -/
def wideK (sparse : Bool) (spn : Nat) : Bool := sparse && spn != 3
/-- Logical K (Table 12-1). -/
def logicalK (etype : Nat) (wide : Bool) : Nat :=
  (match etype with | 0 | 1 => 32 | 4 => 128 | 5 => 8 | _ => 64) * (if wide then 2 else 1)
/-- Registers of the A group and of the B group. -/
def aRegs (etype : Nat) : Nat := if etype = 5 then 4 else 8
def bRegs (etype : Nat) (wide : Bool) : Nat := if etype = 5 then 8 else if wide then 32 else 16
/-- Metadata registers. -/
def mRegs (etype : Nat) (wide : Bool) : Nat :=
  match etype with | 0 | 1 => 1 | 4 => if wide then 4 else 2 | _ => if wide then 2 else 1
/-- Scale registers. -/
def sRegs (wide : Bool) : Nat := if wide then 3 else 2

/-- The register groups that a form reads: first register, count and alignment (R306). -/
def matGroups (a b sc mt etype : Nat) (sparse : Bool) (spn : Nat) : List (Nat × Nat × Nat) :=
  let w := wideK sparse spn
  [(a, aRegs etype, aRegs etype), (b, bRegs etype w, bRegs etype w)] ++
    (if etype = 4 then [(sc, sRegs w, 4)] else []) ++ (if sparse then [(mt, mRegs etype w, 4)] else [])

/-- The registers of some groups. -/
def groupRegs (gs : List (Nat × Nat × Nat)) : List Nat := gs.flatMap fun x => (List.range x.2.1).map (x.1 + ·)
/-- Aligned, and no register in two groups (R306). -/
def groupsOk (gs : List (Nat × Nat × Nat)) : Bool :=
  gs.all (fun x => x.1 % x.2.2 == 0) && decide (groupRegs gs).Nodup

/-! ## Tiles -/

/-- Names allotted to a group. -/
def Core.allotment (k : Core) (g : Nat) : Nat := (k.tiles.filter fun t => t.2.used && t.2.owner == g).length
/-- Physical tile of a name. -/
def Core.tileOf (k : Core) (g name : Nat) : Option (Nat × Tile) :=
  k.tiles.find? fun t => t.2.used && t.2.owner == g && t.2.name == name
/-- An ALLOC tile (R301). -/
def Core.allocTile (k : Core) (g name : Nat) : Option Nat := (k.tileOf g name).bind fun t => if t.2.alloc then some t.1 else none
/-- Marks names of a group. -/
def Core.markTiles (k : Core) (g : Nat) (names : List Nat) (alloc : Bool) : Core :=
  { k with tiles := k.tiles.map fun (i, t) =>
      (i, if t.used && t.owner == g && names.contains t.name then { t with alloc := alloc } else t) }

/-! ## Class queues -/

def MUnit.q (u : MUnit) (c : Nat) : List MCmd := match c with | 0 => u.q0 | 1 => u.q1 | 2 => u.q2 | _ => u.q3
def MUnit.setQ (u : MUnit) (c : Nat) (l : List MCmd) : MUnit :=
  match c with | 0 => { u with q0 := l } | 1 => { u with q1 := l } | 2 => { u with q2 := l } | _ => { u with q3 := l }
/-- Room in a class queue of 4 for a local command (R303). A suspended command holds no place in it; each refused remote command
has an entry held for it (R323, 06 R160). -/
def MUnit.room (u : MUnit) (c : Nat) : Bool :=
  decide (((u.q c).filter (·.step == 0)).length + (u.refused.filter (·.2 == c)).length < 4)
def MUnit.enter (u : MUnit) (c : MCmd) : MUnit := u.setQ c.cls (u.q c.cls ++ [c])
def State.modMat (s : State) (core : Nat) (f : MUnit → MUnit) : State := s.modCore core fun k => { k with mat := f k.mat }
/-- Enters a command in a cycle (R303). -/
def State.enterMat (s : State) (core : Nat) (c : MCmd) (cycle : Nat) : State := s.modMat core fun u => u.enter { c with entered := cycle }
def MKind.isMma : MKind → Bool
  | .mma => true
  | _ => false
/-- A command is suspended. -/
def MUnit.suspended (u : MUnit) : Bool := [0, 1, 2, 3].any fun c => (u.q c).any fun m => m.step != 0
/-- An MMA-class command runs or is suspended, which keeps the unit busy (R325). -/
def MUnit.busy (u : MUnit) : Bool := u.suspended || match u.running with | some (c, _) => c.kind.isMma | none => false
/-- First cycle that is behind the filler and the hold (R325). -/
def MUnit.quiet (u : MUnit) : Nat := max u.since (max ((u.filler.map (· + 1)).getD 0) ((u.holdEnd.map (· + 1)).getD 0))
/-- Consecutive idle cycles (R325). -/
def MUnit.idle (u : MUnit) (cycle : Nat) : Nat := if u.busy then 0 else cycle - u.quiet

/-! ## Captures -/

/-- Registers of every member, keyed 64 × register + LANE (R307). -/
def State.captureFrag (s : State) (regs : List Nat) : Tab Word :=
  s.issuer.slots.flatMap (fun t =>
    let x := s.slice s.issuer.core t
    regs.flatMap fun r => (List.range 8).map fun l => (64 * r + x.laneIx l, x.vr r l)) |>.foldl (fun m p => tset m p.1 p.2) []

/-- The gang is all 8 slices of a home warp of width 64 (R311, R323). In a frame its members are of one frame gang (04 R79), which
is then all 8 slices too. -/
def State.wholeWarp (s : State) : Bool :=
  let x := s.slice s.issuer.core (s.issuer.slots.headD 0)
  s.issuer.slots.length == 8 && x.width == 8

/-- The group of the gang. -/
def State.gangGroup (s : State) : Nat := (s.slice s.issuer.core (s.issuer.slots.headD 0)).group
def State.gangHandler (s : State) : Bool := (s.slice s.issuer.core (s.issuer.slots.headD 0)).handler

/-- The group paired with a group in its team (R314). -/
def State.partner (s : State) (x : Group) : Option (Nat × Group) :=
  s.groups.find? fun p => p.2.team == x.team && p.2.ix == x.ix.xor 1 && x.team != 0

/-- Slots with an active lane, ascending by LANE, with the slot of each. -/
def State.laneList (s : State) (g : BitVec 4) : List (Nat × Nat) := (s.gangLanes g).map fun p => (s.laneIx p, p.1)

/-! ## MMA and MMAS -/

/-- Step 7 of R311: the captured command; with TEAM, A comes from the partner in an odd group. -/
def State.mmaCmd (s : State) (f : MmaF) (sparse : Bool) (grp : Nat) (x : Group) (d c : Nat) : MCmd :=
  let odd := f.team == 1 && x.ix % 2 == 1
  let gs := matGroups f.a.toNat f.b.toNat f.sc.toNat f.mt.toNat f.etype.toNat sparse f.spn.toNat
  let lead := s.slice s.issuer.core (s.issuer.slots.headD 0)
  { kind := .mma, group := grp, cls := x.mclass, d, c, csrc := f.csrc.toNat, etype := f.etype.toNat, sparse,
    spn := f.spn.toNat, a := f.a.toNat, b := f.b.toNat, sc := f.sc.toNat, mt := f.mt.toNat,
    frag := s.captureFrag (groupRegs (if odd then gs.drop 1 else gs)),
    ftz := ftzOf lead.fpctl, zskip := zskipOf lead.fpctl,
    team := if f.team == 0 then 0 else if odd then 2 else 1, j := x.frags }

/-- Steps 4 to 7 of R311. -/
def State.enterMma (s : State) (f : MmaF) (sparse : Bool) : Except Stop State :=
  let core := s.issuer.core
  let grp := s.gangGroup
  let k := s.core core
  match s.group? grp, k.allocTile grp f.d.toNat, (if f.csrc == 2 then k.allocTile grp f.ct.toNat else some 0) with
  | _, none, _ => s.faultAll f.g 0x16 f.d.toNat
  | _, _, none => s.faultAll f.g 0x16 f.ct.toNat
  | none, _, _ => s.faultAll f.g 0x16 f.d.toNat
  | some x, some d, some c =>
    if f.team == 1 && x.teamSize % 2 == 1 then s.faultAll f.g 0x02
    else if !k.mat.room x.mclass then .error .stall
    else
      let cmd := s.mmaCmd f sparse grp x d c
      let s := s.enterMat core cmd s.cycle.toNat
      let s := if f.team == 1 then s.modGroup grp fun y => { y with frags := y.frags + 1 } else s
      .ok (match cmd.team, s.partner x with
        | 1, some (pk, p) => s.send core p.core x.asid none
            (.afrag pk cmd.j ((cmd.frag.filter fun e => (groupRegs [(f.a.toNat, aRegs cmd.etype, 1)]).contains (e.1 / 64)).map
              fun e => (e.1 - 64 * f.a.toNat, e.2)))
        | _, _ => s)

/-- MMA and MMAS (R310-R311). -/
def mmaForm (sparse : Bool) (f : MmaF) (s : State) : Meaning :=
  let gs := matGroups f.a.toNat f.b.toNat f.sc.toNat f.mt.toNat f.etype.toNat sparse f.spn.toNat
  let x := s.slice s.issuer.core (s.issuer.slots.headD 0)
  let inFrame := x.frame.act && !x.frame.susp
  let odd := f.team == 1 && match s.group? s.gangGroup with | some g => g.ix % 2 == 1 | none => false
  gangwise { len := 8, rdv := !inFrame, ok := decide (f.d.toNat < 16) && groupsOk gs,
             srcs := (groupRegs (if odd then gs.drop 1 else gs)).map fun r => (0, r) } s fun s =>
    if s.gangHandler then s.faultAll f.g 0x18
    else if !s.wholeWarp then s.faultAll f.g 0x02
    else if (s.taking f.g).isEmpty then .ok s
    else s.enterMma f sparse

def execMma (f : MmaF) (s : State) : Meaning := mmaForm false f s
def execMmas (f : MmaF) (s : State) : Meaning := mmaForm true f s

/-! ## MTILE -/

/-- Frame of a form performed once per gang; `body` takes the lowest member with an active lane (R316). -/
def tileForm (h : Head) (g : BitVec 4) (s : State) (body : State → Nat → Except Stop State) : Meaning :=
  gangwise { h with len := 8 } s fun s =>
    match s.taking g with
    | [] => .ok s
    | t :: _ => if s.gangHandler then s.faultAll g 0x18 else body s t

/-- The physical tile of an ALLOC name, with the group, or TILE_UNALLOCATED (R301). -/
def State.tile (s : State) (g : BitVec 4) (name : Nat) : Except Stop (Nat × Group) :=
  match s.group? s.gangGroup, (s.core s.issuer.core).allocTile s.gangGroup name with
  | some x, some d => .ok (d, x)
  | _, _ => s.faultAll g 0x16 name

/-- Enters a command of the gang's group, or stalls on a full queue. -/
def State.tileCmd (s : State) (x : Group) (c : MCmd) : Except Stop State :=
  if (s.core s.issuer.core).mat.room x.mclass then
    .ok (s.enterMat s.issuer.core { c with group := s.gangGroup, cls := x.mclass } s.cycle.toNat)
  else .error .stall

/-- Names of a mask (R316). -/
def maskNames (w : Word) : List Nat := (List.range 16).filter fun j => w.getLsbD j

def execMalloc (g : BitVec 4) (d a : BitVec 6) (s : State) : Meaning :=
  tileForm { ok := pOk d && sOk a, srcs := [(1, a.toNat)] } g s fun s t =>
    let core := s.issuer.core
    let k := s.core core
    let grp := s.gangGroup
    let ms := maskNames ((s.slice core t).sr a.toNat)
    let put (s : State) (ok : Bool) : State := s.gangPred g d.toNat fun _ => ok
    match ms.find? fun n => decide (k.allotment grp ≤ n) with
    | some n => s.faultAll g 0x16 n
    | none =>
      if ms.isEmpty then .ok (put s true)
      else if ms.any fun n => (k.allocTile grp n).isSome then .ok (put s false)
      else match s.group? grp with
        | none => .ok (put s false)
        | some x => do
          let phys := ms.filterMap fun n => (k.tileOf grp n).map (·.1)
          let s ← s.tileCmd x { kind := .zero phys, group := grp, cls := x.mclass, d := 0 }
          pure (put (s.modCore core fun k => k.markTiles grp ms true) true)

def execMfree (g : BitVec 4) (a : BitVec 6) (s : State) : Meaning :=
  tileForm { ok := sOk a, srcs := [(1, a.toNat)] } g s fun s t =>
    let core := s.issuer.core
    let k := s.core core
    let grp := s.gangGroup
    let ms := maskNames ((s.slice core t).sr a.toNat)
    match ms.find? fun n => (k.allocTile grp n).isNone with
    | some n => s.faultAll g 0x16 n
    | none => .ok (s.modCore core fun k => k.markTiles grp ms false)

def execMzero (g : BitVec 4) (t : BitVec 6) (s : State) : Meaning :=
  tileForm { ok := decide (t.toNat < 16) } g s fun s _ => do
    let (d, x) ← s.tile g t.toNat
    s.tileCmd x { kind := .zero [d], group := 0, cls := 0, d }

/-- Opens the operation of a command and marks the registers that its members wait for. -/
def State.openMat (s : State) (g : BitVec 4) (dest : Dest) (all : Bool) : State × Nat :=
  let core := s.issuer.core
  let o : Op := { id := s.nextId, core, asid := (s.slice core (s.issuer.slots.headD 0)).asid, pc := s.issuer.pc,
                  members := s.taking g, dest, left := 1 }
  let s := s.openOp o
  (if all then o.members.foldl (fun s t => s.modSlice core t fun x => { x with pending := x.pending ++ [⟨9, 0, o.id, false⟩] }) s
   else s, o.id)

/-- MLD and MST (R318), watched as a load and a store of 8,192 bytes (15 R418). -/
def tileMove (store : Bool) (g : BitVec 4) (a t : BitVec 6) (off : BitVec 16) (s : State) : Meaning :=
  tileForm { mem := true, ok := sOk a && decide (t.toNat < 16), srcs := [(1, a.toNat)] } g s fun s m => do
    let core := s.issuer.core
    let x := s.slice core m
    let ea : Int := ((x.sr a.toNat).toNat : Int) + off.toInt
    let (d, grp) ← s.tile g t.toNat
    let (base, len) := s.localRun x
    if ea % 16 ≠ 0 then s.faultAll g 0x04 (taddr ea)
    else if ea < 0 ∨ len < ea.toNat + 8192 then s.faultAll g 0x05 (taddr ea)
    else if s.spanHit m (if store then 2 else 1) ea.toNat 8192 then s.faultAll g 0x13 (taddr ea)
    else do
      let addr := localBase core + base + ea.toNat
      let (s', op) := s.openMat g .none true
      s'.tileCmd grp { kind := if store then .mst addr else .mld addr, group := 0, cls := 0, d, op }

def execMld (g : BitVec 4) (a t : BitVec 6) (off : BitVec 16) (s : State) : Meaning := tileMove false g a t off s
def execMst (g : BitVec 4) (a t : BitVec 6) (off : BitVec 16) (s : State) : Meaning := tileMove true g a t off s

/-- MRDV (R319). -/
def execMrdv (g : BitVec 4) (d t : BitVec 6) (part : BitVec 2) (s : State) : Meaning :=
  tileForm { ok := alignOk d 8 && decide (t.toNat < 16) } g s fun s _ => do
    let (p, grp) ← s.tile g t.toNat
    let (s', op) := s.openMat g (.v d.toNat 8) false
    s'.tileCmd grp { kind := .mrdv d.toNat part.toNat, group := 0, cls := 0, d := p, op, lanes := s.laneList g }

/-- MWRV (R319). -/
def execMwrv (g : BitVec 4) (d t : BitVec 6) (part : BitVec 2) (s : State) : Meaning :=
  tileForm { ok := alignOk d 8 && decide (t.toNat < 16), srcs := group 0 d.toNat 8 } g s fun s _ => do
    let (p, grp) ← s.tile g t.toNat
    let regs := (List.range 8).map (d.toNat + ·)
    s.tileCmd grp { kind := .mwrv part.toNat, group := 0, cls := 0, d := p, a := d.toNat, frag := s.captureFrag regs,
                    lanes := s.laneList g }

/-- MCVTS (R320). -/
def execMcvts (g : BitVec 4) (d t : BitVec 6) (part fmt : BitVec 2) (rsel : BitVec 3) (sat : BitVec 1) (s : State) : Meaning :=
  tileForm { ok := alignOk d 8 && decide (t.toNat < 16) } g s fun s _ => do
    let (p, grp) ← s.tile g t.toNat
    let (s', op) := s.openMat g (.v d.toNat 8) false
    let rms : Tab Nat := (s.taking g).map fun m => (m, bits (s.slice s.issuer.core m).fpctl 0 2)
    s'.tileCmd grp { kind := .mcvts d.toNat part.toNat fmt.toNat rsel.toNat (sat == 1), group := 0, cls := 0, d := p, op,
                     lanes := s.laneList g, rms }

/-! ## MREQ and MRAMP -/

/-- MREQ (R322-R323). -/
def execMreq (g : BitVec 4) (d a b : BitVec 6) (csrc : BitVec 2) (sc : BitVec 6) (ks : BitVec 5) (etype : BitVec 3)
    (cs : BitVec 5) (s : State) : Meaning :=
  let gs := matGroups a.toNat b.toNat sc.toNat 0 etype.toNat false 0
  gangwise { len := 8, mem := true, ok := decide (d.toNat < 16) && groupsOk gs && ks.toNat % 2 == 0,
             srcs := (groupRegs gs).map (fun r => (0, r)) ++ [(1, cs.toNat), (1, ks.toNat), (1, ks.toNat + 1)] } s fun s =>
    let core := s.issuer.core
    if !s.wholeWarp then s.faultAll g 0x02
    else if (s.taking g).isEmpty then .ok s
    else
      let x := s.slice core (s.issuer.slots.headD 0)
      let h := (x.sr cs.toNat).toNat
      if 255 < h then s.faultAll g 0x05 h
      else if !s.reach x.asid h then s.faultAll g 0x07 h
      else if 16 ≤ s.outbound core then .error .stall
      else
        let m : MCmd := { kind := .mma, group := 0, cls := 0, d := d.toNat, csrc := csrc.toNat, etype := etype.toNat,
                          a := a.toNat, b := b.toNat, sc := sc.toNat, frag := s.captureFrag (groupRegs gs),
                          ftz := ftzOf x.fpctl, zskip := zskipOf x.fpctl }
        let o : Op := { id := s.nextId, core, asid := x.asid, pc := s.issuer.pc, members := s.issuer.slots, left := 1,
                        lanes := s.gangLanes g }
        .ok ((s.openOp o).send core h x.asid (some o.id) (.mreq m (BitVec.ofNat 64 (x.spair ks.toNat)) d.toNat s.issuer.slots))

/-- The current ramp (R326). -/
def MUnit.ramp (u : MUnit) (cycle l : Nat) : MUnit :=
  if 256 ≤ u.idle cycle then { u with filler := some (cycle + 48), fillerCmd := false, holdEnd := some (cycle + 48 + l) }
  else { u with holdEnd := some (max (u.holdEnd.getD 0) (cycle + l)) }

def execMramp (g : BitVec 4) (b : BitVec 6) (x : BitVec 1) (s : State) : Meaning :=
  uniformly { ok := x == 1 && codeOk b, srcs := sbSrc b x } g s fun s core slot =>
    let l := max 64 (min 65535 ((s.slice core slot).uniform b x).toNat)
    .ok (s.modMat core fun u => u.ramp s.cycle.toNat l)

end Sys2Proof.Machine
end

