-- ==== Sys2Proof/Machine/EvMatrix.lean ====
section
/-! DEFINITION. Device steps of the matrix units (12 R303-R326): the products and sums of 03 R73-R75, the commands' effects,
suspension, filler and remote commands. -/

namespace Sys2Proof.Machine

/-! ## Elements -/

/-- Formats of A and of B by ETYPE (R307, Table 12-3). -/
def fmtA (e : Nat) : Fmt := match e with | 0 => f16 | 1 => bf16 | 2 | 6 => e4m3 | 4 => e2m1 | 5 => f32 | _ => e5m2
def fmtB (e : Nat) : Fmt := match e with | 0 => f16 | 1 => bf16 | 2 | 7 => e4m3 | 4 => e2m1 | 5 => f32 | _ => e5m2
/-- Elements per word (R306). -/
def perWord (e : Nat) : Nat := match e with | 5 => 1 | 0 | 1 => 2 | 4 => 8 | _ => 4

/-- A captured word. -/
def MCmd.word (c : MCmd) (reg lane : Nat) : Nat := (tget 0 c.frag (64 * reg + lane)).toNat
/-- Element `i` of a word. -/
def elemOf (e w i : Nat) : Nat := w / 2 ^ (32 / perWord e * i) % 2 ^ (32 / perWord e)
/-- Stored element (m, k) of A (R307). -/
def MCmd.aElem (c : MCmd) (m k : Nat) : Nat :=
  let w := k / perWord c.etype
  elemOf c.etype (c.word (c.a + w / 2) (m + 32 * (w % 2))) (k % perWord c.etype)
/-- Element (k, n) of B (R307). -/
def MCmd.bElem (c : MCmd) (k n : Nat) : Nat :=
  elemOf c.etype (c.word (c.b + k / perWord c.etype) n) (k % perWord c.etype)
/-- Byte `i` of a word. -/
def byteOf (w i : Nat) : Nat := w / 2 ^ (8 * i) % 256
/-- Kept positions of row m, group g (R308). -/
def MCmd.kept (c : MCmd) (m g : Nat) : List Nat :=
  let mask := byteOf (c.word (c.mt + g / 8) (m + 32 * (g / 4 % 2))) (g % 4)
  let n := match c.spn with | 0 => 1 | 1 => 2 | 2 => 4 | _ => 6
  ((List.range 8).filter fun i => mask / 2 ^ i % 2 == 1).take n
/-- Stored position in A of logical element (m, 8g + i), none when it is pruned (R308). -/
def MCmd.stored (c : MCmd) (m g i : Nat) : Option Nat :=
  if !c.sparse then some (8 * g + i)
  else
    let ps := c.kept m g
    if !ps.contains i then none
    else if wideK true c.spn then some (4 * g + ps.idxOf i) else some (8 * g + i)

/-- P(m, n, 8g + i) (03 R73-R75, 12 R309, R312). -/
def MCmd.product (c : MCmd) (m n g i : Nat) : Val :=
  match c.stored m g i with
  | none => .fin false 0 0 false
  | some k =>
    let fa := fmtA c.etype
    let fb := fmtB c.etype
    let small := c.etype != 4 && c.etype != 5
    let va := fa.decode (fa.flush (c.ftz && small) (c.aElem m k))
    let vb := fb.decode (fb.flush (c.ftz && small) (c.bElem (8 * g + i) n))
    if c.zskip && (va.isZero || vb.isZero) then .fin false 0 0 false
    else
      let p := (Val.mul va vb).1
      if c.etype != 4 then p
      else
        let b := g / 4
        let sa := byteOf (c.word c.sc (m + 32 * (b / 4))) (b % 4)
        let sb := byteOf (c.word (c.sc + 1 + b / 4) n) (b % 4)
        if sa = 255 ∨ sb = 255 then .nan false else (p.ldexp ((sa + sb : Nat) - 254)).1

/-- The exact sum of a group of eight (03 R73). -/
def MCmd.groupSum (c : MCmd) (m n g : Nat) : Val :=
  (List.range 7).foldl (fun v i => (Val.add .rne v (c.product m n g (i + 1))).1) (c.product m n g 0)

/-- One accumulation, rounded once. -/
def MCmd.accumulate (c : MCmd) (m n g : Nat) (acc : Word) : Word :=
  w32 (f32.encode .rne false false (Val.add .rne (f32.decode acc.toNat) (c.groupSum m n g)).1).1

/-! ## Tiles -/

/-- Key of element (m, n) of a physical tile. -/
def tileKey (t m n : Nat) : Nat := 2048 * t + 64 * m + n
def Core.tileAt (k : Core) (t m n : Nat) : Word := tget 0 k.tileData (tileKey t m n)
/-- All (m, n) of a tile. -/
def tileIx : List (Nat × Nat) := (List.range 32).flatMap fun m => (List.range 64).map fun n => (m, n)
def Core.setTile (k : Core) (t m n : Nat) (w : Word) : Core := { k with tileData := tset k.tileData (tileKey t m n) w }
/-- Every element of a tile. -/
def Core.mapTile (k : Core) (t : Nat) (f : Nat → Nat → Word) : Core :=
  tileIx.foldl (fun c p => c.setTile t p.1 p.2 (f p.1 p.2)) k
/-- Zeroes a tile. -/
def Core.zeroTile (k : Core) (t : Nat) : Core :=
  { k with tileData := k.tileData.filter fun e => !(decide (2048 * t ≤ e.1) && decide (e.1 < 2048 * (t + 1))) }

/-- One step of an MMA-class command (R312). -/
def Core.mmaStep (k : Core) (c : MCmd) : Core :=
  k.mapTile c.d fun m n =>
    let acc := if 0 < c.step ∨ c.csrc = 0 then k.tileAt c.d m n else if c.csrc = 1 then 0 else k.tileAt c.c m n
    c.accumulate m n c.step acc

/-! ## Commands -/

def MCmd.steps (c : MCmd) : Nat := logicalK c.etype (wideK c.sparse c.spn) / 8
/-- Cycles of the command, or of one step (Table 12-2). -/
def MCmd.cycles (c : MCmd) : Nat :=
  match c.kind with
  | .mma => 64 / c.steps
  | .zero ts => 8 * ts.length
  | .mld _ | .mst _ => 64
  | _ => 8

/-- Register writes of a row-wise read: the function gives the word of register j, lane n. -/
def MCmd.rowWrites (c : MCmd) (d : Nat) (f : Nat → Nat → Nat) : List RegWrite :=
  c.lanes.flatMap fun p => (List.range 8).map fun j => ⟨p.2, 0, 8 * (d + j) + p.1 % 8, f j p.1⟩

/-- One register of MCVTS: its elements and their flags (R320). -/
def MCmd.narrow (c : MCmd) (k : Core) (part fmt rsel : Nat) (sat : Bool) (slot j n : Nat) : Nat × Flg :=
  let e := if fmt < 2 then 2 else 4
  let mode := rselMode (rmOf (w32 (tget 0 c.rms slot))) rsel
  (List.range e).foldl (fun r i =>
    let x := cvtf 0 (fmt + 1) sat mode (k.tileAt c.d (e * (8 * part + j) + i) n).toNat
    (r.1 + x.1 * 2 ^ (32 / e * i), r.2 ||| x.2)) (0, 0)

/-- A word of a tile moves between the tile and LOCAL (R318): MST sets it full. -/
def State.moveWord (s : State) (core a tile : Nat) (store : Bool) (p : Nat × Nat) : State :=
  let key := a + 256 * p.1 + 4 * p.2
  if store then (s.write key 4 ((s.core core).tileAt tile p.1 p.2).toNat).setFe (key / 4) 1 false
  else s.modCore core fun k => k.setTile tile p.1 p.2 (w32 (mread s.mem key 4))
/-- The next `n` words of an MLD or MST, in ascending address order. -/
def State.moveWords (s : State) (core : Nat) (c : MCmd) (n : Nat) : State :=
  let ws := (tileIx.drop c.step).take n
  match c.kind with
  | .mld a => ws.foldl (fun s p => s.moveWord core a c.d false p) s
  | .mst a => ws.foldl (fun s p => s.moveWord core a c.d true p) s
  | _ => s

/-- The effect of a command that is not of the MMA class (R317-R320): of an MLD or MST, the words that have not moved yet. The flags
of MCVTS go to the slices that issued it, while their slots are theirs. The registers were written in the command's last cycle, which is
past (R305): they are readable at once. -/
def State.performTile (s : State) (core : Nat) (c : MCmd) : State :=
  let k := s.core core
  let set (f : Op → Op) (s : State) : State :=
    match s.op? c.op with
    | some o => o.members.foldl (fun s t => s.modSlice core t fun x => { x with pending := x.pending.filter (·.op != o.id) })
        (s.finishOp (f o))
    | none => s
  match c.kind with
  | .mma => s
  | .zero ts => s.modCore core fun k => ts.foldl Core.zeroTile k
  | .mld _ | .mst _ => set id (s.moveWords core c 2048)
  | .mrdv d part => set (fun o => { o with writes := c.rowWrites d fun j n => (k.tileAt c.d (8 * part + j) n).toNat }) s
  | .mwrv part => s.modCore core fun k =>
      c.lanes.foldl (fun k p => (List.range 8).foldl (fun k j => k.setTile c.d (8 * part + j) p.1
        (w32 (c.word (c.a + j) p.1))) k) k
  | .mcvts d part fmt rsel sat =>
    let val (p : Nat × Nat) (j : Nat) : Nat × Flg := c.narrow k part fmt rsel sat p.2 j p.1
    let slotOf (n : Nat) : Nat := ((c.lanes.lookup n)).getD 0
    let mine : List Nat := ((s.op? c.op).map (·.members)).getD []
    let s := c.lanes.foldl (fun s p =>
      let fl := (List.range 8).foldl (fun m j => m ||| (val p j).2) 0
      if mine.contains p.2 then s.modSlice core p.2 fun x => if x.live then x.orFlags fl else x else s) s
    set (fun o => { o with writes := c.rowWrites d fun j n => (val (n, slotOf n) j).1 }) s

/-! ## The unit -/

/-- The fragment that an odd group's command waits for (R314). -/
def MUnit.fragFor (u : MUnit) (c : MCmd) : Option (Nat × Nat × Tab Word) :=
  u.afrags.find? fun f => f.1 == c.group && f.2.1 == c.j
/-- The head of a class queue can start. -/
def MUnit.ready (u : MUnit) (cycle : Nat) (c : MCmd) : Bool :=
  decide (c.entered < cycle) && (c.team != 2 || c.step != 0 || (u.fragFor c).isSome)
/-- The oldest command of the highest class that can start (R304). -/
def MUnit.next (u : MUnit) (cycle : Nat) : Option MCmd :=
  [3, 2, 1, 0].findSome? fun c => (u.q c).head?.filter (u.ready cycle)
/-- Takes a command from its queue, with the partner's A fragment in an odd group's. Words of A that the fragment does not hold, since
the partner's command reads fewer A registers, are zero (DESIGN CHOICE: R314 does not say; log 82). -/
def MUnit.take (u : MUnit) (c : MCmd) : MUnit × MCmd :=
  let u' := u.setQ c.cls ((u.q c.cls).drop 1)
  match if c.team = 2 ∧ c.step = 0 then u.fragFor c else none with
  | some f => ({ u' with afrags := u.afrags.filter fun g => !(g.1 == f.1 && g.2.1 == f.2.1) },
      { c with frag := f.2.2.foldl (fun m e => tset m (64 * c.a + e.1) e.2) c.frag })
  | none => (u', c)

/-- MATRIX_COMMAND_START (R304-R305, R325): the chosen command starts, or filler begins for it, unless one has served it. One that is
not of the MMA class may start during the filler of an MRAMP (DESIGN CHOICE: R326 has MMA-class commands wait; log 82). -/
def execEvMatrixCommandStart (core : Nat) (s : State) : Meaning :=
  let u := (s.core core).mat
  let now := s.cycle.toNat
  match u.running, u.next now with
  | none, some c =>
    if u.filler.isSome && (u.fillerCmd || c.kind.isMma) then .next s
    else if c.kind.isMma && !u.served.contains c.cls && decide (256 ≤ u.idle now) then
      .next (s.modMat core fun u => { u with filler := some (now + 47), fillerCmd := true, served := u.served ++ [c.cls] })
    else
      .next (s.modMat core fun u =>
        let r := u.take c
        { r.1 with running := some (r.2, now + r.2.cycles - 1),
                   served := if c.kind.isMma then u.served.filter (· != c.cls) else u.served })
  | _, _ => .next s

/-- A command of a higher class waits (R304). -/
def MUnit.higher (u : MUnit) (cycle : Nat) (c : MCmd) : Bool :=
  match u.next cycle with | some d => decide (c.cls < d.cls) | none => false

/-- MATRIX_STEP_END: a step other than the last ends; the command goes on, or is suspended (R304). Of an MLD or MST, the next word moves:
other accesses may come before the one after it (R318). -/
def execEvMatrixStepEnd (core : Nat) (s : State) : Meaning :=
  let u := (s.core core).mat
  let now := s.cycle.toNat
  match u.running with
  | some (c, e) =>
    if c.kind.isMma && decide (c.step + 1 < c.steps) && decide (e < now) then
      let s := s.modCore core fun k => k.mmaStep c
      let c := { c with step := c.step + 1, entered := e }
      .next (s.modMat core fun u =>
        if u.higher now c then { u.setQ c.cls (c :: u.q c.cls) with running := none, since := max u.since (e + 1) }
        else { u with running := some (c, e + c.cycles) })
    else if !c.kind.isMma && decide (c.step + 1 < 2048) then
      match c.kind with
      | .mld _ | .mst _ => .next ((s.moveWords core c 1).modMat core fun u => { u with running := some ({ c with step := c.step + 1 }, e) })
      | _ => .next s
    else .next s
  | none => .next s

/-- The last command of a retired group releases its tiles (R300). -/
def State.endTiles (s : State) (core g : Nat) : State :=
  match s.group? g with
  | some x => if x.retired then s.modCore core fun k => k.freeTiles g else s
  | none => s.modCore core fun k => k.freeTiles g

/-- MATRIX_COMMAND_END (R305, R312, R317-R320). -/
def execEvMatrixCommandEnd (core : Nat) (s : State) : Meaning :=
  let u := (s.core core).mat
  match u.running with
  | some (c, e) =>
    if decide (e < s.cycle.toNat) && (!c.kind.isMma || decide (c.steps ≤ c.step + 1)) then
      let s := if c.kind.isMma then s.modCore core fun k => k.mmaStep c else s.performTile core c
      .next ((s.modMat core fun u =>
        { u with running := none, since := if c.kind.isMma then max u.since (e + 1) else u.since }).endTiles core c.group)
    else .next s
  | none => .next s

/-- FILLER_END (R325). -/
def execEvFillerEnd (core : Nat) (s : State) : Meaning :=
  match (s.core core).mat.filler with
  | some e => .next (if e < s.cycle.toNat then
      s.modMat core fun u => { u with filler := none, fillerCmd := false, since := max u.since (e + 1) } else s)
  | none => .next s

/-- RAMP_HOLD_END (R326). -/
def execEvRampHoldEnd (core : Nat) (s : State) : Meaning :=
  match (s.core core).mat.holdEnd with
  | some e => .next (if e < s.cycle.toNat then
      s.modMat core fun u => { u with holdEnd := none, since := max u.since (e + 1) } else s)
  | none => .next s

/-- The owner of MCAP, while it is resident (R321). -/
def State.mcapOwner (s : State) (core : Nat) : Option (Nat × Group) :=
  (s.core core).mat.owner.bind fun g => (s.group? g).bind fun x => if x.saved || x.retired then none else some (g, x)

/-- A remote command may take an entry of a class queue: one is free, and no other remote command has been refused before it (R323,
06 R160). -/
def MUnit.remoteRoom (u : MUnit) (flight c : Nat) : Bool :=
  decide (((u.q c).filter (·.step == 0)).length < 4) && ((u.refused.find? (·.2 == c)).map (·.1)).all (· == flight)

/-- What core `dst` does with a remote command of a flight: it is entered, faulted, or refused (R323). It enters after the commands that
the core's own gangs enter in the cycle (R303). -/
def State.arriveRemote (s : State) (f : Flight) (m : MCmd) (cap : BitVec 64) (name : Nat) : State :=
  let fail (code : Nat) : State :=
    let s := s.dropFlight f.id
    match f.op.bind s.op? with
    | some o => s.finishOp { o with fault := some (code, f.dst) }
    | none => s
  let k := s.core f.dst
  match s.mcapOwner f.dst with
  | none => fail 0x15
  | some (g, x) =>
    if k.mat.mcap != cap || cap == 0 then fail 0x15
    else match k.allocTile g name with
      | none => fail 0x16
      | some d =>
        if k.mat.remoteRoom f.id x.mclass then
          ((s.dropFlight f.id).enterMat f.dst { m with group := g, cls := x.mclass, d } s.doneCycle).dropOp (f.op.getD 0)
        else if k.mat.refused.contains (f.id, x.mclass) then s
        else s.modMat f.dst fun u => { u with refused := (u.refused.filter (·.1 != f.id)) ++ [(f.id, x.mclass)] }

/-- REMOTE_MMA_ARRIVAL (R323-R324), and the retry of a refused command. A refused command is listed until it leaves the network. -/
def execEvRemoteMmaArrival (flight : Nat) (s : State) : Meaning :=
  match s.flight? flight with
  | some f =>
    match f.pkt with
    | .mreq m cap name _ =>
      if s.first f && s.coreDone f.dst then
        let t := s.arriveRemote f m cap name
        .next (t.modMat f.dst fun u => { u with refused := u.refused.filter fun r => (t.flight? r.1).isSome })
      else .next s
    | _ => .next s
  | none => .next s

/-- TEAM_FRAGMENT_ARRIVAL (R314): for a group that has retired without a command left, it is dropped. -/
def execEvTeamFragmentArrival (flight : Nat) (s : State) : Meaning :=
  s.onFlight flight fun f s =>
    match f.pkt with
    | .afrag g j a =>
      let gone := (match s.group? g with | some x => x.retired | none => true) && !(s.core f.dst).mat.has g
      some (if gone then s else s.modMat f.dst fun u => { u with afrags := u.afrags ++ [(g, j, a)] })
    | _ => none

/-- A write of a half of MCAP by a slice (R321); none when its group has no tile. -/
def State.mcapWrite (s : State) (core slot : Nat) (hi : Bool) (value : Word) : Option State :=
  let x := s.slice core slot
  let k := s.core core
  if x.handler || k.allotment x.group == 0 then none
  else
    let old : BitVec 64 := if k.mat.owner == some x.group then k.mat.mcap else 0
    let v : BitVec 64 := if hi then value ++ old.setWidth 32 else (old.extractLsb' 32 32) ++ value
    some (s.modMat core fun u => { u with mcap := v, owner := some x.group })
/-- MCAP as a slice reads it (R321). -/
def State.mcapRead (s : State) (core slot : Nat) : BitVec 64 :=
  let x := s.slice core slot
  let u := (s.core core).mat
  if !x.handler && u.owner == some x.group then u.mcap else 0

/-- MCAP_WRITE: the register's own part of an SWR (R321). -/
def execEvMcapWrite (core slot : Nat) (hi : Bool) (value : Word) (s : State) : Meaning :=
  .next (if (s.slice core slot).live then (s.mcapWrite core slot hi value).getD s else s)

end Sys2Proof.Machine
end

