-- ==== Sys2Proof/Machine/TravQuery.lean ====
section
/-! DEFINITION. TRQ, TRPOLL, TRKILL and TRLOAD (13 R359-R367). -/

namespace Sys2Proof.Machine

/-! ## The rake, as its core sees it -/

/-- Offset and length of a loaded kernel. -/
def Rake.kernel (r : Rake) (asid kid : Nat) : Option (Nat × Nat) :=
  (r.kernels.find? fun k => k.1 == asid && k.2.1 == kid).map fun k => (k.2.2.1, k.2.2.2)
/-- Free request entries, ascending (R327). -/
def Rake.freeEntries (r : Rake) : List Nat := (List.range 512).filter fun i => !(tget {} r.reqs i).used
/-- A slice holds a request entry. -/
def TReq.ownedBy (q : TReq) (x : Slice) (slot : Nat) : Bool :=
  q.used && q.slot == slot && q.group == x.group && q.start == x.startCycle && q.asid == x.asid

/-! ## TRQ -/

/-- W31 at the start (Table 13-2). -/
def w31Of (rqe kid core dev spsh : Nat) (mig ord : Bool) : Word :=
  w32 (rqe + kid * 2 ^ 9 + (if mig then 2 ^ 13 else 0) + (if ord then 2 ^ 14 else 0) + core * 2 ^ 16 + dev * 2 ^ 24 + spsh * 2 ^ 27)

/-- Context of a lane's thread (R331, R360). -/
def State.startContext (s : State) (f : TrqF) (slot lane rqe : Nat) : List Word :=
  let x := s.slice s.issuer.core slot
  let base := x.spair f.sp.toNat + x.laneIx lane * 2 ^ (f.spsh.toNat + 8)
  ((List.range 12).map fun i => x.vr (f.a.toNat + i) lane) ++ List.replicate 16 0 ++
    [w32 base, w32 (base / 2 ^ 32), 0,
      w31Of rqe f.kid.toNat s.issuer.core s.mgmt.devnum f.spsh.toNat (f.mig == 1) (f.ord == 1)]

/-- Starts the traversals of one member; `id` is its operation or the number of its TRAV_DONE. -/
def State.startMember (s : State) (f : TrqF) (slot id : Nat) : State × List Nat :=
  let core := s.issuer.core
  let x := s.slice core slot
  (x.lanes f.g).foldl (fun p lane =>
    let rqe := (p.1.rake core).freeEntries.headD 0
    let q : TReq := { used := true, slot, lane, asid := x.asid, op := id, repack := f.mode == 1, d := f.d.toNat,
                      n := f.nres.toNat + 1, tgt := f.tgt.toNat, note := f.note == 1, waiting := true, group := x.group,
                      start := x.startCycle, w := p.1.startContext f slot lane rqe }
    (p.1.modRake core fun r => { r with reqs := tset r.reqs rqe q, order := r.order ++ [rqe] }, p.2 ++ [rqe])) (s, [])

/-- The operation of a member in RETURN mode, or its account for TRAV_DONE. -/
def State.openTrav (s : State) (f : TrqF) (slot : Nat) : State × Nat :=
  let core := s.issuer.core
  let x := s.slice core slot
  let k := (x.lanes f.g).length
  let id := s.nextId
  if f.mode == 0 then
    (s.openOp { s.unitOp slot 0 0 with code := some 5, dest := .v f.d.toNat (f.nres.toNat + 2), left := k }, id)
  else
    ({ s.modRake core (fun r => if f.note == 1 then { r with notes := r.notes ++ [(id, x.sr f.d.toNat, k, 0, 0, k)] } else r) with
        nextId := id + 1 }, id)

/-- Operand checks of R359. -/
def trqOk (f : TrqF) : Bool :=
  decide (f.a.toNat ≤ 52) && f.sp.toNat % 2 == 0 && decide (f.sp.toNat ≤ 30) &&
  (if f.mode == 0 then decide (f.d.toNat + f.nres.toNat + 1 ≤ 63) else f.note == 0 || sOk f.d)

def execTrq (f : TrqF) (s : State) : Meaning :=
  gangwise { len := 8, mem := true, ok := trqOk f,
             srcs := group 0 f.a.toNat 12 ++ group 1 f.sp.toNat 2 ++ (if f.note == 1 then [(1, f.d.toNat)] else []) } s fun s =>
    let core := s.issuer.core
    let ts := s.taking f.g
    if ts.isEmpty then .ok s
    else do
      let kid := f.kid.toNat
      s.checkMembers f.g fun x =>
        if ((s.rake core).kernel x.asid kid).isNone then some (0x07, kid)
        else if x.spair f.sp.toNat % 32 ≠ 0 then some (0x04, x.spair f.sp.toNat % 2 ^ 52) else none
      let asid := (s.slice core (ts.headD 0)).asid
      let st := f.struct.toNat
      if !s.ownsStruct asid st then s.faultAll f.g 0x07 st
      else if (s.rake core).freeEntries.length < (s.gangLanes f.g).length then .error .stall
      else if f.mode == 0 && ts.any (fun t => decide (255 ≤ (s.slice core t).count 5)) then .error .stall
      else do
        s.releaseGang f.g 4
        let (s, es) := ts.foldl (fun (p : State × List Nat) t =>
          let (s, id) := p.1.openTrav f t
          let (s, l) := s.startMember f t id
          (s, p.2 ++ l)) (s, [])
        pure (s.send core nodeTable asid none (.table (.pinLanes st core 0 es)))

/-! ## TRPOLL, TRKILL, TRLOAD -/

/-- Thread slots in use. -/
def Rake.inUse (r : Rake) : Nat := ((List.range 32).filter fun i => (tget {} r.threads i).used).length

def execTrpoll (g : BitVec 4) (d : BitVec 6) (s : State) : Meaning :=
  uniformly { len := 8, ok := sOk d } g s fun s core slot =>
    let r := s.rake core
    .ok (s.modSlice core slot fun x => x.setS d.toNat
      (w32 (r.freeEntries.length + r.inUse * 2 ^ 16 + r.inbound.length * 2 ^ 22)))

/-- TRKILL: the entries of the member, or of its group, are marked; their threads end wherever they run (R366). -/
def execTrkill (g : BitVec 4) (sc : BitVec 1) (s : State) : Meaning :=
  uniformly { len := 8 } g s fun s core slot =>
    let x := s.slice core slot
    let hit (q : TReq) : Bool := q.ownedBy x slot || (sc == 1 && !x.handler && q.used && q.group == x.group)
    .ok (s.modRake core fun r => { r with reqs := r.reqs.map fun (i, q) => (i, if hit q then { q with kill := true } else q) })

/-- Operands of TRLOAD (R367): kernel, core, offset, length, image. -/
structure LoadArgs where
  kid : Nat
  core : Nat
  first : Nat
  words : Nat
  image : Nat
deriving DecidableEq, Repr

def loadArgs (x : Slice) (a b : BitVec 6) (c : BitVec 5) : LoadArgs :=
  let k := x.sr b.toNat
  let v := x.sr c.toNat
  ⟨bits k 0 4, bits k 8 8, bits v 0 12, bits v 16 12, x.spair a.toNat⟩

def execTrload (g : BitVec 4) (d a b : BitVec 6) (c : BitVec 5) (s : State) : Meaning :=
  gangwise { len := 8, mem := true, ok := sOk d && sOk a && sOk b && alignOk a 2,
             srcs := group 1 a.toNat 2 ++ [(1, b.toNat), (1, c.toNat)] } s fun s => do
    let core := s.issuer.core
    s.checkMembers g fun x =>
      let k := x.sr b.toNat
      let v := x.sr c.toNat
      let l := loadArgs x a b c
      if bits k 4 4 != 0 || bits k 16 16 != 0 then some (0x02, k.toNat)
      else if bits v 12 4 != 0 || bits v 28 4 != 0 || l.words == 0 || decide (2048 < l.words) then some (0x02, v.toNat)
      else if l.image % 4 ≠ 0 then some (0x04, l.image % 2 ^ 52)
      else if !s.reach x.asid l.core then some (0x07, l.core) else none
    if (s.taking g).isEmpty then pure s
    else if (s.taking g).any fun t => decide (255 ≤ (s.slice core t).count 4) then .error .stall
    else do
      s.releaseGang g 4
      pure ((s.taking g).foldl (fun s t =>
        let l := loadArgs (s.slice core t) a b c
        let o := { s.unitOp t d.toNat 1 with code := some 4 }
        (s.openOp o).send core (nodeRake l.core) o.asid (some o.id)
          (.kload t d.toNat l.kid l.first l.words l.image l.core)) s)

end Sys2Proof.Machine
end

