-- ==== Sys2Proof/Machine/EvPlan.lean ====
section
/-! DEFINITION. Device steps of the structure version table and the deadline commit unit (14 R378, R387-R393). -/

namespace Sys2Proof.Machine

/-- TABLE_REQUEST: one request, in order of arrival (R378). -/
def execEvTableRequest (flight : Nat) (s : State) : Meaning :=
  s.onFlight flight fun f s =>
    match f.pkt with
    | .table (.pinLanes st core _ es) =>
      let (s, n) := s.pinLanes f.asid st es.length
      some (s.modRake core fun r => es.foldl (fun (r : Rake) e =>
        let q : TReq := tget {} r.reqs e
        { r with reqs := tset r.reqs e { q with pin := n.map fun n => (st, n), waiting := false } }) r)
    | .table (.pin st op slot d) => let (s, ws) := s.pinCurrent f.asid st; some (s.answer op slot d ws)
    | .table (.unpin st n) => some (if s.ownsStruct f.asid st then s.unpinSlot st n else s)
    | .table (.publish st op slot d core root inv) =>
      let (s, ws) := s.publishRoot f.asid st core root inv
      some (s.answer op slot d ws)
    | _ => none

/-- A PLARM or PLBIT that is accepted reads its data; the others are answered at once (R387-R389, R392). -/
def State.planArrives (s : State) (f : Flight) (slot : Nat) (r : PlanReq) : State :=
  let p := s.plan slot
  let own := s.ownsPlan f.asid slot
  let go (outp : Nat) : State := s.send nodePlan nodePlan f.asid f.op (.planData slot r outp)
  match r with
  | .arm _ _ _ b =>
    if r.malformed then r.reply s [plMalformed]
    else if !own then r.reply s [plNotArmed]
    else if p.state = 1 ∨ p.state = 2 then r.reply s [plBusy]
    else match s.translateUnit f.asid (recNat b 8 8) .store with
      | .ok k => if k < 2 ^ 52 then go k else r.reply s [plFault]
      | .error _ => r.reply s [plFault]
  | .bit _ _ _ _ => if r.malformed then r.reply s [plMalformed] else go 0
  | .qry _ _ _ =>
    if own then r.reply s [p.state + p.outcome * 2 ^ 8, p.deadline.toNat % 2 ^ 32, p.deadline.toNat / 2 ^ 32, p.tag.toNat]
    else r.reply s [0, 0, 0, 0]
  | .dis _ _ _ =>
    if !own || p.state == 0 then r.reply s [plNotArmed]
    else if p.state == 2 then r.reply s [plBusy]
    else r.reply (s.modPlan slot fun p => { p with state := 0, outcome := 0, fb := [] }) [plDone]
  | .com _ _ _ _ => s

/-- PLAN_REQUEST_ARRIVAL (R387); an output address that waits for the run-time keeps the request (log 29). -/
def execEvPlanRequestArrival (flight : Nat) (s : State) : Meaning :=
  match s.flight? flight with
  | none => .next s
  | some f =>
    match f.pkt with
    | .plan _ (.com _ _ _ _) => .next s
    | .plan slot r =>
      if !s.first f || s.waitsReplay (.flight f.id) then .next s
      else
        let s := s.expireDue slot
        let out : Option Nat := match r with
          | .arm _ _ _ b =>
            let p := s.plan slot
            if r.malformed || !s.ownsPlan f.asid slot || p.state == 1 || p.state == 2 then none else some (recNat b 8 8)
          | _ => none
        let s := match out with | some a => s.walkNow f.asid a | none => s
        let ask : Option (Nat × Nat × Nat) := out.bind fun a => match s.translateUnit f.asid a .store with
          | .error (.fail 0x06 reason level) => some (a, reason, level)
          | _ => none
        match ask with
        | some (va, reason, level) => .next (s.postReplay (.flight f.id) f.asid 0x01A0 slot 2 va 0 0x06 reason level).1
        | none => .next ((s.dropFlight f.id).planArrives f slot r)
    | _ => .next s

/-- The read of a flight that the unit sent itself. -/
def State.onRead (s : State) (id : Nat) (p : PlanReq → Bool) : Meaning :=
  match s.flight? id with
  | some f => match f.pkt with
    | .planData slot r outp => .next (if p r then s.readOn f slot r outp else s)
    | _ => .next s
  | none => .next s

/-- PLARM_READ_COMPLETE (R388). -/
def execEvPlarmReadComplete (flight : Nat) (s : State) : Meaning :=
  s.onRead flight fun r => match r with | .arm _ _ _ _ => true | _ => false
/-- PLBIT_READ_COMPLETE (R389). -/
def execEvPlbitReadComplete (flight : Nat) (s : State) : Meaning :=
  s.onRead flight fun r => match r with | .bit _ _ _ _ => true | _ => false

/-- LASTINV has passed a version (R390). -/
def staleVersion (lastinv version : Word) : Bool := let d := (lastinv - version).toNat; decide (1 ≤ d) && decide (d < 2 ^ 31)

/-- PLCOM_ARRIVAL: the decision (R390). One that comes in a tick at or after DEADLINE is LATE, in the tick of the arming too, whose
slot expires in the next (R388, R391). -/
def execEvPlcomArrival (flight : Nat) (s : State) : Meaning :=
  s.onFlight flight fun f s =>
    match f.pkt with
    | .plan slot (.com op t d b) =>
      let r : PlanReq := .com op t d b
      let s := s.expireDue slot
      let p := s.plan slot
      let w := recNat b 12 4
      if r.malformed then some (r.reply s [plMalformed])
      else if !s.ownsPlan f.asid slot then some (r.reply s [plNotArmed])
      else if p.state ≠ 1 then some (r.reply s [p.notArmed])
      else if p.deadline.toNat ≤ s.time.toNat then some (r.reply s [plLate])
      else if !bitAt w 8 && staleVersion (s.struct (w % 2 ^ 8)).lastinv (w32 (recNat b 16 4)) then some (r.reply s [plStale])
      else
        let s := s.modPlan slot fun p => { p with state := 2, jobTime := s.time.toNat }
        some ((r.reply s [plDone]).send nodePlan nodePlan f.asid none (.planData slot r 0))
    | _ => none

/-- The commit under way in a slot. -/
def State.commitOf (s : State) (slot : Nat) : Option (Flight × PlanReq) :=
  s.flights.findSome? fun f => match f.pkt with
    | .planData n (.com a b c r) _ => if n == slot then some (f, .com a b c r) else none
    | _ => none

/-- A COMMITTING slot goes on: it completes, with the plan, or with the fallback when that cannot be read, or its read waits (R390). -/
def State.commitOn (s : State) (slot : Nat) : State :=
  match s.commitOf slot with
  | some (f, r) => s.readOn f slot r 0
  | none => s

/-- PLAN_WRITE_COMPLETE (R390). -/
def execEvPlanWriteComplete (slot : Nat) (s : State) : Meaning := .next (s.commitOn slot)

/-- DEADLINE_EXPIRY (R391), at any moment of its tick; a request to the slot, and the end of the tick, bring it at the latest. -/
def execEvDeadlineExpiry (slot : Nat) (s : State) : Meaning := .next (s.expireDue slot)

/-- The read of a commit has failed: the fallback is written (R390). -/
def State.commitFails (s : State) (slot : Nat) : State :=
  match s.commitOf slot with
  | some (f, r) =>
    let s := { s with replays := s.replays.filter fun (r : Replay) => r.who != Waiter.flight f.id }
    (s.dropFlight f.id).planRead f slot r 0 none
  | none => s

/-- Assigned slots in a state. -/
def State.slotsIn (s : State) (state : Nat) (p : Plan → Bool) : List Nat :=
  (List.range 64).filter fun n => (s.plan n).state == state && p (s.plan n)

/-- The slots end (R394, R395): every ARMED one publishes its fallback, PLAN_STATUS apart, then every COMMITTING one goes on. -/
def State.endPlans (s : State) (p : Plan → Bool) : State :=
  let s := (s.slotsIn 1 p).foldl (fun s n => s.publishFallback n false) s
  (s.slotsIn 2 p).foldl State.commitOn s

end Sys2Proof.Machine
end

