-- ==== Sys2Proof/Machine/Units.lean ====
section
/-! DEFINITION. Unit control (15 R399, Table 15-2): the eight kinds, each with its UCSTAT outcome. -/

namespace Sys2Proof.Machine

def ucDone : Nat := 0
def ucRefused : Nat := 1
def ucNone : Nat := 2

/-! ## Cluster extents and RAW regions -/

/-- Every block of an extent becomes ZERO (06 R169). -/
def State.zeroExtent (s : State) (c x : Nat) : State :=
  let s := { s with mem := mclear s.mem (clusterBase c + 65536 * x) 65536 }
  let inside (b : Nat) : Bool := b / 256 == x
  (s.modCluster c fun k => { k with segs := k.segs.filter fun p => !inside p.1,
                                    grainer := k.grainer.filter fun p => !inside p.1 }).poolChanged c

def State.ucExtent (s : State) (inst : Nat) (d0 : Word) : State × Nat :=
  let c := inst / 192
  let x := inst % 192
  if 3072 ≤ inst then (s, ucNone)
  else
    let asid := bits d0 0 16
    let owner := (s.cluster c).extents.lookup x
    if d0.getLsbD 16 && owner == some asid then (s, ucDone)
    else
      let s := if owner.isSome then s.zeroExtent c x else s
      (s.modCluster c fun k => { k with extents := if d0.getLsbD 16 then tset k.extents x asid else tdel k.extents x }, ucDone)

def State.ucRaw (s : State) (inst : Nat) (d0 d1 d2 : Word) : State × Nat :=
  let c := inst / 8
  let n := inst % 8
  if 128 ≤ inst then (s, ucNone)
  else
    let k := s.cluster c
    let rest := k.raw.filter (·.1 != n)
    let gone := (k.raw.filter (·.1 == n)).flatMap fun r => (List.range r.2.2).map (r.2.1 + ·)
    let raw' := if d2.getLsbD 0 then rest ++ [(n, d0.toNat, d1.toNat)] else rest
    let base : Cluster := { k with raw := raw' }
    let k' : Cluster := { base with segs := gone.foldl (fun t b => if base.inRaw b then t else tset t b 8) k.segs }
    if d2.getLsbD 0 && (decide (clusterBlocks < d0.toNat + d1.toNat) || decide (k'.free < 2048)) then (s, ucRefused)
    else ((s.modCluster c fun _ => k').poolChanged c, ucDone)

/-- Pool-fail control: every access parked on the pool at that moment fails (06 R176, 08 R215). -/
def State.ucPoolFail (s : State) (inst : Nat) (d0 : Word) : State × Nat :=
  if 16 ≤ inst then (s, ucNone)
  else if !d0.getLsbD 0 then (s, ucDone)
  else
    let s := (s.poolParked inst).foldl (fun s p => s.poolFault (p.1 / 128) (p.1 % 128)) s
    ([2 * inst, 2 * inst + 1].foldl (fun s e => s.modEngine e fun q => { q with active := q.active.map CopyReq.poolEnd }) s,
      ucDone)

/-! ## Launch queues -/

/-- A write of a queue's configuration (11 R270-R271). -/
def State.ucQueue (s : State) (q : Nat) (d0 d1 : Word) : State × Nat :=
  if 128 ≤ q then (s, ucNone)
  else
    let c := s.queue q
    let asid := bits d0 0 16
    let enable := d1.getLsbD 0
    let level := bits d1 3 6
    let depth := bits d1 10 11
    let held := if d1.getLsbD 9 then 0 else c.records.length
    let others := ((s.queues.filter fun p => p.1 != q).map fun p => p.2.depth).sum
    if 8192 < others + depth ∨ 1024 < depth ∨ (depth = 0 ∧ enable) ∨ depth < held ∨ (c.asid ≠ some asid ∧ held ≠ 0) then
      (s, ucRefused)
    else
      let s := if d1.getLsbD 9 then s.flushQueue q else s
      let now := s.cycle.toNat
      ((s.modQueue q fun c =>
        { c with enable := enable, asid := if depth = 0 then none else some asid, level := level, shed := d1.getLsbD 1,
                 devq := d1.getLsbD 2, depth := depth, eff := if level = c.level then c.eff else level,
                 aged := if level = c.level then c.aged else now }).refreshHead q, ucDone)

/-! ## The other kinds -/

/-- A deque is emptied when it is reassigned, one that is saved too (11 R294). -/
def State.ucDeque (s : State) (inst : Nat) (d0 : Word) : State × Nat :=
  if 256 ≤ inst then (s, ucNone)
  else
    let lose (p : Nat × Group) : Nat × Group := (p.1, if p.2.core == inst then { p.2 with savedDeque := false } else p.2)
    let s := { s with groups := s.groups.map lose }
    (s.modCore inst fun k =>
      { k with deque := { owner := if d0.getLsbD 16 then some (bits d0 0 16) else none } }, ucDone)

def State.ucStruct (s : State) (inst : Nat) (d0 : Word) : State × Nat :=
  if 256 ≤ inst then (s, ucNone)
  else if d0.getLsbD 16 then
    match s.assignStruct inst (bits d0 0 16) with
    | some t => (t, ucDone)
    | none => (s, ucRefused)
  else (if (s.struct inst).assigned then s.releaseStruct inst else s, ucDone)

def State.ucPlan (s : State) (inst : Nat) (d0 : Word) : State × Nat :=
  if 64 ≤ inst then (s, ucNone)
  else match s.releasePlan inst with
    | none => (s, ucRefused)
    | some t =>
      (if d0.getLsbD 16 then t.modPlan inst fun p => { p with assigned := true, asid := bits d0 0 16 } else t, ucDone)

/-- Program-memory regions (13 R367); a change drops the kernels of the contexts concerned (log 32). -/
def State.ucProgram (s : State) (inst : Nat) (d0 d1 d2 : Word) : State × Nat :=
  let core := inst / 16
  let n := inst % 16
  if 4096 ≤ inst then (s, ucNone)
  else
    let r := s.rake core
    let first := bits d1 0 12
    let len := bits d2 0 13
    let rest := r.regions.filter (·.1 != n)
    let old := (r.regions.filter (·.1 == n)).map (·.2.1)
    let clash := rest.any fun x => decide (x.2.2.1 < first + len) && decide (first < x.2.2.1 + x.2.2.2)
    if d0.getLsbD 16 && (decide (4096 < first + len) || clash) then (s, ucRefused)
    else
      (s.modRake core fun r =>
        { r with regions := if d0.getLsbD 16 then rest ++ [(n, bits d0 0 16, first, len)] else rest,
                 kernels := r.kernels.filter fun k => !old.contains k.1 }, ucDone)

/-- UCCMD: performs the request that UCSEL and UCDATA hold (R399). -/
def State.ucCommand (s : State) : State :=
  let inst := bits s.sys.ucsel 8 16
  let d0 := s.sys.ucdata0
  let d1 := s.sys.ucdata1
  let d2 := s.sys.ucdata2
  let (s, st) := match bits s.sys.ucsel 0 8 with
    | 1 => s.ucExtent inst d0
    | 2 => s.ucRaw inst d0 d1 d2
    | 3 => s.ucPoolFail inst d0
    | 4 => s.ucQueue inst d0 d1
    | 5 => s.ucDeque inst d0
    | 6 => s.ucStruct inst d0
    | 7 => s.ucPlan inst d0
    | 8 => s.ucProgram inst d0 d1 d2
    | _ => (s, ucNone)
  { s with sys := { s.sys with ucstat := w32 st } }

end Sys2Proof.Machine
end

