-- ==== Sys2Proof/Machine/System.lean ====
section
/-! DEFINITION. System registers, traps and returns: SRD, SWR, TRAP, BRK, TRET, ERET, HALTG (15 R397-R409). -/

namespace Sys2Proof.Machine

/-! ## Translation caches and the event queue -/

/-- A write of XLINV (R403): matching entries leave every translation cache. -/
def State.xlinv (s : State) (w : Word) : State :=
  let a := s.sys.xlinva.toNat * 2 ^ 16 + bits w 20 4 * 2 ^ 48
  let hit (e : TlbEntry) : Bool :=
    (w.getLsbD 16 || e.asid == bits w 0 16) && (!w.getLsbD 17 || w.getLsbD 16 || e.base == a / 2 ^ e.bits * 2 ^ e.bits)
  let keep (l : List TlbEntry) : List TlbEntry := l.filter fun e => !hit e
  { s with cores := s.cores.map fun (i, k) => (i, { k with tlb := keep k.tlb }),
           clusters := s.clusters.map fun (i, k) => (i, { k with tlb := keep k.tlb }) }

/-- The gang parked on a REPLAY record. -/
def State.replayGang (s : State) (core idx : Nat) : List Nat :=
  (List.range 128).filter fun t => (s.slice core t).live && (s.slice core t).park == some (.replay idx)

/-- A record that awaits resolution, by its index. -/
def State.replayOf (s : State) (idx : Nat) : Option Replay := s.replays.find? fun r => r.idx == idx && !r.declined
def dropReplay (r : Replay) : List Replay → List Replay
  | [] => []
  | q :: t => if q = r then t else q :: dropReplay r t

/-- A copy request's wait on a record ends. -/
def State.copyReplay (s : State) (e seq : Nat) (f : CopyReq → CopyReq) : State :=
  s.modEngine e fun q => { q with active := q.active.map fun r => if r.seq == seq then f r else r }

/-- EQRES with DECLINE = 0: the waiter is evaluated again (R405). -/
def State.replayRetry (s : State) (r : Replay) : State :=
  let s := { s with replays := dropReplay r s.replays }
  match r.who with
  | .slice core _ => (s.replayGang core r.idx).foldl (fun s t => s.modSlice core t fun x => { x with woken := true }) s
  | .thread core t => s.modThread core t fun x =>
    if x.wait != .replay r.idx then x
    else if x.stack.length = bits (tget 0 x.w 30) 0 4 then { x with wait := .ready } else { x with wait := .restore }
  | .copy e seq => s.copyReplay e seq fun r => { r with wait := .none }
  | .flight _ => s

/-- A unit's request ends because its translation is declined (13 R367, 14 R388-R390). -/
def State.declineFlight (s : State) (id : Nat) : State :=
  match s.flight? id with
  | none => s
  | some f =>
    let t := s.dropFlight id
    match f.pkt with
    | .plan _ r => r.reply t [plFault]
    | .planData slot r outp => t.planRead f slot r outp none
    | .kload slot d kid _ _ _ core =>
      (t.modRake core fun r => { r with loading := r.loading.filter (· != (f.asid, kid)) }).answer (f.op.getD 0) slot d [3]
    | _ => s

/-- A declined record's waiter: a slice takes the fault at TPC, a request or thread ends (R405, 08 R215, 13 R364). -/
def State.replayDecline (s : State) (r : Replay) : State :=
  let s := { s with replays := dropReplay r s.replays }
  match r.who with
  | .slice core _ =>
    let gang := s.replayGang core r.idx
    let x := s.slice core (gang.headD 0)
    let pc := if x.frame.act && !x.frame.susp then x.frame.addr x.frame.j else x.path.pc
    s.trap core gang { code := r.code, addr := r.addr, lanes := r.lanes } pc pc
  | .thread core t => s.modThread core t fun x =>
      if x.wait == .replay r.idx then { x with wait := .ending (if r.code = 7 then 5 else 4) (bits (tget 0 x.w 30) 9 11) } else x
  | .copy e seq => s.copyReplay e seq fun r => match r.asked with | some c => r.stopAt c | none => r
  | .flight id => s.declineFlight id

/-- Slices of a saved group wait on a record (Table 15-8). -/
def State.replaySaved (s : State) (r : Replay) : Bool :=
  match r.who with
  | .slice core _ => (s.replayGang core r.idx).isEmpty &&
      s.groups.any fun g => g.2.core == core && g.2.savedSlices.any fun x => x.2.park == some (.replay r.idx)
  | _ => false

/-- A record is resolved (R405). A decline that finds the slices saved waits for their resumption. -/
def State.endReplay (s : State) (idx : Nat) (decline : Bool) : State :=
  match s.replayOf idx with
  | none => s
  | some r =>
    if !decline then s.replayRetry r
    else if s.replaySaved r then
      { s with replays := s.replays.map fun q => if q = r then { q with declined := true } else q }
    else s.replayDecline r
/-- A write of EQRES. -/
def State.eqres (s : State) (w : Word) : State := s.endReplay (bits w 0 12) (w.getLsbD 16)

/-- A write of EQHEAD: waiting records are written as slots fall free (R405). -/
def State.eqheadWrite (s : State) (w : Word) : State :=
  let s := { s with sys := { s.sys with eqhead := w32 (bits w 0 12) } }
  s.eqGo

/-! ## System registers (Table 15-3) -/

/-- Who may access a register: 0 nobody, 1 any slice, 2 system mode. -/
structure SysAcc where
  rd : Nat
  wr : Nat
deriving DecidableEq, Repr

/-- Access of a register number; none when it is not in the table. -/
def sysAcc (r : Nat) : Option SysAcc :=
  if (1 ≤ r ∧ r ≤ 8) ∨ (0x22 ≤ r ∧ r ≤ 0x26) ∨ (0x40 ≤ r ∧ r ≤ 0x43) ∨ r = 0x60 ∨ r = 0x7D ∨ r = 0xC3 then some ⟨1, 0⟩
  else if r = 0x10 ∨ r = 0x11 ∨ r = 0x20 ∨ r = 0x21 ∨ r = 0x61 ∨ r = 0x62 then some ⟨1, 1⟩
  else if r = 0x30 ∨ r = 0x31 ∨ r = 0x50 then some ⟨1, 2⟩
  else if (0x28 ≤ r ∧ r ≤ 0x2E) ∨ (0x70 ≤ r ∧ r ≤ 0x7C) ∨ (0xA0 ≤ r ∧ r ≤ 0xA3) ∨ r = 0xB0 ∨ r = 0xB1 ∨
    (0xC0 ≤ r ∧ r ≤ 0xC2) ∨ r = 0xC4 ∨ (0x100 ≤ r ∧ r ≤ 0x104) then some ⟨2, 2⟩
  else if r = 0x105 then some ⟨2, 0⟩
  else none

/-- RPTSTATE (04 R111). -/
def rptState (f : Frame) : Word :=
  w32 (f.i % 2 ^ 24 + f.j % 16 * 2 ^ 26 + (if f.susp then 2 ^ 30 else 0) + (if f.act then 2 ^ 31 else 0))
def Frame.setState (f : Frame) (w : Word) : Frame :=
  { f with act := w.getLsbD 31, susp := w.getLsbD 30, j := bits w 26 4, i := bits w 0 24 }

/-- Registers of a slice, its core and the device that a read only copies. -/
def State.sysValue (s : State) (core slot r : Nat) : Word :=
  let x := s.slice core slot
  let k := s.core core
  let g := s.group? x.group
  let own (f : Group → Nat) : Word := if x.handler || x.repacked then 0 else w32 ((g.map f).getD 0)
  match r with
  | 0x01 => w32 (slot + core * 2 ^ 8 + (if x.handler then 0 else x.ix) * 2 ^ 16)
  | 0x02 => own fun _ => x.warp
  | 0x03 => own (·.ix)
  | 0x04 => own fun g => g.teamIx % 2 ^ 24 + clusterOf core * 2 ^ 24
  | 0x05 => w32 ((g.map (·.grid)).getD 0)
  | 0x06 => w32 (x.asid + s.domain x.asid * 2 ^ 16)
  | 0x07 => w32 (x.width + (if x.handler then slot % 8 else slot % 8 - x.ix) * 2 ^ 4 + slot / 8 * 2 ^ 8 +
      (if x.repacked then 2 ^ 12 else 0) + (if x.handler then 2 ^ 13 else 0))
  | 0x08 => match g with
      | some g => if x.handler || g.localLen == 0 then 0 else w32 (core * 2 ^ 18 + g.localBase)
      | none => 0
  | 0x10 => x.fpctl | 0x11 => x.fpflags
  | 0x20 => x.trapvec | 0x21 => x.t.pc | 0x22 => x.t.cause | 0x23 => x.t.mask | 0x24 => x.t.addr | 0x25 => x.t.info
  | 0x26 => x.t.addrHi
  | 0x28 => x.e.pc | 0x29 => x.e.pcHi | 0x2A => x.e.cause | 0x2B => x.e.mask | 0x2C => x.e.addr | 0x2D => x.e.addrHi
  | 0x2E => x.e.info
  | 0x30 => w32 (s.ctx x.asid).hanglim | 0x31 => w32 (s.ctx x.asid).sectlim
  | 0x50 => rptState x.frame
  | 0x60 => 0x100
  | 0x61 => (s.mcapRead core slot).setWidth 32 | 0x62 => (s.mcapRead core slot).extractLsb' 32 32
  | 0x70 | 0x71 | 0x72 | 0x73 => tget 0 k.wpaddr (r - 0x70)
  | 0x74 | 0x75 | 0x76 | 0x77 => tget 0 k.wpaddrHi (r - 0x74)
  | 0x78 | 0x79 | 0x7A | 0x7B => tget 0 k.wpctl (r - 0x78)
  | 0x7C => k.dbgctl | 0x7D => k.dbgstat
  | 0xA0 => s.sys.sysvec | 0xA1 => s.sys.sysvecHi | 0xA2 => s.sys.ctxtab | 0xA3 => s.sys.ctxtabHi
  | 0xB0 => s.sys.xlinva | 0xB1 => s.sys.xlinv
  | 0xC0 => s.sys.eqbase | 0xC1 => s.sys.eqbaseHi | 0xC2 => s.sys.eqhead | 0xC3 => s.sys.eqtail
  | 0x100 => s.sys.ucsel | 0x101 => s.sys.ucdata0 | 0x102 => s.sys.ucdata1 | 0x103 => s.sys.ucdata2
  | 0x105 => s.sys.ucstat
  | _ => 0

/-- SRD of one register by a slice: EQRES and UCCMD hold nothing, and a handler or repacked slice has no grid, so that their
values are unstated (log 3); the counters latch and use the shadows of 01 R19. Every core reads the one cycle counter and the exact
TIME of the moment (log 72). -/
def State.sysRead (s : State) (core slot r : Nat) : State × Word :=
  let x := s.slice core slot
  match r with
  | 0x40 => (s.setSlice core slot { x with cycleShadow := some (s.cycle.extractLsb' 32 32) }, s.cycle.setWidth 32)
  | 0x41 => (s.setSlice core slot { x with cycleShadow := none }, x.cycleShadow.getD (s.cycle.extractLsb' 32 32))
  | 0x42 => (s.setSlice core slot { x with timeShadow := some (s.time.extractLsb' 32 32) }, s.time.setWidth 32)
  | 0x43 => (s.setSlice core slot { x with timeShadow := none }, x.timeShadow.getD (s.time.extractLsb' 32 32))
  | 0xC4 | 0x104 => let (w, t) := s.free; (t, w)
  | 0x05 => if x.handler || x.repacked then let (w, t) := s.free; (t, w) else (s, s.sysValue core slot r)
  | _ => (s, s.sysValue core slot r)

/-- Device registers (R434: a host write acts as an SWR in system mode); reserved bits are ignored. -/
def State.setSysReg (s : State) (r : Nat) (w : Word) : State :=
  let low (n : Nat) : Word := w32 (w.toNat % 2 ^ n)
  let high (n : Nat) : Word := w32 (w.toNat / 2 ^ n * 2 ^ n)
  match r with
  | 0xA0 => { s with sys := { s.sys with sysvec := w } }
  | 0xA1 => { s with sys := { s.sys with sysvecHi := low 20 } }
  | 0xA2 => { s with sys := { s.sys with ctxtab := high 22 } }
  | 0xA3 => { s with sys := { s.sys with ctxtabHi := low 20 } }
  | 0xB0 => { s with sys := { s.sys with xlinva := w } }
  | 0xB1 => ({ s with sys := { s.sys with xlinv := w &&& 0x00F3FFFF } } : State).xlinv w
  | 0xC0 => { s with sys := { s.sys with eqbase := high 17 } }
  | 0xC1 => { s with sys := { s.sys with eqbaseHi := low 20 } }
  | 0xC2 => s.eqheadWrite w
  | 0xC4 => s.eqres w
  | 0x100 => { s with sys := { s.sys with ucsel := low 24 } }
  | 0x101 => { s with sys := { s.sys with ucdata0 := w } }
  | 0x102 => { s with sys := { s.sys with ucdata1 := w } }
  | 0x103 => { s with sys := { s.sys with ucdata2 := w } }
  | 0x104 => s.ucCommand
  | _ => s

/-- A limit of a context: its descriptor and the value in force (R397). -/
def State.setLimit (s : State) (asid : Nat) (hang : Bool) (w : Word) : State :=
  let s := s.unitStore asid (s.ctxAddr asid + (if hang then 48 else 52)) (natBytes 4 w.toNat)
  s.modCtx asid fun c => if hang then { c with hanglim := w.toNat } else { c with sectlim := w.toNat }

/-- Registers of a slice and of its core. -/
def State.setOwnReg (s : State) (core slot r : Nat) (w : Word) : State :=
  let x := s.slice core slot
  let put (y : Slice) : State := s.setSlice core slot y
  let low (n : Nat) : Word := w32 (w.toNat % 2 ^ n)
  match r with
  | 0x10 => put { x with fpctl := low 4 }
  | 0x11 => put { x with fpflags := low 5 }
  | 0x20 => put { x with trapvec := w32 (w.toNat / 4 * 4) }
  | 0x21 => put { x with t := { x.t with pc := w } }
  | 0x28 => put { x with e := { x.e with pc := w } }
  | 0x29 => put { x with e := { x.e with pcHi := low 20 } }
  | 0x2A => put { x with e := { x.e with cause := low 10 } }
  | 0x2B => put { x with e := { x.e with mask := low 16 } }
  | 0x2C => put { x with e := { x.e with addr := w } }
  | 0x2D => put { x with e := { x.e with addrHi := low 20 } }
  | 0x2E => put { x with e := { x.e with info := low 17 } }
  | 0x30 => s.setLimit x.asid true w
  | 0x31 => s.setLimit x.asid false w
  | 0x50 => put { x with frame := x.frame.setState w }
  | 0x70 | 0x71 | 0x72 | 0x73 => s.modCore core fun k => { k with wpaddr := tset k.wpaddr (r - 0x70) w }
  | 0x74 | 0x75 | 0x76 | 0x77 => s.modCore core fun k => { k with wpaddrHi := tset k.wpaddrHi (r - 0x74) (low 20) }
  | 0x78 | 0x79 | 0x7A | 0x7B => s.modCore core fun k => { k with wpctl := tset k.wpctl (r - 0x78) (low 9) }
  | 0x7C => s.modCore core fun k => { k with dbgctl := low 18 }
  | _ => s.setSysReg r w

/-! ## SRD and SWR -/

/-- The table holds the register and this access to it; the number is else illegal at execution (R400). -/
def sysHas (r : Nat) (need : SysAcc → Nat) : Bool := ((sysAcc r).map need).any (· != 0)
/-- The access asks for system mode, be it one that a register of system mode does not have: step 6 of 02 R46 (R398, R400,
log 14). -/
def sysPriv (r : Nat) (need : SysAcc → Nat) : Bool :=
  match sysAcc r with
  | some a => need a == 2 || (need a == 0 && (a.rd == 2 || a.wr == 2))
  | none => false

def execSrd (g : BitVec 4) (d : BitVec 6) (r : BitVec 12) (s : State) : Meaning :=
  uniformly { ok := sOk d, priv := sysPriv r.toNat (·.rd) } g s fun s core slot =>
    if !sysHas r.toNat (·.rd) then raise 0x02 r.toNat
    else
      let (s, w) := s.sysRead core slot r.toNat
      .ok (s.modSlice core slot fun x => x.setS d.toNat w)

def execSwr (g : BitVec 4) (d : BitVec 6) (r : BitVec 12) (s : State) : Meaning :=
  uniformly { ok := sOk d, priv := sysPriv r.toNat (·.wr), srcs := [(1, d.toNat)] } g s fun s core slot =>
    let w := (s.slice core slot).sr d.toNat
    if !sysHas r.toNat (·.wr) then raise 0x02 r.toNat
    else if r = 0x61 ∨ r = 0x62 then
      match s.mcapWrite core slot (r == 0x62) w with
      | some t => .ok t
      | none => raise 0x16
    else .ok (s.setOwnReg core slot r.toNat w)

/-! ## SYS -/

def execTrap (g : BitVec 4) (n : BitVec 6) (s : State) : Meaning :=
  uniformly {} g s fun _ _ _ => .error (.fault { code := 0x11, addr := n.toNat, next := true })
def execBrk (g : BitVec 4) (n : BitVec 6) (s : State) : Meaning := uniformly {} g s fun _ _ _ => raise 0x12 n.toNat

/-- A return: members without an active lane only move on. -/
def returnForm (h : Head) (g : BitVec 4) (s : State) (bad : Slice → Bool) (ret : Slice → Slice) : Meaning :=
  simt { h with adv := false } s fun s core slot =>
    let x := s.slice core slot
    if x.active g = 0 then .ok (s.setSlice core slot (x.advance 4))
    else if bad x then x.laned slot g (raise 0x01)
    else .ok (s.setSlice core slot (ret x))

def execTret (g : BitVec 4) (s : State) : Meaning := returnForm {} g s (fun x => !x.inh) Slice.tret
def execEret (g : BitVec 4) (s : State) : Meaning := returnForm { priv := true } g s (fun _ => false) Slice.eret

/-- HALTG: one report for the gang; its PC is the next instruction (15 Table 15-8). -/
def execHaltg (g : BitVec 4) (s : State) : Meaning :=
  gangwise { adv := false } s fun s =>
    let core := s.issuer.core
    let gang := s.ixMask core s.issuer.slots
    match s.taking g with
    | [] => .ok (s.advanceAll 4)
    | t :: _ =>
      let lanes := (s.slice core t).active g
      let s := s.advanceAll 4
      let x := s.slice core t
      if s.attached core x.asid then .ok ((s.report core t 0 x.path.pc lanes gang 0).haltGroup core t 1) else .ok s

end Sys2Proof.Machine
end

