-- ==== Sys2Proof/Machine/Record.lean ====
section
/-! DEFINITION. The slice record (15 Table 15-9), as pre-emption saves it and the debugger reads and writes it. -/

namespace Sys2Proof.Machine

/-- A 52-bit instruction address, or all ones for NONE, as two words. -/
def addrWords (a : Option Addr) : List Word :=
  match a with
  | some a => [a.setWidth 32, w32 (a.toNat / 2 ^ 32)]
  | none => [0xFFFFFFFF, 0xFFFFFFFF]
def addrOf (lo hi : Word) : Option Addr :=
  if lo = 0xFFFFFFFF ∧ hi = 0xFFFFFFFF then none else some (instrAddr (hi.extractLsb' 0 20 ++ lo))

/-- STATE codes of a path entry. -/
def PathState.code : PathState → Nat
  | .free => 0
  | .run => 1
  | .join => 2

/-- 32 bytes of a path entry. -/
def Path.words (p : Path) : List Word :=
  addrWords (some p.pc) ++ addrWords p.rpc ++ addrWords p.decl ++
  [w32 (p.mask.toNat + p.depth.toNat * 2 ^ 8 + (p.link.getD 0xFF) * 2 ^ 16 + p.out % 256 * 2 ^ 24), w32 p.state.code]

def Path.ofWords (p : Path) (w : Nat → Word) : Path :=
  let m := w 6
  { p with pc := instrAddr ((w 1).extractLsb' 0 20 ++ w 0), rpc := addrOf (w 2) (w 3), decl := addrOf (w 4) (w 5),
           mask := m.extractLsb' 0 8, depth := m.extractLsb' 8 8,
           link := if bits m 16 8 = 0xFF then none else some (bits m 16 8), out := bits m 24 8,
           state := match bits (w 7) 0 8 with | 1 => .run | 2 => .join | _ => .free }

/-- Pattern, elements popped and BOUND of a port. -/
def Port.words (p : Port) : List Word := (List.range 8).map (wordAt p.pattern) ++ [w32 p.popped, if p.bound then 1 else 0]
def Port.ofWords (p : Port) (w : Nat → Word) : Port :=
  { p with pattern := wordsBytes ((List.range 8).map w), popped := (w 8).toNat, fetched := (w 8).toNat, buf := [],
           bound := (w 9).getLsbD 0 }

/-- Predicates P0 to P6 in bytes. -/
def Slice.predWords (x : Slice) : List Word :=
  let b (i : Nat) : Nat := (x.pr i).toNat * 2 ^ (8 * (i % 4))
  [w32 (b 0 + b 1 + b 2 + b 3), w32 (b 4 + b 5 + b 6)]

/-- The 768 words of the record; `park` is the park object (R449), `trv` the V registers pending on TRV. -/
def Slice.record (x : Slice) (park : Nat × Nat) (trv : BitVec 64) : List Word :=
  (List.range 512).map (tget 0 x.v) ++ (List.range 32).map x.sr ++ x.predWords ++ [x.fpctl, x.fpflags] ++
  [x.t.pc, x.t.cause, x.t.mask, x.t.addr, x.t.addrHi, x.t.info, x.trapvec, rptState x.frame] ++
  [x.e.pc, x.e.pcHi, x.e.cause, x.e.mask, x.e.addr, x.e.addrHi, x.e.info, if x.system then 1 else 0] ++
  addrWords (x.hold.map (·.pc)) ++
  (match x.hold with | some h => [h.depth.setWidth 32, h.set.setWidth 32, w32 h.visits] | none => [0, 0, 0]) ++
  [w32 x.fair, w32 x.cur, 0, w32 park.1, w32 park.2, 0, 0] ++
  (List.range 8).flatMap (fun i => (x.paths.getD i {}).words) ++
  (List.range 16).flatMap (fun i => let w := x.frame.body.getD i (0, 0); [w.1, w.2]) ++
  (List.range 4).flatMap (fun i => (tget {} x.ports i).words) ++
  [trv.setWidth 32, trv.extractLsb' 32 32] ++ List.replicate 54 0

/-- Entries of a table that are not zero. -/
def sparse (n : Nat) (f : Nat → Word) : Tab Word := ((List.range n).map fun i => (i, f i)).filter fun p => p.2 != 0

/-- A slice with the state of a record; what the record does not show is kept, and the reserved bits of a register stay zero (03 R62,
15 Table 15-3). -/
def Slice.withRecord (x : Slice) (w : Nat → Word) : Slice :=
  let pb (i : Nat) : Pred := (w (544 + i / 4)).extractLsb' (8 * (i % 4)) 8
  let low (i n : Nat) : Word := w32 (bits (w i) 0 n)
  { x with
    v := sparse 512 w, s := sparse 32 fun i => w (512 + i), p := (List.range 7).map fun i => (i, pb i),
    fpctl := low 546 4, fpflags := low 547 5,
    t := { x.t with pc := w 548, cause := low 549 10, mask := low 550 16, addr := w 551, addrHi := low 552 20, info := low 553 17 },
    trapvec := w32 ((w 554).toNat / 4 * 4),
    frame := { x.frame.setState (w 555) with
      body := (List.range x.frame.body.length).map fun i => (w (640 + 2 * i), w (641 + 2 * i)) },
    e := { pc := w 556, pcHi := low 557 20, cause := low 558 10, mask := low 559 16, addr := w 560, addrHi := low 561 20,
           info := low 562 17 },
    system := (w 563).getLsbD 0,
    hold := (addrOf (w 564) (w 565)).map fun pc => ⟨pc, (w 566).setWidth 8, (w 567).setWidth 8, (w 568).toNat⟩,
    fair := (w 569).toNat, cur := (w 570).toNat,
    paths := (List.range 8).map fun i => (x.paths.getD i {}).ofWords fun j => w (576 + 8 * i + j),
    ports := x.ports.map fun (i, p) => (i, p.ofWords fun j => w (672 + 10 * i + j)) }

/-- V registers of a slice pending on a traversal. -/
def State.trvPending (s : State) (core slot : Nat) : BitVec 64 :=
  BitVec.ofNat 64 (((s.slice core slot).pending.filter fun p => p.file == 0 &&
    (s.op? p.op).any fun o => o.code == some 5).map (2 ^ ·.idx)).sum

/-- The record of a slot. -/
def State.sliceRecord (s : State) (core slot : Nat) : List Word :=
  let x := s.slice core slot
  x.record (match x.park with | some o => parkObject x.warp o | none => (0, 0)) (s.trvPending core slot)

end Sys2Proof.Machine
end

