-- ==== Sys2Proof/Machine/EvDebug.lean ====
section
/-! DEFINITION. The debug mailboxes (15 R415-R418, R450): each command as one device step, and one instruction of a stepped
slice. -/

namespace Sys2Proof.Machine

/-! ## The mailbox -/

/-- A command is performed: its arguments, and STATUS with the result. -/
def State.debugDone (s : State) (core result : Nat) : State :=
  s.modCore core fun k => { k with dbgStatus := w32 (result * 2 ^ 8) }
/-- A command that cannot be performed yet: BUSY. -/
def State.debugBusy (s : State) (core : Nat) : State := s.modCore core fun k => { k with dbgStatus := 1 }
/-- ARG0 onwards, as the host writes them. -/
def State.debugArgs (s : State) (core : Nat) (args : List Word) : State :=
  s.modCore core fun k => { k with dbgArgs := (indexed args).foldl (fun t p => tset t p.1 p.2) k.dbgArgs }
/-- Puts words at the start of the data area; the words after them stay. -/
def State.debugData (s : State) (core : Nat) (ws : List Word) : State :=
  s.modCore core fun k => { k with dbgData := (indexed ws).foldl (fun t p => tset t p.1 p.2) k.dbgData }
/-- Puts bytes at the start of the data area; the bytes after them stay. -/
def State.debugBytes (s : State) (core : Nat) (bs : List Byte) : State :=
  let rest := (wordBytes (tget 0 (s.core core).dbgData (bs.length / 4))).drop (bs.length % 4)
  s.debugData core ((List.range ((bs.length + 3) / 4)).map (wordAt (bs ++ rest)))

/-- Commands of one core are performed one at a time: while a STEP or a MEM waits, no other is. -/
def State.debugWaits (s : State) (core : Nat) : Bool := (s.core core).stepping.isSome || (s.core core).dbgMem.isSome
/-- A command with its arguments. -/
def State.debugCmd (s : State) (core : Nat) (args : List Word) (f : State → State) : Meaning :=
  if decide (256 ≤ core) || s.debugWaits core then .next s else .next (f (s.debugArgs core args))

/-! ## ATTACH, HALT, RESUME, WATCH, clearing a report -/

def execEvAttach (core asid : Nat) (on : Bool) (s : State) : Meaning :=
  s.debugCmd core [w32 asid, if on then 1 else 0] fun s =>
    (s.modCore core fun k => { k with
      dbgctl := w32 (asid % 2 ^ 16 + (if on then 2 ^ 16 else 0) + (if k.dbgctl.getLsbD 17 then 2 ^ 17 else 0)) }).debugDone core 0

/-- A halted slice goes on: the instruction it is parked on is evaluated again (Table 15-8). A park on a barrier stands while its
phase lasts (log 20), one on a REPLAY record while the record is open, and one on an answer until it has come. -/
def Slice.goOn (x : Slice) : Slice :=
  { x with halted := false, woken := x.woken || match x.park with
    | some (.barrier ..) | some (.teamBarrier ..) | some (.replay _) | some (.answer _) | none => false
    | some _ => true }

/-- The gang that R79 forms for a halted slice at its next visit, once a hold that this visit closes is closed (04 R88). -/
def State.haltedGang (s : State) (core slot : Nat) : List Nat :=
  let ready (x : Slice) : Slice := { x.goOn.settle with stamp := 0 }
  let u := ((s.warpSlots core slot).foldl (fun s t => s.modSlice core t ready) s).visitHold core slot
  let x := u.slice core slot
  if x.park.isSome || x.holding then [slot] else u.gangOf core slot

/-- Address that a report gives for a slice: of the instruction that it issues next, in an open repeat frame of the RPT (Table
15-8). -/
def Slice.nextPc (x : Slice) : Addr := if x.frame.act && !x.frame.susp then x.frame.pc else x.path.pc

/-- A halt of the debugger posts a report with code 0 in an attached context (R416); the manual states no lane mask for it (log
3). -/
def execEvHalt (core slot : Nat) (s : State) : Meaning :=
  s.debugCmd core [w32 slot] fun s =>
    let x := s.slice core slot
    if 128 ≤ slot ∨ !x.live then s.debugDone core 1
    else if x.halted then s.debugDone core 0
    else
      (if s.attached core x.asid then
        let u := (s.free.2.haltGroup core slot 1).modSlice core slot Slice.settle
        u.report core slot 0 (u.slice core slot).nextPc (s.free.1.setWidth 8) (u.ixMask core (u.haltedGang core slot)) 0
      else s.haltGroup core slot 1).debugDone core 0

/-- Slices of a group that the debugger has halted go on. -/
def State.resumeHalted (s : State) (core slot : Nat) : State :=
  let x := s.slice core slot
  if x.handler then s.modSlice core slot Slice.goOn
  else match s.group? x.group with
    | none => s
    | some g => g.slots.foldl (fun s t => s.modSlice g.core t Slice.goOn)
        (s.modGroup x.group fun g => { g with halt := 0 })

/-- A handler, or the group of the slice, is halted by the debugger. -/
def State.debugHalted (s : State) (core slot : Nat) : Bool :=
  let x := s.slice core slot
  x.live && x.halted && (x.handler || match s.group? x.group with | some g => g.halt == 1 | none => false)

def execEvResume (core slot : Nat) (s : State) : Meaning :=
  s.debugCmd core [w32 slot] fun s =>
    if 128 ≤ slot ∨ !(s.slice core slot).live then s.debugDone core 1
    else if !s.debugHalted core slot then s.debugDone core 2
    else (s.resumeHalted core slot).debugDone core 0

/-- WATCH: an index above 3 or a SIZE of 13 to 15 gives result 1 and changes nothing (R418). -/
def execEvWatch (core n : Nat) (addr addrHi ctl : Word) (s : State) : Meaning :=
  s.debugCmd core [w32 n, addr, addrHi, ctl] fun s =>
    if 3 < n ∨ 12 < bits ctl 5 4 then s.debugDone core 1
    else
      (s.modCore core fun k => { k with
        wpaddr := tset k.wpaddr n addr, wpaddrHi := tset k.wpaddrHi n (w32 (bits addrHi 0 20)),
        wpctl := tset k.wpctl n (w32 (bits ctl 0 9)) }).debugDone core 0

/-- CMD 0 clears DBGSTAT [0]; a report that waited is posted (R416). -/
def execEvClearReport (core : Nat) (s : State) : Meaning :=
  .next (s.modCore core fun k =>
    match k.reportsWaiting with
    | r :: rest => { k with report := r, reportsWaiting := rest, dbgstat := w32 (1 + bits (r.headD 0) 8 7 * 2 ^ 8) }
    | [] => { k with dbgstat := w32 (k.dbgstat.toNat / 2 * 2) })

/-! ## READ and WRITE -/

/-- Arguments of READ and WRITE within the limits of Table 15-10 and the record. -/
def recordArgs (slot off len : Nat) : Bool :=
  decide (slot < 128) && off % 4 == 0 && len % 4 == 0 && decide (len ≤ 256) && decide (off + len ≤ 3072)

def execEvRead (core slot off len : Nat) (s : State) : Meaning :=
  s.debugCmd core [w32 slot, w32 off, w32 len] fun s =>
    if !recordArgs slot off len then s.debugDone core 1
    else if !(s.slice core slot).halted then s.debugDone core 2
    else (s.debugData core (((s.sliceRecord core slot).drop (off / 4)).take (len / 4))).debugDone core 0

/-- The operation that a predicate is pending on (10 R259). -/
def Slice.pendingPred (x : Slice) (n : Nat) : Option Nat := (x.pending.find? fun p => p.file == 2 && p.idx == n).map (·.op)
/-- A WRITE of four predicates: one that is pending keeps its value. -/
def Slice.predWord (x : Slice) (i : Nat) (old new : Word) : Word :=
  w32 ((List.range 4).map fun j => bits (if (x.pendingPred (4 * (i - 544) + j)).isSome then old else new) (8 * j) 8 * 2 ^ (8 * j)).sum
/-- The operation that a register word of the record is pending on. -/
def Slice.pendingOn (x : Slice) (i : Nat) : Option Nat :=
  (x.pending.find? fun p => (p.file == 9 && decide (i < 544)) || (p.file == 0 && decide (i < 512) && p.idx == i / 8) ||
    (p.file == 1 && decide (512 ≤ i) && decide (i < 544) && p.idx == i - 512)).map (·.op)
/-- The register write that a record word stands for. -/
def recordWrite (slot i : Nat) (w : Word) : RegWrite :=
  if i < 512 then ⟨slot, 0, i, w.toNat⟩ else ⟨slot, 1, i - 512, w.toNat⟩
/-- The writes of a record word that its pending registers' operations still have to come before. -/
def Slice.lateWrites (x : Slice) (slot i : Nat) (w : Word) : List (Nat × List RegWrite) :=
  if 544 ≤ i ∧ i < 546 then
    (List.range 4).filterMap fun j =>
      let n := 4 * (i - 544) + j
      (x.pendingPred n).map fun op => (op, (List.range 8).map fun b => ⟨slot, 2, 8 * n + b, bits w (8 * j + b) 1⟩)
  else (x.pendingOn i).toList.map fun op => (op, [recordWrite slot i w])

/-- A park ends when the PC is moved off the parked instruction; `stay`: the answer of an OSEC form is still waited for (log 24). -/
def Slice.movedFrom (y x : Slice) (stay : Bool) : Slice := if y.path.pc = x.path.pc || stay then y else y.unpark

/-- WRITE: a pending register takes its value after the operation's own. -/
def State.writeRecord (s : State) (core slot off : Nat) (data : List Word) : State :=
  let x := s.slice core slot
  let old := s.sliceRecord core slot
  let ws := (indexed data).map fun (i, w) => (off / 4 + i, w)
  let y := x.withRecord fun i => match ws.lookup i with
    | some w =>
      if (x.pendingOn i).isSome then old.getD i 0
      else if 544 ≤ i ∧ i < 546 then x.predWord i (old.getD i 0) w else w
    | none => old.getD i 0
  let ports := ws.any fun p => decide (672 ≤ p.1) && decide (p.1 < 712)
  let s := s.setSlice core slot ((if ports then y else { y with ports := x.ports }).movedFrom x (s.answering core slot))
  ws.foldl (fun s p => (x.lateWrites slot p.1 p.2).foldl (fun s l => s.modOp l.1 fun o => { o with late := o.late ++ l.2 }) s) s

def execEvWrite (core slot off : Nat) (data : List Word) (s : State) : Meaning :=
  s.debugCmd core [w32 slot, w32 off, w32 (4 * data.length)] fun s =>
    let s := s.debugData core data
    if !recordArgs slot off (4 * data.length) then s.debugDone core 1
    else if !(s.slice core slot).halted then s.debugDone core 2
    else (s.writeRecord core slot off data).debugDone core 0

/-! ## MEM -/

/-- The memory key of a byte, or why it fails (R450). -/
def State.debugByte (s : State) (core asid space a : Nat) (write : Bool) : Except XFail Nat :=
  let bad (c : Nat) : Except XFail Nat := .error (.fail c 0 0)
  match space with
  | 0 => if localSize ≤ a then bad 0x05 else if s.ownsLocal core asid a then .ok (localBase core + a) else bad 0x07
  | 1 =>
    if 2 ^ 26 ≤ a ∨ localSize ≤ a % 2 ^ 18 then bad 0x05
    else if s.reach asid (a / 2 ^ 18) && s.ownsLocal (a / 2 ^ 18) asid (a % 2 ^ 18) then
      .ok (localBase (a / 2 ^ 18) + a % 2 ^ 18)
    else bad 0x07
  | 2 =>
    if 0xC00000 ≤ a then bad 0x05
    else if s.extentOwner (clusterOf core) a == some asid then .ok (clusterBase (clusterOf core) + a) else bad 0x07
  | _ => if 2 ^ 52 ≤ a then bad 0x05 else s.translateUnit asid a (if write then .store else .load)

/-- A byte meets poison: its sector reads as poisoned and is not held near. -/
def State.debugPoison (s : State) (core key : Nat) : Bool :=
  decide (key < nearKeys) && !(s.core core).nearHas (key / 64) && s.poisonedAt (key / 64)

/-- Result 4 with the fault code and the lowest failing address. -/
def State.debugFail (s : State) (core code a : Nat) : State :=
  (s.debugData core [w32 code, w32 a, w32 (a / 2 ^ 32)]).debugDone core 4

/-- One byte stored as a plain access of the core. -/
def State.debugStore (s : State) (core key : Nat) (b : Byte) : State :=
  if nearKeys ≤ key then s.writeBytes key [b]
  else
    let s := (s.nearStore core 1 ⟨0, 0, 0, key, false, b.toNat, 0⟩).unitStore (bits (s.core core).dbgctl 0 16) key [b]
    if key < 2 ^ 52 then s.dcacheFor (key / 256) 0 true else s

/-- One byte read as a plain access of the core. -/
def State.debugLoad (s : State) (core key : Nat) : Byte :=
  if (s.core core).nearHas (key / 64) && decide (key < nearKeys) then mget (s.core core).nearData key else mget s.mem key

/-- Brings the blocks of a CLUSTER range into the store; none while one cannot come or a write is not admitted (06 R172,
R174). -/
def State.debugBlocks (s : State) (c : Nat) (write : Bool) (blocks : List Nat) : Option State :=
  if write && !blocks.isEmpty && !(s.cluster c).admits blocks then none
  else s.touchBlocks c write blocks

/-- Performs a MEM whose arguments are within their limits: the whole range is checked before any byte is accessed. A CLUSTER access
whose blocks cannot come, and an access that waits at its home, leave the command under way (R450). -/
def State.memTry (s : State) (core : Nat) (m : DebugMem) : State :=
  let asid := bits (s.core core).dbgctl 0 16
  let s := if m.space = 3 then [m.addr, m.addr + m.len - 1].foldl (fun s a => s.walkNow asid a) s else s
  let rs := (List.range m.len).map fun i => (m.addr + i, s.debugByte core asid m.space (m.addr + i) m.write)
  let keys := rs.filterMap fun r => match r.2 with | .ok k => some k | .error _ => none
  let s := s.modCore core fun k => { k with dbgMem := none }
  let later (s : State) : State := (s.debugBusy core).modCore core fun k => { k with dbgMem := some m }
  match rs.findSome? fun r => match r.2 with | .ok _ => none | .error (.fail code _ _) => some (r.1, code) with
  | some (a, code) => s.debugFail core code a
  | none =>
    let sectors := ((keys.filter (· < nearKeys)).map (· / 64)).eraseDups
    let blocks := if m.space = 2 then ((List.range m.len).map fun i => (m.addr + i) / 256).eraseDups else []
    if keys.any s.unitWaits then later s
    else match s.debugBlocks (clusterOf core) m.write blocks with
      | none => later s
      | some s =>
        if m.write then ((indexed keys).foldl (fun s p => s.debugStore core p.2 (m.data.getD p.1 0)) s).debugDone core 0
        else
          let s := (sectors.foldl (fun s k => s.reachHome (64 * k) 64) s).findErrors asid sectors
          match rs.find? fun r => match r.2 with | .ok k => s.debugPoison core k | .error _ => false with
          | some (a, _) => s.debugFail core 0x08 a
          | none =>
            let bs := keys.map (s.debugLoad core)
            (s.debugBytes core bs).debugDone core 0

/-- MEM (R450). -/
def execEvMem (core space addr len : Nat) (write : Bool) (data : List Byte) (s : State) : Meaning :=
  s.debugCmd core [w32 space, w32 addr, w32 (addr / 2 ^ 32), w32 len, if write then 1 else 0] fun s =>
    if 3 < space ∨ 256 < len ∨ !(s.core core).dbgctl.getLsbD 16 then s.debugDone core 1
    else s.memTry core ⟨space, addr, len, write, data⟩

/-- Commands under way that wait are tried again. -/
def State.memRetry (s : State) : State :=
  s.cores.foldl (fun s k => match k.2.dbgMem with | some m => s.memTry k.1 m | none => s) s

/-! ## STEP (R417) -/

/-- A STEP begins: its slice issues alone at the visits of its slot (01 R10), until it has issued or 1,000 ticks have passed. -/
def execEvStep (core slot : Nat) (s : State) : Meaning :=
  s.debugCmd core [w32 slot] fun s =>
    if 128 ≤ slot ∨ !(s.slice core slot).live then s.debugDone core 1
    else if !s.debugHalted core slot then s.debugDone core 2
    else
      (s.debugBusy core).modCore core fun k => { k with stepping := some (slot, s.time.toNat) }

/-- The end of a STEP with a result. -/
def State.endStep (s : State) (core result : Nat) : State :=
  (s.modCore core fun k => { k with stepping := none }).debugDone core result

/-- STEP_STALL_LIMIT: the stall has outlasted 1,000 ticks. -/
def execEvStepStallLimit (core : Nat) (s : State) : Meaning :=
  match (s.core core).stepping with
  | some (_, t) => .next (if t + 1000 ≤ s.time.toNat then s.endStep core 3 else s)
  | none => .next s

/-- The stepped slice for its own issue: no longer halted, WATCHPOINT suppressed under WSKIP, its paths settled. -/
def State.stepReady (s : State) (core slot : Nat) : State :=
  let skip := (s.core core).dbgctl.getLsbD 17
  s.modSlice core slot fun x => ({ x.goOn with wskip := skip } : Slice).settle

/-- What the stepped slice issues, as a gang of one. -/
def State.stepIssue (s : State) (core slot : Nat) : Issue :=
  match s.takeOverrun core slot with
  | some t => .done t
  | none =>
    let s := s.visitHold core slot
    let x := s.slice core slot
    if x.park.isSome || x.holding then .idle s
    else match x.deferred with
      | f :: _ => .done (s.takeDeferred core slot f)
      | [] => s.issueAt core slot true

/-- The slice after the turn: halted again, on the path that it goes on with (04 R83, R85). -/
def State.stepHalt (s : State) (core slot : Nat) : State :=
  s.modSlice core slot fun y => { (if y.live then y.settle else y) with halted := true, wskip := false }

/-- The fault that a slice has taken between two states, if any: its trap registers, or those of a trap in system mode, which ends
its group. -/
def tookFault (x y : Slice) : Option TrapRegs :=
  if y.fatal ≠ x.fatal then y.fatal
  else if y.sysEvent ≠ x.sysEvent ∧ y.system then some y.e
  else if y.userEvent ≠ x.userEvent ∧ y.inh then some y.t else none

/-- Code of the youngest report of a core. -/
def Core.reportCode (k : Core) : Nat := bits ((k.reportsWaiting.getLastD k.report).headD 0) 0 8

/-- A STEP after its turn: `before` is the state in which the slice was ready, `lanes` the active lanes of the instruction
that issued. A stall leaves it waiting; a park ends it with result 3, a rendezvous too that ends at once; otherwise it halts with a
report, beside the one of a HALTG; a fault's own report stands for it. -/
def State.stepAfter (before s : State) (core slot : Nat) (lanes : Pred) : State :=
  let x := before.slice core slot
  let y := s.slice core slot
  let reported := (before.core core).report != (s.core core).report ||
    (before.core core).dbgstat != (s.core core).dbgstat || (before.core core).reportsWaiting != (s.core core).reportsWaiting
  let t := s.stepHalt core slot
  if reported && (s.core core).reportCode != 0 then t.endStep core 0
  else if y.park.isSome || (y.met && !x.met) then t.endStep core 3
  else if { y with stamp := x.stamp } = x then t
  else
    let gang := t.ixMask core (t.haltedGang core slot)
    (match tookFault x y with
      | some r => t.report core slot (bits r.cause 0 8) (r.pcHi.extractLsb' 0 20 ++ r.pc) (r.mask.setWidth 8) gang
          (r.addr.toNat + 2 ^ 32 * r.addrHi.toNat)
      | none => t.report core slot 0x14 (t.slice core slot).nextPc lanes gang 0).endStep core 0

end Sys2Proof.Machine
end

