-- ==== Sys2Proof/Machine/Logic.lean ====
section
/-! DEFINITION. Logic, shifts and bit fields (05 R128-R129, Table 05-3). -/

namespace Sys2Proof.Machine

/-- A shift amount is read in full (R128). -/
def shl (a b : Word) : Word := if 32 ≤ b.toNat then 0 else a <<< b.toNat
def shr (a b : Word) : Word := if 32 ≤ b.toNat then 0 else a >>> b.toNat
def sra (a b : Word) : Word := a.sshiftRight (min b.toNat 31)
def rol (a b : Word) : Word := a.rotateLeft (b.toNat % 32)
def ror (a b : Word) : Word := a.rotateRight (b.toNat % 32)
/-- Number of one bits. -/
def popc (a : Word) : Word := w32 ((List.range 32).filter fun i => a.getLsbD i).length
/-- Leading zeros, 0 to 32. -/
def clz (a : Word) : Word := w32 ((List.range 32).takeWhile fun i => !a.getLsbD (31 - i)).length
/-- Bit i of the result is a[31 - i]. -/
def brev (a : Word) : Word := w32 (((List.range 32).map fun i => if a.getLsbD (31 - i) then 2 ^ i else 0).sum)
/-- LEN of a field descriptor (R129). -/
def fieldLen (b : Word) : Nat := min (bits b 8 6) 32
def bfx (a b : Word) : Word :=
  let len := fieldLen b
  let f := a.toNat / 2 ^ bits b 0 5 % 2 ^ len
  if b.getLsbD 16 && decide (0 < len) && decide (2 ^ (len - 1) ≤ f) then BitVec.ofInt 32 ((f : Int) - 2 ^ len) else w32 f
def bfi (a b d : Word) : Word :=
  let mask : Word := w32 ((2 ^ fieldLen b - 1) * 2 ^ bits b 0 5)
  (d &&& ~~~mask) ||| ((a <<< bits b 0 5) &&& mask)

/-- A unary integer form. -/
def ivec1 (f : R2) (s : State) (op : Word → Word) : Meaning := vec2 f s fun _ a => (op a, 0)

def execAnd (f : R3) (s : State) : Meaning := ivec f s fun a b => a &&& b
def execOr (f : R3) (s : State) : Meaning := ivec f s fun a b => a ||| b
def execXor (f : R3) (s : State) : Meaning := ivec f s fun a b => a ^^^ b
def execAndn (f : R3) (s : State) : Meaning := ivec f s fun a b => a &&& ~~~b
def execOrn (f : R3) (s : State) : Meaning := ivec f s fun a b => a ||| ~~~b
def execXnor (f : R3) (s : State) : Meaning := ivec f s fun a b => ~~~(a ^^^ b)
def execShl (f : R3) (s : State) : Meaning := ivec f s shl
def execShr (f : R3) (s : State) : Meaning := ivec f s shr
def execSra (f : R3) (s : State) : Meaning := ivec f s sra
def execRol (f : R3) (s : State) : Meaning := ivec f s rol
def execRor (f : R3) (s : State) : Meaning := ivec f s ror
def execBfx (f : R3) (s : State) : Meaning := ivec f s bfx
def execBfi (f : R3) (s : State) : Meaning := ivecD f s bfi
def execClz (f : R2) (s : State) : Meaning := ivec1 f s clz
def execPopc (f : R2) (s : State) : Meaning := ivec1 f s popc
def execBrev (f : R2) (s : State) : Meaning := ivec1 f s brev

end Sys2Proof.Machine
end

