-- ==== Sys2Proof/Machine/Trav.lean ====
section
/-! DEFINITION. Traversal threads (13 R329-R333, R339, R352, R363-R364): their registers, the frame of every traversal
instruction, their accesses to GLOBAL memory, their stacks and how they end. -/

namespace Sys2Proof.Machine

/-! ## W registers -/

/-- W[i]. -/
def Thread.wr (t : Thread) (i : Nat) : Word := tget 0 t.w i
def Thread.setW (t : Thread) (i : Nat) (v : Word) : Thread := { t with w := tset t.w i v }
/-- Writes `n` bits of a word from bit `lo`. -/
def putBits (w : Word) (lo n v : Nat) : Word :=
  w32 (w.toNat - bits w lo n * 2 ^ lo + v % 2 ^ n * 2 ^ lo)
def Thread.set30 (t : Thread) (lo n v : Nat) : Thread := t.setW 30 (putBits (t.wr 30) lo n v)

/-! Fields of W30 and W31 (Table 13-2). -/

def Thread.depth (t : Thread) : Nat := bits (t.wr 30) 0 4
def Thread.z (t : Thread) : Bool := (t.wr 30).getLsbD 4
def Thread.n (t : Thread) : Bool := (t.wr 30).getLsbD 5
def Thread.hit (t : Thread) : Bool := (t.wr 30).getLsbD 6
def Thread.isEmpty (t : Thread) : Bool := (t.wr 30).getLsbD 7
def Thread.pc (t : Thread) : Nat := bits (t.wr 30) 9 11
def Thread.spb (t : Thread) : Nat := bits (t.wr 30) 20 12
def Thread.rqe (t : Thread) : Nat := bits (t.wr 31) 0 9
def Thread.kid (t : Thread) : Nat := bits (t.wr 31) 9 4
def Thread.mig (t : Thread) : Bool := (t.wr 31).getLsbD 13
def Thread.ordered (t : Thread) : Bool := (t.wr 31).getLsbD 14
def Thread.ocore (t : Thread) : Nat := bits (t.wr 31) 16 8
def Thread.odev (t : Thread) : Nat := bits (t.wr 31) 24 3
def Thread.spsh (t : Thread) : Nat := bits (t.wr 31) 27 4

def Thread.setPc (t : Thread) (pc : Nat) : Thread := t.set30 9 11 pc
def Thread.setHit (t : Thread) (b : Bool) : Thread := t.set30 6 1 b.toNat
def Thread.setEmpty (t : Thread) (b : Bool) : Thread := t.set30 7 1 b.toNat
def Thread.setZ (t : Thread) (b : Bool) : Thread := t.set30 4 1 b.toNat
def Thread.setN (t : Thread) (b : Bool) : Thread := t.set30 5 1 b.toNat

/-- The words W[a] to W[a + n - 1]. -/
def Thread.group (t : Thread) (a n : Nat) : List Word := (List.range n).map fun i => t.wr (a + i)
/-- Writes words from W[d] on. -/
def Thread.setGroup (t : Thread) (d : Nat) (ws : List Word) : Thread := (indexOf ws).foldl (fun t p => t.setW (d + p.1) p.2) t
where indexOf (ws : List Word) : List (Nat × Word) := (List.range ws.length).zip ws

/-- A written group of `n` registers stays below W30 (R330, R333). -/
def dstOk (d : BitVec 5) (n : Nat) : Bool := decide (d.toNat + n ≤ 30)
/-- A read group of `n` registers does not pass W31 (R333). -/
def srcOk (a : BitVec 5) (n : Nat) : Bool := decide (a.toNat + n ≤ 32)

/-! ## The frame of an instruction -/

/-- Why an instruction does not simply complete. -/
inductive TStop where
  /-- The thread ends with a status (R363); accesses performed so far stand. -/
  | status (s : State) (n : Nat)
  /-- A translation that the run-time may resolve (R364): address, reason, level, access code, after its walk. -/
  | ask (s : State) (va reason level acc : Nat) (code : Nat := 0x06)
  /-- An access waits at a peer's port, or for the thread's own EMIT store, which it tries again (09 R233, R240, 18 R441). -/
  | wait

/-- Words of the loaded kernel of a thread. -/
def State.kernelLen (s : State) (core : Nat) (t : Thread) : Nat := (((s.rake core).kernel t.asid t.kid).map (·.2)).getD 0

/-- The completion of a thread or request (R339, R361): the status word carries the PC. To another core it goes as a message from
core to core, in the order of 06 R154. -/
def State.sendDone (s : State) (core asid : Nat) (w : Nat → Word) (status pc : Nat) : State :=
  let w31 := w 31
  let home := bits w31 16 8
  let (src, dst) := if bits w31 24 3 ≠ s.mgmt.devnum then (nodeRake core, nodePeer (bits w31 24 3))
    else if home = core then (nodeRake core, nodeRake core) else (core, home)
  s.send src dst asid none
    (.tdone ⟨bits w31 0 9, (List.range 7).map w, w32 (status + pc * 2 ^ 8)⟩)

/-- A thread at its end with every EMIT store acknowledged completes and frees its slot (R339). -/
def State.tryFinish (s : State) (core th : Nat) : State :=
  let t := s.thread core th
  match t.wait with
  | .ending status pc =>
    if t.used && t.emits == 0 then
      (s.sendDone core t.asid t.wr status pc).modThread core th fun _ => {}
    else s
  | _ => s

/-- The thread ends with a status. -/
def State.endThread (s : State) (core th status : Nat) : State :=
  (s.modThread core th fun t => { t with wait := .ending status t.pc }).tryFinish core th

/-- The PC of a thread moves; one outside the kernel ends the thread at its old PC (R333, R338). -/
def State.goto (s : State) (core th : Nat) (pc : Int) : State :=
  let t := s.thread core th
  if 0 ≤ pc ∧ pc < (s.kernelLen core t : Int) then s.modThread core th fun t => { t.setPc pc.toNat with wait := .ready, inPlace := false }
  else s.endThread core th 1

/-- The instruction of a thread that has waited is done. -/
def State.goNext (s : State) (core th : Nat) : State := s.goto core th ((s.thread core th).pc + 1)

/-- What a part of an instruction of a thread comes to. -/
def State.threadDone (s : State) (core th : Nat) : Except TStop State → State
  | .ok s => s
  | .error (.status s n) => s.endThread core th n
  | .error (.ask s va reason level acc code) =>
    let (s, idx) := s.postReplay (.thread core th) (s.thread core th).asid (0x0200 + core) th acc va 0 code reason level
    s.modThread core th fun t => { t with wait := .replay idx }
  | .error .wait => s
/-- Runs a part of an instruction of a thread. -/
def State.runThread (s : State) (core th : Nat) (body : Thread → Except TStop State) : Meaning :=
  .next (s.threadDone core th (body (s.thread core th)))

/-- A traversal instruction of the running thread, after the operand check that R333 makes of its word. -/
def travForm (s : State) (ok : Bool) (body : Thread → Except TStop State) : Meaning :=
  s.runThread s.rakeCore s.rakeThread fun t => if ok then body t else .error (.status s 1)

/-- One that only changes its thread and goes on to the next word. -/
def travOp (s : State) (ok : Bool) (body : Thread → Except TStop Thread) : Meaning :=
  travForm s ok fun t => do
    let t ← body t
    pure ((s.modThread s.rakeCore s.rakeThread fun _ => t).goNext s.rakeCore s.rakeThread)

/-- The TStop of a status with nothing done. -/
def State.tstatus (s : State) {α : Type} (n : Nat) : Except TStop α := .error (.status s n)

/-! ## GLOBAL accesses of a thread -/

/-- Where `n` bytes of GLOBAL lie, a sector's part at a time (R340, R342, R351, R352). -/
def State.threadPlaces (asid : Nat) (acc : Access) : Nat → Nat → Nat → State → Except TStop (State × List (Nat × Nat))
  | 0, _, _, s => .ok (s, [])
  | fuel + 1, va, n, s =>
    if n = 0 then .ok (s, [])
    else if 2 ^ 52 ≤ va then .error (.ask s (va % 2 ^ 52) 2 1 (accCode acc))
    else match s.translateNow asid va acc with
      | (s, .error (.fail code reason level)) => .error (.ask s va reason level (accCode acc) code)
      | (s, .ok k) => do
        let m := min n (64 - va % 64)
        if s.unitWaits k then throw .wait
        let (s, rest) ← State.threadPlaces asid acc fuel (va + m) (n - m) s
        pure (s, (k, m) :: rest)

/-- A plain load by the rake at its places (R342): POISON from a poisoned sector or a peer without a path. -/
def State.readPlaces (s : State) (asid : Nat) (ps : List (Nat × Nat)) : Except TStop (State × List Byte) :=
  let s := (ps.foldl (fun s p => s.reachHome p.1 p.2) s).findErrors asid (ps.map (·.1 / 64))
  let s := ps.foldl (fun s p => if p.1 < 2 ^ 52 then s.dcacheFor (p.1 / 256) 0 false else s) s
  if ps.any fun p => s.poisonedAt (p.1 / 64) then s.tstatus 6
  else .ok (s, ps.flatMap fun p => mbytes s.mem p.1 p.2)

/-- A plain GLOBAL load by the rake, for no thread (R367). -/
def State.rakeLoad (s : State) (asid va n : Nat) : Except TStop (State × List Byte) := do
  let (s, ps) ← s.threadPlaces asid .load (n / 64 + 2) va n
  s.readPlaces asid ps

/-- An EMIT store of a thread is on its way to one of some places: what the thread reads or writes there comes after it (R340, 09
R233). -/
def State.emitOpen (s : State) (core th : Nat) (ps : List (Nat × Nat)) : Bool :=
  s.flights.any fun f => match f.pkt with
    | .tstore t k bs => f.src == nodeRake core && t == th && ps.any fun p => decide (p.1 < k + bs.length) && decide (k < p.1 + p.2)
    | _ => false

/-- A plain GLOBAL load of a thread. -/
def State.threadLoad (s : State) (core th asid va n : Nat) : Except TStop (State × List Byte) := do
  let (s, ps) ← s.threadPlaces asid .load (n / 64 + 2) va n
  if s.emitOpen core th ps then throw .wait
  s.readPlaces asid ps

/-- Bytes written by a thread of a context where they lie. -/
def State.threadStore (s : State) (asid key : Nat) (bs : List Byte) : State :=
  let s := s.unitStore asid key bs
  if key < 2 ^ 52 then s.dcacheFor (key / 256) 0 true else s

/-! ## The stack (R352) -/

/-- The spill base W29[19:0] : W28. -/
def Thread.spillBase (t : Thread) : Nat := (t.wr 28).toNat + bits (t.wr 29) 0 20 * 2 ^ 32
/-- Most spilled blocks. -/
def Thread.spillMax (t : Thread) : Nat := min 4095 (2 ^ (t.spsh + 8) / 32)

/-- Writes entries of a thread, deepest first, as blocks from block `b` on, the last padded with zeros. -/
def State.spillFrom (s : State) (core th : Nat) (t : Thread) (b : Nat) : Nat → List Nat → Except TStop State
  | 0, _ => .ok s
  | fuel + 1, es =>
    if es.isEmpty then .ok s
    else if t.spillBase % 32 ≠ 0 then s.tstatus 2
    else do
      let (s, ps) ← s.threadPlaces t.asid .store 1 (t.spillBase + 32 * b) 32
      if s.emitOpen core th ps then throw .wait
      let bs := (((es.take 4) ++ List.replicate 4 0).take 4).flatMap fun e => natBytes 8 e
      State.spillFrom (ps.foldl (fun s p => s.threadStore t.asid p.1 bs) s) core th t (b + 1) fuel (es.drop 4)

/-- Reads `n` blocks of a thread from block `b` on: entries, deepest first. -/
def State.spilled (s : State) (core th : Nat) (t : Thread) (b n : Nat) : Except TStop (State × List Nat) :=
  if t.spillBase % 32 ≠ 0 then s.tstatus 2
  else do
    let (s, bs) ← s.threadLoad core th t.asid (t.spillBase + 32 * b) (32 * n)
    pure (s, (List.range (4 * n)).map fun i => dwordAt bs (8 * i))

/-- The on-chip stack, top first, and DEPTH with it. -/
def Thread.setStack (t : Thread) (l : List (Nat × Bool)) : Thread := { t with stack := l }.set30 0 4 l.length
def Thread.setSpb (t : Thread) (n : Nat) : Thread := t.set30 20 12 n

/-- KEY18 of a key (R352). -/
def key18 (x : Word) : Nat :=
  if (f32.decode x.toNat).isNan then 0x7F800000 / 2 ^ 14 else if x.getLsbD 31 then 0 else x.toNat / 2 ^ 14
/-- A stack entry (Table 13-6). -/
def stackEntry (k18 : Nat) (lw : Bool) (addr : Nat) : Nat := k18 * 2 ^ 46 + (if lw then 2 ^ 45 else 0) + addr / 128

/-- One push, which spills first when it must (R352, R353). -/
def State.push (s : State) (t : Thread) (e : Nat) : Except TStop (State × Thread) :=
  if t.stack.length < 8 then .ok (s, t.setStack ((e, false) :: t.stack))
  else if t.spillMax < t.spb + 1 then s.tstatus 8
  else do
    let s ← s.spillFrom s.rakeCore s.rakeThread t t.spb 1 (((t.stack.drop 4).map (·.1)).reverse)
    pure (s, ((t.setStack ((e, false) :: t.stack.take 4)).setSpb (t.spb + 1)))

/-- The words of a popped entry: the address pair and the key (R354). -/
def entryWords (e : Nat) : List Word :=
  let a := e % 2 ^ 45 * 128
  let pair : List Word := if bitAt e 45 then [w32 a, w32 (2 ^ 31)] else [w32 a, w32 (a / 2 ^ 32)]
  pair ++ [w32 (e / 2 ^ 46 * 2 ^ 14)]

/-! ## Migration (R356-R358) -/

/-- A path to another device exists (18 R438-R441). -/
def State.hasPath (s : State) (dev : Nat) : Bool := (tget {} s.peers dev).path

/-- A migration is abandoned: the NFCH is executed in place, the MIGR is done with Z = 1 (R358). -/
def State.abandon (s : State) (core th : Nat) (nfch : Bool) : State :=
  if nfch then s.modThread core th fun t => { t with wait := .ready, inPlace := true }
  else (s.modThread core th fun t => t.setZ true).goNext core th

/-- The EMIT stores are acknowledged: the on-chip entries are written and the context is sent (R357). -/
def State.sendContext (s : State) (core th : Nat) : Except TStop State :=
  let t := s.thread core th
  match t.wait with
  | .migrating nfch h d false _ =>
    let k := (t.stack.length + 3) / 4
    let own := d == s.mgmt.devnum
    if (k != 0 && decide (t.spillMax < t.spb + k)) || (if own then !s.reach t.asid h else !s.hasPath d) then
      .ok (s.abandon core th nfch)
    else do
      let s ← s.spillFrom core th t t.spb k (t.stack.map (·.1)).reverse
      let s := s.modThread core th fun t => { t with wait := .migrating nfch h d true none }
      pure (s.send (nodeRake core) (if own then nodeRake h else nodePeer d) t.asid none
        (.inbound ⟨t.asid, (List.range 32).map t.wr, nfch⟩ th))
  | _ => .ok s

/-- A thread sets out for another core; it waits for its EMIT stores first (R357). -/
def State.migrate (s : State) (core th : Nat) (nfch : Bool) (h d : Nat) : Except TStop State :=
  let s := s.modThread core th fun t => { t with wait := .migrating nfch h d false none }
  if (s.thread core th).emits = 0 then s.sendContext core th else .ok s

/-- A pair in the form of NFCH (R342): LWIN or GLOBAL, and the address. -/
def State.nodePair (s : State) (lo hi : Word) : Except TStop (Bool × Nat) :=
  match pairFault lo hi with
  | some 0x05 => s.tstatus 3
  | some _ => s.tstatus 2
  | none => .ok (hi.getLsbD 31, lo.toNat + if hi.getLsbD 31 then 0 else bits hi 0 20 * 2 ^ 32)

end Sys2Proof.Machine
end

