-- ==== Sys2Proof/Machine/TravArith.lean ====
section
/-! DEFINITION. Arithmetic of traversal threads (13 R335-R337). -/

namespace Sys2Proof.Machine

/-- The result of an integer form and its flags (R335). -/
def Thread.putInt (t : Thread) (d : BitVec 5) (r : Word) : Thread := ((t.setW d.toNat r).setZ (r == 0)).setN (r.getLsbD 31)
def travInt (f : T3) (s : State) (op : Word → Word → Word) : Meaning :=
  travOp s (dstOk f.d 1) fun t => .ok (t.putInt f.d (op (t.wr f.a.toNat) (t.wr f.b.toNat)))
def travIntImm (f : TI) (s : State) (op : Word → Word → Word) : Meaning :=
  travOp s (dstOk f.d 1) fun t => .ok (t.putInt f.d (op (t.wr f.a.toNat) (f.i.signExtend 32)))

def minS (a b : Word) : Word := if b.toInt < a.toInt then b else a
def maxS (a b : Word) : Word := if a.toInt < b.toInt then b else a

def execTAdd (f : T3) (s : State) : Meaning := travInt f s fun a b => a + b
def execTAddImm (f : TI) (s : State) : Meaning := travIntImm f s fun a b => a + b
def execTSub (f : T3) (s : State) : Meaning := travInt f s fun a b => a - b
def execTSubImm (f : TI) (s : State) : Meaning := travIntImm f s fun a b => a - b
def execTMul (f : T3) (s : State) : Meaning := travInt f s fun a b => a * b
def execTMulImm (f : TI) (s : State) : Meaning := travIntImm f s fun a b => a * b
def execTAnd (f : T3) (s : State) : Meaning := travInt f s fun a b => a &&& b
def execTAndImm (f : TI) (s : State) : Meaning := travIntImm f s fun a b => a &&& b
def execTOr (f : T3) (s : State) : Meaning := travInt f s fun a b => a ||| b
def execTOrImm (f : TI) (s : State) : Meaning := travIntImm f s fun a b => a ||| b
def execTXor (f : T3) (s : State) : Meaning := travInt f s fun a b => a ^^^ b
def execTXorImm (f : TI) (s : State) : Meaning := travIntImm f s fun a b => a ^^^ b
def execTShl (f : T3) (s : State) : Meaning := travInt f s shl
def execTShlImm (f : TI) (s : State) : Meaning := travIntImm f s shl
def execTShr (f : T3) (s : State) : Meaning := travInt f s shr
def execTShrImm (f : TI) (s : State) : Meaning := travIntImm f s shr
def execTMin (f : T3) (s : State) : Meaning := travInt f s minS
def execTMinImm (f : TI) (s : State) : Meaning := travIntImm f s minS
def execTMax (f : T3) (s : State) : Meaning := travInt f s maxS
def execTMaxImm (f : TI) (s : State) : Meaning := travIntImm f s maxS

/-- A floating form: RNE, subnormals kept, canonical NaN (R336). -/
def travFloat (f : T3) (s : State) (op : Nat → Nat → Nat × Flg) : Meaning :=
  travOp s (dstOk f.d 1) fun t =>
    let r := w32 (op (t.wr f.a.toNat).toNat (t.wr f.b.toNat).toNat).1
    .ok (((t.setW f.d.toNat r).setZ (bits r 0 31 == 0)).setN (r.getLsbD 31 && !(f32.decode r.toNat).isNan))

def execTFadd (f : T3) (s : State) : Meaning := travFloat f s (f32.fadd 0)
def execTFsub (f : T3) (s : State) : Meaning := travFloat f s (f32.fsub 0)
def execTFmul (f : T3) (s : State) : Meaning := travFloat f s (f32.fmul 0)
def execTFmin (f : T3) (s : State) : Meaning := travFloat f s (f32.minmax false false)
def execTFmax (f : T3) (s : State) : Meaning := travFloat f s (f32.minmax false true)

/-- FCMP (R337). -/
def execTFcmp (a b : BitVec 5) (s : State) : Meaning :=
  travOp s true fun t =>
    let x := f32.decode (t.wr a.toNat).toNat
    let y := f32.decode (t.wr b.toNat).toNat
    let ok := !x.isNan && !y.isNan
    .ok ((t.setZ (ok && x.cmp y == 0)).setN (ok && x.cmp y == -1))

def execTMovi (d : BitVec 5) (i : BitVec 16) (s : State) : Meaning :=
  travOp s (dstOk d 1) fun t => .ok (t.setW d.toNat (i.signExtend 32))
def execTMoviHi (d : BitVec 5) (i : BitVec 16) (s : State) : Meaning :=
  travOp s (dstOk d 1) fun t => .ok (t.setW d.toNat (i ++ (t.wr d.toNat).extractLsb' 0 16))

/-- Table 13-5. -/
def Thread.cond (t : Thread) (c : Nat) : Bool :=
  match c with
  | 0 => true
  | 1 => t.z
  | 2 => !t.z
  | 3 => t.n
  | 4 => !t.n
  | 5 => t.z || t.n
  | 6 => !t.z && !t.n
  | 7 => t.hit
  | 8 => !t.hit
  | 9 => t.isEmpty
  | _ => !t.isEmpty

def execTSel (d a b c : BitVec 5) (s : State) : Meaning :=
  travOp s (dstOk d 1) fun t => .ok (t.setW d.toNat (t.wr (if t.cond c.toNat then a else b).toNat))

end Sys2Proof.Machine
end

