-- ==== Sys2Proof/Machine/TravFlow.lean ====
section
/-! DEFINITION. Control flow, results and migration of traversal threads: BRC, JMP, END, EMIT, MIGR and YLD (13 R338-R341,
R356). -/

namespace Sys2Proof.Machine

def execTBrc (c : BitVec 5) (i : BitVec 11) (s : State) : Meaning :=
  travForm s true fun t => .ok (s.goto s.rakeCore s.rakeThread (t.pc + if t.cond c.toNat then i.toInt else 1))

/-- JMP: D = 31 writes no link. -/
def execTJmp (d a : BitVec 5) (s : State) : Meaning :=
  travForm s (d == 31 || dstOk d 1) fun t =>
    let x := t.wr a.toNat
    if bits x 11 21 ≠ 0 then s.tstatus 1
    else
      let s := if d = 31 then s else s.modThread s.rakeCore s.rakeThread fun t => t.setW d.toNat (w32 (t.pc + 1))
      .ok (s.goto s.rakeCore s.rakeThread x.toNat)

def execTEnd (s : State) : Meaning := travForm s true fun _ => s.tstatus 0

/-- One EMIT store for each sector (R340). -/
def State.emitStores (s : State) (core th asid : Nat) : List (Nat × Nat) → List Byte → State
  | [], _ => s
  | (k, n) :: rest, bs =>
    State.emitStores ((s.send (nodeRake core) (homeOf k) asid none (.tstore th k (bs.take n))).modThread core th
      fun t => { t with emits := t.emits + 1 }) core th asid rest (bs.drop n)

def execTEmit (a b : BitVec 5) (n : BitVec 3) (s : State) : Meaning :=
  let k := n.toNat + 1
  travForm s (srcOk a k && b.toNat % 2 == 0 && decide (b.toNat ≤ 28)) fun t =>
    let lo := t.wr b.toNat
    let hi := t.wr (b.toNat + 1)
    let addr := lo.toNat + hi.toNat * 2 ^ 32
    if bits hi 20 12 ≠ 0 then s.tstatus 3
    else if addr % 4 ≠ 0 then s.tstatus 2
    else do
      let (s, ps) ← s.threadPlaces t.asid .store 2 addr (4 * k)
      let s := s.emitStores s.rakeCore s.rakeThread t.asid ps (wordsBytes (t.group a.toNat k))
      let up := (addr + 4 * k) % 2 ^ 52
      let s := s.modThread s.rakeCore s.rakeThread fun t => t.setGroup b.toNat [w32 up, w32 (up / 2 ^ 32)]
      pure (s.goNext s.rakeCore s.rakeThread)

def execTMigr (a : BitVec 5) (s : State) : Meaning :=
  travForm s true fun t =>
    let x := t.wr a.toNat
    let h := bits x 0 8
    let d := bits x 8 3
    if bits x 11 21 ≠ 0 then s.tstatus 3
    else if h = s.rakeCore ∧ d = s.mgmt.devnum then
      .ok ((s.modThread s.rakeCore s.rakeThread fun t => t.setZ false).goNext s.rakeCore s.rakeThread)
    else s.migrate s.rakeCore s.rakeThread false h d

/-- A thread that could issue (R329), but for YLD. -/
def Thread.ready (t : Thread) : Bool := t.used && t.wait == .ready
/-- Threads of a rake that could issue, ascending. -/
def Rake.readyThreads (r : Rake) : List Nat := (List.range 32).filter fun i => (tget {} r.threads i).ready

/-- YLD: the other ready threads go first. -/
def execTYld (s : State) : Meaning :=
  travForm s true fun _ =>
    let others := (s.rake s.rakeCore).readyThreads.filter (· != s.rakeThread)
    .ok ((s.modThread s.rakeCore s.rakeThread fun t => { t with yielded := others }).goNext s.rakeCore s.rakeThread)

end Sys2Proof.Machine
end

