-- ==== Sys2Proof/Machine/TravNode.lean ====
section
/-! DEFINITION. Node access of traversal threads: NFCH, NDEC and NQBX (13 R342-R344, 14 R369-R375). -/

namespace Sys2Proof.Machine

/-- A whole node in LWIN range (06 R152). -/
def lwinNode (addr : Nat) : Bool := decide (addr < 2 ^ 26) && decide (addr % 2 ^ 18 + 128 ≤ localSize)

/-- Where an NFCH migrates to: core and device (R356). -/
def State.nodeTarget (s : State) (t : Thread) (lw : Bool) (addr : Nat) : Except TStop (State × Option (Nat × Nat)) :=
  if !t.mig || t.inPlace then .ok (s, none)
  else if lw then .ok (s, if addr / 2 ^ 18 = s.rakeCore then none else some (addr / 2 ^ 18, s.mgmt.devnum))
  else do
    let (s, ps) ← s.threadPlaces t.asid .load 1 addr 64
    pure (s, ps.findSome? fun p =>
      if peerBase 0 ≤ p.1 ∧ p.1 < hostBase then some (s.rakeCore, p.1 / 2 ^ 52 - 1) else none)

/-- NFCH: migrates, or waits for the node. -/
def execTNfch (a : BitVec 5) (s : State) : Meaning :=
  travForm s (srcOk a 2) fun t => do
    let (lw, addr) ← s.nodePair (t.wr a.toNat) (t.wr (a.toNat + 1))
    if lw && !lwinNode addr then s.tstatus 3
    else match ← s.nodeTarget t lw addr with
      | (s, some (h, d)) => s.migrate s.rakeCore s.rakeThread true h d
      | (s, none) =>
        if lw && !s.reach t.asid (addr / 2 ^ 18) then s.tstatus 5
        else pure (s.modThread s.rakeCore s.rakeThread fun t => { t with wait := .node lw addr })

/-- NDEC with the word index given. -/
def travNdec (d b : BitVec 5) (w : Thread → Nat) (s : State) : Meaning :=
  travOp s (dstOk d 1) fun t =>
    match t.node with
    | none => s.tstatus 7
    | some ws => .ok (t.setW d.toNat (bfx (ws.getD (w t) 0) (t.wr b.toNat)))
def execTNdec (d b w : BitVec 5) (s : State) : Meaning := travNdec d b (fun _ => w.toNat) s
def execTNdecX (f : T3) (s : State) : Meaning := travNdec f.d f.b (fun t => bits (t.wr f.a.toNat) 0 5) s

/-! ## Node formats -/

def fval (w : Word) : Val := f32.decode w.toNat
/-- An infinity or a NaN. -/
def notFinite (w : Word) : Bool := bits w 23 8 == 255
/-- Byte `j` of the plane run that begins at word `w`. -/
def planeByte (ws : List Word) (w j : Nat) : Nat := bits (ws.getD (w + j / 4) 0) (8 * (j % 4)) 8

/-- The node is a valid WN8 node (14 R369, R370). -/
def isWn8 (ws : List Word) : Bool :=
  let w0 := ws.getD 0 0
  bits w0 0 8 == 1 && [8, 16, 24].all (fun p => bits w0 p 8 != 255) && [1, 2, 3].all fun i => !notFinite (ws.getD i 0)
/-- A triangle leaf (14 R372). -/
def isTri (ws : List Word) : Bool := let w0 := ws.getD 0 0; bits w0 0 4 == 2 && bits w0 7 25 == 0
/-- A B-tree node (14 R374). -/
def isBtree (ws : List Word) : Bool :=
  let w0 := ws.getD 0 0
  bits w0 0 4 == 4 && decide (1 ≤ bits w0 4 4) && decide (bits w0 4 4 ≤ 8) && bits w0 10 22 == 0
/-- A neighbour-graph node (14 R375). -/
def isGraph (ws : List Word) : Bool :=
  let w0 := ws.getD 0 0
  bits w0 0 4 == 5 && decide (bits w0 4 5 ≤ 16) && bits w0 9 23 == 0

/-- Slot `j` of a WN8 node is empty (14 R371). -/
def slotEmpty (ws : List Word) (j : Nat) : Bool :=
  !(ws.getD 8 0).getLsbD j || [0, 1, 2].any fun x => decide (planeByte ws (11 + 4 * x) j < planeByte ws (9 + 4 * x) j)

/-- A value rounded to F32. -/
def toF32 (m : Mode) (v : Val) : Word := w32 (f32.encode m false false v).1
def posInf : Word := 0x7F800000
def negInf : Word := 0xFF800000

/-- Low and high corner of an occupied slot on an axis, exact before one rounding (14 R371). -/
def slotSide (ws : List Word) (j x : Nat) (high : Bool) : Word :=
  let m : Mode := if high then .rup else .rdn
  let q := planeByte ws ((if high then 11 else 9) + 4 * x) j
  toF32 m (Val.add m (fval (ws.getD (1 + x) 0)) (.fin false q ((bits (ws.getD 0 0) (8 + 8 * x) 8 : Int) - 127) false)).1

/-- The six words of NQBX. -/
def slotBox (ws : List Word) (j : Nat) : List Word :=
  if slotEmpty ws j then [posInf, posInf, posInf, negInf, negInf, negInf]
  else [0, 1, 2].map (slotSide ws j · false) ++ [0, 1, 2].map (slotSide ws j · true)

/-- An instruction that needs a node of a format (R363 NODE_INVALID). -/
def travNode (s : State) (ok : Bool) (fmt : List Word → Bool) (body : List Word → Thread → Thread) : Meaning :=
  travOp s ok fun t =>
    match t.node with
    | some ws => if fmt ws then .ok (body ws t) else s.tstatus 7
    | none => s.tstatus 7

def execTNqbx (d : BitVec 5) (j : BitVec 3) (s : State) : Meaning :=
  travNode s (dstOk d 6) isWn8 fun ws t => t.setGroup d.toNat (slotBox ws j.toNat)

end Sys2Proof.Machine
end

