-- ==== Sys2Proof/Machine/TravTest.lean ====
section
/-! DEFINITION. The test units: BOX8, SBOX8, TRI, SPHD, KCMP8 and VDIST (13 R345-R351). -/

namespace Sys2Proof.Machine

/-! ## Values -/

def vadd (x y : Val) : Val := (Val.add .rne x y).1
def vsub (x y : Val) : Val := (Val.add .rne x y.neg).1
def vmul (x y : Val) : Val := (Val.mul x y).1
def vdiv (x y : Val) : Val := (Val.div x y).1
def vzero : Val := .fin false 0 0 false
def vless (x y : Val) : Bool := !x.isNan && !y.isNan && x.cmp y == -1
def vleq (x y : Val) : Bool := !x.isNan && !y.isNan && x.cmp y != 1
def wmax (a b : Word) : Word := if vless (fval a) (fval b) then b else a
def wmin (a b : Word) : Word := if vless (fval b) (fval a) then b else a
def anyNan (ws : List Word) : Bool := ws.any fun w => (fval w).isNan

/-! ## BOX8 and SBOX8 (R347) -/

/-- A quotient of BOX8; a NaN where it is undefined. -/
def slabEnd (o d c : Word) : Val := vdiv (vsub (fval c) (fval o)) (fval d)

/-- The interval of a ray in a slab; none for a miss. -/
def slab (o d lo hi : Word) : Option (Word × Word) :=
  if bits d 0 31 = 0 then
    if vless (fval o) (fval lo) || vless (fval hi) (fval o) then none else some (negInf, posInf)
  else
    let p := slabEnd o d lo
    let q := slabEnd o d hi
    if p.isNan || q.isNan then some (negInf, posInf)
    else some (wmin (toF32 .rdn p) (toF32 .rdn q), wmax (toF32 .rup p) (toF32 .rup q))

/-- BOX8 on one slot: hit and key. -/
def boxTest (ray ws : List Word) (j : Nat) : Bool × Word :=
  let r (i : Nat) : Word := ray.getD i 0
  let side (x : Nat) : Option (Word × Word) := slab (r x) (r (3 + x)) (slotSide ws j x false) (slotSide ws j x true)
  if anyNan ray || slotEmpty ws j then (false, 0)
  else match side 0, side 1, side 2 with
    | some a, some b, some c =>
      let tn := wmax (wmax (wmax a.1 b.1) c.1) (r 6)
      let tf := wmin (wmin (wmin a.2 b.2) c.2) (r 7)
      (vleq (fval tn) (fval tf), tn)
    | _, _, _ => (false, 0)

/-- A difference that is undefined counts as 0 (R347). -/
def gapPart (x y : Word) : Val := let d := vsub (fval x) (fval y); if d.isNan then vzero else d
/-- The gap between a centre and a box on an axis. -/
def gap (c lo hi : Word) : Val :=
  let a := gapPart lo c
  let b := gapPart c hi
  let m := if vless a b then b else a
  if vless m vzero then vzero else m

/-- rad × rad rounded up. -/
def radSquare (rad : Word) : Word := toF32 .rup (vmul (fval rad) (fval rad))

/-- SBOX8 on one slot. -/
def sphereTest (sp ws : List Word) (j : Nat) : Bool × Word :=
  let r (i : Nat) : Word := sp.getD i 0
  if anyNan sp || vless (fval (r 3)) vzero || slotEmpty ws j then (false, 0)
  else
    let g (x : Nat) : Val := gap (r x) (slotSide ws j x false) (slotSide ws j x true)
    let key := toF32 .rdn (vadd (vadd (vmul (g 0) (g 0)) (vmul (g 1) (g 1))) (vmul (g 2) (g 2)))
    (vleq (fval key) (fval (radSquare (r 3))), key)

/-- Tests of the eight slots: mask, HIT and the test buffer. -/
def travTests (s : State) (d a : BitVec 5) (n : Nat) (test : List Word → List Word → Nat → Bool × Word) : Meaning :=
  travNode s (dstOk d 1 && srcOk a n) isWn8 fun ws t =>
    let rs := (List.range 8).map fun j => test (t.group a.toNat n) ws j
    let mask := ((List.range 8).filter fun j => (rs.getD j (false, 0)).1).map (2 ^ ·)
    { (t.setW d.toNat (w32 mask.sum)).setHit (mask.sum != 0) with test := some rs }

/-- BOX8; A is at most 24. -/
def execTBox8 (d a : BitVec 5) (s : State) : Meaning := travTests s d a 8 boxTest
def execTSbox8 (d a : BitVec 5) (s : State) : Meaning := travTests s d a 4 sphereTest

/-! ## TRI (R348) -/

/-- Vertex `v` of slot `j` of a triangle leaf. -/
def vertex (ws : List Word) (j v : Nat) : List Word := (List.range 3).map fun i => ws.getD (1 + 9 * j + 3 * v + i) 0
def triEmpty (ws : List Word) (j : Nat) : Bool := !(ws.getD 0 0).getLsbD (4 + j)
def triId (ws : List Word) (j : Nat) : Word := ws.getD (28 + j) 0

/-- The axes kx, ky, kz of a direction. -/
def triAxes (d : List Word) : Nat × Nat × Nat :=
  let m (i : Nat) : Nat := bits (d.getD i 0) 0 31
  let kz := if m 0 ≤ m 2 ∧ m 1 ≤ m 2 then 2 else if m 0 ≤ m 1 then 1 else 0
  let kx := (kz + 1) % 3
  let ky := (kx + 1) % 3
  if vless (fval (d.getD kz 0)) vzero then (ky, kx, kz) else (kx, ky, kz)

def rne (v : Val) : Word := toF32 .rne v
/-- Round(p − Round(s × q)). -/
def shear (s p q : Word) : Word := rne (vsub (fval p) (fval (rne (vmul (fval s) (fval q)))))

/-- Round of an exact quotient: an exact number has no signed zero, so a zero rounds to +0 (log 52). -/
def rneExact (v : Val) : Word := if v.isZero then 0 else rne v

/-- What a ray's test against a triangle gives: tt, b1 and b2; none for no hit. -/
def triHit (ray : List Word) (vs : List (List Word)) : Option (Word × Word × Word) :=
  let d := (ray.drop 3).take 3
  let (kx, ky, kz) := triAxes d
  let dv (k : Nat) : Val := fval (d.getD k 0)
  let sx := rne (vdiv (dv kx) (dv kz))
  let sy := rne (vdiv (dv ky) (dv kz))
  let sz := rne (vdiv (.fin false 1 0 false) (dv kz))
  let pts : List (Word × Word × Word) := vs.map fun v =>
    let p (i : Nat) : Word := rne (vsub (fval (v.getD i 0)) (fval (ray.getD i 0)))
    (shear sx (p kx) (p kz), shear sy (p ky) (p kz), rne (vmul (fval sz) (fval (p kz))))
  let x (i : Nat) : Val := fval (pts.getD i (0, 0, 0)).1
  let y (i : Nat) : Val := fval (pts.getD i (0, 0, 0)).2.1
  let z (i : Nat) : Val := fval (pts.getD i (0, 0, 0)).2.2
  if anyNan ray || d.all (fun w => bits w 0 31 == 0) || [sx, sy, sz].any notFinite ||
      pts.any (fun p => notFinite p.1 || notFinite p.2.1 || notFinite p.2.2) then none
  else
    let cross (i j : Nat) : Val := vsub (vmul (x i) (y j)) (vmul (y i) (x j))
    let es := [cross 2 1, cross 0 2, cross 1 0]
    let u := es.getD 0 vzero
    let v := es.getD 1 vzero
    let w := es.getD 2 vzero
    let det := vadd (vadd u v) w
    if (es.any (vless · vzero) && es.any (vless vzero ·)) || det.isZero then none
    else
      let tt := rneExact (vdiv (vadd (vadd (vmul u (z 0)) (vmul v (z 1))) (vmul w (z 2))) det)
      if vleq (fval (ray.getD 6 0)) (fval tt) && vleq (fval tt) (fval (ray.getD 7 0)) then
        some (tt, rneExact (vdiv v det), rneExact (vdiv w det))
      else none

/-- TRI; the instance id is read before any register is written. -/
def execTTri (d a b : BitVec 5) (j : BitVec 2) (s : State) : Meaning :=
  travNode s (decide (d.toNat ≤ 25) && decide (a.toNat ≤ 22)) isTri fun ws t =>
    let slot := j.toNat
    if triEmpty ws slot then t.setHit false
    else match triHit (t.group a.toNat 8) ((List.range 3).map (vertex ws slot)) with
      | none => t.setHit false
      | some (tt, b1, b2) =>
        let id := triId ws slot
        let inst := t.wr b.toNat
        let old := t.wr d.toNat
        let oid := t.wr (d.toNat + 3)
        let oinst := t.wr (d.toNat + 4)
        if vless (fval tt) (fval old) || ((fval tt).cmp (fval old) == 0 && !(fval old).isNan &&
            (decide (id.toNat < oid.toNat) || (id == oid && decide (inst.toNat < oinst.toNat)))) then
          ((t.setGroup d.toNat [tt, b1, b2, id, inst]).setW (a.toNat + 7) tt).setHit true
        else t.setHit false

/-! ## SPHD (R349) -/

/-- A finite word in units of 2^-149. -/
def fixed (w : Word) : Int := match fval w with | .fin n m e _ => scaled n m e (-149) | _ => 0
/-- Vectors of three. -/
def vec (ws : List Word) : List Int := ws.map fixed
def vecSub (a b : List Int) : List Int := List.zipWith (· - ·) a b
def dot (a b : List Int) : Int := (List.zipWith (· * ·) a b).sum
def crossProd (a b : List Int) : List Int :=
  let x (i : Nat) : Int := a.getD i 0
  let y (i : Nat) : Int := b.getD i 0
  [x 1 * y 2 - x 2 * y 1, x 2 * y 0 - x 0 * y 2, x 0 * y 1 - x 1 * y 0]

/-- A ratio of naturals. -/
abbrev Ratio := Nat × Nat
def Ratio.min (a b : Ratio) : Ratio := if b.1 * a.2 < a.1 * b.2 then b else a

/-- Squared distance from a point to a segment. -/
def segDist (p a b : List Int) : Ratio :=
  let ap := vecSub p a
  let ab := vecSub b a
  let t := dot ap ab
  let l := dot ab ab
  if t ≤ 0 then ((dot ap ap).toNat, 1)
  else if l ≤ t then ((dot (vecSub p b) (vecSub p b)).toNat, 1)
  else ((dot ap ap * l - t * t).toNat, l.toNat)

/-- Squared distance from a point to a triangle: to its plane when the point projects into it, else to an edge. -/
def triDist (p a b c : List Int) : Ratio :=
  let n := crossProd (vecSub b a) (vecSub c a)
  let side (u v : List Int) : Bool := decide (0 ≤ dot n (crossProd (vecSub v u) (vecSub p u)))
  let h := dot n (vecSub p a)
  if decide (0 < dot n n) && side a b && side b c && side c a then ((h * h).toNat, (dot n n).toNat)
  else ((segDist p a b).min (segDist p b c)).min (segDist p c a)

/-- e of R349. -/
def sphDist (ctr : List Word) (vs : List (List Word)) : Word :=
  if vs.any (·.any notFinite) then 0
  else if ctr.any notFinite then posInf
  else
    let v (i : Nat) : List Int := vec (vs.getD i [])
    let r := triDist (vec ctr) (v 0) (v 1) (v 2)
    toF32 .rdn (vdiv (.fin false r.1 (-298) false) (.fin false r.2 0 false))

def execTSphd (d a : BitVec 5) (j : BitVec 2) (s : State) : Meaning :=
  travNode s (decide (d.toNat ≤ 28) && srcOk a 4) isTri fun ws t =>
    let slot := j.toNat
    let sp := t.group a.toNat 4
    if triEmpty ws slot || anyNan sp then t.setHit false
    else
      let e := sphDist (sp.take 3) ((List.range 3).map (vertex ws slot))
      let rad := sp.getD 3 0
      let old := t.wr d.toNat
      let id := triId ws slot
      let less := vless (fval e) (fval old) ||
        (!(fval old).isNan && (fval e).cmp (fval old) == 0 && decide (id.toNat < (t.wr (d.toNat + 1)).toNat))
      (if less then t.setGroup d.toNat [e, id] else t).setHit (vleq vzero (fval rad) && vleq (fval e) (fval (radSquare rad)))

/-! ## KCMP8 (R350) -/

/-- Place of a key in the order of its type. -/
def keyRank (type : Nat) (w : Word) : Int :=
  match type with
  | 0 => w.toNat
  | 1 => w.toInt
  | _ => if (fval w).isNan then 2 ^ 32 + w.toNat else if w.getLsbD 31 then -1 - (bits w 0 31 : Int) else w.toNat

def execTKcmp8 (d a : BitVec 5) (type : BitVec 2) (s : State) : Meaning :=
  travNode s (dstOk d 2) isBtree fun ws t =>
    let key := t.wr a.toNat
    let ks := (ws.drop 1).take (bits (ws.getD 0 0) 4 4)
    let eq := ks.findIdx? (· == key)
    let below := (ks.filter fun k => decide (keyRank type.toNat k ≤ keyRank type.toNat key)).length
    (t.setGroup d.toNat [w32 below, match eq with | some i => w32 i | none => 0xFFFFFFFF]).setZ eq.isSome

/-! ## VDIST (R351) -/

/-- A descriptor of VDIST within its limits. -/
def vdistOk (w : Word) : Bool :=
  bits w 0 12 % 8 == 0 && decide (8 ≤ bits w 0 12) && decide (bits w 0 12 ≤ 2048) && bits w 12 2 != 3 && bits w 15 17 == 0

/-- Format and bytes of an element. -/
def vdistFmt (w : Word) : Fmt × Nat :=
  match bits w 12 2 with | 0 => (f32, 4) | 1 => (f16, 2) | _ => (e4m3, 1)

/-- The distance of two vectors. -/
def vdist (w : Word) (q x : List Byte) : Word :=
  let (f, n) := vdistFmt w
  let at_ (bs : List Byte) (i : Nat) : Val := f.decode (bytesNat ((bs.drop (n * i)).take n))
  let term (i : Nat) : Val :=
    if w.getLsbD 14 then (vmul (at_ q i) (at_ x i)).neg
    else let d := vsub (at_ q i) (at_ x i); vmul d d
  (List.range (bits w 0 12 / 8)).foldl (fun s g =>
    rne (vadd (fval s) ((List.range 7).foldl (fun v i => vadd v (term (8 * g + i + 1))) (term (8 * g))))) 0

/-- VDIST: the checks that need no read; then the thread waits for both vectors. -/
def execTVdist (f : T3) (s : State) : Meaning :=
  travForm s (dstOk f.d 1 && srcOk f.a 2) fun t =>
    match t.node with
    | none => if vdistOk (t.wr f.b.toNat) then s.tstatus 7 else s.tstatus 1
    | some ws =>
      if !vdistOk (t.wr f.b.toNat) then s.tstatus 1
      else if !isGraph ws then s.tstatus 7
      else if bits (t.wr (f.a.toNat + 1)) 20 12 ≠ 0 || bits (ws.getD 2 0) 20 12 ≠ 0 then s.tstatus 3
      else if bits (ws.getD 1 0) 0 5 ≠ 0 then s.tstatus 2
      else .ok (s.modThread s.rakeCore s.rakeThread fun t => { t with wait := .vector f.d.toNat f.a.toNat f.b.toNat })

end Sys2Proof.Machine
end

