-- ==== Sys2Proof/Machine/TravStack.lean ====
section
/-! DEFINITION. The stack of a traversal thread: PUSHM, POP and STKQ (13 R352-R355). -/

namespace Sys2Proof.Machine

/-- Pushes entries in order. -/
def State.pushAll (s : State) (t : Thread) : List Nat → Except TStop (State × Thread)
  | [] => .ok (s, t)
  | e :: es => do
    let (s, t) ← s.push t e
    State.pushAll s t es

/-- PUSHM after its entries are known. -/
def travPush (s : State) (t : Thread) (es : List Nat) : Except TStop State := do
  let (s, t) ← s.pushAll t es
  pure ((s.modThread s.rakeCore s.rakeThread fun _ => t.setEmpty false).goNext s.rakeCore s.rakeThread)

/-- The entry of child slot `j` (14 R371). -/
def childEntry (ws : List Word) (j k18 : Nat) : Nat :=
  let lo := ws.getD 4 0
  let hi := ws.getD 5 0
  let off := 128 * planeByte ws 6 j
  if hi.getLsbD 31 then stackEntry k18 true ((lo.toNat + off) % 2 ^ 32)
  else stackEntry k18 false ((lo.toNat + bits hi 0 20 * 2 ^ 32 + off) % 2 ^ 52)

/-- Slots to push, in the order of R353: descending stored key, then descending slot. -/
def pushOrder (mask : Word) (rs : List (Bool × Word)) : List (Nat × Nat) :=
  let l := ((List.range 8).filter fun j => mask.getLsbD j && (rs.getD j (false, 0)).1).map fun j => (j, key18 (rs.getD j (false, 0)).2)
  l.insertionSort fun a b => b.2 < a.2 ∨ (a.2 = b.2 ∧ b.1 ≤ a.1)

def execTPushm (b : BitVec 5) (s : State) : Meaning :=
  travForm s true fun t =>
    match t.test, t.node with
    | some rs, some ws => travPush s t ((pushOrder (t.wr b.toNat) rs).map fun p => childEntry ws p.1 p.2)
    | _, _ => s.tstatus 7

def execTPushmE (a b : BitVec 5) (s : State) : Meaning :=
  travForm s (srcOk a 2) fun t => do
    let (lw, addr) ← s.nodePair (t.wr a.toNat) (t.wr (a.toNat + 1))
    if lw && !lwinNode addr then s.tstatus 3
    else travPush s t [stackEntry (key18 (t.wr b.toNat)) lw addr]

/-- Which on-chip entry a POP takes (R354). -/
def Thread.popIndex (t : Thread) : Nat :=
  if t.ordered then 0 else ((t.stack.take 4).findIdx? (·.2)).getD 0

/-- POP from the on-chip entries. -/
def Thread.popNow (t : Thread) (d : Nat) : Thread :=
  let i := t.popIndex
  ((t.setStack (t.stack.eraseIdx i)).setGroup d (entryWords (t.stack.getD i (0, false)).1)).setEmpty false

def execTPop (d : BitVec 5) (s : State) : Meaning :=
  travForm s (dstOk d 3) fun t =>
    if t.stack.isEmpty && t.spb != 0 then
      .ok (s.modThread s.rakeCore s.rakeThread fun t => { t with wait := .reload d.toNat false })
    else
      .ok ((s.modThread s.rakeCore s.rakeThread fun t => if t.stack.isEmpty then t.setEmpty true else t.popNow d.toNat).goNext
        s.rakeCore s.rakeThread)

/-- STKQ. -/
def execTStkq (d : BitVec 5) (f : BitVec 2) (s : State) : Meaning :=
  travForm s (dstOk d 1) fun t =>
    let none_ := t.stack.isEmpty && t.spb == 0
    let size := w32 (4 * t.spb + t.stack.length)
    let done (t : Thread) : Except TStop State :=
      .ok ((s.modThread s.rakeCore s.rakeThread fun _ => t).goNext s.rakeCore s.rakeThread)
    match f.toNat with
    | 0 => done ((t.setW d.toNat size).setEmpty none_)
    | 1 =>
      match t.stack with
      | e :: _ => done ((t.setW d.toNat (w32 (e.1 / 2 ^ 46 * 2 ^ 14))).setEmpty false)
      | [] =>
        if none_ then done ((t.setW d.toNat posInf).setEmpty true)
        else .ok (s.modThread s.rakeCore s.rakeThread fun t => { t with wait := .reload d.toNat true })
    | _ => done ((((t.setW d.toNat size).setStack []).setSpb 0).setEmpty true)

end Sys2Proof.Machine
end

