-- ==== Sys2Proof/Machine/EvTrav.lean ====
section
/-! DEFINITION. The issue of a rake and the device steps of the traversal processors (13 R328-R329, R339, R342, R351-R367). -/

namespace Sys2Proof.Machine

/-! ## Issue (R329) -/

/-- The request entry of a thread is marked for killing (R366). -/
def State.threadKilled (s : State) (w31 : Word) : Bool :=
  bits w31 24 3 == s.mgmt.devnum && (tget {} (s.rake (bits w31 16 8)).reqs (bits w31 0 9)).kill

/-- The thread that issues next: round-robin, those that yielded after the others (R329, R341). -/
def Rake.pick (r : Rake) : Option Nat :=
  let ready := r.readyThreads
  let ok := ready.filter fun i => (tget {} r.threads i).yielded.all fun j => !ready.contains j
  match ok.find? fun i => decide (r.last < i) with
  | some i => some i
  | none => ok.head?

/-- Word `pc` of the kernel of a thread. -/
def State.kernelWord (s : State) (core : Nat) (t : Thread) (pc : Nat) : Option Word :=
  let r := s.rake core
  match r.kernel t.asid t.kid, r.regions.find? fun x => x.2.1 == t.asid with
  | some (o, n), some x => if pc < n then some (tget 0 r.program (x.2.2.1 + o + pc)) else none
  | _, _ => none

/-- A rake's turn: no thread is ready, a thread ends at its boundary, or an instruction issues. -/
noncomputable def State.rakeIssue (s : State) (core : Nat) : State × Option Instr :=
  match if (s.rake core).stamp = s.cycle.toNat + 1 then none else (s.rake core).pick with
  | none => (s, none)
  | some th =>
    let s := s.modRake core fun r =>
      { r with last := th, stamp := s.cycle.toNat + 1, threads := r.threads.map fun (i, t) =>
          (i, { t with yielded := if i = th then [] else t.yielded.filter (· != th) }) }
    let t := s.thread core th
    if s.threadKilled (t.wr 31) then (s.endThread core th 9, none)
    else match s.kernelWord core t t.pc with
      | none => (s.endThread core th 1, none)
      | some w => match decodeTrav w with
        | .error _ => (s.endThread core th 1, none)
        | .ok i => ({ s with rakeCore := core, rakeThread := th }, some i)

/-! ## Slots (R328) -/

/-- The thread waits for its kernel (R328). -/
def Rake.isLoading (r : Rake) (asid : Nat) (w31 : Word) : Bool := r.loading.contains (asid, bits w31 9 4)

/-- Oldest inbound context and oldest pinned local request that may start. -/
def Rake.nextInbound (r : Rake) : Option Inbound := r.inbound.find? fun c => !r.isLoading c.asid (c.w.getD 31 0)
def Rake.nextLocal (r : Rake) : Option Nat :=
  r.order.find? fun e => let q : TReq := tget {} r.reqs e; !q.waiting && !r.isLoading q.asid (q.w.getD 31 0)

/-- A thread's registers. -/
def wTable (ws : List Word) : Tab Word := ((List.range 32).zip ws).filter fun p => p.2 != 0

/-- An inbound context takes a slot: its on-chip entries are read back, or it goes on at once (R357). -/
def State.startInbound (s : State) (core th : Nat) (c : Inbound) : State :=
  let t : Thread := { used := true, asid := c.asid, w := wTable c.w, inPlace := c.nfch, wait := .restore }
  let s := s.modRake core fun r =>
    { r with inbound := r.inbound.erase c, lastInbound := true, threads := tset r.threads th t }
  if t.depth ≠ 0 then s
  else if c.nfch then s.modThread core th fun t => { t with wait := .ready }
  else (s.modThread core th fun t => t.setZ false).goNext core th

/-- A local request takes a slot, or ends as KILLED (R331, R366). -/
def State.startLocal (s : State) (core th e : Nat) : State :=
  let q : TReq := tget {} (s.rake core).reqs e
  let s := s.modRake core fun r => { r with order := r.order.filter (· != e), lastInbound := false }
  if q.kill then s.sendDone core q.asid (fun i => q.w.getD i 0) 9 0
  else s.modThread core th fun _ => { used := true, asid := q.asid, w := wTable q.w }

/-- THREAD_SLOT_FILL: the two sources take turns when both wait. -/
def execEvThreadSlotFill (core : Nat) (s : State) : Meaning :=
  let r := s.rake core
  match (List.range 32).find? fun i => !(tget {} r.threads i).used with
  | none => .next s
  | some th =>
    match r.nextInbound, r.nextLocal with
    | some c, some e => .next (if r.lastInbound then s.startLocal core th e else s.startInbound core th c)
    | some c, none => .next (s.startInbound core th c)
    | none, some e => .next (s.startLocal core th e)
    | none, none => .next s

/-! ## What a thread waits for -/

/-- The node has come (R342). -/
def State.putNode (s : State) (core th : Nat) (bs : List Byte) : State :=
  (s.modThread core th fun t => { t with node := some ((List.range 32).map (wordAt bs)), test := none }).goNext core th

/-- NODE_FETCH_COMPLETE (R342, 06 R153). -/
def execEvNodeFetchComplete (core thread : Nat) (s : State) : Meaning :=
  s.runThread core thread fun t =>
    match t.wait with
    | .node true a =>
      let h := a / 2 ^ 18
      if s.ownsSpan h t.asid (a % 2 ^ 18) 128 then .ok (s.putNode core thread (mbytes s.mem (localBase h + a % 2 ^ 18) 128))
      else s.tstatus 5
    | .node false a => do
      let (s, bs) ← s.threadLoad core thread t.asid a 128
      pure (s.putNode core thread bs)
    | _ => .ok s

/-- VECTOR_READ_COMPLETE (R351, 14 R375). -/
def execEvVectorReadComplete (core thread : Nat) (s : State) : Meaning :=
  s.runThread core thread fun t =>
    match t.wait with
    | .vector d a b => do
      let w := t.wr b
      let n := bits w 0 12 * (vdistFmt w).2
      let ws := t.node.getD []
      let (s, q) ← s.threadLoad core thread t.asid ((t.wr a).toNat + bits (t.wr (a + 1)) 0 20 * 2 ^ 32) n
      let (s, x) ← s.threadLoad core thread t.asid ((ws.getD 1 0).toNat + bits (ws.getD 2 0) 0 20 * 2 ^ 32) n
      pure ((s.modThread core thread fun t => t.setW d (vdist w q x)).goNext core thread)
    | _ => .ok s

/-- STACK_RELOAD_COMPLETE: for a POP, for STKQ.top, or after a migration (R352, R355, R357). -/
def execEvStackReloadComplete (core thread : Nat) (s : State) : Meaning :=
  s.runThread core thread fun t =>
    match t.wait with
    | .reload d stkq => do
      let (s, es) ← s.spilled core thread t (t.spb - 1) 1
      let on : List (Nat × Bool) := es.reverse.map (·, false)
      let t := if stkq then (t.setW d (w32 (es.getD 3 0 / 2 ^ 46 * 2 ^ 14))).setEmpty false
        else ((t.setStack on).setSpb (t.spb - 1)).popNow d
      pure ((s.modThread core thread fun _ => t).goNext core thread)
    | .restore => do
      let (s, es) ← s.spilled core thread t t.spb ((t.depth + 3) / 4)
      let s := s.modThread core thread fun t => { t with stack := ((es.take t.depth).reverse.map (·, false)), wait := .ready }
      pure (if t.inPlace then s else (s.modThread core thread fun t => t.setZ false).goNext core thread)
    | _ => .ok s

/-- STACK_ENTRY_READY: the lines of an entry's node stand in the device cache, or in the home local memory (R353). A node on a PEER or
SYSTEM page, or one whose translation fails, never is ready. -/
def execEvStackEntryReady (core thread idx : Nat) (s : State) : Meaning :=
  let t := s.thread core thread
  match t.stack[idx]? with
  | some (e, false) =>
    let ready (s : State) : Meaning := .next (s.modThread core thread fun t => { t with stack := t.stack.set idx (e, true) })
    if bitAt e 45 then ready s
    else match s.translateNow t.asid (e % 2 ^ 45 * 128) .load with
      | (s, .ok k) => if k < 2 ^ 52 then ready (s.dcacheFor (k / 256) 0 false) else .next s
      | (s, .error _) => .next s
  | _ => .next s

/-- The oldest EMIT store of a thread on its way. -/
def State.emitOf (s : State) (core th : Nat) : Option (Flight × Nat × List Byte) :=
  s.flights.findSome? fun f => match f.pkt with
    | .tstore t k bs => if f.src == nodeRake core && t == th then some (f, k, bs) else none
    | _ => none

/-- A thread whose EMIT stores are all acknowledged or lost goes on to its end, or sends its context (R339, R357). -/
def State.emitsOver (s : State) (core th : Nat) : State :=
  let t := s.thread core th
  if t.emits ≠ 0 then s
  else match t.wait with
    | .migrating _ _ _ false _ => s.threadDone core th (s.sendContext core th)
    | _ => s.tryFinish core th
/-- An EMIT store of a thread is acknowledged, or discarded with its peer (R340, 09 R240). -/
def State.emitDone (s : State) (core th : Nat) : State :=
  (s.modThread core th fun t => { t with emits := t.emits - 1 }).emitsOver core th

/-- EMIT_ACKNOWLEDGE: one store is performed and acknowledged; the last one lets an ending or migrating thread go on, and one that
could not send its context then, since a port was held, tries again (R339, R340, R357). -/
def execEvEmitAcknowledge (core thread : Nat) (s : State) : Meaning :=
  .next (match s.emitOf core thread with
    | none => s.emitsOver core thread
    | some (f, k, bs) =>
      if s.unitWaits k then s else ((s.dropFlight f.id).threadStore f.asid k bs).emitDone core thread)

/-! ## Migration (R357-R358) -/

/-- The context comes from a rake of this device; one from a peer's, which the outside world sends, is answered to the peer (log
26). -/
def Flight.fromRake (f : Flight) : Bool := decide (nodeRake 0 ≤ f.src)

/-- The sender's slot falls free at admission. -/
def State.freeSender (s : State) (f : Flight) (th : Nat) : State :=
  let s := s.dropFlight f.id
  if f.fromRake then s.modThread (f.src - nodeRake 0) th fun _ => {} else s

/-- The target answers that it has no such kernel. -/
def State.noKernel (s : State) (f : Flight) (c : Inbound) (th : Nat) : State :=
  let s := s.dropFlight f.id
  if f.fromRake then s.abandon (f.src - nodeRake 0) th c.nfch else s

/-- The target refuses the context as full. -/
def State.refuseContext (s : State) (f : Flight) (th : Nat) : State :=
  let now := s.cycle.toNat
  if f.fromRake then s.modThread (f.src - nodeRake 0) th fun t =>
    match t.wait with
    | .migrating n h d true since => { t with wait := .migrating n h d true (some ((since.map (·.1)).getD now, now)) }
    | _ => t
  else s

/-- Cycles of the first and the last refusal of a context. -/
def State.refusedSince (s : State) (f : Flight) (th : Nat) : Option (Nat × Nat) :=
  if f.fromRake then match (s.thread (f.src - nodeRake 0) th).wait with
    | .migrating _ _ _ true since => since
    | _ => none
  else none

/-- What comes over a link takes its number, one from a peer the next that this device performs, which it acknowledges; none while no
port to the peer is up, and to a peer none while requests are held (18 R439-R441). -/
def State.overLink (s : State) (f : Flight) : Option State :=
  let out := f.dst - nodePeer 0
  let back := f.src - nodePeer 0
  if toPeer f.dst then
    if (s.peer out).held || !s.portUp out then none
    else some (s.modPeer out fun p => { p with nextSeq := (p.nextSeq + 1) % 2 ^ 32 })
  else if toPeer f.src then
    if !s.portUp back then none
    else some (s.modPeer back fun p => { p with recvSeq := (p.recvSeq + 1) % 2 ^ 32, acks := p.acks ++ [p.recvSeq] })
  else some s

/-- A context reaches its target: a rake of this device, or a peer, whose answer and later completion come from outside
(log 3). -/
def State.arriveContext (s : State) (f : Flight) (c : Inbound) (th : Nat) (retry : Bool) : State :=
  let w (i : Nat) : Word := c.w.getD i 0
  if nodeRake 0 ≤ f.dst then
    let core := f.dst - nodeRake 0
    let r := s.rake core
    if (r.kernel c.asid (bits (w 31) 9 4)).isNone then s.noKernel f c th
    else if r.inbound.length < 16 ∧ (retry || r.refused.isEmpty) then
      let s := s.freeSender f th
      if s.threadKilled (w 31) then s.sendDone core c.asid w 9 (bits (w 30) 9 11)
      else s.modRake core fun r => { r with inbound := r.inbound ++ [c] }
    else (s.refuseContext f th).modRake core fun r => { r with refused := r.refused ++ [f.id] }
  else
    let (x, s) := s.free
    match bits x 0 2 with
    | 0 => s.noKernel f c th
    | 1 => s.refuseContext f th
    | _ =>
      let ws := (List.range 7).map fun i => Config.freeWord (s.freeCount + i)
      let st := Config.freeWord (s.freeCount + 7)
      let s := { s.freeSender f th with freeCount := s.freeCount + 8 }
      if bits (w 31) 24 3 = s.mgmt.devnum then
        s.send f.dst (nodeRake (bits (w 31) 16 8)) c.asid none
          (.tdone ⟨bits (w 31) 0 9, ws, w32 (bits st 0 8 % 10 + bits st 8 11 * 2 ^ 8)⟩)
      else s

/-- The context of a flight, first of its pair. -/
def State.onContext (s : State) (id : Nat) (g : Flight → Inbound → Nat → State) : Meaning :=
  match s.flight? id with
  | some f => match f.pkt with
    | .inbound c th => .next (if s.first f then g f c th else s)
    | _ => .next s
  | none => .next s

/-- A context comes to its target. One for a peer waits while requests to it are held or its paths retrain, and is abandoned without a
path (R358, 18 R440-R441); one over a link takes its number (18 R439). -/
def State.contextComes (s : State) (f : Flight) (c : Inbound) (th : Nat) (retry : Bool) : State :=
  if toPeer f.dst && !(s.peer (f.dst - nodePeer 0)).held && !s.hasPath (f.dst - nodePeer 0) then s.noKernel f c th
  else match s.overLink f with
    | some s => s.arriveContext f c th retry
    | none => s

/-- INBOUND_CONTEXT_ARRIVAL: admitted or refused; one that has been refused comes again by a retry alone. -/
def execEvInboundContextArrival (flight : Nat) (s : State) : Meaning :=
  s.onContext flight fun f c th =>
    if (s.rake (f.dst - nodeRake 0)).refused.contains f.id || (s.refusedSince f th).isSome then s else s.contextComes f c th false

/-- MIGRATION_RETRY: the oldest refused context goes first, 64 cycles after its last refusal or later (08 R208); 2,048 cycles after
the first the migration is abandoned (R358). -/
def execEvMigrationRetry (flight : Nat) (s : State) : Meaning :=
  s.onContext flight fun f c th =>
    let core := f.dst - nodeRake 0
    let r := s.rake core
    let u := s.modRake core fun r => { r with refused := r.refused.filter (· != f.id) }
    let since := s.refusedSince f th
    if since.any fun p => decide (p.1 + 2048 ≤ s.cycle.toNat) then u.noKernel f c th
    else if since.any (fun p => decide (s.cycle.toNat < p.2 + 64)) || (f.fromRake && since.isNone) ||
        nodeRake 0 ≤ f.dst && (r.refused.head? != some f.id || 16 ≤ r.inbound.length) then s
    else if toPeer f.src && !s.portUp (f.src - nodePeer 0) then s
    else u.contextComes f c th true

/-- MIGRATION_REFUSAL_LIMIT: 2,048 cycles after the first refusal (R358). -/
def execEvMigrationRefusalLimit (flight : Nat) (s : State) : Meaning :=
  match s.flight? flight with
  | some f => match f.pkt with
    | .inbound c th =>
      match s.refusedSince f th with
      | some since =>
        if s.cycle.toNat < since.1 + 2048 then .next s
        else .next ((s.modRake (f.dst - nodeRake 0) fun r => { r with refused := r.refused.filter (· != f.id) }).noKernel f c th)
      | _ => .next s
    | _ => .next s
  | none => .next s

/-! ## Completion (R361-R362) -/

/-- The slice that a request entry belongs to still lives. -/
def State.reqLive (s : State) (core : Nat) (q : TReq) : Bool :=
  let x := s.slice core q.slot
  x.live && q.ownedBy x q.slot

/-- It has been saved, with its group, or, of a handler, with the core state of its context (15 R412); a slice that had retired before
has not. -/
def State.reqSaved (s : State) (core : Nat) (q : TReq) : Bool :=
  match s.group? q.group with
  | some g => g.saved && g.savedSlices.any fun x => q.ownedBy x.2 x.1
  | none => s.groups.any fun g => g.2.saved && g.2.savedCore && g.2.core == core &&
      g.2.savedSlices.any fun x => decide (120 ≤ x.1) && q.ownedBy x.2 x.1

/-- One thread of a TRAV_DONE account has completed; the last one sends the message (R362). -/
def State.noteDone (s : State) (core asid num status : Nat) : State :=
  match (s.rake core).notes.find? (·.1 == num) with
  | none => s
  | some (_, tag, k, bad, low, out) =>
    let bad := if status = 0 then bad else bad + 1
    let low := if status = 0 then low else if low = 0 then status else min low status
    let rest := (s.rake core).notes.filter (·.1 != num)
    if out ≤ 1 then
      (s.modRake core fun r => { r with notes := rest }).unitMsg (nodeRake core) core asid 0x81 core tag
        [w32 k, w32 bad, w32 low, 0, 0, 0]
    else s.modRake core fun r => { r with notes := rest ++ [(num, tag, k, bad, low, out - 1)] }

/-- The entry is freed and its pin released. -/
def State.freeEntry (s : State) (core e : Nat) : State :=
  let q : TReq := tget {} (s.rake core).reqs e
  let s := s.modRake core fun r => { r with reqs := tset r.reqs e {}, order := r.order.filter (· != e) }
  match q.pin with | some (st, n) => s.unpinLane st n | none => s

/-- Delivers a completion to its entry; none while the repack unit has no room. -/
def State.deliver (s : State) (core e : Nat) (ws : List Word) (status : Word) : Option State :=
  let q : TReq := tget {} (s.rake core).reqs e
  if q.repack then
    let s := s.reachTarget q.asid q.tgt
    let r := (q.tgt, ws ++ [status])
    let s? : Option State :=
      if (s.target q.asid q.tgt).entry = 0 then some (s.discardLanes core q.asid [r])
      else ((s.core core).repackAll q.asid s.cycle.toNat [r]).map fun k => s.modCore core fun _ => k
    s?.map fun s => (if q.note then s.noteDone core q.asid q.op (bits status 0 8) else s).freeEntry core e
  else if s.reqSaved core q then
    some (s.modRake core fun r => { r with reqs := tset r.reqs e { q with held := some (ws ++ [status]) } })
  else if s.reqLive core q then
    let s := s.modSlice core q.slot fun x =>
      (((List.range q.n).zip ws).foldl (fun x p => x.setV (q.d + p.1) q.lane p.2) x).setV (q.d + q.n) q.lane status
    let s := (s.lessLeft q.op).freeEntry core e
    some (match s.op? q.op with | some o => if o.left = 0 then s.finishOp o else s | none => s)
  else
    let s := (s.lessLeft q.op).freeEntry core e
    some (match s.op? q.op with | some o => if o.left = 0 then s.finishOp o else s | none => s)

/-- A completion for another device leaves by the port, as a request to a peer does (R339, 09 R240): with its number, and kept until
it is acknowledged (18 R439). It waits while requests to the peer are held or its paths retrain; without a path it is lost. -/
def State.sendCompletion (s : State) (f : Flight) : State :=
  let d := f.dst - nodePeer 0
  let p := s.peer d
  let next := s.flights.find? fun g => g.src == f.src && g.dst == f.dst && !p.sent g.id
  if p.held || next.map (·.id) != some f.id then s
  else if !p.path then s.dropFlight f.id
  else if !s.portUp d || decide (4096 ≤ p.unacked.length) then s
  else s.numbered d f

/-- TRAVERSAL_COMPLETION: delivered at its origin, or sent there. -/
def execEvTraversalCompletion (flight : Nat) (s : State) : Meaning :=
  match s.flight? flight with
  | some x =>
    if toPeer x.dst then .next (match x.pkt with | .tdone _ => s.sendCompletion x | _ => s)
    else s.onFlight flight fun f s =>
      match f.pkt with
      | .tdone c => (s.overLink f).bind fun s =>
        let core := if f.dst < 256 then f.dst else f.dst - nodeRake 0
        let q : TReq := tget {} (s.rake core).reqs c.rqe
        if !q.used || q.asid != f.asid || q.held.isSome then some s else s.deliver core c.rqe c.words c.status
      | _ => none
  | none => .next s

/-! ## Kernels (R367) -/

/-- A thread, request or inbound context of the context with the kernel is live. -/
def Rake.kernelLive (r : Rake) (asid kid : Nat) : Bool :=
  r.threads.any (fun t => t.2.used && t.2.asid == asid && t.2.kid == kid) ||
  r.reqs.any (fun q => q.2.used && q.2.asid == asid && bits (q.2.w.getD 31 0) 9 4 == kid) ||
  r.inbound.any fun c => c.asid == asid && bits (c.w.getD 31 0) 9 4 == kid

/-- The end of a load: its entry, and the answer. -/
def State.loadDone (s : State) (f : Flight) (core slot d kid status : Nat) : State :=
  ((s.dropFlight f.id).modRake core fun r => { r with loading := r.loading.filter (· != (f.asid, kid)) }).answer
    (f.op.getD 0) slot d [status]

/-- KERNEL_LOAD_REQUEST. -/
def execEvKernelLoadRequest (flight : Nat) (s : State) : Meaning :=
  match s.flight? flight with
  | none => .next s
  | some f =>
    match f.pkt with
    | .kload slot d kid o n addr core =>
      let r := s.rake core
      let region := r.regions.find? fun x => x.2.1 == f.asid
      let first := (region.map (·.2.2.1)).getD 0
      let len := (region.map (·.2.2.2)).getD 0
      if !s.first f || s.waitsReplay (.flight f.id) then .next s
      else if len < o + n then .next (s.loadDone f core slot d kid 2)
      else if r.kernelLive f.asid kid then .next (s.loadDone f core slot d kid 1)
      else
        let s := s.modRake core fun r =>
          { r with kernels := r.kernels.filter fun k => !(k.1 == f.asid && k.2.1 == kid),
                   loading := (f.asid, kid) :: r.loading.filter (· != (f.asid, kid)) }
        match s.rakeLoad f.asid addr (4 * n) with
        | .ok (s, bs) =>
          let s := s.modRake core fun r =>
            { r with program := (List.range n).foldl (fun p i => tset p (first + o + i) (wordAt bs i)) r.program,
                     kernels := r.kernels ++ [(f.asid, kid, o, n)] }
          .next (s.loadDone f core slot d kid 0)
        | .error (.status s st) => .next (s.loadDone f core slot d kid (if st = 5 then 4 else 5))
        | .error (.ask s va reason level acc code) =>
          if code = 7 then .next (s.loadDone f core slot d kid 4)
          else .next (s.postReplay (.flight f.id) f.asid (0x0200 + core) 0 acc va 0 0x06 reason level).1
        | .error .wait => .next s
    | _ => .next s

end Sys2Proof.Machine
end

