-- ==== Sys2Proof/Machine/EvSave.lean ====
section
/-! DEFINITION. Pre-emption: the halt, the save block of a core, and resumption (10 R264, 11 R283-R284, 15 R411-R414). -/

namespace Sys2Proof.Machine

/-! ## Levels -/

/-- LEVEL of a group's queue, or of its repack target. -/
def State.baseLevel (s : State) (g : Group) : Nat :=
  match s.grids.lookup g.grid with
  | some r => (s.queue r.queue).level
  | none => g.level

/-- The slice waits on a section held by a group. -/
def State.waitsFor (s : State) (x : Slice) (g : Nat) : Bool :=
  x.live && !x.halted && match x.park with
    | some (.osec d ks) => ks.any fun k => match s.osecEntry d k with
        | some e => e.holder.any fun h => h.group == g && g != 0
        | none => false
    | _ => false

/-- A group's level, raised by donation (R264). What a waiting group gives is its own LEVEL, not what it has been given in turn (DESIGN
CHOICE, log 74). -/
def State.groupLevel (s : State) (key : Nat) (g : Group) : Nat :=
  s.slices.foldl (fun l x =>
    if x.2.group != key && s.waitsFor x.2 key then
      match s.group? x.2.group with | some h => max l (s.baseLevel h) | none => l
    else l) (s.baseLevel g)

/-- The groups of a group's team: the unit of pre-emption (R283). -/
def State.teamGroups (s : State) (key : Nat) (g : Group) : List (Nat × Group) :=
  match s.teams.lookup g.team with
  | some t => t.groups.filterMap fun k => (s.group? k).bind fun h => if h.retired then none else some (k, h)
  | none => [(key, g)]

/-! ## The request (R283) -/

/-- Groups of a context that are on a core and not saved. -/
def State.presentOn (s : State) (asid core : Nat) : List (Nat × Group) :=
  s.groups.filter fun g => g.2.asid == asid && g.2.core == core && !g.2.retired && !g.2.saved
/-- Slots of running handlers of a context on a core. -/
def State.handlersOn (s : State) (asid core : Nat) : List Nat :=
  ((List.range 8).map (120 + ·)).filter fun t => let x := s.slice core t; x.live && x.handler && x.asid == asid
/-- Stops handlers between issues (06 R165). -/
def State.haltHandlers (s : State) (asid core : Nat) : State :=
  (s.handlersOn asid core).foldl (fun s t => s.modSlice core t fun x => { x with halted := true }) s

/-- Halts a group for pre-emption, and with the last group of its context the handlers. -/
def State.haltForSave (s : State) (key : Nat) (g : Group) : State :=
  let s := s.modGroup key fun g => { g with halt := 2, haltTime := s.time.toNat }
  let s := g.slots.foldl (fun s t => if (s.slice g.core t).group == key && (s.slice g.core t).live then
    s.modSlice g.core t fun x => { x with halted := true } else s) s
  if (s.presentOn g.asid g.core).all fun h => h.2.halt == 2 then s.haltHandlers g.asid g.core else s

/-- PREEMPTION_REQUEST: for a waiting head of a strictly higher effective level (R283); any other is refused and logged (R281). A team
with a group that is halted or saved already is left as it is (DESIGN CHOICE, log 74). -/
def execEvPreemptionRequest (queue group : Nat) (s : State) : Meaning :=
  match s.group? group with
  | none => .next s
  | some g =>
    let c := s.queue queue
    let gs := s.teamGroups group g
    if c.since.isSome && !gs.isEmpty && gs.all fun h => h.2.halt == 0 && !h.2.saved && decide (s.groupLevel h.1 h.2 < s.effLevel queue) then
      .next (gs.foldl (fun s h => s.haltForSave h.1 h.2) s)
    else if c.since.isNone || gs.any fun h => decide (s.effLevel queue ≤ s.groupLevel h.1 h.2) then .next (s.policyRefused 5 queue)
    else .next s

/-! ## The save block (R413) -/

/-- Words of a save block, as plain stores of the device. -/
def State.putWords (s : State) (key : Nat) (ws : List Word) : State :=
  if ws.isEmpty then s else s.unitStore 0 key (wordsBytes ws)

/-- A slice that has stopped and drained (R412). -/
def Slice.drained (x : Slice) : Bool := x.halted && [0, 1, 2, 3].all fun c => x.count c == 0

/-- No operation but copies, stream binds and traversals is under way for some slots. -/
def State.opsDrained (s : State) (core : Nat) (slots : List Nat) : Bool :=
  (s.ops.all fun o => o.core != core || !(o.members.any slots.contains) || o.code == some 5 ||
    (o.code == some 4 && o.dest == .none)) &&
  s.flights.all fun f => match f.pkt with | .teamArrive _ t _ _ _ => f.src != core || !slots.contains t | _ => true

/-- Live slots of a group. -/
def State.liveSlots (s : State) (key : Nat) (g : Group) : List Nat :=
  g.slots.filter fun t => (s.slice g.core t).live && (s.slice g.core t).group == key

/-- What is kept of a saved slice beside its record: reservations and shadows are gone, streams are fetched again. A rendezvous that
has been met is met again (04 R89; log 64), and a wait for the pool begins anew (06 R176; log 65). -/
def Slice.forSave (x : Slice) (cycle : Nat) : Slice :=
  { x with resv := [], cycleShadow := none, timeShadow := none, met := false, poolSince := none, savedAt := cycle,
           ports := x.ports.map fun (i, p) => (i, { p with buf := [], fetched := p.popped }) }

/-- Writes the records of some slots and empties them. -/
def State.saveSlices (s : State) (core blk : Nat) (slots : List Nat) : State × Tab Slice :=
  slots.foldl (fun p t =>
    let s := p.1.putWords (blk + 0xC00 * t) (p.1.sliceRecord core t)
    (s.setSlice core t {}, tset p.2 t ((p.1.slice core t).forSave s.cycle.toNat))) (s, [])

/-- Lowest slot of a group. -/
def Group.lowSlot (g : Group) : Nat := g.slots.foldl min 127

/-- Writes a group's queue registers with their map words (Table 15-11). -/
def State.saveQueues (s : State) (blk low : Nat) (qs : Tab QReg) : State :=
  qs.foldl (fun s q =>
    (s.putWords (blk + 0x80000 + 0x100 * q.1) q.2.entries.flatten).putWords (blk + 0x82000 + 4 * q.1)
      [w32 (q.2.entries.length + low * 2 ^ 8 + q.2.name * 2 ^ 16 + 2 ^ 31)]) s

/-- Writes a group's tiles with their map words. -/
def State.saveTiles (s : State) (core blk low : Nat) (ts : Tab Tile) : State :=
  ts.foldl (fun s t =>
    (s.putWords (blk + 0x60000 + 0x2000 * t.1) (tileIx.map fun p => (s.core core).tileAt t.1 p.1 p.2)).putWords
      (blk + 0x82100 + 4 * t.1) [w32 (low + t.2.name * 2 ^ 8 + (if t.2.alloc then 2 ^ 12 else 0) + 2 ^ 31)]) s

/-- Words 4 to 7 of a group record: its slots. -/
def slotWords (slots : List Nat) : List Word :=
  (List.range 4).map fun i => w32 ((slots.filter fun t => t / 32 == i).map fun t => 2 ^ (t % 32)).sum

/-- Writes the core state of a context with its last group (R412). -/
def State.saveCore (s : State) (asid core blk : Nat) : State :=
  let k := s.core core
  let mails := k.mailbox.filter (·.asid == asid)
  let sends := k.handlerQ.filter (·.asid == asid)
  let deq := if k.deque.owner == some asid then k.deque.entries else []
  let rps := k.repack.filter fun q => q.2.key.any (·.1 == asid)
  let s := s.putWords (blk + 0x82200) (mails.flatMap (·.words))
  let s := s.putWords (blk + 0x82A00) (sends.flatMap (·.words))
  let s := s.putWords (blk + 0x82C00) (deq.flatMap fun e => [w32 e.1, w32 e.2.1, w32 e.2.2, 0])
  let s := s.putWords (blk + 0x83000) [w32 mails.length, w32 sends.length, w32 deq.length, w32 rps.length]
  let s := (indexed rps).foldl (fun s q =>
    (s.putWords (blk + 0x84000 + 0x2000 * q.1) (q.2.2.records.flatMap (·.1))).putWords (blk + 0xC4000 + 4 * q.1)
      [w32 ((q.2.2.key.map (·.2)).getD 0 + q.2.2.records.length * 2 ^ 5 + 2 ^ 31)]) s
  s.modCore core fun k =>
    { k with mailbox := k.mailbox.filter (·.asid != asid), handlerQ := k.handlerQ.filter (·.asid != asid),
             deque := if k.deque.owner == some asid then { k.deque with entries := [] } else k.deque,
             repack := k.repack.filter fun q => !(q.2.key.any (·.1 == asid)) }

/-- Saves a stopped and drained group; `last`: with the core state and handlers of its context. Word 3 of its record counts the
team-form commands entered, of an even group too; fragments that its unit has received and not used stay there (DESIGN CHOICE: 12
R314, 15 R413 do not say; log 82). -/
def State.saveGroup (s : State) (key : Nat) (g : Group) (last : Bool) : State :=
  let core := g.core
  let blk := s.saveBlock g.asid core
  let k := s.core core
  let slots := s.liveSlots key g
  let qs := k.queues.filter fun q => q.2.used && q.2.owner == key
  let ts := k.tiles.filter fun t => t.2.used && t.2.owner == key
  let own := k.mat.owner == some key
  let hs := if last then s.handlersOn g.asid core else []
  let (s, kept) := s.saveSlices core blk (slots ++ hs)
  let s := (s.saveQueues blk g.lowSlot qs).saveTiles core blk g.lowSlot ts
  let s := if own then s.putWords (blk + 0x82140)
    [k.mat.mcap.setWidth 32, k.mat.mcap.extractLsb' 32 32, w32 (g.lowSlot + 2 ^ 31), 0] else s
  let s := s.putWords (blk + 0x83100 + 32 * g.lowSlot)
    ([w32 (g.lowSlot + g.ix * 2 ^ 8 + g.mclass * 2 ^ 12 + 2 ^ 31), w32 g.grid,
      if g.repacked then 0 else w32 (g.teamIx % 2 ^ 24 + clusterOf core * 2 ^ 24), w32 g.frags] ++ slotWords g.slots)
  let s := if last then s.saveCore g.asid core blk else s
  let s := s.modCore core fun k =>
    { k with queues := k.queues.filter fun q => !(q.2.used && q.2.owner == key),
             tiles := k.tiles.filter fun t => !(t.2.used && t.2.owner == key),
             mat := if own then { k.mat with mcap := 0, owner := none } else k.mat }
  let s := s.modGroup key fun g =>
    { g with saved := true, savedSlices := kept, savedQueues := qs, savedTiles := ts, savedCore := last,
             savedDeque := last, mcap := if own then some k.mat.mcap else none }
  let leave (o : Op) : Op := if o.core == core && o.members.any (slots ++ hs).contains then { o with away := true } else o
  let s := { s with ops := s.ops.map leave }
  s.noteLeave g.asid

/-- GROUP_SAVE (R412): once every slice has stopped and drained and every matrix command is performed. The last group of a
context waits for its handlers, too. Slots empty between the issues of two cycles, so that no slot issues twice in one (01 R12). -/
def execEvGroupSave (group : Nat) (s : State) : Meaning :=
  match s.group? group with
  | none => .next s
  | some g =>
    let slots := s.liveSlots group g
    let last := (s.presentOn g.asid g.core).all fun h => h.1 == group
    let hs := if last then s.handlersOn g.asid g.core else []
    let u := s.reachSave g.asid g.core
    if g.saved || g.retired || g.halt != 2 || !s.coreDone g.core || u.saveEntry g.asid g.core % 2 == 0 then .next s
    else if hs.any fun t => !(s.slice g.core t).halted then .next (s.haltHandlers g.asid g.core)
    else if (slots ++ hs).all (fun t => (s.slice g.core t).drained && (match (s.slice g.core t).park with
          | some (.answer _) => false
          | _ => true)) && s.opsDrained g.core (slots ++ hs) && !(s.core g.core).mat.has group then
      .next (u.saveGroup group g last)
    else .next s

/-! ## Resumption (R284, R414) -/

/-- Everything that a saved group needs is free again on its core. -/
def State.canResume (s : State) (g : Group) : Bool :=
  let k := s.core g.core
  s.ctxValid g.asid && g.savedSlices.all (fun x => (s.slice g.core x.1).phase == .empty) && s.coreFits g.asid g.core &&
  g.savedQueues.all (fun q => !(tget {} k.queues q.1).used) && g.savedTiles.all (fun t => !(tget {} k.tiles t.1).used) &&
  (g.mcap.isNone || k.mat.owner.isNone)

/-- A slice as it resumes, and the scope of the acquire that it makes in leaving a barrier. A park on a barrier stands while its phase
lasts, and one on a REPLAY record while the record is open; the end of a phase (`State.release`) has let the slice go on. Any other
parked instruction is evaluated again (R414, Table 15-8, 10 R247; log 20). -/
def State.resumePark (s : State) (x : Slice) : Slice × Nat :=
  let on (leave : Bool) (scope : Nat) : Slice × Nat :=
    if !x.woken then (x, 0) else if leave then (x.unpark.advance 4, scope) else (x.unpark, 0)
  match x.park with
  | some (.barrier _ _ _ leave) => on leave 2
  | some (.teamBarrier _ _ _ leave) => on leave 3
  | some (.replay i) => if s.replays.any (·.idx == i) then (x, 0) else (x.unpark, 0)
  | _ => (x.unpark, 0)

/-- Restores slices from their records. -/
def State.restoreSlices (s : State) (asid core blk : Nat) (t : Tab Slice) : State :=
  t.foldl (fun s x =>
    let s := s.comeTo asid (blk + 0xC00 * x.1) 0xC00
    let (y, scope) := s.resumePark (x.2.withRecord (s.getWord (blk + 0xC00 * x.1)))
    (s.setSlice core x.1 { y with halted := false,
                                  pausedCycles := y.pausedCycles + (s.cycle.toNat - y.savedAt) }).acquireNow core scope) s

/-- Records that were declined while their slices were saved: the slices take the fault (15 R405, Table 15-8). -/
def State.declineDue (s : State) (core : Nat) : State :=
  (s.replays.filter fun r => r.declined && !(s.replayGang core r.idx).isEmpty &&
    match r.who with | .slice c _ => c == core | _ => false).foldl State.replayDecline s

/-- Messages from the save block. -/
def State.savedMsgs (s : State) (asid key n : Nat) : List Msg :=
  (List.range n).map fun i => ⟨asid, (List.range 8).map fun j => s.getWord key (8 * i + j)⟩

/-- Puts back a saved repack queue: before the records of a queue that the target has meanwhile, or in the lowest free one (log 63). -/
def Core.repackBack (k : Core) (asid t : Nat) (rs : List (List Word × Nat)) : Core :=
  match k.repackFor asid t with
  | some q => { k with repack := tset k.repack q { key := some (asid, t), records := rs ++ (tget {} k.repack q).records } }
  | none => k

/-- What the save block holds of them is read: the state that the reads leave (07 R195, R201). -/
def State.reachQueued (s : State) (asid blk : Nat) : State :=
  let s := s.comeTo asid (blk + 0x83000) 16
  let n (i m : Nat) : Nat := min m (s.getWord (blk + 0x83000) i).toNat
  let s := (s.comeTo asid (blk + 0x82200) (32 * n 0 64)).comeTo asid (blk + 0x82A00) (32 * n 1 16)
  let s := (s.comeTo asid (blk + 0x82C00) (16 * n 2 64)).comeTo asid (blk + 0xC4000) (4 * n 3 32)
  (List.range (n 3 32)).foldl (fun s j => s.comeTo asid (blk + 0x84000 + 0x2000 * j) (32 * min 256 (s.savedRepack blk j).2)) s

/-- Restores the messages, records and deque of a context (R412-R414, 11 R293-R294). A lane record waits for its TIMEOUT (11 R290)
afresh from here on: the save block keeps no age (DESIGN CHOICE, log 74). -/
def State.restoreQueued (s : State) (asid core blk : Nat) (deque : Bool) : State :=
  let s := s.reachQueued asid blk
  let n (i : Nat) : Nat := (s.getWord (blk + 0x83000) i).toNat
  let mails := s.savedMsgs asid (blk + 0x82200) (n 0)
  let sends := s.savedMsgs asid (blk + 0x82A00) (n 1)
  let deq := (List.range (n 2)).map fun i =>
    let w (j : Nat) : Nat := (s.getWord (blk + 0x82C00) (4 * i + j)).toNat
    (w 0, w 1, w 2)
  let rps := (List.range (n 3)).map fun j =>
    let m := s.savedRepack blk j
    (m.1, (List.range m.2).map fun i =>
      ((List.range 8).map fun l => s.getWord (blk + 0x84000 + 0x2000 * j) (8 * i + l), s.cycle.toNat))
  let s := s.modCore core fun k =>
    rps.foldl (fun k r => k.repackBack asid r.1 r.2)
      { k with mailbox := mails ++ k.mailbox, handlerQ := sends ++ k.handlerQ,
               deque := if deque && k.deque.owner == some asid then { k.deque with entries := deq } else k.deque }
  s.wake fun o => match o with | .mailbox c _ => c == core | _ => false

/-- Queue registers and tiles from the save block. -/
def State.restoreQueues (s : State) (asid core blk : Nat) (qs : Tab QReg) : State :=
  qs.foldl (fun s q =>
    let s := (s.comeTo asid (blk + 0x82000 + 4 * q.1) 4).comeTo asid (blk + 0x80000 + 0x100 * q.1) 0x100
    let n := bits (s.getWord (blk + 0x82000) q.1) 0 4
    let es := (List.range n).map fun i => (List.range 8).map fun l => s.getWord (blk + 0x80000 + 0x100 * q.1) (8 * i + l)
    s.modCore core fun k => { k with queues := tset k.queues q.1 { q.2 with entries := es } }) s
def State.restoreTiles (s : State) (asid core blk : Nat) (ts : Tab Tile) : State :=
  ts.foldl (fun s t =>
    let s := (s.comeTo asid (blk + 0x82100 + 4 * t.1) 4).comeTo asid (blk + 0x60000 + 0x2000 * t.1) 0x2000
    let alloc := (s.getWord (blk + 0x82100) t.1).getLsbD 12
    s.modCore core fun k =>
      ({ k with tiles := tset k.tiles t.1 { t.2 with alloc := alloc } } : Core).mapTile t.1 fun m n =>
        s.getWord (blk + 0x60000 + 0x2000 * t.1) (64 * m + n)) s

/-- Operations and completions that waited for the group (R412, 13 R361). -/
def State.wakeAway (s : State) (key core : Nat) (slots : List Nat) : State :=
  let mine (o : Op) : Bool := o.away && o.core == core && o.members.any slots.contains
  let ended := (s.ops.filter fun o => mine o && o.ended).map (·.id)
  let back (o : Op) : Op := if mine o then { o with away := false } else o
  let s := { s with ops := s.ops.map back }
  let s := ended.foldl (fun s i => match s.op? i with | some o => s.finishOp o | none => s) s
  ((s.rake core).reqs.filter fun q => q.2.used && q.2.group == key && slots.contains q.2.slot && q.2.held.isSome).foldl (fun s q =>
    let ws := q.2.held.getD []
    let s := s.modRake core fun r => { r with reqs := tset r.reqs q.1 { q.2 with held := none } }
    (s.deliver core q.1 (ws.take 7) (ws.getD 7 0)).getD s) s

/-- The context becomes resident on a core: its saved core state and handlers come back there (R412, 11 R293-R294). -/
def State.restoreCore (s : State) (asid core : Nat) : State :=
  match s.coreKeeper asid core with
  | none => s
  | some (key, h) =>
    let s := s.reachSave asid core
    let blk := s.saveBlock asid core
    let s := (s.restoreQueued asid core blk h.savedDeque).modGroup key fun g =>
      { g with savedCore := false, savedDeque := false, savedSlices := g.savedSlices.filter fun x => decide (x.1 < 120) }
    ((s.restoreSlices asid core blk h.savedHandlers).declineDue core).wakeAway 0 core (h.savedHandlers.map (·.1))

/-- Resumes one group. -/
def State.resumeGroup (s : State) (key : Nat) (g : Group) : State :=
  let core := g.core
  let asid := g.asid
  let s := s.reachSave asid core
  let blk := s.saveBlock asid core
  let s := (s.enterCtx asid).restoreCore asid core
  let mine := g.savedSlices.filter fun x => decide (x.1 < 120)
  let s := s.restoreSlices asid core blk mine
  let s := (s.restoreQueues asid core blk g.savedQueues).restoreTiles asid core blk g.savedTiles
  let s := s.comeTo asid (blk + 0x83100 + 32 * g.lowSlot) 32
  let s := if g.mcap.isSome then
      let s := s.comeTo asid (blk + 0x82140) 16
      let v := (s.getWord (blk + 0x82140) 1 ++ s.getWord (blk + 0x82140) 0)
      s.modCore core fun k => { k with mat := { k.mat with mcap := v, owner := some key } }
    else s
  let frags := (s.getWord (blk + 0x83100 + 32 * g.lowSlot) 3).toNat
  let s := s.modGroup key fun g =>
    { g with saved := false, halt := 0, savedSlices := [], savedQueues := [], savedTiles := [], savedCore := false,
             mcap := none, frags := frags }
  (s.declineDue core).wakeAway key core (mine.map (·.1))

/-- A team whose groups are all saved and fit again on their cores. -/
def State.teamCanResume (s : State) (gs : List (Nat × Group)) : Bool :=
  !gs.isEmpty && gs.all fun h => h.2.saved && s.canResume h.2

/-- The level at which a team is resumed. -/
def State.teamLevel (s : State) (gs : List (Nat × Group)) : Nat := (gs.map fun h => s.groupLevel h.1 h.2).foldl max 0

/-- A saved team of a higher level fits again on its cores. -/
def State.resumeHigher (s : State) (level : Nat) : Bool :=
  s.groups.any fun g =>
    g.2.saved && (let gs := s.teamGroups g.1 g.2; s.teamCanResume gs && decide (level < s.teamLevel gs))

/-- GROUP_RESUME: the whole team, unless a head of a higher effective level fits somewhere, or a higher saved team (R277, R284). -/
def execEvGroupResume (group : Nat) (s : State) : Meaning :=
  match s.group? group with
  | none => .next s
  | some g =>
    let gs := s.teamGroups group g
    let level := s.teamLevel gs
    let u := s.reachHeads
    if u.teamCanResume gs && !u.resumeHigher level && !(u.queues.any fun q => decide (level < u.effLevel q.1) && u.headFits q.1) then
      .next (gs.foldl (fun s h => match s.group? h.1 with | some x => s.resumeGroup h.1 x | none => s) u)
    else .next s

end Sys2Proof.Machine
end

