-- ==== Sys2Proof/Machine/EvLaunch.lean ====
section
/-! DEFINITION. Device steps of the launch controller and the repack units (11 R272-R282, R288-R291, 18 R436). -/

namespace Sys2Proof.Machine

/-! ## Records -/

/-- ASID of messages of the host, which belong to no context. -/
def hostAsid : Nat := 2 ^ 16

/-- LAUNCH_RECORD_SUBMIT: the host writes words of a queue's window, the last of them at 0x03C; the record then held leaves
for the controller (18 R436). -/
def execEvLaunchRecordSubmit (queue : Nat) (words : List Word) (s : State) : Meaning :=
  if 128 ≤ queue ∨ words = [] ∨ 16 < words.length then .next s
  else
    let first := 16 - words.length
    let s := s.modQueue queue fun c =>
      { c with buffer := (indexed words).foldl (fun b p => tset b (first + p.1) p.2) c.buffer }
    .next (s.send nodeHost nodeLaunch hostAsid none
      (.launch queue ((List.range 16).map (tget 0 (s.queue queue).buffer)) none))

/-- The record that a full SHED queue drops: the lowest RPRIO, the oldest among equals (R278). -/
def shedIndex (rs : List LRec) : Option Nat :=
  ((indexed rs).filter fun r => r.2.grid.isNone).foldl (fun (b : Option Nat) r => match b with
    | none => some r.1
    | some i => if recPrio r.2.words < recPrio (rs.getD i ⟨[], 0, none, false, false⟩).words then some r.1 else b) none

/-- A record is admitted, refused, or causes shedding: LQPSH's status (R272, R278, R286). -/
def State.admitRecord (s : State) (q : Nat) (ws : List Word) : State × Nat :=
  let c := s.queue q
  let r : LRec := { words := ws }
  if c.records.length < c.depth then
    ((s.modQueue q fun c => { c with records := c.records ++ [r] }).refreshHead q, 0)
  else if !c.shed then (s, 1)
  else match shedIndex (c.records ++ [r]) with
    | some i =>
      if i = c.records.length then (s.dropRec q r stShed, 3)
      else
        let v := c.records.getD i r
        let s := s.modQueue q fun c => { c with records := c.records.eraseIdx i ++ [r] }
        ((s.dropRec q v stShed).refreshHead q, 2)
    | none => (s, 1)

/-- A record comes to the controller, which admits or refuses it (R272); none for another message. DEVQ was tested at LQPSH (R271). An
LQPSH whose queue has meanwhile been disabled or given to another context is answered 1 (DESIGN CHOICE, log 73). -/
def State.arriveRecord (s : State) (f : Flight) : Option State :=
  match f.pkt with
  | .launch q ws reply =>
    let c := s.queue q
    let ok := c.enable && (reply.isNone || c.asid == some f.asid)
    let (s, st) := if ok then s.admitRecord q ws else (s, 1)
    some (match reply with
      | some (slot, d) => s.answer (f.op.getD 0) slot d [st]
      | none => if st = 1 then s.modQueue q fun c => { c with drops := c.drops + 1 } else s)
  | _ => none

/-- RECORD_ADMISSION: one record at a time (R272). -/
def execEvRecordAdmission (flight : Nat) (s : State) : Meaning := s.onFlight flight fun f s => s.arriveRecord f

/-- The host's records on their way are admitted: before a host read of BAR0 is answered (18 R434). -/
def State.settleRecords (s : State) : State :=
  (s.flights.filter (·.src == nodeHost)).foldl (fun s f => ((s.dropFlight f.id).arriveRecord f).getD s) s

/-- DEPENDENCY_POLL (R276). The controller also reads after each completion of its own (`completeRec`) and every 4,096 cycles
(`endCycle`). -/
def execEvDependencyPoll (queue : Nat) (s : State) : Meaning := .next (s.pollDep queue)

/-- LEVEL_AGING: one level for every 2^20 cycles (R277); what has come due counts in every choice (`effLevel`). -/
def execEvLevelAging (queue : Nat) (s : State) : Meaning :=
  let c := s.queue queue
  if c.since.isSome ∧ c.aged + 2 ^ 20 ≤ s.cycle.toNat ∧ c.eff < 63 then
    .next (s.modQueue queue fun c => { c with eff := c.eff + 1, aged := c.aged + 2 ^ 20 })
  else .next s

/-! ## Handlers (06 R164) -/

/-- HANDLER_START. A context becomes resident on the core by it, too, and gets its saved core state back first (06 R165, R294): its
saved messages then come before later ones. -/
def execEvHandlerStart (core : Nat) (s : State) : Meaning :=
  match (s.core core).handlerQ with
  | [] => .next s
  | m :: _ =>
    let kind := bits (m.words.getD 0 0) 24 4
    let u := (s.reachHandler m.asid kind).reachCore m.asid core
    let starts := u.handlerEntry m.asid kind != 0 && (s.freeHandler core).isSome
    if !starts || (s.coreKeeper m.asid core).isNone then .next (s.startHandler core)
    else if u.coreFits m.asid core then .next (((u.enterCtx m.asid).restoreCore m.asid core).startHandler core)
    else .next s

/-! ## Placement (R279) -/

/-- Places one group of a team. -/
def State.placeGroup (s : State) (core : Nat) (g : Group) (ws : List Word) : State × Nat × Nat :=
  match s.allot g.asid core ws with
  | none => (s, 0, 0)
  | some a =>
    let key := s.nextId
    let slots := a.warps.flatten
    let g := { g with slots, localBase := a.base }
    let s := ({ s with nextId := key + 1 } : State).startGroup key core g a ws (recWidth ws) fun _ _ => 0xFF
    (s.acquireNow core 4, key, slots.length)

/-- Places the next team of a head on cores of one cluster. -/
def State.placeTeam (s : State) (q asid : Nat) (r : LRec) (cores : List Nat) : State :=
  let ws := r.words
  let c := s.queue q
  let s := cores.foldl (fun s k => s.restoreCore asid k) (s.enterCtx asid)
  let grid := r.grid.getD s.nextId
  let fresh : Grid := { queue := q, asid, words := ws, groupsLeft := recTeams ws * recTeamSize ws, allPlaced := false, killed := false }
  let s := if r.grid.isNone then { s with grids := tset s.grids grid fresh, nextId := s.nextId + 1 } else s
  let team := s.nextId
  let s := { s with nextId := team + 1 }
  let (s, keys, n) := (indexed cores).foldl (fun (p : State × List Nat × Nat) x =>
    let g : Group := { asid, grid, team, teamIx := r.next, ix := x.1, core := x.2, slots := [], localBase := 0,
                       localLen := (recLocal ws + 1023) / 1024 * 1024, mclass := recClass ws, barriers := recBarriers ws,
                       queues := recQueues ws, tiles := recTiles ws, teamSize := recTeamSize ws, level := c.level }
    let (s, key, k) := p.1.placeGroup x.2 g ws
    (s, p.2.1 ++ [key], p.2.2 + k)) (s, [], 0)
  let cl := clusterOf (cores.headD 0)
  let level := s.effLevel q
  let bars := if recTeamSize ws < 2 then [] else (freeNumbers (s.cluster cl).barriers (·.used) 64 4).getD []
  let s := s.modCluster cl fun k =>
    let bar (t : Tab Barrier) (p : Nat × Nat) : Tab Barrier := tset t p.2 { owner := team, name := p.1, used := true, expect := n }
    { k with barriers := (indexed bars).foldl bar k.barriers }
  let s := s.endDrain q
  let s := { s with teams := tset s.teams team { cluster := cl, groups := keys, ret := 0, barriers := bars },
                    lastQueue := tset s.lastQueue level q }
  let done := r.next + 1 == recTeams ws
  let s := if done then
      { s with grids := match s.grids.lookup grid with
          | some x => tset s.grids grid { x with allPlaced := true }
          | none => s.grids }
    else s
  let s := s.modQueue q fun c =>
    { c with eff := c.level, since := none,
             records := if done then c.records.drop 1 else { r with next := r.next + 1, grid := some grid } :: c.records.drop 1 }
  s.refreshHead q

/-- A saved team of the level or above could be resumed first (R284). -/
def State.resumeFirst (s : State) (level : Nat) : Bool :=
  s.groups.any fun g =>
    g.2.saved && (let gs := s.teamGroups g.1 g.2; s.teamCanResume gs && decide (level ≤ s.teamLevel gs))

/-- TEAM_PLACEMENT: the chosen queue's next team, on different cores of one cluster; a choice that the limits do not allow, of a head
that is not eligible too, is refused and logged (R281). -/
def execEvTeamPlacement (queue : Nat) (cores : List Nat) (s : State) : Meaning :=
  let c := s.queue queue
  match c.records, c.asid with
  | r :: _, some asid =>
    let cl := clusterOf (cores.headD 0)
    let u := s.reachHeads
    if u.chosenQueue == some queue && cores.length == recTeamSize r.words && cores.eraseDups == cores &&
        cores.all (fun k => clusterOf k == cl && (u.allot asid k r.words).isSome) && decide (cl < 16) &&
        u.clusterFits asid cl (u.effLevel queue) queue r.words && !u.resumeFirst (u.effLevel queue) then
      .next (u.placeTeam queue asid r cores)
    else .next (s.policyRefused 1 queue)
  | _, _ => .next s

/-- DRAIN_DELAY_EXPIRY (R280); a cluster that drains at the level or above is refused (R281). -/
def execEvDrainDelayExpiry (queue cluster : Nat) (s : State) : Meaning :=
  let c := s.queue queue
  match c.since with
  | some t =>
    let eff := s.effLevel queue
    let free := match (s.cluster cluster).drain with | some (_, l) => decide (l < eff) | none => true
    if s.cycle.toNat < t + s.drainDly ∨ 16 ≤ cluster ∨ (s.clusters.any fun k => k.2.drain.any (·.1 == queue)) then .next s
    else if free then .next (s.modCluster cluster fun k => { k with drain := some (queue, eff) })
    else .next (s.policyRefused 4 queue)
  | none => .next s

/-- Every access that the slices of a grid have issued is performed: what LAUNCH_DONE releases (09 R242). -/
def State.gridPerformed (s : State) (grid : Nat) : Bool :=
  s.groups.all fun h => h.2.grid != grid || h.2.slots.all fun t =>
    let x := s.slice h.2.core t
    x.group != h.1 || x.counted.isEmpty

/-- GRID_COMPLETION: every group of every team has retired or been killed (R282), and its accesses are performed. -/
def execEvGridCompletion (grid : Nat) (s : State) : Meaning :=
  match s.grids.lookup grid with
  | some g =>
    if g.allPlaced && g.groupsLeft == 0 && s.gridPerformed grid then
      .next (({ s with grids := tdel s.grids grid } : State).completeRec g.queue g.asid g.words
        (if g.killed then stKilled else stDone) grid)
    else .next s
  | none => .next s

/-! ## The repack unit (R290-R291) -/

/-- REPACK_TIMEOUT: the oldest record of a queue has waited TIMEOUT cycles; the choice counts it whether noted or not. -/
def execEvRepackTimeout (core rq : Nat) (s : State) : Meaning :=
  let q := tget {} (s.core core).repack rq
  match q.key, q.records with
  | some (asid, t), r :: _ =>
    let u := s.reachTarget asid t
    if r.2 + (u.target asid t).timeout ≤ s.cycle.toNat then
      .next (u.modCore core fun k => { k with repack := tset k.repack rq { q with due := true } })
    else .next s
  | _, _ => .next s

/-- Records that a warp of a target takes. -/
def Target.lanes (t : Target) : Nat := 8 * 2 ^ t.width

/-- The queue served next: the eligible one with the most records, the lower number among equals. -/
def State.servedQueue (s : State) (core : Nat) : Option (Nat × RepackQ) :=
  (s.core core).repack.foldl (fun (b : Option (Nat × RepackQ)) q =>
    match q.2.key with
    | none => b
    | some (asid, t) =>
      let late := q.2.records.head?.any fun r => decide (r.2 + (s.target asid t).timeout ≤ s.cycle.toNat)
      if !q.2.due && !late && decide (q.2.records.length < (s.target asid t).lanes) then b
      else match b with
        | none => some q
        | some p => if p.2.records.length < q.2.records.length then some q else b) none

/-- The repack unit reads the entries of its queues' targets: the state that the reads leave (07 R195, R201). -/
def State.reachTargets (s : State) (core : Nat) : State :=
  (s.core core).repack.foldl (fun s q => match q.2.key with | some (asid, t) => s.reachTarget asid t | none => s) s

/-- A repacked slice (R291): lanes with a record, which V0 to V7 hold. -/
def repackSlice (x : Slice) (rs : List (List Word)) : Slice :=
  let x := { x with repacked := true }
  (indexed rs).foldl (fun x r => (indexed r.2).foldl (fun (x : Slice) w => x.setV w.1 r.1 w.2) x) x

/-- REPACK_WARP_START. A context that becomes resident on the core by it gets its saved core state back first (R293). Records whose
target has come to have ENTRY 0 stay, and hold back what is served after them (DESIGN CHOICE: R288 and R290 do not say; log 81). -/
def execEvRepackWarpStart (core : Nat) (s : State) : Meaning :=
  let u := s.reachTargets core
  match u.servedQueue core with
  | none => .next s
  | some (n, q) =>
    let (asid, tix) := q.key.getD (0, 0)
    let t := u.target asid tix
    let width := 2 ^ t.width
    match s.freeBlock core width ((s.savedOn asid core).flatMap fun g => g.savedSlices.map (·.1)) with
    | none => .next s
    | some slots =>
      let u := u.reachCore asid core
      if t.entry = 0 || !u.ctxValid asid || !u.coreFits asid core then .next s
      else
        let s := (u.enterCtx asid).restoreCore asid core
        let q := tget q (s.core core).repack n
        let rs := (q.records.take t.lanes).map (·.1)
        let rest := q.records.drop t.lanes
        let key := s.nextId
        let used := (rs.length + 7) / 8
        let g : Group := { asid, grid := 0, team := 0, teamIx := 0, ix := 0, core, slots := slots.take used, localBase := 0,
                           localLen := 0, mclass := 0, barriers := 0, queues := 0, tiles := 0, teamSize := 1, level := t.level,
                           repacked := true }
        let s := { s with groups := tset s.groups key g, nextId := key + 1 }
        let s := s.modCore core fun k =>
          { k with repack := if rest.isEmpty then tdel k.repack n else tset k.repack n { key := q.key, records := rest } }
        let s := (indexed (slots.take used)).foldl (fun s p =>
          let mine := (rs.drop (8 * p.1)).take 8
          s.setSlice core p.2 (repackSlice
            (freshSlice asid key 0 p.1 width t.param t.entry s.cycle.toNat (BitVec.ofNat 8 (2 ^ mine.length - 1))) mine)) s
        .next (s.acquireNow core 4)

end Sys2Proof.Machine
end

