-- ==== Sys2Proof/Machine/EvLink.lean ====
section
/-! DEFINITION. Peer links (18 R438-R441, 09 R240): training, lane repair, loss of paths and peers, and requests to peers,
which are performed once, in sequence order, and kept until they are acknowledged. -/

namespace Sys2Proof.Machine

def State.link (s : State) (p : Nat) : LinkPort := tget {} s.links p
def State.modLink (s : State) (p : Nat) (f : LinkPort → LinkPort) : State := { s with links := tset s.links p (f (s.link p)) }
/-- The last path to a peer has gone down and its loss is not yet handled (R441). -/
def State.lossDue (s : State) (d : Nat) : Bool :=
  (s.peer d).path && !s.links.any fun p => p.2.state != 0 && p.2.far.contains d

/-! ## Ports -/

/-- LINK_TRAINING (R438): a port stays down on the device's own number or another major version. A port that is up and trains
again reaches a further device, through a switch (log 70). A loss comes before the next path (R441). -/
def execEvLinkTraining (port far major : Nat) (s : State) : Meaning :=
  let p := s.link port
  if 3 < port ∨ 7 < far ∨ p.state = 1 ∨ p.far.contains far && p.state == 2 ∨ s.lossDue far then .next s
  else if far = s.mgmt.devnum ∨ major ≠ 1 then .next (s.log 5 [BitVec.ofNat 8 port, 0])
  else
    let before := if p.state = 2 then p.far else []
    .next ((s.modLink port fun p => { p with state := 2, far := before ++ [far] }).modPeer far fun p => { p with path := true })

/-- A lane that has failed, or whose count has passed the record's threshold, is mapped onto the spare; a second takes the port down
(R440). -/
def State.repairLane (s : State) (port lane : Nat) : State :=
  let p := s.link port
  if 3 < port ∨ 4 < lane ∨ p.state = 0 then s
  else if p.spare then s.modLink port fun p => { p with state := 0 }
  else
    let repaired (p : LinkPort) : LinkPort :=
      { p with state := 1, spare := true, lane := lane, since := s.time.toNat, errors := p.errors.filter (·.1 != lane) }
    (s.modLink port repaired).log 4 [BitVec.ofNat 8 port, BitVec.ofNat 8 lane]

/-- LANE_REPAIR (R440) of a lane that has failed. -/
def execEvLaneRepair (port lane : Nat) (s : State) : Meaning := .next (s.repairLane port lane)

/-- Flits come over a port; an error counts for its lane while it lies within the last 2^20 flits, and a count above the record's
threshold has the lane repaired (R440). -/
def State.flitsIn (s : State) (port n : Nat) (lane : Option Nat) : State :=
  let add (p : LinkPort) : LinkPort :=
    let now := p.flits + n
    { p with flits := now,
             errors := (p.errors ++ (lane.map fun l => (l, now)).toList).filter fun e => decide (now < e.2 + 2 ^ 20) }
  if 3 < port ∨ n = 0 ∨ (s.link port).state ≠ 2 then s
  else
    let s := s.modLink port add
    match lane with
    | some l =>
      if s.mgmt.errThreshold < ((s.link port).errors.filter (·.1 == l)).length then s.repairLane port l else s
    | none => s

/-- LANE_RETRAIN_COMPLETE (R440), at the latest 2,000 ticks after the repair began, when `State.retrainLimit` ends the training. -/
def execEvLaneRetrainComplete (port : Nat) (s : State) : Meaning :=
  .next (if port ≤ 3 ∧ (s.link port).state = 1 then s.modLink port fun p => { p with state := 2 } else s)

/-- Ports whose retraining has taken 2,000 ticks are up again (R440). -/
def State.retrainLimit (s : State) : State :=
  { s with links := s.links.map fun (k, p) =>
      (k, if p.state = 1 ∧ p.since + 2000 ≤ s.time.toNat then { p with state := 2 } else p) }

/-- LINK_FAILURE (R240): a path fails. What is unacknowledged stays with the sender and goes over another path. -/
def execEvLinkFailure (port : Nat) (s : State) : Meaning :=
  .next (if port ≤ 3 ∧ (s.link port).state ≠ 0 then s.modLink port fun p => { p with state := 0 } else s)

/-! ## Requests -/

/-- Sharers of a load's sectors. -/
def Flight.sharers (f : Flight) : List (Nat × Acc) := match f.pkt with | .global _ sh => sh | _ => []

/-- Every lane of a load meets poison. -/
def State.poisonAll (s : State) (op : Nat) (a : Acc) : State :=
  s.modOp op fun o => { o with
    poisoned := o.poisoned ++ a.lanes.map (fun l => (l.slot, l.lane, l.va)), fresh := o.fresh.filter fun k => !a.sectors.contains k }

/-- The words that a discarded STC or atomic returns: an STC has not stored; of an atomic the manual states none (log 3). -/
def State.lostValues (s : State) (op : Nat) (a : Acc) : State :=
  let base := s.freeCount
  let s := { s with freeCount := s.freeCount + a.lanes.length }
  s.modOp op fun o => { o with writes := o.writes ++ ((indexed a.lanes).flatMap fun (i, l) =>
    o.dest.writes l (match a.form with
      | .stc => 1
      | _ => (Config.freeWord (base + i)).toNat + 2 ^ 32 * (Config.freeWord (base + i)).toNat)) }

/-- A request to a peer without a path (09 R240): loads take poison, stores and atomics are discarded, LINV and LCLN drop their line
from the near caches all the same (07 R206); the operation waits for it no longer. -/
def State.discardRequest (s : State) (d : Nat) (f : Flight) : State :=
  let op := f.op.getD 0
  let sent := (s.peer d).sent f.id
  let open_ := !sent || s.queuesAtUnit f.id
  let s := s.dropFlight f.id
  let s := if sent then s.lessLeft op else s
  let s := if open_ then f.sharers.foldl (fun s x => (s.poisonAll x.1 x.2).lessLeft x.1) (s.lessLeft op) else s
  let lose (s : State) : State := s.losePeer d
  match f.pkt with
  | .global a _ => match a.form with
    | .load | .ldr => s.poisonAll op a
    | .store | .pclr => lose s
    | .stc => lose (if open_ then s.lostValues op a else s)
    | .linv _ | .lcln => if open_ then s.nearLine f.src a else s
    | _ => s
  | .reserve a => lose (if open_ then s.lostValues op a else s)
  | _ => s

/-- The receiving port (R439, 09 R240): a request of a peer is performed at its home in sequence order, then acknowledged; one
whose number has been performed is discarded and acknowledged again. The peer keeps the reservations of its own slices, so its LDR
is a load here, and an STC reaches this device as a store only when it succeeds (log 70). -/
def State.receivePeer (s : State) (f : Flight) (seq : Nat) (a : Acc) : State :=
  let d := f.src - nodePeer 0
  let n := (s.peer d).recvSeq
  let ack (s : State) : State := s.modPeer d fun p => { p with acks := p.acks ++ [seq] }
  if (n + 2 ^ 32 - seq) % 2 ^ 32 = 0 then
    let form : AccForm := match a.form with | .ldr => .load | .stc => .store | x => x
    let s := (s.dropFlight f.id).settle fun u => a.units.contains u.key
    let s := s.performGlobal { f with op := none } { a with form := form } []
    ack (s.modPeer d fun p => { p with recvSeq := (n + 1) % 2 ^ 32 })
  else if (n + 2 ^ 32 - seq) % 2 ^ 32 ≤ 4096 then ack (s.dropFlight f.id)
  else s

/-- PEER_REQUEST_ARRIVAL (R439): the next request in sequence is performed once, after those before it: what still stands at a unit
of the peer is performed first. The requests of an STC go together (07 R199). Without a path a request is discarded, and once
one has been discarded, requests wait (R441). A request of a peer comes to the receiving port. -/
def execEvPeerRequestArrival (flight : Nat) (s : State) : Meaning :=
  match s.flight? flight with
  | none => .next s
  | some f =>
    let d := f.dst - nodePeer 0
    let p := s.peer d
    if toPeer f.src then
      match f.pkt with
      | .peerIn seq a => .next (if s.portUp (f.src - nodePeer 0) then s.receivePeer f seq a else s)
      | _ => .next s
    else if !toPeer f.dst ∨ p.held ∨
        ((s.peerReqs d).find? fun g => !p.sent g.id).map (·.id) ≠ some flight then .next s
    else if !p.path then .next (s.discardRequest d f)
    else if !s.portUp d || s.resvOpen f then .next s
    else
      let s := s.settlePair d
      match f.pkt with
      | .global a sh =>
        .next (if a.form == .stc then ((s.stcRequests f).foldl (fun s r => s.numbered d r.1) s).performStc f
          else (s.numbered d f).arriveGlobal f a sh)
      | .reserve a => .next ((s.numbered d f).arriveReserve f a)
      | _ => .next s

/-- PEER_ACKNOWLEDGE (R439): the sender's request is freed. -/
def execEvPeerAcknowledge (flight : Nat) (s : State) : Meaning :=
  match s.flight? flight with
  | none => .next s
  | some f =>
    let d := f.dst - nodePeer 0
    if !toPeer f.dst ∨ !(s.peer d).sent flight ∨ s.queuesAtUnit flight ∨ !s.portUp d then .next s
    else
      .next (((s.dropFlight flight).modPeer d fun p => { p with unacked := p.unacked.filter (·.1 != flight) }).lessLeft
        (f.op.getD 0))

/-- What is outstanding to a peer at its loss: requests are discarded, contexts on their way continue where they were (13 R358). -/
def State.dropOutstanding (s : State) (dev : Nat) : State :=
  let s := (s.peerReqs dev).foldl (fun s f => s.discardRequest dev f) s
  let s := { s with units := s.units.filter fun u => homeOf (8 * u.key) != nodePeer dev }
  (s.flights.filter (·.dst == nodePeer dev)).foldl (fun s f => match f.pkt with
    | .inbound c th => s.noKernel f c th
    | .tstore th _ _ => ((s.dropFlight f.id).losePeer dev).emitDone (f.src - nodeRake 0) th
    | _ => s.dropFlight f.id) s

/-- PEER_LOSS (R441): the last path has gone down. What is outstanding is discarded, and the loss is logged with the stores discarded.
Requests that are held since an earlier loss stay held until PEERCTL names the device. -/
def execEvPeerLoss (dev : Nat) (s : State) : Meaning :=
  if 7 < dev ∨ !s.lossDue dev then .next s
  else
    let held := (s.peer dev).held
    let s := s.modPeer dev fun p => { p with path := false, discarded := 0 }
    let s := if held then s else s.dropOutstanding dev
    let n := (s.peer dev).discarded
    .next ((s.modPeer dev fun p => { p with path := false, unacked := [] }).log 6 (BitVec.ofNat 8 dev :: natBytes 4 n))

/-- PEERCTL (R441): requests held for the devices named go on. -/
def execEvPeerctlWrite (value : Word) (s : State) : Meaning :=
  .next ((List.range 8).foldl (fun s d =>
    if value.getLsbD d && (s.peer d).held then s.modPeer d fun p => { p with held := false } else s) s)

end Sys2Proof.Machine
end

