-- ==== Sys2Proof/Machine/EvMgmt.lean ====
section
/-! DEFINITION. Host port, management subsystem, power and reset (18 R433-R447, 14 R395), and the teardown of a context (06
R160, R165, 08 R207, 10 R257, 11 R293, 13 R368, 14 R394). -/

namespace Sys2Proof.Machine

def State.modMgmt (s : State) (f : Mgmt → Mgmt) : State := { s with mgmt := f s.mgmt }
/-- The answer of the management mailbox. -/
def State.mgmtDone (s : State) (result : Nat) : State := s.modMgmt fun m => { m with result := result }
def State.mgmtData (s : State) (bs : List Byte) : State := s.modMgmt fun m => { m with data := bs, result := 0 }

/-! ## Boot and reset (R445) -/

/-- Clock ceiling of a profile (R447). -/
def clockCeiling (p : Nat) : Nat := (1500 + 28 * (p - 350) / 10) / 25 * 25
/-- The ceiling of the clock: that of the profile, and the record's highest clock (R445). -/
def Mgmt.ceiling (m : Mgmt) : Nat := min (clockCeiling m.profile) m.clockHigh
/-- A profile of R447 from a record's value. -/
def profileOf (v : Nat) : Nat := 350 + 25 * (v % 11)

/-- The boot ROM checks the flash: an image that passes is loaded with its record (the one already running keeps its values,
log 7); otherwise the device recovers with BAR2 over the first 256 MiB. -/
def Mgmt.boot (m : Mgmt) : Mgmt :=
  let m : Mgmt := { m with bar2base := 0, bar2size := 0x10000000, reply := {}, raised := [], msixTable := [], limit := 0,
                           lastThrottle := 0, shutdown := false, closing := none, power := true }
  if !m.flashOk then { m with recovery := true }
  else
    let r (n : Nat) : Nat := Config.recordValue m.flash n
    let m := if m.flash = m.running then m
      else { m with running := m.flash, devnum := r 0 % 8, profile := profileOf (r 1), shockThreshold := r 3, errThreshold := r 4,
                    clockLow := r 5, clockHigh := r 6, throttleAt := r 7, raiseBelow := r 8, shutdownAt := r 9 }
    { m with recovery := false, clock := m.ceiling }

/-- Memory that is not the device's own: peers' and the host's. -/
def outsideKey (k : Nat) : Bool := decide (2 ^ 52 ≤ k) && decide (k < nearKeys)

/-- The device after a reset: every context gone and GDDR7 zero (R433, R445); what the manual leaves to the outside, the
schedule and the controller stay (log 7). -/
def State.boot (s : State) : State :=
  let keeps := !s.mgmt.flashOk || s.mgmt.flash == s.mgmt.running
  { State.reset with
    agenda := s.agenda, freeCount := s.freeCount,
    mem := s.mem.filter fun c => outsideKey c.1,
    poison := s.poison.filter fun k => outsideKey (64 * k),
    bad := s.bad.filter fun p => outsideKey (64 * p.1),
    drainDly := if keeps then s.drainDly else Config.recordValue s.mgmt.flash 2,
    mgmt := s.mgmt.boot }

/-- DEVICE_RESET: a function level reset, hot reset or link-down. A reset within a COMMIT may find the flash half written
(log 3). -/
def execEvDeviceReset (s : State) : Meaning :=
  if !s.mgmt.power then .next s
  else if s.mgmt.committing.isSome then
    let ok := Config.freeBool s.freeCount
    .next ({ s with freeCount := s.freeCount + 1, mgmt := { s.mgmt with flashOk := s.mgmt.flashOk && ok } } : State).boot
  else .next s.boot

/-- POWER_LOSS (R395, R444, R445): log records that have not reached the flash are lost, and a COMMIT under way spoils the
image. -/
def execEvPowerLoss (s : State) : Meaning :=
  let m := s.mgmt
  .next { State.reset with
    agenda := s.agenda, freeCount := s.freeCount, mem := s.mem.filter fun c => outsideKey c.1,
    poison := s.poison.filter fun k => outsideKey (64 * k), bad := s.bad.filter fun p => outsideKey (64 * p.1),
    drainDly := s.drainDly,
    mgmt := { m with log := m.log.take m.flushed, staged := [], flashOk := m.flashOk && m.committing.isNone, committing := none,
                     result := 0, data := [], raised := [], closing := none, power := false } }

/-- POWER_ON (R443, R445). -/
def execEvPowerOn (s : State) : Meaning := .next (if s.mgmt.power then s else s.boot)

/-! ## Management commands (Table 18-4) -/

/-- SENSORS: 64 temperatures, then the rails, as N16. -/
def execEvSensors (s : State) : Meaning :=
  let m := s.mgmt
  .next (if m.power then
    s.mgmtData (((List.range 64).map fun i => tget 0 m.sensors i) ++ m.rails |>.flatMap (natBytes 2)) else s)

/-- LOG: records by age, the oldest held being 0; places that hold none read zero (log 27). -/
def execEvLog (idx count : Nat) (s : State) : Meaning :=
  .next (if !s.mgmt.power then s
    else if 100 < count ∨ 8192 < idx + count then s.mgmtDone 1
    else s.mgmtData ((List.range count).flatMap fun i => s.mgmt.log.getD (idx + i) (List.replicate 32 0)))

/-- STAGE: the image is read from device memory; a range beyond it or a poisoned sector gives result 4 (log 7). -/
def execEvStage (addr len : Nat) (s : State) : Meaning :=
  if !s.mgmt.power then .next s
  else if s.mgmt.committing.isSome then .next (s.mgmtDone 3)
  else if dramSize < addr + len then .next (s.mgmtDone 4)
  else
    let secs := if len = 0 then [] else touchedBy addr len
    let s := (s.settleRange addr len).findErrors 0 secs
    if secs.any s.poisonedAt then .next (s.mgmtDone 4)
    else .next ((s.modMgmt fun m => { m with staged := mbytes s.mem addr len }).mgmtDone 0)

/-- The check of an image: its digest, and the signature over it (R445). -/
def imagePasses (img : List Byte) : Bool := Config.signatureValid (sha512 img) img

/-- COMMIT: an image that passes is being written to flash; one that fails changes nothing, and the manual states no result
for it (log 3). -/
def execEvCommit (s : State) : Meaning :=
  if !s.mgmt.power then .next s
  else if s.mgmt.committing.isSome then .next (s.mgmtDone 3)
  else if imagePasses s.mgmt.staged then
    .next ((s.modMgmt fun m => { m with committing := some m.staged }).mgmtDone 0)
  else
    let (w, t) := s.free
    .next (t.mgmtDone (w.toNat % 256))

/-- FLASH_COMMIT_COMPLETE: the flash holds the image, UPDATE is logged; in recovery the device resets itself. -/
def execEvFlashCommitComplete (s : State) : Meaning :=
  match s.mgmt.committing with
  | none => .next s
  | some img =>
    let s := (s.modMgmt fun m => { m with flash := img, flashOk := true, committing := none }).log 8 []
    .next (if s.mgmt.recovery then s.boot else s)

/-- ATTEST (R446): digests of the image loaded at boot and of its record, and a signature over the nonce, both digests and
the stepping. -/
def execEvAttest (nonce : List Byte) (s : State) : Meaning :=
  if !s.mgmt.power then .next s
  else if nonce.length ≠ 32 then .next (s.mgmtDone 1)
  else
    let img := sha512 s.mgmt.running
    let rcd := sha512 (Config.recordBytes s.mgmt.running)
    .next (s.mgmtData (img ++ rcd ++ Config.identitySign (sha512 (nonce ++ img ++ rcd ++ natBytes 4 0xA1))))

/-- The records held reach the flash. -/
def Mgmt.flushLog (m : Mgmt) : Mgmt := { m with flushed := m.log.length, flashAge := 0 }
/-- A tick for the log: 10,000,000 ticks after it was written, a record has reached the flash (R444). -/
def Mgmt.logTick (m : Mgmt) : Mgmt :=
  if m.log.length ≤ m.flushed then { m with flashAge := 0 }
  else if 10000000 ≤ m.flashAge + 1 then m.flushLog
  else { m with flashAge := m.flashAge + 1 }

/-- LOG_FLASH_WRITE (R444), at any moment before that limit. -/
def execEvLogFlashWrite (s : State) : Meaning :=
  .next (if s.mgmt.power then s.modMgmt Mgmt.flushLog else s)

/-- SHOCK (R443): the payload is the axis and the sample (log 27). -/
def execEvShock (axis level : Nat) (s : State) : Meaning :=
  .next (if s.mgmt.power ∧ axis < 3 ∧ s.mgmt.shockThreshold < level then
    s.log 3 (BitVec.ofNat 8 axis :: natBytes 2 level) else s)

/-! ## Host accesses -/

/-- BAR2_ACCESS (R435): a plain access at BAR2BASE + offset. From 96 GiB on, writes are dropped and reads complete with UR;
a read of poison completes with EP; a whole sector written is clean. -/
def execEvBar2Access (off : Nat) (write : Bool) (data : List Byte) (s : State) : Meaning :=
  let n := data.length
  let pa := s.mgmt.bar2base + off
  let answer (s : State) (r : HostReply) : Meaning := .next (s.modMgmt fun m => { m with reply := r })
  if !s.mgmt.power ∨ n = 0 ∨ s.mgmt.bar2size < off + n then .next s
  else if dramSize < pa + n then answer s (if write then {} else { ur := true })
  else
    let secs := touchedBy pa n
    let touch (s : State) : State := secs.foldl (fun s k => s.dcacheFor (k / 4) 0 write) s
    if write then answer (touch (s.unitStore 0 pa data)) {}
    else
      let s := touch ((s.settleRange pa n).findErrors 0 secs)
      if secs.any s.poisonedAt then answer s { ep := true } else answer s { data := mbytes s.mem pa n }

/-- HOST_ATOMICOP (R433): UR. -/
def execEvHostAtomicop (off : Nat) (s : State) : Meaning :=
  .next (if s.mgmt.power ∧ off < s.mgmt.bar2size then s.modMgmt fun m => { m with reply := { ur := true } } else s)

/-- DROPS (R436): a write of zero clears it, any other is ignored. -/
def execEvDropsWrite (queue : Nat) (value : Word) (s : State) : Meaning :=
  .next (if queue < 128 ∧ value = 0 then s.settleRecords.modQueue queue fun q => { q with drops := 0 } else s)

/-! ## Power and temperature (R447) -/

/-- The hottest point: its number and temperature in eighths of a degree. -/
def Mgmt.hottest (m : Mgmt) : Nat × Nat :=
  (List.range 64).foldl (fun b i => if b.2 < tget 0 m.sensors i then (i, tget 0 m.sensors i) else b) (0, 0)

/-- THROTTLE_STEP: 25 MHz down at 95 °C or with a rail over its limit, up again below 92 °C, at most every 100,000 ticks, within the
record's limits and between rotations: no visit of the rotation that begins has been made (01 R20). A step down is logged (log
27). -/
def execEvThrottleStep (raise : Bool) (s : State) : Meaning :=
  let m := s.mgmt
  let (i, t) := m.hottest
  if !m.power ∨ m.shutdown ∨ s.cycle.toNat % 16 ≠ 0 ∨ s.visitCore ≠ 0 ∨ s.visitDp ≠ 0 ∨ s.time.toNat < m.lastThrottle + 100000 then
    .next s
  else if raise then
    if t < m.raiseBelow ∧ m.overRail = none ∧ m.clock < m.ceiling then
      .next (s.modMgmt fun m => { m with clock := m.clock + 25, lastThrottle := s.time.toNat,
                                         limit := if m.clock + 25 < m.ceiling then m.limit else 0 })
    else .next s
  else if m.clock < m.clockLow + 25 then .next s
  else
    let step (s : State) (limit : Nat) : State :=
      s.modMgmt fun m => { m with clock := m.clock - 25, lastThrottle := s.time.toNat, limit := limit }
    if m.throttleAt ≤ t then .next ((step s 1).log 1 (BitVec.ofNat 8 i :: natBytes 2 t))
    else match m.overRail with
      | some r => .next ((step s 2).log 2 (BitVec.ofNat 8 r :: natBytes 2 (m.rails.getD r 0)))
      | none => .next s

/-- The time of a shutdown's decision, and the PLAN_STATUS messages that it owes (14 R395): those of fallbacks published before, and
those of the slots that are ARMED. -/
def State.shutdownOwes (s : State) : Nat × List (Nat × Msg) :=
  let c := s.mgmt.closing.getD (s.time.toNat, [])
  (c.1, c.2 ++ (s.slotsIn 1 fun _ => true).map fun n =>
    ((s.plan n).ncore, s.statusMsg n 2 (s.plan n).fb.length s.time.toNat 0 0))

/-- A thermal shutdown (14 R395): every ARMED slot publishes its fallback, every COMMITTING one completes, the PLAN_STATUS messages
leave, every core halts, and THERMAL is logged. It waits for a commit whose read waits, up to 50 ticks from the decision; a read
that has not come then counts as failed (log 29). -/
def State.shutDown (s : State) : State :=
  let (i, t) := s.mgmt.hottest
  let (since, owed) := s.shutdownOwes
  let s := s.endPlans fun _ => true
  let s := if since + 50 ≤ s.time.toNat then (s.slotsIn 2 fun _ => true).foldl State.commitFails s else s
  if !(s.slotsIn 2 fun _ => true).isEmpty then s.modMgmt fun m => { m with closing := some (since, owed) }
  else
    let s := owed.foldl (fun s m => s.sendMsg nodePlan m.1 m.2) s
    (s.modMgmt fun m => { m with shutdown := true, limit := 1, closing := none }).log 1 (BitVec.ofNat 8 i :: natBytes 2 t)

/-- THERMAL_SHUTDOWN, at 105 °C (R447). -/
def execEvThermalShutdown (s : State) : Meaning :=
  let m := s.mgmt
  if !m.power ∨ m.shutdown ∨ (m.closing.isNone ∧ m.hottest.2 < m.shutdownAt) then .next s else .next s.shutDown

/-- A shutdown under way has taken its 50 ticks (14 R395). -/
def State.shutdownLimit (s : State) : State :=
  if s.mgmt.closing.any fun c => decide (c.1 + 50 ≤ s.time.toNat) then s.shutDown else s

/-! ## Teardown of a context -/

def State.mapCores (s : State) (f : Core → Core) : State := { s with cores := s.cores.map fun p => (p.1, f p.2) }
def State.mapClusters (s : State) (f : Cluster → Cluster) : State := { s with clusters := s.clusters.map fun p => (p.1, f p.2) }

/-- Operations of a context end without effect: their counters drop and their registers are pending no longer. -/
def State.endOps (s : State) (p : Op → Bool) : State :=
  (s.ops.filter p).foldl (fun s o => o.members.foldl (fun s t =>
    s.modSlice o.core t fun x => (x.complete o.id).unpend o.id) (s.dropOp o.id)) s

/-- Traversal: every thread, request, inbound context and kernel (13 R368); the pins of the requests are released. -/
def State.dropTraversals (s : State) (asid : Nat) : State :=
  let s := s.cores.foldl (fun s k => k.2.rake.reqs.foldl (fun s q =>
    if q.2.used && q.2.asid == asid then s.freeEntry k.1 q.1 else s) s) s
  let clean (r : Rake) : Rake :=
    { r with threads := r.threads.filter fun t => !(t.2.used && t.2.asid == asid),
             inbound := r.inbound.filter (·.asid != asid), kernels := r.kernels.filter (·.1 != asid),
             loading := r.loading.filter (·.1 != asid), refused := r.refused.filter fun id => (s.flight? id).any (·.asid != asid) }
  let s := s.mapCores fun k => { k with rake := clean k.rake }
  let loads := s.flights.filterMap fun f => match f.pkt with | .kload _ _ _ _ _ _ _ => if f.asid == asid then f.op else none | _ => none
  let s : State := { s with flights := s.flights.filter fun f => f.asid != asid || s.peerDone f || match f.pkt with
      | .inbound _ _ | .tdone _ | .tstore _ _ _ | .kload _ _ _ _ _ _ _ | .table (.pinLanes _ _ _ _) => false
      | _ => true }
  s.endOps fun o => o.asid == asid && (o.code == some 5 || loads.contains o.id)

/-- Copy requests stop where they are and send nothing (08 R207). -/
def State.dropCopies (s : State) (asid : Nat) : State :=
  let keep (l : List CopyReq) : List CopyReq := l.filter (·.asid != asid)
  let gone := s.clusters.flatMap fun c =>
    ([c.2.engine0, c.2.engine1].flatMap fun e => e.queue ++ e.active).filter (·.asid == asid)
  let out := s.flights.filterMap fun f => match f.pkt with | .copy r _ => if r.asid == asid then some r else none | _ => none
  let ids := (gone ++ out).map (·.op)
  let dead := (s.flights.filter fun (f : Flight) => match f.pkt with | .copy r _ => r.asid == asid | _ => false).map (·.id)
  let s := s.clusters.foldl (fun s c => [(0, c.2.engine0), (1, c.2.engine1)].foldl (fun s e =>
    (e.2.active.filter (·.asid == asid)).foldl (fun s r => s.endClean (2 * c.1 + e.1) r) s) s) s
  let clean (e : Engine) : Engine :=
    { e with queue := keep e.queue, active := keep e.active, refused := e.refused.filter fun i => !dead.contains i }
  let s := s.mapClusters fun c => { c with engine0 := clean c.engine0, engine1 := clean c.engine1 }
  let s : State := { s with flights := s.flights.filter fun f => !dead.contains f.id }
  s.endOps fun o => ids.contains o.id

/-- Stream buffers of a context that no slice of the core holds: those of its saved slices, and those of a saved STUNB that has
not returned (08 R218). -/
def State.savedBuffers (s : State) (asid core : Nat) : Nat :=
  ((s.groups.filter fun g => g.2.asid == asid && g.2.saved && g.2.core == core).map fun g =>
    (g.2.savedSlices.map fun x => (x.2.ports.filter fun p => p.2.bound).length).sum).sum +
  ((s.ops.filter fun o => o.asid == asid && o.core == core && o.away && o.osec == 9 && !o.ended).map (·.members.length)).sum

/-- Groups: resident ones are killed, with the context's handlers; saved ones are forgotten, and their stream buffers return. -/
def State.dropGroups (s : State) (asid : Nat) : State :=
  let s := s.groups.foldl (fun s g => if g.2.asid == asid && !g.2.saved then s.killGroup g.1 else s) s
  let s := (s.slices.filter fun x => x.2.live && x.2.handler && x.2.asid == asid).foldl (fun s x =>
    (s.modSlice (x.1 / 128) (x.1 % 128) fun (y : Slice) => { y with killed := true }).retire (x.1 / 128) (x.1 % 128)) s
  let back (k : Nat × Core) : Nat × Core := (k.1, { k.2 with streamUsed := k.2.streamUsed - s.savedBuffers asid k.1 })
  let s := { s with cores := s.cores.map back }
  let s := (s.groups.filter fun g => g.2.asid == asid && g.2.saved).foldl (fun (s : State) g =>
    ((s.groupGone g.2.grid true).modGroup g.1 fun (x : Group) =>
      { x with saved := false, savedSlices := [], retired := true, killed := true }).forgetGroup g.1) s
  s.endOps fun o => o.asid == asid && o.away

/-- Sections: the context's requests on their way are dropped, and those it holds are abandoned; with the last context of its domain
every entry goes (10 R257). -/
def State.dropSections (s : State) (asid : Nat) : State :=
  let s := s.settleRange (s.ctxAddr 0) (64 * 65536)
  let d := s.domain asid
  let others := (List.range 65536).any fun a => a != asid && s.ctxValid a && s.domain a == d
  let mine (f : Flight) : Bool := f.asid == asid && match f.pkt with | .osec _ _ _ => true | _ => false
  let ids := (s.flights.filter mine).filterMap Flight.op
  let s := (({ s with flights := s.flights.filter fun f => !mine f } : State).endOps fun o => ids.contains o.id).abandonIf
    fun h => h.asid == asid
  if others then s else { s with sections := s.sections.filter fun e => e.1 / 2 ^ 32 != d }

/-- What the context's messages and records leave: mailboxes, SENDH queues and repack queues (06 R160, R165, 11 R293). -/
def State.dropQueues (s : State) (asid : Nat) : State :=
  s.mapCores fun k => { k with
    mailbox := k.mailbox.filter (·.asid != asid), handlerQ := k.handlerQ.filter (·.asid != asid),
    repack := k.repack.filter fun q => match q.2.key with | some (a, _) => a != asid | none => true }

/-- The context's PLAN requests on their way arm nothing (14 R394). -/
def State.dropPlanReqs (s : State) (asid : Nat) : State :=
  let mine (f : Flight) : Bool := f.asid == asid && match f.pkt with
    | .plan _ _ | .planData _ (.arm _ _ _ _) _ | .planData _ (.bit _ _ _ _) _ => true
    | _ => false
  let ids := (s.flights.filter mine).filterMap Flight.op
  ({ s with flights := s.flights.filter fun f => !mine f } : State).endOps fun o => ids.contains o.id

/-- A slot of the context. -/
def Plan.isOf (asid : Nat) (p : Plan) : Bool := p.assigned && p.asid == asid

/-- Plan slots (14 R394): fallbacks are published, their PLAN_STATUS discarded, and commits complete. -/
def State.dropPlans (s : State) (asid : Nat) : State := (s.dropPlanReqs asid).endPlans (Plan.isOf asid)

/-- Every slot of the context becomes FREE (14 R394). -/
def State.freePlans (s : State) (asid : Nat) : State :=
  (List.range 64).foldl (fun s n =>
    if Plan.isOf asid (s.plan n) then s.modPlan n fun p => { p with state := 0, outcome := 0, fb := [] } else s) s

/-- CONTEXT_TEARDOWN. While a commit of the context waits for its read, the rest waits for it (log 29). -/
def execEvContextTeardown (asid : Nat) (s : State) : Meaning :=
  let s := s.dropPlans asid
  if !(s.slotsIn 2 (Plan.isOf asid)).isEmpty then .next s
  else
    let s := ((s.freePlans asid).dropTraversals asid).dropCopies asid
    let s := ((s.dropGroups asid).dropSections asid).dropQueues asid
    .next { s with ctxs := tdel s.ctxs asid }

end Sys2Proof.Machine
end

