-- ==== Sys2Proof/Machine/EvService.lean ====
section
/-! DEFINITION. The texture and rasteriser services (06 R166-R168). The depth of their input queues is not stated (log 30). -/

namespace Sys2Proof.Machine

/-- Replies to the issuer of a request: KIND, SRC and the payload from word 2 on (R166). -/
def State.reply (s : State) (f : Flight) (src kind : Nat) (tag : Word) (payload : List Word) : State :=
  s.unitMsg f.dst f.src f.asid kind src tag (payload ++ List.replicate (6 - payload.length) 0)

/-- SVC_REJECT (Table 06-7). -/
def State.reject (s : State) (f : Flight) (src : Nat) (ws : List Word) (reason a : Nat) : State :=
  s.reply f src 0x86 (ws.getD 7 0) [w32 reason, w32 a, w32 (a / 2 ^ 32 % 2 ^ 20), ws.getD 0 0]

/-! ## Texture filter -/

/-- A service's read of GLOBAL memory: the value, or the reason and address of a rejection (R166). The read waits, and the
request with it, at the port of a peer that is held (09 R240): none. -/
def State.serviceRead (s : State) (asid a n : Nat) : State × Option (Except (Nat × Nat) Nat) :=
  if 2 ^ 52 < a + n then (s, some (.error (2, a)))
  else match s.translateNow asid a .load with
    | (s, .error (.fail code _ _)) => (s, some (.error (if code = 6 then 2 else 3, a)))
    | (s, .ok k) =>
      if s.unitWaits k then (s, none)
      else
        let s := (s.reachHome k n).findErrors asid [k / 64]
        if s.poisonedAt (k / 64) then (s, some (.error (4, a))) else (s, some (.ok (mread s.mem k n)))

/-- A texture's descriptor (Table 06-8): texel base, W, H, FMT, clamp. -/
structure Tex where
  base : Nat
  w : Nat
  h : Nat
  fmt : Nat
  clamp : Bool
deriving DecidableEq, Repr

/-- The descriptor of 16 bytes, unless malformed. -/
def Tex.of (v : Nat) : Option Tex :=
  let last := v / 2 ^ 96
  let base := v % 2 ^ 64
  if 2 ^ 52 ≤ base ∨ base % 256 ≠ 0 ∨ 8 ≤ last ∨ last % 4 = 3 then none
  else some ⟨base, v / 2 ^ 64 % 2 ^ 16 + 1, v / 2 ^ 80 % 2 ^ 16 + 1, last % 4, last / 4 % 2 == 1⟩

/-- An index under repeat or clamp. -/
def texIndex (clamp : Bool) (n : Nat) (i : Int) : Nat :=
  if clamp then (max 0 (min i (n - 1 : Int))).toNat else (i % (n : Int)).toNat
/-- Bytes of a texel. -/
def Tex.size (t : Tex) : Nat := if t.fmt = 2 then 8 else 4
def Tex.addr (t : Tex) (i j : Int) : Nat := t.base + (texIndex t.clamp t.h j * t.w + texIndex t.clamp t.w i) * t.size

/-- A coordinate times a size, minus a half, as `n / 2^k`, k at least 1. -/
def texCoord (v : Val) (size : Nat) : Int × Nat :=
  match v with
  | .fin neg m e _ =>
    let k := (max 0 (-e)).toNat + 1
    let z : Int := (m * size * 2 ^ (e + k).toNat : Nat)
    ((if neg then -z else z) - 2 ^ (k - 1), k)
  | _ => (0, 1)

/-- Floor, and the fraction in 256ths rounded to nearest even. -/
def texSplit (c : Int × Nat) : Int × Nat :=
  let d : Int := 2 ^ c.2
  (c.1 / d, (roundUnits .rne false ((c.1 % d).toNat * 256) (-(c.2 : Int)) false 0).1)

/-- Channel `i` of a texel: an exact value, to be divided by `Tex.scale`. -/
def Tex.channel (t : Tex) (v i : Nat) : Val :=
  match t.fmt with
  | 0 => .fin false (v / 2 ^ (8 * i) % 2 ^ 8) 0 false
  | 1 => if i = 0 then f32.decode v else if i = 3 then .fin false 1 0 false else .fin false 0 0 false
  | _ => f16.decode (v / 2 ^ (16 * i) % 2 ^ 16)
def Tex.scale (t : Tex) (v : Val) : Val := if t.fmt = 0 then (Val.div v (.fin false 255 0 false)).1 else v
/-- One rounding to F32. -/
def texelF32 (v : Val) : Word := w32 (f32.encode .rne false false v).1

def Val.isFin : Val → Bool
  | .fin _ _ _ _ => true
  | _ => false

/-- Sum of weighted values, exact; weights in 65536ths. -/
def weighted (l : List (Nat × Val)) : Val :=
  l.foldl (fun a x => (Val.add .rne a (Val.mul (.fin false x.1 (-16) false) x.2).1).1) (.fin false 0 0 false)

/-- The four channels of a result. The manual states no result where a filtered texel is not finite (log 3). -/
def State.texResult (s : State) (t : Tex) (texels : List (Nat × Nat)) : State × List Word :=
  (List.range 4).foldl (fun (p : State × List Word) i =>
    let l := texels.map fun x => (x.1, t.channel x.2 i)
    match l with
    | [(_, v)] =>
      let w := if t.fmt = 1 && i == 0 then w32 ((texels.headD (0, 0)).2) else texelF32 (t.scale v)
      (p.1, p.2 ++ [w])
    | _ =>
      if l.all fun x => x.2.isFin then (p.1, p.2 ++ [texelF32 (t.scale (weighted l))])
      else let (w, s) := p.1.free; (s, p.2 ++ [w])) (s, [])

/-- Reads texels in order: weight and address. -/
def State.readTexels (asid n : Nat) : List (Nat × Nat) → State → List (Nat × Nat) →
    State × Option (Except (Nat × Nat) (List (Nat × Nat)))
  | [], s, acc => (s, some (.ok acc))
  | (w, a) :: rest, s, acc =>
    match s.serviceRead asid a n with
    | (s, some (.ok v)) => State.readTexels asid n rest s (acc ++ [(w, v)])
    | (s, some (.error e)) => (s, some (.error e))
    | (s, none) => (s, none)

/-- The texels that a request reads, with weights in 65536ths (R167). -/
def Tex.wanted (t : Tex) (bilinear : Bool) (u v : Val) : List (Nat × Nat) :=
  let cx := texCoord u t.w
  let cy := texCoord v t.h
  if bilinear then
    let (i, fx) := texSplit cx
    let (j, fy) := texSplit cy
    [((256 - fx) * (256 - fy), t.addr i j), (fx * (256 - fy), t.addr (i + 1) j), ((256 - fx) * fy, t.addr i (j + 1)),
      (fx * fy, t.addr (i + 1) (j + 1))]
  else
    let fl (c : Int × Nat) : Int := (c.1 + 2 ^ (c.2 - 1)) / 2 ^ c.2
    [(65536, t.addr (fl cx) (fl cy))]

/-- A texture request (R167); none while it waits. -/
def State.texture (s : State) (f : Flight) (ws : List Word) : Option State :=
  let src := 0x180 + (f.dst - nodeTexture 0)
  let w (i : Nat) : Nat := (ws.getD i 0).toNat
  let op := w 0 / 2 ^ 24
  let da := w 1 + 2 ^ 32 * w 2
  let u := f32.decode (w 3)
  let v := f32.decode (w 4)
  if 1 < op ∨ w 0 % 2 ^ 24 ≠ 0 ∨ 2 ^ 20 ≤ w 2 ∨ da % 16 ≠ 0 ∨ !u.isFin ∨ !v.isFin ∨ w 5 ≠ 0 ∨ w 6 ≠ 0 then
    some (s.reject f src ws 1 0)
  else match s.serviceRead f.asid da 16 with
    | (_, none) => none
    | (s, some (.error e)) => some (s.reject f src ws e.1 e.2)
    | (s, some (.ok d)) =>
      match Tex.of d with
      | none => some (s.reject f src ws 1 0)
      | some t =>
        match State.readTexels f.asid t.size (t.wanted (op == 1) u v) s [] with
        | (_, none) => none
        | (s, some (.error e)) => some (s.reject f src ws e.1 e.2)
        | (s, some (.ok l)) =>
          let (s, r) := s.texResult t l
          some (s.reply f src 0x84 (ws.getD 7 0) r)

/-! ## Rasteriser -/

/-- An F32 coordinate in units of 2^-150. -/
def rasterUnit (v : Val) : Int :=
  match v with
  | .fin neg m e _ => scaled neg m e (-150)
  | _ => 0

/-- E_ab(p) of R168. -/
def edge (a b p : Int × Int) : Int := (b.1 - a.1) * (p.2 - a.2) - (b.2 - a.2) * (p.1 - a.1)
/-- A pixel's centre passes an edge. -/
def passes (a b p : Int × Int) : Bool :=
  let e := edge a b p
  let dx := b.1 - a.1
  let dy := b.2 - a.2
  decide (0 < e) || (e == 0 && (decide (0 < dy) || (dy == 0 && decide (dx < 0))))

/-- Coverage of an 8 × 8 block (R168). -/
def coverage (bx by_ : Nat) (v0 v1 v2 : Int × Int) : Nat :=
  let e := edge v0 v1 v2
  if e = 0 then 0
  else
    let (p1, p2) := if e < 0 then (v2, v1) else (v1, v2)
    ((List.range 64).map fun k =>
      let c (b i : Nat) : Int := ((2 * (8 * b + i) + 1 : Nat) : Int) * 2 ^ 149
      let p : Int × Int := (c bx (k % 8), c by_ (k / 8))
      if passes v0 p1 p && passes p1 p2 p && passes p2 v0 p then 2 ^ k else 0).sum

/-- A rasteriser request (R168). -/
def State.raster (s : State) (f : Flight) (ws : List Word) : State :=
  let src := 0x190 + (f.dst - nodeRaster 0)
  let w (i : Nat) : Nat := (ws.getD i 0).toNat
  let v (i : Nat) : Val := f32.decode (w i)
  let c := (List.range 6).map fun i => v (i + 1)
  if w 0 / 2 ^ 24 ≠ 0 ∨ c.any fun v => !v.isFin then s.reject f src ws 1 0
  else
    let p (i : Nat) : Int × Int := (rasterUnit (v (1 + 2 * i)), rasterUnit (v (2 + 2 * i)))
    let m := coverage (w 0 / 2 ^ 12 % 2 ^ 12) (w 0 % 2 ^ 12) (p 0) (p 1) (p 2)
    s.reply f src 0x85 (ws.getD 7 0) [w32 m, w32 (m / 2 ^ 32), w32 (w 0 % 2 ^ 24)]

/-! ## The events -/

/-- A request is refused. -/
def State.refuseService (s : State) (flight : Nat) : State :=
  { s with nextId := s.nextId + 1, flights := s.flights.map fun (f : Flight) => if f.id == flight then
    { f with pkt := match f.pkt with | .service c r ws _ => .service c r ws s.nextId | p => p } else f }

/-- A request of the service stands refused, refused before number `n`; others wait until it has been admitted (R166, R160). -/
def State.serviceRefused (s : State) (dst n : Nat) : Bool :=
  s.flights.any fun f => f.dst == dst && match f.pkt with | .service _ _ _ r => r != 0 && decide (r < n) | _ => false

/-- A request comes to its service: a full input queue, whose capacity the manual leaves open, refuses it (log 30). -/
def State.onService (s : State) (flight : Nat) (raster : Bool) (g : Flight → List Word → State → Option State) : Meaning :=
  match s.flight? flight with
  | some f =>
    match f.pkt with
    | .service _ r ws 0 =>
      if r == raster && s.first f then
        let full := Config.freeBool s.freeCount
        let s := { s with freeCount := s.freeCount + 1 }
        .next (if full || s.serviceRefused f.dst s.nextId then s.refuseService flight else (g f ws (s.dropFlight flight)).getD s)
      else .next s
    | _ => .next s
  | none => .next s

/-- TEXTURE_REQUEST (R167). -/
def execEvTextureRequest (flight : Nat) (s : State) : Meaning := s.onService flight false fun f ws s => s.texture f ws
/-- RASTER_REQUEST (R168). -/
def execEvRasterRequest (flight : Nat) (s : State) : Meaning := s.onService flight true fun f ws s => some (s.raster f ws)

/-- SERVICE_REQUEST_RETRY (R166, R160): the oldest refused request comes again when an entry is held for it. -/
def execEvServiceRequestRetry (flight : Nat) (s : State) : Meaning :=
  match s.flight? flight with
  | some f => match f.pkt with
    | .service _ r ws n =>
      if n = 0 || s.serviceRefused f.dst n then .next s
      else
        let u := s.dropFlight flight
        .next ((if r then some (u.raster f ws) else u.texture f ws).getD s)
    | _ => .next s
  | none => .next s

end Sys2Proof.Machine
end

