-- ==== Sys2Proof/Machine/EvSystem.lean ====
section
/-! DEFINITION. Device steps on system registers and unit control, as slices in system mode and the host make them (15
R397-R405, 18 R434). -/

namespace Sys2Proof.Machine

/-- EQRES_RETRY (R405). -/
def execEvEqresRetry (idx : Nat) (s : State) : Meaning := .next (s.endReplay idx false)
/-- EQRES_DECLINE (R405). -/
def execEvEqresDecline (idx : Nat) (s : State) : Meaning := .next (s.endReplay idx true)
/-- EQHEAD_WRITE (R405). -/
def execEvEqheadWrite (value : Word) (s : State) : Meaning := .next (s.setSysReg 0xC2 value)

/-- XLINV_ASID (R403). -/
def execEvXlinvAsid (asid : Nat) (s : State) : Meaning := .next (s.setSysReg 0xB1 (w32 (asid % 2 ^ 16)))
/-- XLINV_PAGE: `page` is a[51:16] (R403). -/
def execEvXlinvPage (asid page : Nat) (s : State) : Meaning :=
  .next ((s.setSysReg 0xB0 (w32 page)).setSysReg 0xB1 (w32 (asid % 2 ^ 16 + 2 ^ 17 + page / 2 ^ 32 % 16 * 2 ^ 20)))
/-- XLINV_ALL (R403). -/
def execEvXlinvAll (s : State) : Meaning := .next (s.setSysReg 0xB1 (w32 (2 ^ 16)))

/-- HANGLIM_WRITE and SECTLIM_WRITE (R397). -/
def execEvHanglimWrite (asid : Nat) (value : Word) (s : State) : Meaning := .next (s.setLimit (asid % 2 ^ 16) true value)
def execEvSectlimWrite (asid : Nat) (value : Word) (s : State) : Meaning := .next (s.setLimit (asid % 2 ^ 16) false value)

/-- A slice reads a counter into S[d] (01 R19). -/
def State.counterRead (s : State) (core slot d r : Nat) : State :=
  if (s.slice core slot).live && decide (d < 32) then
    let (t, w) := s.sysRead core slot r
    t.modSlice core slot fun x => x.setS d w
  else s
/-- CYCLO_READ (01 R17, R19). -/
def execEvCycloRead (core slot d : Nat) (s : State) : Meaning := .next (s.counterRead core slot d 0x40)
/-- TIMELO_READ (01 R18-R19). -/
def execEvTimeloRead (core slot d : Nat) (s : State) : Meaning := .next (s.counterRead core slot d 0x42)

/-- SYSTEM_REGISTER_WRITE: a device register (R400, R434). -/
def execEvSystemRegisterWrite (reg : Nat) (value : Word) (s : State) : Meaning := .next (s.setSysReg reg value)

/-- A request of unit control with its data (R399). -/
def State.ucRequest (s : State) (kind inst : Nat) (d0 d1 d2 : Word) : State :=
  ({ s with sys := { s.sys with ucsel := w32 (kind + inst % 2 ^ 16 * 2 ^ 8), ucdata0 := d0, ucdata1 := d1, ucdata2 := d2 } }
    : State).ucCommand

def execEvUcClusterExtent (inst : Nat) (d0 : Word) (s : State) : Meaning := .next (s.ucRequest 1 inst d0 0 0)
def execEvUcRawRegion (inst : Nat) (d0 d1 d2 : Word) (s : State) : Meaning := .next (s.ucRequest 2 inst d0 d1 d2)
def execEvUcPoolFail (inst : Nat) (d0 : Word) (s : State) : Meaning := .next (s.ucRequest 3 inst d0 0 0)
def execEvUcLaunchQueue (inst : Nat) (d0 d1 : Word) (s : State) : Meaning := .next (s.ucRequest 4 inst d0 d1 0)
def execEvUcRangeDeque (inst : Nat) (d0 : Word) (s : State) : Meaning := .next (s.ucRequest 5 inst d0 0 0)
def execEvUcStructure (inst : Nat) (d0 : Word) (s : State) : Meaning := .next (s.ucRequest 6 inst d0 0 0)
def execEvUcPlanSlot (inst : Nat) (d0 : Word) (s : State) : Meaning := .next (s.ucRequest 7 inst d0 0 0)
def execEvUcProgramMemory (inst : Nat) (d0 d1 d2 : Word) (s : State) : Meaning := .next (s.ucRequest 8 inst d0 d1 d2)

/-- LAUNCH_QUEUE_FLUSH (11 R271). -/
def execEvLaunchQueueFlush (queue : Nat) (s : State) : Meaning :=
  .next (if queue < 128 then (s.flushQueue queue).refreshHead queue else s)

end Sys2Proof.Machine
end

