-- ==== Sys2Proof/Machine/Immediate.lean ====
section
/-! DEFINITION. Immediate forms (05 R130, Table 05-4). -/

namespace Sys2Proof.Machine

/-- An RI form: the function takes a and IMM10. -/
def immForm (f : RI) (s : State) (op : Word → BitVec 10 → Word) : Meaning :=
  vecImm f.g f.d.toNat f.a.toNat [(0, f.a.toNat)] s fun a _ => op a f.i
/-- A SHI form: the function takes a and n. -/
def shiForm (f : RS) (s : State) (op : Word → Word → Word) : Meaning :=
  vecImm f.g f.d.toNat f.a.toNat [(0, f.a.toNat)] s fun a _ => op a (f.n.setWidth 32)

def execIaddi (f : RI) (s : State) : Meaning := immForm f s fun a i => a + i.signExtend 32
def execAndi (f : RI) (s : State) : Meaning := immForm f s fun a i => a &&& i.setWidth 32
def execOri (f : RI) (s : State) : Meaning := immForm f s fun a i => a ||| i.setWidth 32
def execXori (f : RI) (s : State) : Meaning := immForm f s fun a i => a ^^^ i.setWidth 32
def execShli (f : RS) (s : State) : Meaning := shiForm f s shl
def execShri (f : RS) (s : State) : Meaning := shiForm f s shr
def execSrai (f : RS) (s : State) : Meaning := shiForm f s sra
def execRori (f : RS) (s : State) : Meaning := shiForm f s ror
def execMovi (f : RU) (s : State) : Meaning := vecImm f.g f.d.toNat 0 [] s fun _ _ => f.i.signExtend 32
def execMovhi (f : RU) (s : State) : Meaning :=
  vecImm f.g f.d.toNat 0 [(0, f.d.toNat)] s fun _ d => f.i ++ d.extractLsb' 0 16

/-- A uniform RU form: the function takes the old S[D]. -/
def smoviForm (f : RU) (srcs : List (Nat × Nat)) (s : State) (op : Word → Word) : Meaning :=
  uniformly { ok := sOk f.d, srcs := srcs } f.g s fun s core slot =>
    let x := s.slice core slot
    .ok (s.setSlice core slot (x.setS f.d.toNat (op (x.sr f.d.toNat))))
def execSmovi (f : RU) (s : State) : Meaning := smoviForm f [] s fun _ => f.i.signExtend 32
def execSmovhi (f : RU) (s : State) : Meaning := smoviForm f [(1, f.d.toNat)] s fun d => f.i ++ d.extractLsb' 0 16

end Sys2Proof.Machine
end

