-- ==== Sys2Proof/Machine/Moves.lean ====
section
/-! DEFINITION. Moves and select (05 R132-R133). SRD and SWR are in System.lean. -/

namespace Sys2Proof.Machine

/-- Lane index of a uniform operand (R132). -/
def laneOf (b : Word) : Nat := b.toNat % 8

def execMov (f : RB) (s : State) : Meaning :=
  simt { ok := vbOk f.b f.x, srcs := bSrc f.b f.x } s fun s core slot => do
    let (s, b) ← s.operandB core slot f.g f.b f.x
    let x := s.slice core slot
    pure (s.setSlice core slot (x.writeLanes f.d.toNat (x.lanes f.g) b))

def execVbcast (f : R3) (s : State) : Meaning :=
  simt { ok := vbOk f.b f.x, srcs := (0, f.a.toNat) :: bSrc f.b f.x } s fun s core slot => do
    let (s, b) ← s.operandB core slot f.g f.b f.x
    let x := s.slice core slot
    pure (s.setSlice core slot (x.writeLanes f.d.toNat (x.lanes f.g) fun l => x.vr f.a.toNat (laneOf (b l))))

/-- Registers of VEXTR's and VINSR's lane index. -/
def laneSrc (b : BitVec 6) : List (Nat × Nat) := if b.toNat < 32 then [(1, b.toNat)] else []

def execVextr (f : R3) (s : State) : Meaning :=
  uniformly { ok := sOk f.d && f.x == 1 && codeOk f.b, srcs := (0, f.a.toNat) :: laneSrc f.b } f.g s fun s core slot =>
    let x := s.slice core slot
    .ok (s.setSlice core slot (x.setS f.d.toNat (x.vr f.a.toNat (laneOf (x.uniform f.b f.x)))))

def execVinsr (f : R3) (s : State) : Meaning :=
  simt { ok := sOk f.a && f.x == 1 && codeOk f.b, srcs := (1, f.a.toNat) :: laneSrc f.b } s fun s core slot =>
    let x := s.slice core slot
    let k := laneOf (x.uniform f.b f.x)
    .ok (s.setSlice core slot (if (x.active f.g).getLsbD k then x.setV f.d.toNat k (x.sr f.a.toNat) else x))

/-- Each active lane reads the register it names, so none of those may be pending (04 R80). -/
def execMovx (f : R3) (s : State) : Meaning :=
  simt { ok := vbOk f.b f.x, srcs := bSrc f.b f.x } s fun s core slot => do
    let (s, b) ← s.operandB core slot f.g f.b f.x
    let x := s.slice core slot
    let src := fun l => (f.a.toNat + (b l).toNat) % 64
    if (x.lanes f.g).any fun l => x.pendingReg 0 (src l) then .error .stall
    else pure (s.setSlice core slot (x.writeLanes f.d.toNat (x.lanes f.g) fun l => x.vr (src l) l))

def execSel (g : BitVec 4) (d a b : BitVec 6) (x : BitVec 1) (p : BitVec 3) (s : State) : Meaning :=
  simt { ok := vbOk b x, srcs := (0, a.toNat) :: bSrc b x } s fun s core slot => do
    let (s, bv) ← s.operandB core slot g b x
    let y := s.slice core slot
    let m := y.pr p.toNat
    pure (s.setSlice core slot (y.writeLanes d.toNat (y.lanes g) fun l => if m.getLsbD l then y.vr a.toNat l else bv l))

end Sys2Proof.Machine
end

