-- ==== Sys2Proof/Machine/Permute.lean ====
section
/-! DEFINITION. Packing and permutes (05 R140-R142, Table 05-10). -/

namespace Sys2Proof.Machine

/-- PRMT (R141). -/
def prmt (a b d : Word) : Word :=
  let byte (k : Nat) : Nat := if k < 4 then bits a (8 * k) 8 else bits d (8 * (k - 4)) 8
  let pick (i : Nat) : Nat :=
    let c := bits b (4 * i) 4
    let v := byte (c % 8)
    if 8 ≤ c then (if 128 ≤ v then 255 else 0) else v
  w32 (pick 0 + 2 ^ 8 * pick 1 + 2 ^ 16 * pick 2 + 2 ^ 24 * pick 3)
def execPrmt (f : R3) (s : State) : Meaning := vec3 f true s fun _ a b d => (prmt a b d, 0)

/-- Two F32 sources rounded to a 16-bit format under RM. -/
def pack2 (dst : Nat) (c : Word) (a b : Nat) : Nat × Flg :=
  let lo := cvtf 0 dst false (rmOf c) a
  let hi := cvtf 0 dst false (rmOf c) b
  (lo.1 + 2 ^ 16 * hi.1, lo.2 ||| hi.2)
def execPk2h (f : R3) (s : State) : Meaning := fvec f s (pack2 1)
def execPk2b (f : R3) (s : State) : Meaning := fvec f s (pack2 2)

/-- Writes a register group: element `i` of each active lane goes to V[d + i]. -/
def Slice.writeGroup (x : Slice) (d n : Nat) (lanes : List Nat) (f : Nat → Nat → Word) : Slice :=
  (List.range n).foldl (fun y i => y.writeLanes (d + i) lanes (f i)) x

/-- Exact conversion of `n` elements of V[A] to F32 in V[D] to V[D + n − 1]. -/
def unpack (g : BitVec 4) (d a : BitVec 6) (src width n : Nat) (s : State) : Meaning :=
  simt { ok := alignOk d n, srcs := [(0, a.toNat)] } s fun s core slot =>
    let x := s.slice core slot
    let r := fun i l => cvtf src 0 false .rne ((x.vr a.toNat l).toNat / 2 ^ (width * i))
    let fl := (x.lanes g).foldl (fun m l => (List.range n).foldl (fun m i => m ||| (r i l).2) m) 0
    .ok (s.setSlice core slot ((x.writeGroup d.toNat n (x.lanes g) fun i l => w32 (r i l).1).orFlags fl))
def execUpk2h (f : R2) (s : State) : Meaning := unpack f.g f.d f.a 1 16 2 s
def execUpk2b (f : R2) (s : State) : Meaning := unpack f.g f.d f.a 2 16 2 s

/-- FMT of R142: CVTF's format code, the element's width and how many there are. -/
def quadFmt (f : Nat) : Nat × Nat × Nat := match f with | 0 => (3, 8, 4) | 1 => (4, 8, 4) | _ => (5, 4, 8)

def execPk4q (g : BitVec 4) (d a : BitVec 6) (r : BitVec 3) (sat : BitVec 1) (f : BitVec 2) (s : State) : Meaning :=
  let (dst, w, n) := quadFmt f.toNat
  simt { ok := alignOk a n, srcs := group 0 a.toNat n } s fun s core slot =>
    let x := s.slice core slot
    let e := fun l i => cvtf 0 dst (sat == 1) (rselMode (rmOf x.fpctl) r.toNat) (x.vr (a.toNat + i) l).toNat
    let fl := (x.lanes g).foldl (fun m l => (List.range n).foldl (fun m i => m ||| (e l i).2) m) 0
    let put := fun l => w32 (((List.range n).map fun i => (e l i).1 * 2 ^ (w * i)).sum)
    .ok (s.setSlice core slot ((x.writeLanes d.toNat (x.lanes g) put).orFlags fl))

def execUpk4q (g : BitVec 4) (d a : BitVec 6) (f : BitVec 2) (s : State) : Meaning :=
  let (src, w, n) := quadFmt f.toNat
  unpack g d a src w n s

end Sys2Proof.Machine
end

