-- ==== Sys2Proof/Machine/Repeat.lean ====
section
/-! DEFINITION. Repeat frames: RPT (04 R107-R111). Replays are issued by Issue.lean. -/

namespace Sys2Proof.Machine

/-- Majors that a frame can capture (R108). -/
def capturable (w : Word) : Bool :=
  let m := bits w 22 6
  (decide (0x01 ≤ m) && decide (m ≤ 0x11)) || (decide (0x14 ≤ m) && decide (m ≤ 0x1D)) || m == 0x38

/-- Why a capture ends early. -/
inductive CaptureStop where
  | fetch (va : Addr) (e : XFail)
  | illegal

/-- Fetches the next instructions (R109 steps 2 and 3): their words, unless a fetch fails; with `check`, a word that cannot
be captured ends it. -/
def State.capture (core asid : Nat) (system check : Bool) : Nat → Addr → State → State × Except CaptureStop (List (Word × Word))
  | 0, _, s => (s, .ok [])
  | n + 1, a, s =>
    match s.fetchWord core asid system a with
    | (s, .error e) => (s, .error (.fetch a e))
    | (s, .ok w0) =>
      if check && !capturable w0 then (s, .error .illegal)
      else if simtLen w0 = 4 then
        match State.capture core asid system check n (a + 4) s with
        | (s, .ok l) => (s, .ok ((w0, 0) :: l))
        | r => r
      else
        match s.fetchWord core asid system (a + 4) with
        | (s, .error e) => (s, .error (.fetch (a + 4) e))
        | (s, .ok w1) =>
          match State.capture core asid system check n (a + 8) s with
          | (s, .ok l) => (s, .ok ((w0, w1) :: l))
          | r => r

/-- Opens the frame of a member, or moves it past an empty one. -/
def Slice.openFrame (x : Slice) (n : Nat) (dst ast bst gang : Nat) (body : List (Word × Word)) : Slice :=
  let f : Frame := { act := true, n, dst, ast, bst, body, gang, pc := x.path.pc }
  if n = 0 then x.modPath fun p => { p with pc := f.addr body.length } else { x with frame := f }

/-- RPT (R109): uniform; members without an active lane only move past it. -/
def execRpt (g : BitVec 4) (l : BitVec 4) (d a b : BitVec 2) (c : BitVec 5) (s : State) : Meaning :=
  gangwise { srcs := [(1, c.toNat)], adv := false } s fun s =>
    let core := s.issuer.core
    let taking := s.issuer.slots.filter fun t => (s.slice core t).active g != 0
    let count (t : Nat) : Nat := ((s.slice core t).sr c.toNat).toNat
    match taking.head? with
    | none => .ok (s.advanceAll 4)
    | some lead =>
      if taking.any fun t => (s.slice core t).frame.susp then s.faultAll g 0x01
      else if taking.any fun t => decide (0x00FFFFFF < count t) then
        .error (.fault { code := 0x02, lanes := (taking.filter fun t => decide (0x00FFFFFF < count t)).map fun t =>
          (t, (s.slice core t).active g) })
      else
        let x := s.slice core lead
        let pc := x.path.pc
        match State.capture core x.asid x.system (taking.any fun t => count t != 0) (l.toNat + 1) (pc + 4) s with
        | (s, .error .illegal) => s.faultAll g 0x01
        | (s, .error (.fetch va e)) => .ok (s.fetchFail pc va e)
        | (s, .ok body) =>
          let gang := s.nextId
          .ok (s.issuer.slots.foldl (fun s t => s.modSlice core t fun y =>
            if y.active g = 0 then y.advance 4
            else y.openFrame (count t) d.toNat a.toNat b.toNat gang body) { s with nextId := gang + 1 })

end Sys2Proof.Machine
end

