-- ==== Sys2Proof/Machine/Shuffle.lean ====
section
/-! DEFINITION. Shuffles and segmented scans (04 R104-R106, Table 04-7). -/

namespace Sys2Proof.Machine

/-- The lane with gang lane number `q` (R104). -/
def State.gangLane (s : State) (q : Nat) : Nat × Nat := (s.issuer.slots.getD (q / 8) 0, q % 8)

/-- An index shuffle: the function gives the source number from q, b and W. -/
def shflForm (f : R3) (s : State) (src : Nat → Nat → Nat → Option Nat) : Meaning :=
  gangwise { ok := vbOk f.b f.x, srcs := (0, f.a.toNat) :: bSrc f.b f.x } s fun s => do
    let (s, bs) ← s.gangOperandB f.g f.b f.x
    let w := 8 * s.issuer.slots.length
    let vals (p : Nat × Nat) : Word :=
      let k := s.issuer.slots.idxOf p.1
      let q := 8 * k + p.2
      match src q (((bs.lookup p.1).getD fun _ => 0) p.2).toNat w with
      | some n => s.vlane f.a.toNat (s.gangLane n)
      | none => s.vlane f.a.toNat p
    pure (s.gangV f.g f.d.toNat vals)

def execShfli (f : R3) (s : State) : Meaning := shflForm f s fun _ b w => some (b % w)
def execShflu (f : R3) (s : State) : Meaning := shflForm f s fun q b _ => if b ≤ q then some (q - b) else none
def execShfld (f : R3) (s : State) : Meaning := shflForm f s fun q b w => if q + b < w then some (q + b) else none
def execShflx (f : R3) (s : State) : Meaning :=
  shflForm f s fun q b w => let n := q.xor (b % 64); if n < w then some n else none

/-- An inclusive segmented scan over the gang's active lanes (R105): `start` gives the value and flags of a head, `step`
of a sum, under the FPCTL of the lane's own slice. -/
def scanForm (f : RP) (s : State) (start : Word → Word → Word × Flg) (step : Word → Word → Word → Word × Flg) : Meaning :=
  gangwise { ok := pOk f.b, srcs := [(0, f.a.toNat)] } s fun s =>
    let r := (s.gangLanes f.g).foldl (fun (acc : List ((Nat × Nat) × Word × Flg)) p =>
      let c := (s.slice s.issuer.core p.1).fpctl
      let v := s.vlane f.a.toNat p
      let u := match acc with
        | [] => start c v
        | (_, t, _) :: _ => if s.pbit f.b.toNat p then start c v else step c t v
      (p, u) :: acc) []
    .ok (r.foldl (fun s u => s.modSlice s.issuer.core u.1.1 fun x =>
      (x.setV f.d.toNat u.1.2 u.2.1).orFlags u.2.2) s)

def execSegsc (f : RP) (s : State) : Meaning := scanForm f s (fun _ v => (v, 0)) fun _ t v => (t + v, 0)

def execSegscf (f : RP) (s : State) : Meaning :=
  scanForm f s headF fun c t v => let r := f32.fadd c t.toNat v.toNat; (w32 r.1, r.2)

def execGbcst (g : BitVec 4) (d a : BitVec 6) (w : BitVec 1) (s : State) : Meaning :=
  gangwise { srcs := [(0, a.toNat)] } s fun s =>
    let ls := s.gangLanes g
    match if w == 0 then ls.head? else ls.getLast? with
    | some p => let v := s.vlane a.toNat p; .ok (s.gangV g d.toNat fun _ => v)
    | none => .ok s

end Sys2Proof.Machine
end

