-- ==== Sys2Proof/Machine/Uniform.lean ====
section
/-! DEFINITION. Uniform arithmetic (05 R131, Table 05-5). -/

namespace Sys2Proof.Machine

def execSadd (f : R3) (s : State) : Meaning := uni3 f s fun a b => a + b
def execSsub (f : R3) (s : State) : Meaning := uni3 f s fun a b => a - b
def execSmul (f : R3) (s : State) : Meaning := uni3 f s fun a b => a * b
def execSand (f : R3) (s : State) : Meaning := uni3 f s fun a b => a &&& b
def execSor (f : R3) (s : State) : Meaning := uni3 f s fun a b => a ||| b
def execSxor (f : R3) (s : State) : Meaning := uni3 f s fun a b => a ^^^ b
def execSshl (f : R3) (s : State) : Meaning := uni3 f s shl
def execSshr (f : R3) (s : State) : Meaning := uni3 f s shr
def execSsra (f : R3) (s : State) : Meaning := uni3 f s sra
def execSmins (f : R3) (s : State) : Meaning := uni3 f s mins
def execSmaxs (f : R3) (s : State) : Meaning := uni3 f s maxs
def execSminn (f : R3) (s : State) : Meaning := uni3 f s minn
def execSmaxn (f : R3) (s : State) : Meaning := uni3 f s maxn
def execSclz (f : R2) (s : State) : Meaning := uni2 f s clz
def execSpopc (f : R2) (s : State) : Meaning := uni2 f s popc
/-- SMOV names no A. -/
def execSmov (f : RB) (s : State) : Meaning :=
  uniformly { ok := sOk f.d && sbOk f.b f.x, srcs := sbSrc f.b f.x } f.g s fun s core slot =>
    let x := s.slice core slot
    .ok (s.setSlice core slot (x.setS f.d.toNat (x.uniform f.b f.x)))

end Sys2Proof.Machine
end

