-- ==== Sys2Proof/Machine/Dispatch.lean ====
section
/-! DEFINITION. The meaning of each instruction and device step, one arm per constructor of `Instr`. -/

namespace Sys2Proof.Machine

def exec (i : Instr) (s : State) : Host.Outcome State Fault Refusal :=
  match i with
  | .iadd f => Sys2Proof.Machine.execIadd f s
  | .isub f => Sys2Proof.Machine.execIsub f s
  | .imul f => Sys2Proof.Machine.execImul f s
  | .imulhs f => Sys2Proof.Machine.execImulhs f s
  | .imulhn f => Sys2Proof.Machine.execImulhn f s
  | .imins f => Sys2Proof.Machine.execImins f s
  | .imaxs f => Sys2Proof.Machine.execImaxs f s
  | .iminn f => Sys2Proof.Machine.execIminn f s
  | .imaxn f => Sys2Proof.Machine.execImaxn f s
  | .iabsd f => Sys2Proof.Machine.execIabsd f s
  | .iaddss f => Sys2Proof.Machine.execIaddss f s
  | .iaddsn f => Sys2Proof.Machine.execIaddsn f s
  | .isubss f => Sys2Proof.Machine.execIsubss f s
  | .isubsn f => Sys2Proof.Machine.execIsubsn f s
  | .imac f => Sys2Proof.Machine.execImac f s
  | .imach f => Sys2Proof.Machine.execImach f s
  | .and f => Sys2Proof.Machine.execAnd f s
  | .or f => Sys2Proof.Machine.execOr f s
  | .xor f => Sys2Proof.Machine.execXor f s
  | .andn f => Sys2Proof.Machine.execAndn f s
  | .orn f => Sys2Proof.Machine.execOrn f s
  | .xnor f => Sys2Proof.Machine.execXnor f s
  | .shl f => Sys2Proof.Machine.execShl f s
  | .shr f => Sys2Proof.Machine.execShr f s
  | .sra f => Sys2Proof.Machine.execSra f s
  | .rol f => Sys2Proof.Machine.execRol f s
  | .ror f => Sys2Proof.Machine.execRor f s
  | .bfx f => Sys2Proof.Machine.execBfx f s
  | .bfi f => Sys2Proof.Machine.execBfi f s
  | .clz f => Sys2Proof.Machine.execClz f s
  | .popc f => Sys2Proof.Machine.execPopc f s
  | .brev f => Sys2Proof.Machine.execBrev f s
  | .iaddi f => Sys2Proof.Machine.execIaddi f s
  | .andi f => Sys2Proof.Machine.execAndi f s
  | .ori f => Sys2Proof.Machine.execOri f s
  | .xori f => Sys2Proof.Machine.execXori f s
  | .shli f => Sys2Proof.Machine.execShli f s
  | .shri f => Sys2Proof.Machine.execShri f s
  | .srai f => Sys2Proof.Machine.execSrai f s
  | .rori f => Sys2Proof.Machine.execRori f s
  | .movi f => Sys2Proof.Machine.execMovi f s
  | .movhi f => Sys2Proof.Machine.execMovhi f s
  | .smovi f => Sys2Proof.Machine.execSmovi f s
  | .smovhi f => Sys2Proof.Machine.execSmovhi f s
  | .sadd f => Sys2Proof.Machine.execSadd f s
  | .ssub f => Sys2Proof.Machine.execSsub f s
  | .smul f => Sys2Proof.Machine.execSmul f s
  | .sand f => Sys2Proof.Machine.execSand f s
  | .sor f => Sys2Proof.Machine.execSor f s
  | .sxor f => Sys2Proof.Machine.execSxor f s
  | .sshl f => Sys2Proof.Machine.execSshl f s
  | .sshr f => Sys2Proof.Machine.execSshr f s
  | .ssra f => Sys2Proof.Machine.execSsra f s
  | .smins f => Sys2Proof.Machine.execSmins f s
  | .smaxs f => Sys2Proof.Machine.execSmaxs f s
  | .sminn f => Sys2Proof.Machine.execSminn f s
  | .smaxn f => Sys2Proof.Machine.execSmaxn f s
  | .sclz f => Sys2Proof.Machine.execSclz f s
  | .spopc f => Sys2Proof.Machine.execSpopc f s
  | .smov f => Sys2Proof.Machine.execSmov f s
  | .mov f => Sys2Proof.Machine.execMov f s
  | .vbcast f => Sys2Proof.Machine.execVbcast f s
  | .vextr f => Sys2Proof.Machine.execVextr f s
  | .vinsr f => Sys2Proof.Machine.execVinsr f s
  | .movx f => Sys2Proof.Machine.execMovx f s
  | .sel g d a b x p => Sys2Proof.Machine.execSel g d a b x p s
  | .srd g d r => Sys2Proof.Machine.execSrd g d r s
  | .swr g d r => Sys2Proof.Machine.execSwr g d r s
  | .fadd f => Sys2Proof.Machine.execFadd f s
  | .fsub f => Sys2Proof.Machine.execFsub f s
  | .fmul f => Sys2Proof.Machine.execFmul f s
  | .fmin f => Sys2Proof.Machine.execFmin f s
  | .fmax f => Sys2Proof.Machine.execFmax f s
  | .fcpsgn f => Sys2Proof.Machine.execFcpsgn f s
  | .ffma f => Sys2Proof.Machine.execFfma f s
  | .ffms f => Sys2Proof.Machine.execFfms f s
  | .fabs f => Sys2Proof.Machine.execFabs f s
  | .fneg f => Sys2Proof.Machine.execFneg f s
  | .frcp f => Sys2Proof.Machine.execFrcp f s
  | .frsq f => Sys2Proof.Machine.execFrsq f s
  | .fsqrt f => Sys2Proof.Machine.execFsqrt f s
  | .fexp2 f => Sys2Proof.Machine.execFexp2 f s
  | .flog2 f => Sys2Proof.Machine.execFlog2 f s
  | .fsinpi f => Sys2Proof.Machine.execFsinpi f s
  | .fcospi f => Sys2Proof.Machine.execFcospi f s
  | .ftanh f => Sys2Proof.Machine.execFtanh f s
  | .ffract f => Sys2Proof.Machine.execFfract f s
  | .frnd f => Sys2Proof.Machine.execFrnd f s
  | .fclass f => Sys2Proof.Machine.execFclass f s
  | .fdiv f => Sys2Proof.Machine.execFdiv f s
  | .fldexp f => Sys2Proof.Machine.execFldexp f s
  | .fsat f => Sys2Proof.Machine.execFsat f s
  | .hadd2 f => Sys2Proof.Machine.execHadd2 f s
  | .hmul2 f => Sys2Proof.Machine.execHmul2 f s
  | .hfma2 f => Sys2Proof.Machine.execHfma2 f s
  | .hmin2 f => Sys2Proof.Machine.execHmin2 f s
  | .hmax2 f => Sys2Proof.Machine.execHmax2 f s
  | .badd2 f => Sys2Proof.Machine.execBadd2 f s
  | .bmul2 f => Sys2Proof.Machine.execBmul2 f s
  | .bfma2 f => Sys2Proof.Machine.execBfma2 f s
  | .cvtf g d a sf t u r => Sys2Proof.Machine.execCvtf g d a sf t u r s
  | .cvti g d a v ix f h r => Sys2Proof.Machine.execCvti g d a v ix f h r s
  | .prmt f => Sys2Proof.Machine.execPrmt f s
  | .pk2h f => Sys2Proof.Machine.execPk2h f s
  | .pk2b f => Sys2Proof.Machine.execPk2b f s
  | .upk2h f => Sys2Proof.Machine.execUpk2h f s
  | .upk2b f => Sys2Proof.Machine.execUpk2b f s
  | .pk4q g d a r sf f => Sys2Proof.Machine.execPk4q g d a r sf f s
  | .upk4q g d a f => Sys2Proof.Machine.execUpk4q g d a f s
  | .icmp g p c a b x k => Sys2Proof.Machine.execIcmp g p c a b x k s
  | .fcmp g p c a b x k => Sys2Proof.Machine.execFcmp g p c a b x k s
  | .pand f => Sys2Proof.Machine.execPand f s
  | .por f => Sys2Proof.Machine.execPor f s
  | .pxor f => Sys2Proof.Machine.execPxor f s
  | .pnot f => Sys2Proof.Machine.execPnot f s
  | .pmov f => Sys2Proof.Machine.execPmov f s
  | .ptos f => Sys2Proof.Machine.execPtos f s
  | .pfroms f => Sys2Proof.Machine.execPfroms f s
  | .vany g d a h => Sys2Proof.Machine.execVany g d a h s
  | .vall g d a h => Sys2Proof.Machine.execVall g d a h s
  | .ballot g d a h => Sys2Proof.Machine.execBallot g d a h s
  | .gwid g d h => Sys2Proof.Machine.execGwid g d h s
  | .gred g d a o h => Sys2Proof.Machine.execGred g d a o h s
  | .gmatch g d a h => Sys2Proof.Machine.execGmatch g d a h s
  | .gelect g d h => Sys2Proof.Machine.execGelect g d h s
  | .wsync g => Sys2Proof.Machine.execWsync g s
  | .shfli f => Sys2Proof.Machine.execShfli f s
  | .shflu f => Sys2Proof.Machine.execShflu f s
  | .shfld f => Sys2Proof.Machine.execShfld f s
  | .shflx f => Sys2Proof.Machine.execShflx f s
  | .segsc f => Sys2Proof.Machine.execSegsc f s
  | .segscf f => Sys2Proof.Machine.execSegscf f s
  | .gbcst g d a w => Sys2Proof.Machine.execGbcst g d a w s
  | .bra g o => Sys2Proof.Machine.execBra g o s
  | .call g o => Sys2Proof.Machine.execCall g o s
  | .rcvp g o => Sys2Proof.Machine.execRcvp g o s
  | .jmpx g a => Sys2Proof.Machine.execJmpx g a s
  | .callx f => Sys2Proof.Machine.execCallx f s
  | .ret g a => Sys2Proof.Machine.execRet g a s
  | .callq g a b x => Sys2Proof.Machine.execCallq g a b x s
  | .retq g => Sys2Proof.Machine.execRetq g s
  | .exit g => Sys2Proof.Machine.execExit g s
  | .yield g => Sys2Proof.Machine.execYield g s
  | .nop g => Sys2Proof.Machine.execNop g s
  | .rpt g l d sf t c => Sys2Proof.Machine.execRpt g l d sf t c s
  | .qwr f => Sys2Proof.Machine.execQwr f s
  | .qrd f => Sys2Proof.Machine.execQrd f s
  | .qtry f => Sys2Proof.Machine.execQtry f s
  | .qcnt f => Sys2Proof.Machine.execQcnt f s
  | .bararv g ix => Sys2Proof.Machine.execBararv g ix s
  | .barsyn g ix => Sys2Proof.Machine.execBarsyn g ix s
  | .barinit g ix a => Sys2Proof.Machine.execBarinit g ix a s
  | .barwt g ix => Sys2Proof.Machine.execBarwt g ix s
  | .barqry g ix a => Sys2Proof.Machine.execBarqry g ix a s
  | .tbarsyn g ix => Sys2Proof.Machine.execTbarsyn g ix s
  | .tbarinit g ix a => Sys2Proof.Machine.execTbarinit g ix a s
  | .ose f => Sys2Proof.Machine.execOse f s
  | .osen f => Sys2Proof.Machine.execOsen f s
  | .osx g a => Sys2Proof.Machine.execOsx g a s
  | .osini g a b x => Sys2Proof.Machine.execOsini g a b x s
  | .osfree g a => Sys2Proof.Machine.execOsfree g a s
  | .osqry f => Sys2Proof.Machine.execOsqry f s
  | .ostk f => Sys2Proof.Machine.execOstk f s
  | .dqpsh f => Sys2Proof.Machine.execDqpsh f s
  | .dqpop g d => Sys2Proof.Machine.execDqpop g d s
  | .dqspl f => Sys2Proof.Machine.execDqspl f s
  | .dqstl f => Sys2Proof.Machine.execDqstl f s
  | .dqcnt g d => Sys2Proof.Machine.execDqcnt g d s
  | .dqclr g => Sys2Proof.Machine.execDqclr g s
  | .send g r a b x => Sys2Proof.Machine.execSend g r a b x s
  | .sendh g r a b x => Sys2Proof.Machine.execSendh g r a b x s
  | .waitm g n b x => Sys2Proof.Machine.execWaitm g n b x s
  | .recvm g d n b x => Sys2Proof.Machine.execRecvm g d n b x s
  | .mcnt g d n b x => Sys2Proof.Machine.execMcnt g d n b x s
  | .hret g => Sys2Proof.Machine.execHret g s
  | .svreq g a b x => Sys2Proof.Machine.execSvreq g a b x s
  | .waitc g c b x => Sys2Proof.Machine.execWaitc g c b x s
  | .fence g o sf => Sys2Proof.Machine.execFence g o sf s
  | .ifence g => Sys2Proof.Machine.execIfence g s
  | .trap g n => Sys2Proof.Machine.execTrap g n s
  | .brk g n => Sys2Proof.Machine.execBrk g n s
  | .tret g => Sys2Proof.Machine.execTret g s
  | .eret g => Sys2Proof.Machine.execEret g s
  | .mramp g b x => Sys2Proof.Machine.execMramp g b x s
  | .haltg g => Sys2Proof.Machine.execHaltg g s
  | .plarm f => Sys2Proof.Machine.execPlarm f s
  | .plbit f => Sys2Proof.Machine.execPlbit f s
  | .plcom f => Sys2Proof.Machine.execPlcom f s
  | .plqry f => Sys2Proof.Machine.execPlqry f s
  | .pldis f => Sys2Proof.Machine.execPldis f s
  | .ld m => Sys2Proof.Machine.execLd m s
  | .st m => Sys2Proof.Machine.execSt m s
  | .sld m => Sys2Proof.Machine.execSld m s
  | .sst m => Sys2Proof.Machine.execSst m s
  | .aadd m => Sys2Proof.Machine.execAadd m s
  | .amins m => Sys2Proof.Machine.execAmins m s
  | .amaxs m => Sys2Proof.Machine.execAmaxs m s
  | .aminn m => Sys2Proof.Machine.execAminn m s
  | .amaxn m => Sys2Proof.Machine.execAmaxn m s
  | .aand m => Sys2Proof.Machine.execAand m s
  | .aor m => Sys2Proof.Machine.execAor m s
  | .axor m => Sys2Proof.Machine.execAxor m s
  | .axchg m => Sys2Proof.Machine.execAxchg m s
  | .acas m => Sys2Proof.Machine.execAcas m s
  | .afadd m => Sys2Proof.Machine.execAfadd m s
  | .afmin m => Sys2Proof.Machine.execAfmin m s
  | .afmax m => Sys2Proof.Machine.execAfmax m s
  | .ahadd2 m => Sys2Proof.Machine.execAhadd2 m s
  | .ldr m => Sys2Proof.Machine.execLdr m s
  | .stc m => Sys2Proof.Machine.execStc m s
  | .pref m => Sys2Proof.Machine.execPref m s
  | .linv m => Sys2Proof.Machine.execLinv m s
  | .lwb m => Sys2Proof.Machine.execLwb m s
  | .lcln m => Sys2Proof.Machine.execLcln m s
  | .icinv m => Sys2Proof.Machine.execIcinv m s
  | .pclr m => Sys2Proof.Machine.execPclr m s
  | .femt m => Sys2Proof.Machine.execFemt m s
  | .fful m => Sys2Proof.Machine.execFful m s
  | .tcopy g ds ts rel eng => Sys2Proof.Machine.execTcopy g ds ts rel eng s
  | .stbind g d a space port => Sys2Proof.Machine.execStbind g d a space port s
  | .stunb g port => Sys2Proof.Machine.execStunb g port s
  | .ststat g d port => Sys2Proof.Machine.execStstat g d port s
  | .mma f => Sys2Proof.Machine.execMma f s
  | .mmas f => Sys2Proof.Machine.execMmas f s
  | .malloc g d a => Sys2Proof.Machine.execMalloc g d a s
  | .mfree g a => Sys2Proof.Machine.execMfree g a s
  | .mzero g t => Sys2Proof.Machine.execMzero g t s
  | .mld g a t off => Sys2Proof.Machine.execMld g a t off s
  | .mst g a t off => Sys2Proof.Machine.execMst g a t off s
  | .mrdv g d t part => Sys2Proof.Machine.execMrdv g d t part s
  | .mwrv g d t part => Sys2Proof.Machine.execMwrv g d t part s
  | .mcvts g d t part fmt rsel sat => Sys2Proof.Machine.execMcvts g d t part fmt rsel sat s
  | .mreq g d a b csrc sc ks etype cs => Sys2Proof.Machine.execMreq g d a b csrc sc ks etype cs s
  | .trq f => Sys2Proof.Machine.execTrq f s
  | .trpoll g d => Sys2Proof.Machine.execTrpoll g d s
  | .trkill g sc => Sys2Proof.Machine.execTrkill g sc s
  | .trpin g d a => Sys2Proof.Machine.execTrpin g d a s
  | .trunp g a => Sys2Proof.Machine.execTrunp g a s
  | .trpub g d a b inv => Sys2Proof.Machine.execTrpub g d a b inv s
  | .trload g d a b c => Sys2Proof.Machine.execTrload g d a b c s
  | .lqpsh g d qs rs rel => Sys2Proof.Machine.execLqpsh g d qs rs rel s
  | .lqstat g d qs => Sys2Proof.Machine.execLqstat g d qs s
  | .tNfch a => Sys2Proof.Machine.execTNfch a s
  | .tNdec d b w => Sys2Proof.Machine.execTNdec d b w s
  | .tNdecX f => Sys2Proof.Machine.execTNdecX f s
  | .tNqbx d j => Sys2Proof.Machine.execTNqbx d j s
  | .tBox8 d a => Sys2Proof.Machine.execTBox8 d a s
  | .tSbox8 d a => Sys2Proof.Machine.execTSbox8 d a s
  | .tTri d a b j => Sys2Proof.Machine.execTTri d a b j s
  | .tSphd d a j => Sys2Proof.Machine.execTSphd d a j s
  | .tKcmp8 d a t => Sys2Proof.Machine.execTKcmp8 d a t s
  | .tVdist f => Sys2Proof.Machine.execTVdist f s
  | .tPushm b => Sys2Proof.Machine.execTPushm b s
  | .tPushmE a b => Sys2Proof.Machine.execTPushmE a b s
  | .tPop d => Sys2Proof.Machine.execTPop d s
  | .tStkq d f => Sys2Proof.Machine.execTStkq d f s
  | .tBrc c ix => Sys2Proof.Machine.execTBrc c ix s
  | .tJmp d a => Sys2Proof.Machine.execTJmp d a s
  | .tEnd => Sys2Proof.Machine.execTEnd s
  | .tEmit a b n => Sys2Proof.Machine.execTEmit a b n s
  | .tMigr a => Sys2Proof.Machine.execTMigr a s
  | .tYld => Sys2Proof.Machine.execTYld s
  | .tAdd f => Sys2Proof.Machine.execTAdd f s
  | .tAddImm f => Sys2Proof.Machine.execTAddImm f s
  | .tSub f => Sys2Proof.Machine.execTSub f s
  | .tSubImm f => Sys2Proof.Machine.execTSubImm f s
  | .tMul f => Sys2Proof.Machine.execTMul f s
  | .tMulImm f => Sys2Proof.Machine.execTMulImm f s
  | .tAnd f => Sys2Proof.Machine.execTAnd f s
  | .tAndImm f => Sys2Proof.Machine.execTAndImm f s
  | .tOr f => Sys2Proof.Machine.execTOr f s
  | .tOrImm f => Sys2Proof.Machine.execTOrImm f s
  | .tXor f => Sys2Proof.Machine.execTXor f s
  | .tXorImm f => Sys2Proof.Machine.execTXorImm f s
  | .tShl f => Sys2Proof.Machine.execTShl f s
  | .tShlImm f => Sys2Proof.Machine.execTShlImm f s
  | .tShr f => Sys2Proof.Machine.execTShr f s
  | .tShrImm f => Sys2Proof.Machine.execTShrImm f s
  | .tMin f => Sys2Proof.Machine.execTMin f s
  | .tMinImm f => Sys2Proof.Machine.execTMinImm f s
  | .tMax f => Sys2Proof.Machine.execTMax f s
  | .tMaxImm f => Sys2Proof.Machine.execTMaxImm f s
  | .tFadd f => Sys2Proof.Machine.execTFadd f s
  | .tFsub f => Sys2Proof.Machine.execTFsub f s
  | .tFmul f => Sys2Proof.Machine.execTFmul f s
  | .tFmin f => Sys2Proof.Machine.execTFmin f s
  | .tFmax f => Sys2Proof.Machine.execTFmax f s
  | .tFcmp a b => Sys2Proof.Machine.execTFcmp a b s
  | .tMovi d ix => Sys2Proof.Machine.execTMovi d ix s
  | .tMoviHi d ix => Sys2Proof.Machine.execTMoviHi d ix s
  | .tSel d a b c => Sys2Proof.Machine.execTSel d a b c s
  | .evLoadDataReturn op => Sys2Proof.Machine.execEvLoadDataReturn op s
  | .evStoreAcknowledge op => Sys2Proof.Machine.execEvStoreAcknowledge op s
  | .evUnitAnswerArrival op => Sys2Proof.Machine.execEvUnitAnswerArrival op s
  | .evParkReevaluation core slot => Sys2Proof.Machine.execEvParkReevaluation core slot s
  | .evHoldVisitLimit core slot => Sys2Proof.Machine.execEvHoldVisitLimit core slot s
  | .evFairnessSwitch core slot => Sys2Proof.Machine.execEvFairnessSwitch core slot s
  | .evSlotRelease core slot => Sys2Proof.Machine.execEvSlotRelease core slot s
  | .evRetirementCounted core slot => Sys2Proof.Machine.execEvRetirementCounted core slot s
  | .evTeamBarrierArrival flight => Sys2Proof.Machine.execEvTeamBarrierArrival flight s
  | .evMessageArrival flight => Sys2Proof.Machine.execEvMessageArrival flight s
  | .evMessageRetry flight => Sys2Proof.Machine.execEvMessageRetry flight s
  | .evHandlerQueueArrival flight => Sys2Proof.Machine.execEvHandlerQueueArrival flight s
  | .evHandlerStart core => Sys2Proof.Machine.execEvHandlerStart core s
  | .evHandlerRunLimit core slot => Sys2Proof.Machine.execEvHandlerRunLimit core slot s
  | .evLwinAccessAtHome flight => Sys2Proof.Machine.execEvLwinAccessAtHome flight s
  | .evServiceRequestRetry flight => Sys2Proof.Machine.execEvServiceRequestRetry flight s
  | .evTextureRequest flight => Sys2Proof.Machine.execEvTextureRequest flight s
  | .evRasterRequest flight => Sys2Proof.Machine.execEvRasterRequest flight s
  | .evBlockExpansionComplete flight => Sys2Proof.Machine.execEvBlockExpansionComplete flight s
  | .evPoolWaitTimeout core slot => Sys2Proof.Machine.execEvPoolWaitTimeout core slot s
  | .evGlobalRequestAtHome flight => Sys2Proof.Machine.execEvGlobalRequestAtHome flight s
  | .evAtomicReserve flight => Sys2Proof.Machine.execEvAtomicReserve flight s
  | .evAtomicGrant unit => Sys2Proof.Machine.execEvAtomicGrant unit s
  | .evAtomicUnitRelease unit => Sys2Proof.Machine.execEvAtomicUnitRelease unit s
  | .evSystemAtomicopCompletion flight ur => Sys2Proof.Machine.execEvSystemAtomicopCompletion flight ur s
  | .evCopyRequestArrival flight => Sys2Proof.Machine.execEvCopyRequestArrival flight s
  | .evCopyRequestRetry flight => Sys2Proof.Machine.execEvCopyRequestRetry flight s
  | .evCopyRequestStart engine => Sys2Proof.Machine.execEvCopyRequestStart engine s
  | .evCopyRequestEnd engine idx => Sys2Proof.Machine.execEvCopyRequestEnd engine idx s
  | .evCopyPoolTimeout engine idx => Sys2Proof.Machine.execEvCopyPoolTimeout engine idx s
  | .evStreamRefill core slot port => Sys2Proof.Machine.execEvStreamRefill core slot port s
  | .evStreamBufferReturn op => Sys2Proof.Machine.execEvStreamBufferReturn op s
  | .evOsecRequestAtHome flight => Sys2Proof.Machine.execEvOsecRequestAtHome flight s
  | .evSectionOverrun core slot => Sys2Proof.Machine.execEvSectionOverrun core slot s
  | .evHang asid => Sys2Proof.Machine.execEvHang asid s
  | .evLaunchRecordSubmit queue words => Sys2Proof.Machine.execEvLaunchRecordSubmit queue words s
  | .evRecordAdmission flight => Sys2Proof.Machine.execEvRecordAdmission flight s
  | .evDependencyPoll queue => Sys2Proof.Machine.execEvDependencyPoll queue s
  | .evLevelAging queue => Sys2Proof.Machine.execEvLevelAging queue s
  | .evTeamPlacement queue cores => Sys2Proof.Machine.execEvTeamPlacement queue cores s
  | .evDrainDelayExpiry queue cluster => Sys2Proof.Machine.execEvDrainDelayExpiry queue cluster s
  | .evGridCompletion grid => Sys2Proof.Machine.execEvGridCompletion grid s
  | .evPreemptionRequest queue group => Sys2Proof.Machine.execEvPreemptionRequest queue group s
  | .evGroupSave group => Sys2Proof.Machine.execEvGroupSave group s
  | .evGroupResume group => Sys2Proof.Machine.execEvGroupResume group s
  | .evRepackTimeout core rq => Sys2Proof.Machine.execEvRepackTimeout core rq s
  | .evRepackWarpStart core => Sys2Proof.Machine.execEvRepackWarpStart core s
  | .evStealArrival flight => Sys2Proof.Machine.execEvStealArrival flight s
  | .evMatrixCommandStart core => Sys2Proof.Machine.execEvMatrixCommandStart core s
  | .evMatrixStepEnd core => Sys2Proof.Machine.execEvMatrixStepEnd core s
  | .evMatrixCommandEnd core => Sys2Proof.Machine.execEvMatrixCommandEnd core s
  | .evFillerEnd core => Sys2Proof.Machine.execEvFillerEnd core s
  | .evRampHoldEnd core => Sys2Proof.Machine.execEvRampHoldEnd core s
  | .evRemoteMmaArrival flight => Sys2Proof.Machine.execEvRemoteMmaArrival flight s
  | .evTeamFragmentArrival flight => Sys2Proof.Machine.execEvTeamFragmentArrival flight s
  | .evThreadSlotFill core => Sys2Proof.Machine.execEvThreadSlotFill core s
  | .evNodeFetchComplete core thread => Sys2Proof.Machine.execEvNodeFetchComplete core thread s
  | .evVectorReadComplete core thread => Sys2Proof.Machine.execEvVectorReadComplete core thread s
  | .evStackReloadComplete core thread => Sys2Proof.Machine.execEvStackReloadComplete core thread s
  | .evEmitAcknowledge core thread => Sys2Proof.Machine.execEvEmitAcknowledge core thread s
  | .evInboundContextArrival flight => Sys2Proof.Machine.execEvInboundContextArrival flight s
  | .evMigrationRetry flight => Sys2Proof.Machine.execEvMigrationRetry flight s
  | .evMigrationRefusalLimit flight => Sys2Proof.Machine.execEvMigrationRefusalLimit flight s
  | .evTraversalCompletion flight => Sys2Proof.Machine.execEvTraversalCompletion flight s
  | .evKernelLoadRequest flight => Sys2Proof.Machine.execEvKernelLoadRequest flight s
  | .evTableRequest flight => Sys2Proof.Machine.execEvTableRequest flight s
  | .evPlarmReadComplete flight => Sys2Proof.Machine.execEvPlarmReadComplete flight s
  | .evPlbitReadComplete flight => Sys2Proof.Machine.execEvPlbitReadComplete flight s
  | .evPlcomArrival flight => Sys2Proof.Machine.execEvPlcomArrival flight s
  | .evPlanWriteComplete slot => Sys2Proof.Machine.execEvPlanWriteComplete slot s
  | .evDeadlineExpiry slot => Sys2Proof.Machine.execEvDeadlineExpiry slot s
  | .evEqresRetry idx => Sys2Proof.Machine.execEvEqresRetry idx s
  | .evEqresDecline idx => Sys2Proof.Machine.execEvEqresDecline idx s
  | .evXlinvAsid asid => Sys2Proof.Machine.execEvXlinvAsid asid s
  | .evXlinvPage asid page => Sys2Proof.Machine.execEvXlinvPage asid page s
  | .evXlinvAll => Sys2Proof.Machine.execEvXlinvAll s
  | .evHanglimWrite asid value => Sys2Proof.Machine.execEvHanglimWrite asid value s
  | .evSectlimWrite asid value => Sys2Proof.Machine.execEvSectlimWrite asid value s
  | .evMcapWrite core slot hi value => Sys2Proof.Machine.execEvMcapWrite core slot hi value s
  | .evCycloRead core slot d => Sys2Proof.Machine.execEvCycloRead core slot d s
  | .evTimeloRead core slot d => Sys2Proof.Machine.execEvTimeloRead core slot d s
  | .evSystemRegisterWrite reg value => Sys2Proof.Machine.execEvSystemRegisterWrite reg value s
  | .evUcClusterExtent inst d0 => Sys2Proof.Machine.execEvUcClusterExtent inst d0 s
  | .evUcRawRegion inst d0 d1 d2 => Sys2Proof.Machine.execEvUcRawRegion inst d0 d1 d2 s
  | .evUcPoolFail inst d0 => Sys2Proof.Machine.execEvUcPoolFail inst d0 s
  | .evUcLaunchQueue inst d0 d1 => Sys2Proof.Machine.execEvUcLaunchQueue inst d0 d1 s
  | .evLaunchQueueFlush queue => Sys2Proof.Machine.execEvLaunchQueueFlush queue s
  | .evUcRangeDeque inst d0 => Sys2Proof.Machine.execEvUcRangeDeque inst d0 s
  | .evUcStructure inst d0 => Sys2Proof.Machine.execEvUcStructure inst d0 s
  | .evUcPlanSlot inst d0 => Sys2Proof.Machine.execEvUcPlanSlot inst d0 s
  | .evUcProgramMemory inst d0 d1 d2 => Sys2Proof.Machine.execEvUcProgramMemory inst d0 d1 d2 s
  | .evAttach core asid on => Sys2Proof.Machine.execEvAttach core asid on s
  | .evHalt core slot => Sys2Proof.Machine.execEvHalt core slot s
  | .evResume core slot => Sys2Proof.Machine.execEvResume core slot s
  | .evStep core slot => Sys2Proof.Machine.execEvStep core slot s
  | .evStepStallLimit core => Sys2Proof.Machine.execEvStepStallLimit core s
  | .evRead core slot off len => Sys2Proof.Machine.execEvRead core slot off len s
  | .evWrite core slot off data => Sys2Proof.Machine.execEvWrite core slot off data s
  | .evWatch core n addr addrHi ctl => Sys2Proof.Machine.execEvWatch core n addr addrHi ctl s
  | .evMem core space addr len write data => Sys2Proof.Machine.execEvMem core space addr len write data s
  | .evClearReport core => Sys2Proof.Machine.execEvClearReport core s
  | .evSensors => Sys2Proof.Machine.execEvSensors s
  | .evLog idx count => Sys2Proof.Machine.execEvLog idx count s
  | .evStage addr len => Sys2Proof.Machine.execEvStage addr len s
  | .evCommit => Sys2Proof.Machine.execEvCommit s
  | .evAttest nonce => Sys2Proof.Machine.execEvAttest nonce s
  | .evLogFlashWrite => Sys2Proof.Machine.execEvLogFlashWrite s
  | .evShock axis level => Sys2Proof.Machine.execEvShock axis level s
  | .evBar2Access off write data => Sys2Proof.Machine.execEvBar2Access off write data s
  | .evHostAtomicop off => Sys2Proof.Machine.execEvHostAtomicop off s
  | .evDropsWrite queue value => Sys2Proof.Machine.execEvDropsWrite queue value s
  | .evPeerctlWrite value => Sys2Proof.Machine.execEvPeerctlWrite value s
  | .evDeviceReset => Sys2Proof.Machine.execEvDeviceReset s
  | .evPowerLoss => Sys2Proof.Machine.execEvPowerLoss s
  | .evContextTeardown asid => Sys2Proof.Machine.execEvContextTeardown asid s
  | .evLinkTraining port far major => Sys2Proof.Machine.execEvLinkTraining port far major s
  | .evPeerRequestArrival flight => Sys2Proof.Machine.execEvPeerRequestArrival flight s
  | .evPeerAcknowledge flight => Sys2Proof.Machine.execEvPeerAcknowledge flight s
  | .evLaneRepair port lane => Sys2Proof.Machine.execEvLaneRepair port lane s
  | .evLaneRetrainComplete port => Sys2Proof.Machine.execEvLaneRetrainComplete port s
  | .evPeerLoss dev => Sys2Proof.Machine.execEvPeerLoss dev s
  | .evThrottleStep raise => Sys2Proof.Machine.execEvThrottleStep raise s
  | .evThermalShutdown => Sys2Proof.Machine.execEvThermalShutdown s
  | .evStackEntryReady core thread idx => Sys2Proof.Machine.execEvStackEntryReady core thread idx s
  | .evEqheadWrite value => Sys2Proof.Machine.execEvEqheadWrite value s
  | .evLinkFailure port => Sys2Proof.Machine.execEvLinkFailure port s
  | .evPowerOn => Sys2Proof.Machine.execEvPowerOn s
  | .evFlashCommitComplete => Sys2Proof.Machine.execEvFlashCommitComplete s
  | .evIcinvCompletion op => Sys2Proof.Machine.execEvIcinvCompletion op s
  | .evPlanRequestArrival flight => Sys2Proof.Machine.execEvPlanRequestArrival flight s

end Sys2Proof.Machine
end

