-- ==== Sys2Proof/Machine/HostPort.lean ====
section
/-! DEFINITION. BAR0 as the host reads and writes it, a word at a time (18 R434, R436, R437, R442; 15 R415). A write that
submits a record, starts a command or acts on a unit does what the device step of that name does. -/

namespace Sys2Proof.Machine

/-! ## The capability list -/

/-- IDs and data words (Table 18-3). -/
def State.capabilities (s : State) : List (Nat × List Word) :=
  [(1, [0x100, 0xA1, w32 s.mgmt.devnum, Config.serial 0, Config.serial 1]),
   (2, [16, 16, 128, 8, 2, 32, 64, 256]),
   (3, [0, 0x18, 0x06000000, 0x00800000, 0x00C00000, 0x00030000]),
   (4, [4, 4, 1, 8]),
   (5, [350, 600, w32 s.mgmt.profile])]

/-- The words of a list that begins at an offset: ID and NEXT, the length, the data (R442). -/
def capWords (off : Nat) : List (Nat × List Word) → List Word
  | [] => []
  | (id, ws) :: rest =>
    let next := off + 8 + 4 * ws.length
    w32 (id + (if rest.isEmpty then 0 else next * 2 ^ 16)) :: w32 ws.length :: ws ++ capWords next rest

/-! ## Reads -/

/-- A register of the device page (Table 18-2). -/
def State.devicePage (s : State) (off : Nat) : Word :=
  let m := s.mgmt
  match off with
  | 0x000 => w32 m.devnum
  | 0x008 => w32 m.bar2base
  | 0x00C => w32 (m.bar2base / 2 ^ 32)
  | 0x014 => w32 (((List.range 8).map fun d =>
      (if (s.peer d).path then 2 ^ d else 0) + if (s.peer d).held then 2 ^ (8 + d) else 0).sum)
  | 0x018 => w32 (((List.range 4).map fun p =>
      let l := s.link p
      (l.state + (if l.spare then 4 else 0) + l.far.headD 0 % 8 * 8) * 2 ^ (8 * p)).sum)
  | 0x020 => w32 (m.profile % 2 ^ 10 + m.clock % 2 ^ 12 * 2 ^ 10 + m.limit % 4 * 2 ^ 22)
  | _ => if off < 0x100 then 0 else (capWords 0x100 s.capabilities).getD (off / 4 - 0x40) 0

/-- Registers of Table 15-3 with device scope. -/
def deviceScope (r : Nat) : Bool :=
  r == 0x42 || r == 0x43 || r == 0x60 || (decide (0xA0 ≤ r) && (sysAcc r).isSome)

/-- A word of a core's debug mailbox (15 R415): CMD reads what the manual leaves unstated (log 56). -/
def State.debugWord (s : State) (core off : Nat) : Word :=
  let k := s.core core
  if off < 0x20 then tget 0 k.dbgArgs (off / 4 - 1)
  else if off = 0x20 then k.dbgStatus ||| w32 (bits k.dbgstat 0 1 * 2)
  else if 0x40 ≤ off ∧ off < 0x60 then k.report.getD ((off - 0x40) / 4) 0
  else if 0x80 ≤ off ∧ off < 0x180 then tget 0 k.dbgData ((off - 0x80) / 4)
  else 0

/-- A word of the management mailbox (18 R443). -/
def State.mgmtWord (s : State) (off : Nat) : Word :=
  if off < 0x20 then tget 0 s.mgmt.args (off / 4 - 1)
  else if off = 0x20 then w32 (s.mgmt.result * 2 ^ 8)
  else if 0x80 ≤ off then wordAt (s.mgmt.data ++ List.replicate 4 0) ((off - 0x80) / 4)
  else 0

/-- What a read of a word of BAR0 returns; none where the manual states no value (log 56). -/
def State.bar0 (s : State) (off : Nat) : Option Word :=
  let page := off / 0x1000
  let o := off % 0x1000
  if page = 0 then some (s.devicePage o)
  else if page = 1 then
    let r := o / 4
    if r = 0x42 then some (s.time.setWidth 32)
    else if r = 0x43 then some (s.time.extractLsb' 32 32)
    else if r = 0xC4 ∨ r = 0x104 then none
    else some (if deviceScope r then s.sysValue 0 0 r else 0)
  else if 0x10 ≤ page ∧ page < 0x18 then some (tget 0 s.mgmt.msixTable ((off - 0x10000) / 4))
  else if page = 0x18 then
    some (if o < 0x100 then w32 (((List.range 32).map fun i =>
      if s.mgmt.raised.contains (8 * o + i) then 2 ^ i else 0).sum) else 0)
  else if 0x100 ≤ page ∧ page < 0x180 then
    some (if o = 0x40 then (s.queue (page - 0x100)).drops
      else if o = 0x44 then w32 (s.queue (page - 0x100)).records.length else 0)
  else if 0x1000 ≤ page ∧ page < 0x1100 then
    if o = 0 then none else some (s.debugWord (page - 0x1000) o)
  else if page = 0x2000 then
    if o = 0 then none else some (s.mgmtWord o)
  else some 0

/-- In recovery the device accepts only the management mailbox of BAR0 (18 R445). -/
def State.acceptsBar0 (s : State) (off : Nat) : Bool :=
  s.mgmt.power && off % 4 == 0 && decide (off < 0x4000000) && (!s.mgmt.recovery || off / 0x1000 == 0x2000)

/-- A read of BAR0 is answered, once the effect of every earlier write is complete (R434). In recovery no record is on its way. -/
def State.hostRead (s : State) (off : Nat) : State :=
  if !s.acceptsBar0 off then s
  else
    let s := if s.mgmt.recovery then s else s.settleRecords
    let r : Word × State := match s.bar0 off with
      | some w => (w, s)
      | none => s.free
    r.2.modMgmt fun m => { m with reply := { data := wordBytes r.1 } }

/-! ## Writes -/

/-- BAR2BASE keeps its alignment to the size (R434). -/
def State.setBar2 (s : State) (base : Nat) : State :=
  s.modMgmt fun m => { m with bar2base := base / m.bar2size * m.bar2size }

/-- A write of CMD of a debug mailbox (15 Table 15-10, R416); the arguments stay as the host wrote them. -/
def State.debugStart (s : State) (c : Nat) (cmd : Word) : Meaning :=
  let k := s.core c
  let a (n : Nat) : Word := tget 0 k.dbgArgs n
  let n (i : Nat) : Nat := (a i).toNat
  let words (len : Nat) : List Word := (List.range (len / 4)).map (tget 0 k.dbgData)
  let same (m : Meaning) : Meaning := m.andThen fun s => s.modCore c fun k' => { k' with dbgArgs := k.dbgArgs }
  same <| match cmd.toNat with
    | 0 => execEvClearReport c s
    | 1 => execEvAttach c (n 0) ((a 1).getLsbD 0) s
    | 2 => execEvHalt c (n 0) s
    | 3 => execEvResume c (n 0) s
    | 4 => execEvStep c (n 0) s
    | 5 => execEvRead c (n 0) (n 1) (n 2) s
    | 6 => if 256 < n 2 ∨ n 2 % 4 ≠ 0 then s.debugCmd c [] fun s => s.debugDone c 1 else execEvWrite c (n 0) (n 1) (words (n 2)) s
    | 7 => execEvWatch c (n 0) (a 1) (a 2) (a 3) s
    | 8 => execEvMem c (n 0 % 4) (n 1 + n 2 * 2 ^ 32) (n 3) ((a 4).getLsbD 0) ((wordsBytes (words 256)).take (n 3)) s
    | _ => .next s

/-- A write of CMD of the management mailbox (Table 18-4). -/
def State.mgmtStart (s : State) (cmd : Word) : Meaning :=
  let n (i : Nat) : Nat := (tget 0 s.mgmt.args i).toNat
  match cmd.toNat with
    | 1 => execEvSensors s
    | 2 => execEvLog (n 0) (n 1) s
    | 3 => execEvStage (n 0 + n 1 * 2 ^ 32) (n 2) s
    | 4 => execEvCommit s
    | 5 => execEvAttest ((s.mgmt.data ++ List.replicate 32 0).take 32) s
    | _ => .next s

/-- The host resizes BAR2: 256 MiB to 128 GiB; its base keeps its alignment (R435). In recovery it stays (R445). -/
def State.resizeBar2 (s : State) (log : Nat) : State :=
  if !s.mgmt.power ∨ s.mgmt.recovery ∨ log < 28 ∨ 37 < log then s
  else ((s.modMgmt fun m => { m with bar2size := 2 ^ log }).setBar2 s.mgmt.bar2base)

/-- A list of bytes with a word put at an offset. -/
def putWord (bs : List Byte) (off : Nat) (w : Word) : List Byte :=
  let l := bs ++ List.replicate (off + 4 - bs.length) 0
  l.take off ++ wordBytes w ++ l.drop (off + 4)

/-- A write of a word of BAR0 whose turn in arrival order has come. -/
def State.bar0Write (s : State) (off : Nat) (w : Word) : Meaning :=
  let page := off / 0x1000
  let o := off % 0x1000
  if page = 0 then
    if o = 0x008 then .next (s.setBar2 (s.mgmt.bar2base / 2 ^ 32 * 2 ^ 32 + w.toNat))
    else if o = 0x00C then .next (s.setBar2 (w.toNat * 2 ^ 32 + s.mgmt.bar2base % 2 ^ 32))
    else if o = 0x010 then execEvPeerctlWrite w s
    else .next s
  else if page = 1 then
    .next (if 0xA0 ≤ o / 4 ∧ o / 4 ≠ 0xC3 ∧ o / 4 ≠ 0x105 then s.setSysReg (o / 4) w else s)
  else if 0x10 ≤ page ∧ page < 0x18 then
    .next (s.modMgmt fun m => { m with msixTable := tset m.msixTable ((off - 0x10000) / 4) w })
  else if 0x100 ≤ page ∧ page < 0x180 then
    let q := page - 0x100
    if o = 0x03C then execEvLaunchRecordSubmit q [w] s
    else if o < 0x03C then .next (s.modQueue q fun c => { c with buffer := tset c.buffer (o / 4) w })
    else if o = 0x040 then execEvDropsWrite q w s
    else .next s
  else if 0x1000 ≤ page ∧ page < 0x1100 then
    let c := page - 0x1000
    if o = 0 then s.debugStart c w
    else .next (if 4 ≤ o ∧ o < 0x20 then s.modCore c fun k => { k with dbgArgs := tset k.dbgArgs (o / 4 - 1) w }
      else if 0x80 ≤ o ∧ o < 0x180 then s.modCore c fun k => { k with dbgData := tset k.dbgData ((o - 0x80) / 4) w }
      else s)
  else if page = 0x2000 then
    if o = 0 then s.mgmtStart w
    else .next (if 4 ≤ o ∧ o < 0x20 then s.modMgmt fun m => { m with args := tset m.args (o / 4 - 1) w }
      else if 0x80 ≤ o then s.modMgmt fun m => { m with data := putWord m.data (o - 0x80) w }
      else s)
  else .next s

/-- A write of a word of BAR0, after the effects of every earlier write (R434): records submitted before have come to the
controller. In recovery none is on its way. -/
def State.hostWrite (s : State) (off : Nat) (w : Word) : Meaning :=
  if !s.acceptsBar0 off then .next s
  else (if s.mgmt.recovery then s else s.settleRecords).bar0Write off w

/-! ## What comes from outside (log 26) -/

/-- Something comes from outside. Without main power nothing does, and in recovery nothing of a peer (R445). -/
def State.takeInput (s : State) (x : Input) : State :=
  if !s.mgmt.power then s
  else match x with
    | .flits port n lane => s.flitsIn port n lane
    | .sample ts rs r => s.modMgmt fun m => { m with sensors := ts, rails := rs, overRail := r }
    | .spoil sector cause =>
      if s.poisonedAt sector then s
      else { s with bad := tset s.bad sector cause, clean := s.clean.filter fun c => c.sector != sector }
    | .bar2Size log => s.resizeBar2 log
    | .peerRequest dev seq a =>
      if 7 < dev ∨ s.mgmt.recovery ∨ !(s.peer dev).path then s else s.send (nodePeer dev) nodeHost hostAsid none (.peerIn seq a)
    | .peerContext dev core thread c =>
      if 7 < dev ∨ 255 < core ∨ s.mgmt.recovery ∨ !(s.peer dev).path then s
      else s.send (nodePeer dev) (nodeRake core) c.asid none (.inbound c thread)

end Sys2Proof.Machine
end

