-- ==== Sys2Proof/Machine/Turn.lean ====
section
/-! DEFINITION. Turns of the device (01 R10, 13 R329; log 1): a datapath visit, a rake's issue, a device step, an instruction of
a stepped slice, a tick of TIME; the end of a core cycle; and the placing of one instruction where the next step runs it
(log 9). -/

namespace Sys2Proof.Machine

/-- The cores run: main power is on, the firmware is loaded, and the device has not shut down (18 R445, R447). -/
def State.running (s : State) : Bool := s.mgmt.power && !s.mgmt.recovery && !s.mgmt.shutdown

/-! ## The rotation -/

/-- What the end of a core cycle brings while the cores run: hang counts move (10 R267), registers written in it are readable (01
R11), a debugger's MEM and completions that wait are tried again (15 R450, 11 R282), and every 4,096 cycles the dependencies of
launch records are read again (11 R276). -/
def State.cycleWork (s : State) : State :=
  let s := if s.cycle.toNat % 4096 = 4095 then s.pollDeps else s
  let s := s.memRetry.retryDone.endLent
  { s with
    ctxs := s.ctxs.map fun p => (p.1, { p.2 with hang := if s.hangCycle p.1 then p.2.hang + 1 else 0 }),
    slices := s.slices.map fun p => (p.1, p.2.settlePending) }

/-- A core cycle ends (01 R10, R17): the counter goes on. -/
def State.endCycle (s : State) : State :=
  let s := if s.running then s.cycleWork else s
  { s with visitCore := 0, visitDp := 0, cycle := s.cycle + 1 }

/-- The rotation stands where it stood in `s`: no instruction and no device step moves it. -/
def State.atPlace (s t : State) : State := { t with visitCore := s.visitCore, visitDp := s.visitDp }

/-- The next datapath: 0 to 7 of a core, then the next core; after the last the cycle ends. -/
def State.nextVisit (s : State) : State :=
  if s.visitDp < 7 then { s with visitDp := s.visitDp + 1 }
  else if s.visitCore < 255 then { s with visitDp := 0, visitCore := s.visitCore + 1 }
  else s.endCycle

/-- Runs what a visit or a single step found. -/
def Issue.outcome (i : Issue) : Meaning :=
  match i with
  | .idle s => .next s
  | .done s => .next s
  | .run s i => exec i s

/-! ## The other turns -/

/-- A rake's issue. -/
noncomputable def State.rakeTurn (s : State) (core : Nat) : Meaning :=
  if !s.running then .next s
  else match s.rakeIssue core with
    | (s, none) => .next s
    | (s, some i) => exec i s

/-- Active lanes of an instruction in a slice. -/
def State.activeLanes (s : State) (core slot : Nat) (i : Instr) : Pred :=
  match encode i with
  | w :: _ => (s.slice core slot).active (fld w 28 4)
  | [] => 0

/-- The visit of a slot that a STEP names (15 R417): its slice issues alone, unless it has taken part in a gang in this cycle (01
R10). -/
def State.singleTurn (s : State) (core slot : Nat) : Meaning :=
  let late := (s.core core).stepping.any fun p => decide (p.2 + 1000 ≤ s.time.toNat)
  if !(s.slice core slot).live || late then .next (s.endStep core 3)
  else if (s.slice core slot).stamp == s.cycle.toNat + 1 then .next s
  else
    let ready := s.stepReady core slot
    match ready.stepIssue core slot with
    | .idle t =>
      .next (if (t.slice core slot).park.isSome then (t.stepHalt core slot).endStep core 3 else t.stepHalt core slot)
    | .done t => .next (ready.stepAfter t core slot 0)
    | .run t i => Meaning.andThen (exec i t) fun u => t.stepAfter u core slot (t.activeLanes core slot i)

/-- The visit whose turn it is. -/
def State.visitTurn (s : State) : Meaning :=
  let core := s.visitCore
  let slot := 8 * (s.cycle.toNat % 16) + s.visitDp
  if !s.mgmt.power then .next s
  else if !s.running then .next s.nextVisit
  else (if (s.core core).stepping.map (·.1) = some slot then s.singleTurn core slot
    else (s.visit core s.visitDp).outcome).andThen fun t => (s.atPlace t).nextVisit

/-- A constructor of `Instr` that stands for a device step: no word encodes it. -/
def Instr.isEvent (i : Instr) : Bool := (encode i).isEmpty

/-- Device steps that are possible in recovery, where the device accepts only the management mailbox and BAR2 (18 R445). -/
def Instr.inRecovery : Instr → Bool
  | .evSensors | .evLog _ _ | .evStage _ _ | .evCommit | .evAttest _ | .evLogFlashWrite | .evShock _ _
  | .evBar2Access _ _ _ | .evHostAtomicop _ | .evFlashCommitComplete | .evDeviceReset | .evPowerLoss => true
  | _ => false

/-- A device step is possible: without main power none but its return is. -/
def State.allows (s : State) (i : Instr) : Bool :=
  Instr.isEvent i && if !s.mgmt.power then i == .evPowerOn else !s.mgmt.recovery || Instr.inRecovery i

/-- TIME advances (01 R18). What the tick still owes comes before: the expiries of its plan slots and the end of a shutdown (14 R391,
R395); a port's retraining ends with its 2,000th tick (18 R440), and the log reaches the flash in time (18 R444). In recovery no slot
is armed. -/
def State.tickTurn (s : State) : State :=
  if s.mgmt.power then
    let s := if s.mgmt.recovery then s else s.expireAll.shutdownLimit
    ({ s with time := s.time + 1, mgmt := s.mgmt.logTick } : State).retrainLimit
  else s

/-- One turn: the first of the agenda, or else the rotation's next visit. -/
noncomputable def State.turn (s : State) : Meaning :=
  match s.agenda with
  | [] => s.visitTurn
  | t :: rest =>
    let s := { s with agenda := rest }
    match t with
    | .visit => s.visitTurn
    | .rake core => (s.rakeTurn core).andThen s.atPlace
    | .event i => Meaning.andThen (if s.allows i then exec i s else .next s) s.atPlace
    | .tick => .next (s.atPlace s.tickTurn)
    | .hostRead off => .next (s.atPlace (s.hostRead off))
    | .hostWrite off w => (s.hostWrite off w).andThen s.atPlace
    | .input x => .next (s.atPlace (s.takeInput x))

/-! ## Placing an instruction (log 9) -/

/-- Context 1 with one 64 KiB page at virtual address 0, readable, writable, executable and in user mode, which holds the
instruction's bytes at 0. -/
def State.placeCode (s : State) (w : Nat) : State :=
  let put (m : Memory) (p : Nat × Nat) : Memory := mwrite m p.1 8 p.2
  { s with mem := [(s.ctxAddr 1, 0x2001), (0x2000, 0x10001), (0x10000, 0x20001), (0x20000, 0x3003F), (0x30000, w)].foldl put s.mem }

/-- The group of the placed slice: it has nothing but its slot. -/
def placedGroup (slot : Nat) : Group where
  asid := 1
  grid := 0
  team := 0
  teamIx := 0
  ix := 0
  core := 0
  slots := [slot]
  localBase := 0
  localLen := 0
  mclass := 0
  barriers := 0
  queues := 0
  tiles := 0
  teamSize := 1
  level := 0

/-- A live slice of context 1 in the slot that core 0, datapath 0 visits next, at PC 0 with a full mask. -/
def State.placeSlice (s : State) : State :=
  let slot := 8 * (s.cycle.toNat % 16)
  let g := s.nextId
  let s := s.setSlice 0 slot (freshSlice 1 g 0 0 1 0 0 s.cycle.toNat 0xFF)
  let s := s.modCore 0 fun k => { k with tlb := [], icache := [], icacheData := [] }
  let s := s.modCluster 0 fun k => { k with tlb := [] }
  { s with
    groups := tset s.groups g (placedGroup slot),
    nextId := g + 1, visitCore := 0, visitDp := 0, agenda := [] }

/-- A kernel of four words on core 0's rake that begins with the word, and thread 0 of context 1 at its start. -/
def State.placeKernel (s : State) (w : Nat) : State :=
  { s.modRake 0 fun r => { r with
      program := tset r.program 0 (w32 w), regions := [(0, 1, 0, 4)], kernels := [(1, 0, 0, 4)],
      threads := [(0, { used := true, asid := 1 })], last := 31 } with agenda := [.rake 0] }

/-- The machine awake. -/
def State.powered (s : State) : State :=
  { s with mgmt := { s.mgmt with power := true, recovery := false, shutdown := false } }

/-- An instruction that `decodeTableWord` reads as a traversal instruction. -/
noncomputable def isTravWord (nbits w : Nat) : Bool :=
  let t := okOf (decodeTrav (w32 w))
  decide (nbits ≤ 32) && t.isSome && decodeTableWord nbits w == t

/-- Places the instruction whose bits are `w` where the next turn runs it. -/
noncomputable def State.placeWord (s : State) (nbits w : Nat) : State :=
  let v := w % 2 ^ nbits
  if isTravWord nbits w then s.powered.placeKernel v
  else (s.powered.placeCode v).placeSlice

end Sys2Proof.Machine
end

