-- ==== Sys2Proof/Machine/Step.lean ====
section
/-! DEFINITION. One step of the machine, and the placing of an instruction where the next step runs it; both only call
Machine/Turn.lean. -/

namespace Sys2Proof.Machine

/-- One turn of the device (log 1). -/
noncomputable def step (s : State) : Host.Outcome State Fault Refusal := s.turn

/-- The state with the instruction whose bits are `w` placed where `step` runs it next (log 9). -/
noncomputable def State.withFetchWord (s : State) (nbits w : Nat) : State := s.placeWord nbits w

end Sys2Proof.Machine
end

