-- ==== Sys2Proof/Safety.lean ====
section
/-! DEFINITION. What a safe step is: every step ends in a next state. Every condition the manual names is a trap, a status or a
record, and a page that names no memory fails in translation (00 Table 00-2, 01 Table 01-1; log 28). -/

namespace Sys2Proof.Machine

/-- An outcome is neither a fault nor a refusal. -/
def Safe (o : Host.Outcome State Fault Refusal) : Prop :=
  match o with
  | .next _ => True
  | .fault _ => False
  | .refused _ => False

/-- The rotation's position names a datapath of a core (01 R10). -/
def Placed (s : State) : Prop := s.visitCore < 256 ∧ s.visitDp < 8

/-- Memory is in its canonical form (log 55), and TRAPVEC of every slice is a multiple of 4 (15 Table 15-3; log 47). -/
def InForm (s : State) : Prop := s.mem.wf = true ∧ ∀ x ∈ s.slices, x.2.trapvec.toNat % 4 = 0

end Sys2Proof.Machine
end

