-- ==== Sys2Proof/Certificates/Slice0/Obligations.lean ====
section
/-! DEFINITION. The statements of this model for the provers. `Claim` holds the vocabulary in which they are said. -/

namespace Sys2Proof.Claim

open Sys2Proof.Machine

/-! ## Vocabulary -/

/-- The slice in slot `t` of core `c` issues by itself and waits for nothing: no register it would read (file 0 V, 1 S;
index) is pending (04 R80). -/
structure Solo (s : State) (c t : Nat) (srcs : List (Nat × Nat)) : Prop where
  core : s.issuer.core = c
  gang : s.issuer.slots = [t]
  held : (s.slice c t).pendingReg 9 0 = false
  ready : ∀ r ∈ srcs, (s.slice c t).pendingReg r.1 r.2 = false

/-- The same for a gang of any size (04 R79, R80). -/
structure Gang (s : State) (srcs : List (Nat × Nat)) : Prop where
  distinct : s.issuer.slots.Nodup
  held : ∀ t ∈ s.issuer.slots, (s.slice s.issuer.core t).pendingReg 9 0 = false
  ready : ∀ t ∈ s.issuer.slots, ∀ r ∈ srcs, (s.slice s.issuer.core t).pendingReg r.1 r.2 = false

/-- `s` once its one slice has counted the issue (04 R85). -/
def begun (s : State) (c t : Nat) : State := s.setSlice c t (s.slice c t).issued

/-- Flags of some lanes ORed (03 R63). -/
def orAll (ls : List Nat) (f : Nat → BitVec 5) : BitVec 5 := ls.foldl (fun m l => m ||| f l) 0

/-- A slice whose active lanes of V[d] take a result and whose FPFLAGS take their flags, and which has moved past an
instruction of four bytes. -/
def laneResult (x : Slice) (g : BitVec 4) (d : Nat) (r : Nat → Word × BitVec 5) : Slice :=
  ((x.writeLanes d (x.lanes g) fun l => (r l).1).orFlags (orAll (x.lanes g) fun l => (r l).2)).advance 4

/-- A vector form with sources A, B and perhaps the old D: with its operands readable it completes, and each active lane of
V[D] is `op` of FPCTL, A, B and the old D. `s1` is the state in which reading B leaves the machine (a queue register or
stream port pops). -/
def LaneForm (i : R3 → Instr) (third : Bool) (op : Word → Word → Word → Word → Word × BitVec 5) : Prop :=
  ∀ (f : R3) (s s1 : State) (c t : Nat) (bv : Nat → Word),
    Solo s c t ((0, f.a.toNat) :: bSrc f.b f.x ++ if third then [(0, f.d.toNat)] else []) → vbOk f.b f.x = true →
    (begun s c t).operandB c t f.g f.b f.x = .ok (s1, bv) →
    exec (i f) s = .next (s1.setSlice c t (laneResult (s1.slice c t) f.g f.d.toNat fun l =>
      op (s1.slice c t).fpctl ((s1.slice c t).vr f.a.toNat l) (bv l) ((s1.slice c t).vr f.d.toNat l)))

/-- A unary vector form. -/
def UnaryForm (i : R2 → Instr) (op : Word → Word → Word × BitVec 5) : Prop :=
  ∀ (f : R2) (s : State) (c t : Nat), Solo s c t [(0, f.a.toNat)] →
    exec (i f) s = .next (s.setSlice c t (laneResult (s.slice c t).issued f.g f.d.toNat fun l =>
      op (s.slice c t).fpctl ((s.slice c t).vr f.a.toNat l)))

/-- An instruction that writes `val` of the old A and D of each active lane to V[d]. -/
def ImmForm (i : Instr) (g : BitVec 4) (d a : Nat) (srcs : List (Nat × Nat)) (val : Word → Word → Word) : Prop :=
  ∀ (s : State) (c t : Nat), Solo s c t srcs →
    exec i s = .next (s.setSlice c t (laneResult (s.slice c t).issued g d fun l =>
      (val ((s.slice c t).vr a l) ((s.slice c t).vr d l), 0)))

/-- A uniform form: with a lane active S[d] takes `val` of the slice; with none nothing is written (02 R29, 05 R131). -/
def UniformForm (i : Instr) (g : BitVec 4) (d : Nat) (srcs : List (Nat × Nat)) (val : Slice → Word) : Prop :=
  ∀ (s : State) (c t : Nat), Solo s c t srcs →
    exec i s = .next (s.setSlice c t
      ((if (s.slice c t).active g = 0 then (s.slice c t).issued
        else (s.slice c t).issued.setS d (val (s.slice c t))).advance 4))

/-- Clamp of an integer to a range (01 Table 01-5). -/
def clampTo (x lo hi : Int) : Int := max lo (min x hi)

/-- The S32 and N32 forms of 05 Table 05-2: what each lane of V[D] becomes. -/
def intForms : List ((R3 → Instr) × (Word → Word → Word)) :=
  [(.iadd, fun a b => a + b), (.isub, fun a b => a - b), (.imul, fun a b => a * b),
   (.imulhs, fun a b => BitVec.ofInt 32 (a.toInt * b.toInt / 2 ^ 32)),
   (.imulhn, fun a b => BitVec.ofNat 32 (a.toNat * b.toNat / 2 ^ 32)),
   (.imins, fun a b => if a.toInt < b.toInt then a else b), (.imaxs, fun a b => if b.toInt < a.toInt then a else b),
   (.iminn, fun a b => if a.toNat < b.toNat then a else b), (.imaxn, fun a b => if b.toNat < a.toNat then a else b),
   (.iabsd, fun a b => BitVec.ofNat 32 (a.toInt - b.toInt).natAbs),
   (.iaddss, fun a b => BitVec.ofInt 32 (clampTo (a.toInt + b.toInt) (-2 ^ 31) (2 ^ 31 - 1))),
   (.iaddsn, fun a b => BitVec.ofInt 32 (clampTo (a.toNat + b.toNat) 0 (2 ^ 32 - 1))),
   (.isubss, fun a b => BitVec.ofInt 32 (clampTo (a.toInt - b.toInt) (-2 ^ 31) (2 ^ 31 - 1))),
   (.isubsn, fun a b => BitVec.ofInt 32 (clampTo (a.toNat - b.toNat) 0 (2 ^ 32 - 1)))]

/-- The bitwise forms and shifts of 05 Table 05-3; a shift amount is the whole of B. -/
def logicForms : List ((R3 → Instr) × (Word → Word → Word)) :=
  [(.and, fun a b => a &&& b), (.or, fun a b => a ||| b), (.xor, fun a b => a ^^^ b),
   (.andn, fun a b => a &&& ~~~b), (.orn, fun a b => a ||| ~~~b), (.xnor, fun a b => ~~~(a ^^^ b)),
   (.shl, fun a b => if 32 ≤ b.toNat then 0 else a <<< b.toNat),
   (.shr, fun a b => if 32 ≤ b.toNat then 0 else a >>> b.toNat),
   (.sra, fun a b => a.sshiftRight (min b.toNat 31)),
   (.rol, fun a b => a.rotateLeft (b.toNat % 32)), (.ror, fun a b => a.rotateRight (b.toNat % 32))]

/-- The forms that also read the old D (05 R126, R129, R141). -/
def dForms : List ((R3 → Instr) × (Word → Word → Word → Word)) :=
  [(.imac, fun a b d => d + a * b),
   (.imach, fun a b d => d + BitVec.ofInt 32
      ((a.extractLsb' 0 16).toInt * (b.extractLsb' 0 16).toInt + (a.extractLsb' 16 16).toInt * (b.extractLsb' 16 16).toInt)),
   (.bfi, bfi), (.prmt, prmt)]

/-- Floating forms of A and B (05 R134 to R136, R139, R140): FPCTL gives rounding and flushing. -/
def floatForms : List ((R3 → Instr) × (Word → Nat → Nat → Nat × BitVec 5)) :=
  [(.fadd, f32.fadd), (.fsub, f32.fsub), (.fmul, f32.fmul), (.fdiv, f32.fdiv), (.fldexp, fldexp),
   (.fmin, fun c => f32.minmax (c.getLsbD 2) false), (.fmax, fun c => f32.minmax (c.getLsbD 2) true),
   (.fcpsgn, fun _ a b => (b / 2 ^ 31 * 2 ^ 31 + a % 2 ^ 31, 0)),
   (.hadd2, fun c a b => halves (fun x y _ => f16.fadd c x y) a b 0),
   (.hmul2, fun c a b => halves (fun x y _ => f16.fmul c x y) a b 0),
   (.hmin2, fun c a b => halves (fun x y _ => f16.minmax (c.getLsbD 2) false x y) a b 0),
   (.hmax2, fun c a b => halves (fun x y _ => f16.minmax (c.getLsbD 2) true x y) a b 0),
   (.badd2, fun c a b => halves (fun x y _ => bf16.fadd c x y) a b 0),
   (.bmul2, fun c a b => halves (fun x y _ => bf16.fmul c x y) a b 0),
   (.pk2h, pack2 1), (.pk2b, pack2 2)]

/-- Fused forms (05 R134, R139). -/
def fusedForms : List ((R3 → Instr) × (Word → Nat → Nat → Nat → Nat × BitVec 5)) :=
  [(.ffma, f32.ffma), (.ffms, f32.ffms), (.hfma2, fun c => halves (f16.ffma c)), (.bfma2, fun c => halves (bf16.ffma c))]

/-- Unary integer forms (05 Table 05-3). -/
def unaryInts : List ((R2 → Instr) × (Word → Word)) := [(.clz, clz), (.popc, popc), (.brev, brev)]

/-- Unary floating forms (05 R134, R135, R137, R138). -/
def unaryFloats : List ((R2 → Instr) × (Word → Nat → Nat × BitVec 5)) :=
  [(.fabs, fun _ a => (a % 2 ^ 31, 0)), (.fneg, fun _ a => ((a + 2 ^ 31) % 2 ^ 32, 0)),
   (.frcp, frcp), (.frsq, frsq), (.fsqrt, f32.fsqrt), (.fexp2, fexp2), (.flog2, flog2), (.fsinpi, fsinpi),
   (.fcospi, fcospi), (.ftanh, ftanh), (.ffract, ffract), (.frnd, frnd),
   (.fclass, fun _ a => (2 ^ fclass a, 0)), (.fsat, fsat)]

/-- Uniform forms of S[A] and B (R131). -/
def uniformForms : List ((R3 → Instr) × (Word → Word → Word)) :=
  [(.sadd, fun a b => a + b), (.ssub, fun a b => a - b), (.smul, fun a b => a * b),
   (.sand, fun a b => a &&& b), (.sor, fun a b => a ||| b), (.sxor, fun a b => a ^^^ b),
   (.sshl, fun a b => if 32 ≤ b.toNat then 0 else a <<< b.toNat),
   (.sshr, fun a b => if 32 ≤ b.toNat then 0 else a >>> b.toNat),
   (.ssra, fun a b => a.sshiftRight (min b.toNat 31)),
   (.smins, fun a b => if a.toInt < b.toInt then a else b), (.smaxs, fun a b => if b.toInt < a.toInt then a else b),
   (.sminn, fun a b => if a.toNat < b.toNat then a else b), (.smaxn, fun a b => if b.toNat < a.toNat then a else b)]

/-- The members meet the rendezvous of a form with HOME = 1 (04 R89). -/
def Met (s : State) (h : BitVec 1) : Prop := h = 1 → ∀ t ∈ s.issuer.slots, (s.slice s.issuer.core t).met = true

/-- No member waits for an acquire (09 R236). -/
def Free (s : State) : Prop := ∀ t ∈ s.issuer.slots, (s.slice s.issuer.core t).acquires = []

/-- Index shuffles and their source number for gang lane number q, index b and gang width w (04 Table 04-7). -/
def shuffles : List ((R3 → Instr) × (Nat → Nat → Nat → Option Nat)) :=
  [(.shfli, fun _ b w => some (b % w)), (.shflu, fun q b _ => if b ≤ q then some (q - b) else none),
   (.shfld, fun q b w => if q + b < w then some (q + b) else none),
   (.shflx, fun q b w => if q.xor (b % 64) < w then some (q.xor (b % 64)) else none)]

/-- Scans: how a head starts and how a sum goes on, with their flags (04 R105). -/
def scans : List ((RP → Instr) × (Word → Word → Word × BitVec 5) × (Word → Word → Word → Word × BitVec 5)) :=
  [(.segsc, fun _ v => (v, 0), fun _ t v => (t + v, 0)),
   (.segscf, headF, fun c t v => let r := f32.fadd c t.toNat v.toNat; (BitVec.ofNat 32 r.1, r.2))]

/-- The branch forms (04 R95, R96). -/
inductive Branch where
  | bra (g : BitVec 4) (o : BitVec 22)
  | call (g : BitVec 4) (o : BitVec 22)
  | jmpx (g : BitVec 4) (a : BitVec 6)
  | callx (g : BitVec 4) (d a : BitVec 6)
  | ret (g : BitVec 4) (a : BitVec 6)

def Branch.guard : Branch → BitVec 4
  | .bra g _ | .call g _ | .jmpx g _ | .callx g _ _ | .ret g _ => g

def Branch.instr : Branch → Instr
  | .bra g o => .bra g o | .call g o => .call g o | .jmpx g a => .jmpx g a | .callx g d a => .callx ⟨g, d, a⟩ | .ret g a => .ret g a

/-- Registers a form reads. -/
def Branch.srcs : Branch → List (Nat × Nat)
  | .bra _ _ | .call _ _ => []
  | .jmpx _ a | .callx _ _ a | .ret _ a => [(0, a.toNat)]

/-- A lane's target: the PC plus four times the offset, or V[A] under the PC's upper bits. -/
def Branch.target : Branch → Slice → Nat → Addr
  | .bra _ o, x, _ | .call _ o, x, _ => x.path.pc + 4 * o.signExtend 52
  | .jmpx _ a, x, l | .callx _ _ a, x, l | .ret _ a, x, l => x.path.pc.extractLsb' 32 20 ++ x.vr a.toNat l

/-- The change of call depth. -/
def Branch.delta : Branch → BitVec 8
  | .bra _ _ | .jmpx _ _ => 0
  | .call _ _ | .callx _ _ _ => 1
  | .ret _ _ => -1

/-- The V register that takes the return address. -/
def Branch.link : Branch → Option Nat
  | .call _ _ => some 63
  | .callx _ d _ => some d.toNat
  | _ => none

/-- The slice in slot `t` of core `c` issues by itself with a lane active, waiting for no register and no acquire. -/
structure Acts (s : State) (c t : Nat) (g : BitVec 4) (srcs : List (Nat × Nat)) : Prop where
  solo : Solo s c t srcs
  free : (s.slice c t).acquires = []
  on : (s.slice c t).active g ≠ 0

/-- It issues by itself, waiting for nothing, with no lane active. -/
structure Idles (s : State) (c t : Nat) (g : BitVec 4) (srcs : List (Nat × Nat)) : Prop where
  solo : Solo s c t srcs
  free : (s.slice c t).acquires = []
  off : (s.slice c t).active g = 0

/-- An instruction of `len` bytes without effect: the slice only moves past it. -/
def MovesOn (i : Instr) (s : State) (c t len : Nat) : Prop :=
  exec i s = .next (s.setSlice c t ((s.slice c t).issued.advance len))

/-- The lanes of V[a] of a slice. -/
def row (x : Slice) (a : Nat) : List Word := (List.range 8).map (x.vr a)


/-! Memory forms: what each does with a lane (07 R191 to R199). -/

/-- A form of the majors 0x30 to 0x34: the instruction, its accesses, the checks of its own fields, the V and S registers it
reads beside its address, a lane's operands, and its requests in GLOBAL. -/
structure MemRow where
  instr : Instr
  kind : MemKind
  ok : Bool
  srcs : List (Nat × Nat)
  val : State → Slice → Nat → Nat × Nat
  request : State → Acc → Except Stop State

/-- Atomic forms and their operation (R193). -/
def atomTable : List ((MemF → Instr) × AtomForm) :=
  [(.aadd, .add), (.amins, .mins), (.amaxs, .maxs), (.aminn, .minn), (.amaxn, .maxn), (.aand, .and), (.aor, .or),
   (.axor, .xor), (.axchg, .xchg), (.acas, .cas), (.afadd, .fadd), (.afmin, .fmin), (.afmax, .fmax), (.ahadd2, .hadd2)]

/-- The forms that access memory with a value. -/
def memTable (m : MemF) : List MemRow :=
  let n := szBytes m.sz
  let r := szRegs n
  let d := m.d.toNat
  let ld : MemKind := { form := .load, size := n, acc := .load, watch := 1, dest := .v d r }
  let st : MemKind := { form := .store, size := n, acc := .store, watch := 2 }
  let sld : MemKind := { form := .load, size := n, scalar := true, acc := .load, watch := 1, dest := .s d r }
  let sst : MemKind := { form := .store, size := n, scalar := true, acc := .store, watch := 2 }
  let ldr : MemKind := { form := .ldr, size := n, acc := .load, noSys := true, watch := 1, dest := .v d r }
  let stc : MemKind := { form := .stc, size := n, acc := .store, noSys := true, watch := 3, dest := .v d 1 }
  [⟨.ld m, ld, memVOk m r, [], fun _ _ _ => (0, 0), fun s a => s.globalLoad m ld a (memAcquires m true)⟩,
   ⟨.st m, st, memVOk m r, group 0 d r, fun _ x l => (x.vGroup d r l, 0), fun s a => s.globalPosted m st a⟩,
   ⟨.sld m, sld, memSOk m r, [], fun _ _ _ => (0, 0), fun s a => s.globalLoad m sld a (memAcquires m true)⟩,
   ⟨.sst m, sst, memSOk m r, group 1 d r, fun _ x _ => (x.sGroup d r, 0), fun s a => s.globalPosted m sst a⟩,
   ⟨.ldr m, ldr, memVOk m r, [], fun s _ _ => (s.cycle.toNat, 0), fun s a => s.globalLoad m ldr a (memAcquires m false)⟩,
   ⟨.stc m, stc, memVOk m r, group 0 d r,
    fun s x l => (x.vGroup d r l, s.cycle.toNat), fun s a => s.globalAtomic m stc a⟩] ++
  atomTable.map fun p =>
    let g := if p.2 == .cas then 2 * r else r
    let k : MemKind := { form := .atomic p.2, size := n, acc := .atomic, noSys := !p.2.pcie, watch := 3, dest := .v d r }
    ⟨p.1 m, k, memVOk m g, group 0 d g,
     fun _ x l => (x.vGroup d r l, if p.2 == .cas then x.vGroup (d + r) r l else 0), fun s a => s.globalAtomic m k a⟩

/-- Registers that a form with address fields `m` reads. -/
def MemRow.reads (p : MemRow) (m : MemF) : List (Nat × Nat) :=
  memBaseSrc m ++ (if p.kind.scalar then [] else [(0, m.a.toNat)]) ++ p.srcs

/-- The request of a form whose lanes land at the keys of `ok`. -/
def MemRow.access (p : MemRow) (m : MemF) (s v : State) (c : Nat) (ok : List (Tgt × Nat)) : Acc :=
  { form := p.kind.form, size := p.kind.size, cp := m.cp.toNat,
    lanes := ok.map fun q =>
      let w := p.val s (v.slice c q.1.slot) q.1.lane
      { slot := q.1.slot, lane := q.1.lane, va := taddr q.1.a, pa := q.2, hi := q.1.hi, val := w.1, val2 := w.2 } }

/-- A form may issue, and every lane passes its checks and lands: `v` is the state after the address translations, and `ok`
the lanes with their memory keys. -/
structure Lands (p : MemRow) (m : MemF) (s : State) (c t : Nat) (v : State) (ok : List (Tgt × Nat)) : Prop where
  acts : Acts s c t m.g (p.reads m)
  legal : (p.ok && memBaseOk m) = true
  waits : (begun s c t).memWaits m.g (p.kind.code m.space.toNat) m.wt (memReleases m (p.kind.form == .load)) m.scope.toNat =
    .ok ()
  lands : (begun s c t).resolve m.space.toNat p.kind.size p.kind.acc p.kind.noSys
    ((begun s c t).targets m p.kind.scalar) = ⟨v, ok, []⟩
  unwatched : v.watch m.space.toNat p.kind.watch ok (fun _ => max p.kind.size 1) = .ok ()

/-- An acquire in the form, and its effect where no operation carries it (09 Table 09-3). -/
def MemRow.acquires (p : MemRow) (m : MemF) : Bool := memAcquires m (p.kind.form == .load)
def MemRow.acquired (p : MemRow) (m : MemF) (c : Nat) (w : State) : State :=
  if p.acquires m && p.kind.dest == .none then w.acquireNow c m.scope.toNat else w

/-! Traversal threads (13). -/

/-- The thread whose turn it is. -/
def running (s : State) : Thread := s.thread s.rakeCore s.rakeThread

/-- A traversal instruction that leaves the running thread as `t` and goes on to the next word. -/
def Walks (i : Instr) (s : State) (t : Thread) : Prop :=
  exec i s = .next ((s.modThread s.rakeCore s.rakeThread fun _ => t).goNext s.rakeCore s.rakeThread)

/-- A traversal instruction that leaves the running thread waiting. -/
def Awaits (i : Instr) (s : State) (w : TWait) : Prop :=
  exec i s = .next (s.modThread s.rakeCore s.rakeThread fun t => { t with wait := w })

/-- A traversal instruction that ends its thread with a status (R363), and does nothing else. -/
def Ends (i : Instr) (s : State) (status : Nat) : Prop := exec i s = .next (s.endThread s.rakeCore s.rakeThread status)

/-- The integer forms of two registers, and of a register and a literal (R335). -/
noncomputable def travInts : List ((T3 → Instr) × (TI → Instr) × (Word → Word → Word)) :=
  [(.tAdd, .tAddImm, fun a b => a + b), (.tSub, .tSubImm, fun a b => a - b), (.tMul, .tMulImm, fun a b => a * b),
   (.tAnd, .tAndImm, fun a b => a &&& b), (.tOr, .tOrImm, fun a b => a ||| b), (.tXor, .tXorImm, fun a b => a ^^^ b),
   (.tShl, .tShlImm, fun a b => if 32 ≤ b.toNat then 0 else a <<< b.toNat),
   (.tShr, .tShrImm, fun a b => if 32 ≤ b.toNat then 0 else a >>> b.toNat),
   (.tMin, .tMinImm, fun a b => if a.toInt ≤ b.toInt then a else b),
   (.tMax, .tMaxImm, fun a b => if b.toInt ≤ a.toInt then a else b)]

/-- The floating forms: round to nearest, subnormals kept (R336). -/
noncomputable def travFloats : List ((T3 → Instr) × (Nat → Nat → Nat × BitVec 5)) :=
  [(.tFadd, f32.fadd 0), (.tFsub, f32.fsub 0), (.tFmul, f32.fmul 0), (.tFmin, f32.minmax false false),
   (.tFmax, f32.minmax false true)]

/-! Device steps. -/

/-- A message under way that is the first from its unit to its destination (06 R154, 07 R180). -/
structure Due (s : State) (f : Flight) : Prop where
  under : s.flight? f.id = some f
  first : s.first f = true

/-- An operation under way with no request of its own left. -/
structure Ended (s : State) (o : Op) : Prop where
  under : s.op? o.id = some o
  left : o.left = 0

/-- A device step takes the state to `t`. -/
def Becomes (i : Instr) (s t : State) : Prop := exec i s = .next t

/-! Encodings. -/

/-- The instructions of the traversal processor (13 Table 13-4). -/
noncomputable def travForm : Instr → Bool
  | .tNfch _ | .tNdec _ _ _ | .tNdecX _ | .tNqbx _ _ | .tBox8 _ _ | .tSbox8 _ _ | .tTri _ _ _ _ | .tSphd _ _ _
  | .tKcmp8 _ _ _ | .tVdist _ | .tPushm _ | .tPushmE _ _ | .tPop _ | .tStkq _ _ | .tBrc _ _ | .tJmp _ _ | .tEnd
  | .tEmit _ _ _ | .tMigr _ | .tYld | .tAdd _ | .tAddImm _ | .tSub _ | .tSubImm _ | .tMul _ | .tMulImm _
  | .tAnd _ | .tAndImm _ | .tOr _ | .tOrImm _ | .tXor _ | .tXorImm _ | .tShl _ | .tShlImm _ | .tShr _
  | .tShrImm _ | .tMin _ | .tMinImm _ | .tMax _ | .tMaxImm _ | .tFadd _ | .tFsub _ | .tFmul _ | .tFmin _
  | .tFmax _ | .tFcmp _ _ | .tMovi _ _ | .tMoviHi _ _ | .tSel _ _ _ _ => true
  | _ => false

/-! Frames. -/

/-- The vector forms of A, B and D, and whether each reads the old D. -/
def regForms : List ((R3 → Instr) × Bool) :=
  (intForms.map fun p => (p.1, false)) ++ (logicForms.map fun p => (p.1, false)) ++ [(.bfx, false)] ++
  (dForms.map fun p => (p.1, true)) ++ (floatForms.map fun p => (p.1, false)) ++ fusedForms.map fun p => (p.1, true)

/-- `u` differs from `s` in the one slice in slot `t` of core `c`, and reads the same at every byte of memory. -/
structure OnlySlice (s u : State) (c t : Nat) : Prop where
  mem : ∀ a, mget u.mem a = mget s.mem a
  others : ∀ c' t', t < 128 → t' < 128 → (c' ≠ c ∨ t' ≠ t) → u.slice c' t' = s.slice c' t'
  cores : u.cores = s.cores
  clusters : u.clusters = s.clusters
  sys : u.sys = s.sys

/-- Registers and state of a slice that arithmetic does not write: FPCTL, trap, exception and handler registers, mode, reservations,
stream ports, counters. -/
structure KeepsControl (x y : Slice) : Prop where
  fpctl : y.fpctl = x.fpctl
  trapvec : y.trapvec = x.trapvec
  t : y.t = x.t
  e : y.e = x.e
  mode : y.system = x.system
  resv : y.resv = x.resv
  ports : y.ports = x.ports
  counted : y.counted = x.counted
  pending : y.pending = x.pending

/-- What a trap leaves of the slice's registers and other paths (15 R408, 04 R92). -/
structure KeepsProgram (x y : Slice) : Prop where
  v : y.v = x.v
  s : y.s = x.s
  p : y.p = x.p
  fpctl : y.fpctl = x.fpctl
  fpflags : y.fpflags = x.fpflags
  hold : y.hold = x.hold
  cur : y.cur = x.cur
  paths : ∀ i, i ≠ x.cur → y.paths.getD i {} = x.paths.getD i {}
  mask : y.path.mask = x.path.mask
  depth : y.path.depth = x.path.depth
  ports : y.ports = x.ports
  counted : y.counted = x.counted

/-- The slice in slot `t` of core `c`, alone in its home warp, can issue at this visit and has nothing else to do first (01 R10,
04 R79 to R88). -/
structure Visits (s : State) (c t : Nat) : Prop where
  stored : s.setSlice c t (s.slice c t) = s
  live : (s.slice c t).live = true
  halted : (s.slice c t).halted = false
  alone : s.warpSlots c t = [t]
  fresh : (s.slice c t).stamp ≠ s.cycle.toNat + 1
  settled : (s.slice c t).settle = s.slice c t
  unparked : (s.slice c t).park = none
  unheld : (s.slice c t).hold = none
  deferred : (s.slice c t).deferred = []
  overrun : s.overrunDue c t = none
  limit : s.runLimitDue c t = false
  frame : (s.slice c t).frame.act = false
  unstepped : (s.core c).stepping.map (·.1) ≠ some t

/-- The state in which a slice that is visited fetches. -/
def fetching (s : State) (c t : Nat) : State :=
  { s.modSlice c t fun x => { x with stamp := s.cycle.toNat + 1 } with
    issuer := { core := c, slots := [t], pc := (s.slice c t).path.pc } }

end Sys2Proof.Claim

open Sys2Proof Sys2Proof.Machine Sys2Proof.Claim

/-! ## Arithmetic and moves (05) -/

/-- The integer, bitwise, shift and multiply-accumulate forms complete with the results of R126, R128, R129 and R141. -/
def Sys2Proof.Claim.IntegerLaneForms : Prop :=
  (∀ p ∈ intForms ++ logicForms, LaneForm p.1 false fun _ a b _ => (p.2 a b, 0)) ∧
  LaneForm .bfx false (fun _ a b _ => (bfx a b, 0)) ∧
  (∀ p ∈ dForms, LaneForm p.1 true fun _ a b d => (p.2 a b d, 0)) ∧
  ∀ p ∈ unaryInts, UnaryForm p.1 fun _ a => (p.2 a, 0)

/-- The floating forms of A and B, the fused forms and the packed forms complete (R134 to R136, R139, R140), each lane with its
own rounding and flags. -/
def Sys2Proof.Claim.FloatLaneForms : Prop :=
  (∀ p ∈ floatForms, LaneForm p.1 false fun c a b _ =>
    let r := p.2 c a.toNat b.toNat
    (BitVec.ofNat 32 r.1, r.2)) ∧
  ∀ p ∈ fusedForms, LaneForm p.1 true fun c a b d =>
    let r := p.2 c a.toNat b.toNat d.toNat
    (BitVec.ofNat 32 r.1, r.2)

/-- The unary floating forms and the conversions CVTF and CVTI complete (R134 to R138, 03 R67 to R72). -/
def Sys2Proof.Claim.UnaryFloatForms : Prop :=
  (∀ p ∈ unaryFloats, UnaryForm p.1 fun c a => let r := p.2 c a.toNat; (BitVec.ofNat 32 r.1, r.2)) ∧
  (∀ src dst sat rs, UnaryForm (fun f => .cvtf f.g f.d f.a src dst sat rs) fun c a =>
    let r := cvtf src.toNat dst.toNat (sat == 1) (rselMode (rmOf c) rs.toNat) a.toNat
    (BitVec.ofNat 32 r.1, r.2)) ∧
  ∀ dir ty fm hi rs, UnaryForm (fun f => .cvti f.g f.d f.a dir ty fm hi rs) fun c a =>
    let r := cvti (dir == 1) ty.toNat fm.toNat (hi == 1) (rselMode (rmOf c) rs.toNat) a.toNat
    (BitVec.ofNat 32 r.1, r.2)

/-- The forms with an immediate complete (R130): 10-bit and 5-bit immediates of RI and SHI, and the 16-bit ones that build a
constant. -/
def Sys2Proof.Claim.ImmediateForms : Prop :=
  (∀ f : RI,
    ImmForm (.iaddi f) f.g f.d.toNat f.a.toNat [(0, f.a.toNat)] (fun a _ => a + f.i.signExtend 32) ∧
    ImmForm (.andi f) f.g f.d.toNat f.a.toNat [(0, f.a.toNat)] (fun a _ => a &&& f.i.setWidth 32) ∧
    ImmForm (.ori f) f.g f.d.toNat f.a.toNat [(0, f.a.toNat)] (fun a _ => a ||| f.i.setWidth 32) ∧
    ImmForm (.xori f) f.g f.d.toNat f.a.toNat [(0, f.a.toNat)] (fun a _ => a ^^^ f.i.setWidth 32)) ∧
  (∀ f : RS,
    ImmForm (.shli f) f.g f.d.toNat f.a.toNat [(0, f.a.toNat)] (fun a _ => a <<< f.n.toNat) ∧
    ImmForm (.shri f) f.g f.d.toNat f.a.toNat [(0, f.a.toNat)] (fun a _ => a >>> f.n.toNat) ∧
    ImmForm (.srai f) f.g f.d.toNat f.a.toNat [(0, f.a.toNat)] (fun a _ => a.sshiftRight f.n.toNat) ∧
    ImmForm (.rori f) f.g f.d.toNat f.a.toNat [(0, f.a.toNat)] (fun a _ => a.rotateRight f.n.toNat)) ∧
  ∀ f : RU,
    ImmForm (.movi f) f.g f.d.toNat 0 [] (fun _ _ => f.i.signExtend 32) ∧
    ImmForm (.movhi f) f.g f.d.toNat 0 [(0, f.d.toNat)] (fun _ d => f.i ++ d.extractLsb' 0 16) ∧
    (sOk f.d = true → UniformForm (.smovi f) f.g f.d.toNat [] fun _ => f.i.signExtend 32) ∧
    (sOk f.d = true → UniformForm (.smovhi f) f.g f.d.toNat [(1, f.d.toNat)] fun x =>
      f.i ++ (x.sr f.d.toNat).extractLsb' 0 16)

/-- The uniform forms complete: S[D] takes the result when a lane is active (R131), and PTOS (R144), SMOV and
VEXTR (R132) likewise. -/
def Sys2Proof.Claim.UniformForms : Prop :=
  (∀ p ∈ uniformForms, ∀ f : R3, (sOk f.d && sOk f.a && sbOk f.b f.x) = true →
    UniformForm (p.1 f) f.g f.d.toNat ((1, f.a.toNat) :: sbSrc f.b f.x) fun x =>
      p.2 (x.sr f.a.toNat) (x.uniform f.b f.x)) ∧
  (∀ f : R2, (sOk f.d && sOk f.a) = true →
    UniformForm (.sclz f) f.g f.d.toNat [(1, f.a.toNat)] (fun x => clz (x.sr f.a.toNat)) ∧
    UniformForm (.spopc f) f.g f.d.toNat [(1, f.a.toNat)] (fun x => popc (x.sr f.a.toNat))) ∧
  (∀ f : R2, (sOk f.d && pOk f.a) = true →
    UniformForm (.ptos f) f.g f.d.toNat [] fun x => (x.pr f.a.toNat).setWidth 32) ∧
  (∀ f : RB, (sOk f.d && sbOk f.b f.x) = true →
    UniformForm (.smov f) f.g f.d.toNat (sbSrc f.b f.x) fun x => x.uniform f.b f.x) ∧
  ∀ f : R3, (sOk f.d && f.x == 1 && codeOk f.b) = true →
    UniformForm (.vextr f) f.g f.d.toNat ((0, f.a.toNat) :: laneSrc f.b) fun x =>
      x.vr f.a.toNat ((x.uniform f.b f.x).toNat % 8)

/-- MOV, VBCAST, MOVX, SEL and VINSR complete (R132, R133): MOVX reads the register each lane names, none of which may be
pending. -/
def Sys2Proof.Claim.MoveForms : Prop :=
  (∀ (f : RB) (s s1 : State) (c t : Nat) (bv : Nat → Word),
    Solo s c t (bSrc f.b f.x) → vbOk f.b f.x = true → (begun s c t).operandB c t f.g f.b f.x = .ok (s1, bv) →
    let x := s1.slice c t
    exec (.mov f) s = .next (s1.setSlice c t ((x.writeLanes f.d.toNat (x.lanes f.g) bv).advance 4))) ∧
  (∀ (f : R3) (s s1 : State) (c t : Nat) (bv : Nat → Word),
    Solo s c t ((0, f.a.toNat) :: bSrc f.b f.x) → vbOk f.b f.x = true →
    (begun s c t).operandB c t f.g f.b f.x = .ok (s1, bv) →
    let x := s1.slice c t
    exec (.vbcast f) s = .next (s1.setSlice c t
      ((x.writeLanes f.d.toNat (x.lanes f.g) fun l => x.vr f.a.toNat ((bv l).toNat % 8)).advance 4))) ∧
  (∀ (f : R3) (s s1 : State) (c t : Nat) (bv : Nat → Word),
    Solo s c t (bSrc f.b f.x) → vbOk f.b f.x = true → (begun s c t).operandB c t f.g f.b f.x = .ok (s1, bv) →
    let x := s1.slice c t
    let src := fun l => (f.a.toNat + (bv l).toNat) % 64
    (∀ l ∈ x.lanes f.g, x.pendingReg 0 (src l) = false) →
    exec (.movx f) s = .next (s1.setSlice c t
      ((x.writeLanes f.d.toNat (x.lanes f.g) fun l => x.vr (src l) l).advance 4))) ∧
  (∀ (g : BitVec 4) (d a b : BitVec 6) (xb : BitVec 1) (p : BitVec 3) (s s1 : State) (c t : Nat) (bv : Nat → Word),
    Solo s c t ((0, a.toNat) :: bSrc b xb) → vbOk b xb = true → (begun s c t).operandB c t g b xb = .ok (s1, bv) →
    let x := s1.slice c t
    exec (.sel g d a b xb p) s = .next (s1.setSlice c t
      ((x.writeLanes d.toNat (x.lanes g) fun l =>
        if (x.pr p.toNat).getLsbD l then x.vr a.toNat l else bv l).advance 4))) ∧
  ∀ (f : R3) (s : State) (c t : Nat),
    Solo s c t ((1, f.a.toNat) :: laneSrc f.b) → (sOk f.a && f.x == 1 && codeOk f.b) = true →
    let x := (s.slice c t).issued
    let k := (x.uniform f.b f.x).toNat % 8
    exec (.vinsr f) s = .next (s.setSlice c t
      ((if (x.active f.g).getLsbD k then x.setV f.d.toNat k (x.sr f.a.toNat) else x).advance 4))

/-- The unpacking forms UPK2H, UPK2B and UPK4Q and the packing PK4Q complete on aligned register groups (R140, R142): exact
conversions, and roundings to the narrow format. -/
def Sys2Proof.Claim.PackForms : Prop :=
  let unpacks (i : Instr) (g : BitVec 4) (d a : BitVec 6) (src w n : Nat) : Prop :=
    ∀ (s : State) (c t : Nat), Solo s c t [(0, a.toNat)] → d.toNat % n = 0 →
      let x := (s.slice c t).issued
      let r := fun k l => cvtf src 0 false .rne ((x.vr a.toNat l).toNat / 2 ^ (w * k))
      ∃ y : Slice, exec i s = .next (s.setSlice c t (y.advance 4)) ∧
        (∀ m l, m < 64 → l < 8 → y.vr m l =
          if d.toNat ≤ m ∧ m < d.toNat + n ∧ l ∈ x.lanes g then BitVec.ofNat 32 (r (m - d.toNat) l).1 else x.vr m l) ∧
        y = { x with v := y.v, fpflags := y.fpflags }
  (∀ f : R2, unpacks (.upk2h f) f.g f.d f.a 1 16 2 ∧ unpacks (.upk2b f) f.g f.d f.a 2 16 2) ∧
  (∀ g d a f, let q := quadFmt f.toNat; unpacks (.upk4q g d a f) g d a q.1 q.2.1 q.2.2) ∧
  ∀ (g : BitVec 4) (d a : BitVec 6) (rs : BitVec 3) (sat : BitVec 1) (f : BitVec 2) (s : State) (c t : Nat),
    let q := quadFmt f.toNat
    Solo s c t (group 0 a.toNat q.2.2) → a.toNat % q.2.2 = 0 →
    let x := (s.slice c t).issued
    let e := fun l k => cvtf 0 q.1 (sat == 1) (rselMode (rmOf x.fpctl) rs.toNat) (x.vr (a.toNat + k) l).toNat
    ∃ y : Slice, exec (.pk4q g d a rs sat f) s = .next (s.setSlice c t (y.advance 4)) ∧
      (∀ m l, m < 64 → l < 8 → y.vr m l =
        if m = d.toNat ∧ l ∈ x.lanes g then BitVec.ofNat 32 (((List.range q.2.2).map fun k => (e l k).1 * 2 ^ (q.2.1 * k)).sum)
        else x.vr m l) ∧
      y = { x with v := y.v, fpflags := y.fpflags }

/-- The compares and the predicate forms complete (R143, R144): an active lane's bit of P[D] takes the result, combined with
the old bit as CMB says; P7 discards the write and the instruction completes as otherwise (02 R38). -/
def Obligations.PredicateForms : Prop :=
  let comb (k : BitVec 3) (old new : Bool) : Bool :=
    if k.toNat = 0 then new else if k.toNat = 1 then old && new else if k.toNat = 2 then old || new else old != new
  let compares (i : BitVec 3 → BitVec 6 → BitVec 6 → BitVec 1 → BitVec 3 → Instr) (g : BitVec 4)
      (op : Word → Word → Word → Bool × BitVec 5) : Prop :=
    ∀ (p : BitVec 3) (a b : BitVec 6) (xb : BitVec 1) (k : BitVec 3) (s s1 : State) (c t : Nat) (bv : Nat → Word),
      Solo s c t ((0, a.toNat) :: bSrc b xb) → vbOk b xb = true → (begun s c t).operandB c t g b xb = .ok (s1, bv) →
      let x := s1.slice c t
      let r := fun l => op x.fpctl (x.vr a.toNat l) (bv l)
      ∃ y : Slice, exec (i p a b xb k) s = .next (s1.setSlice c t (y.advance 4)) ∧
        (∀ n l, n < 8 → l < 8 → (y.pr n).getLsbD l =
          if n = p.toNat ∧ n ≠ 7 ∧ l ∈ x.lanes g then comb k ((x.pr n).getLsbD l) (r l).1 else (x.pr n).getLsbD l) ∧
        y = { x with p := y.p, fpflags := x.fpflags ||| (orAll (x.lanes g) fun l => (r l).2).setWidth 32 }
  let masks (i : Instr) (g : BitVec 4) (d : BitVec 6) (srcs : List (Nat × Nat)) (m : Slice → Pred) : Prop :=
    ∀ (s : State) (c t : Nat), Solo s c t srcs → d.toNat < 8 →
      let x := (s.slice c t).issued
      ∃ y : Slice, exec i s = .next (s.setSlice c t (y.advance 4)) ∧
        (∀ n l, n < 8 → l < 8 → (y.pr n).getLsbD l =
          if n = d.toNat ∧ n ≠ 7 ∧ l ∈ x.lanes g then (m x).getLsbD l else (x.pr n).getLsbD l) ∧
        y = { x with p := y.p }
  (∀ g cc, compares (fun p => .icmp g p cc) g fun _ a b => (icond cc.toNat a b, 0)) ∧
  (∀ g cc, compares (fun p => .fcmp g p cc) g (fcond cc.toNat)) ∧
  (∀ f : RP, f.a.toNat < 8 → f.b.toNat < 8 →
    masks (.pand f) f.g f.d [] (fun x => x.pr f.a.toNat &&& x.pr f.b.toNat) ∧
    masks (.por f) f.g f.d [] (fun x => x.pr f.a.toNat ||| x.pr f.b.toNat) ∧
    masks (.pxor f) f.g f.d [] (fun x => x.pr f.a.toNat ^^^ x.pr f.b.toNat)) ∧
  (∀ f : R2, f.a.toNat < 8 →
    masks (.pnot f) f.g f.d [] (fun x => ~~~(x.pr f.a.toNat)) ∧ masks (.pmov f) f.g f.d [] (fun x => x.pr f.a.toNat)) ∧
  ∀ f : R2, f.a.toNat < 32 → masks (.pfroms f) f.g f.d [(1, f.a.toNat)] fun x => (x.sr f.a.toNat).setWidth 8

/-! ## Gangs and flow (04) -/

/-- The vote and reduction forms complete: each sees the active lanes of the whole gang (R90, R101 to R103), and writes P[D]
or V[D] of those lanes, or S[D] of every member. WSYNC, once met, only moves on (R89). -/
def Sys2Proof.Claim.VoteForms : Prop :=
  ∀ (s : State) (g : BitVec 4) (d a : BitVec 6) (h : BitVec 1), Met s h →
    let u := s.countIssue
    let ls := u.gangLanes g
    (Gang s [] → d.toNat < 8 → a.toNat < 8 →
      exec (.vany g d a h) s = .next ((u.gangPred g d.toNat fun _ => ls.any (u.pbit a.toNat)).advanceAll 4) ∧
      exec (.vall g d a h) s = .next ((u.gangPred g d.toNat fun _ => ls.all (u.pbit a.toNat)).advanceAll 4)) ∧
    (Gang s [] → d.toNat < 32 → d.toNat % 2 = 0 → a.toNat < 8 → ls ≠ [] →
      let b := (ls.map fun p => if u.pbit a.toNat p then 2 ^ u.laneIx p else 0).sum
      exec (.ballot g d a h) s = .next ((u.members fun x =>
        (x.setS d.toNat (BitVec.ofNat 32 b)).setS (d.toNat + 1) (BitVec.ofNat 32 (b / 2 ^ 32))).advanceAll 4)) ∧
    (Gang s [] → d.toNat < 32 → ls ≠ [] →
      exec (.gwid g d h) s = .next ((u.members fun x => x.setS d.toNat
        (BitVec.ofNat 32 ((u.ixMask u.issuer.core u.issuer.slots).toNat
          + (u.liveMask u.issuer.core (u.issuer.slots.headD 0)).toNat * 2 ^ 8
          + 8 * u.issuer.slots.length * 2 ^ 16))).advanceAll 4)) ∧
    (Gang s [(0, a.toNat)] →
      (∀ p ps, ls = p :: ps → ∀ o : BitVec 4,
        let c := (u.slice u.issuer.core (u.issuer.slots.headD 0)).fpctl
        let r := ps.foldl (fun (t : Word × BitVec 5) q =>
          let v := gredOp o.toNat c t.1 (u.vlane a.toNat q)
          (v.1, t.2 ||| v.2)) (if o.toNat < 8 then (u.vlane a.toNat p, 0) else headF c (u.vlane a.toNat p))
        exec (.gred g d a o h) s = .next (((u.gangV g d.toNat fun _ => r.1).members fun x =>
          if x.active g = 0 then x else x.orFlags r.2).advanceAll 4)) ∧
      exec (.gmatch g d a h) s = .next ((u.gangV g d.toNat fun p =>
        match ls.find? fun q => u.vlane a.toNat q == u.vlane a.toNat p with
        | some q => BitVec.ofNat 32 (u.laneIx q)
        | none => 0).advanceAll 4)) ∧
    (Gang s [] → d.toNat < 8 →
      exec (.gelect g d h) s = .next ((u.gangPred g d.toNat fun p => some p == ls.head?).advanceAll 4)) ∧
    (Gang s [] → Met s 1 → exec (.wsync g) s = .next (u.advanceAll 4))

/-- The shuffles, scans and GBCST complete (R104, R105): a shuffle lane takes A of the lane with its source number, or keeps
its own; a scan restarts at each head; GBCST gives every active lane A of the first or last. -/
def Sys2Proof.Claim.ShuffleForms : Prop :=
  (∀ p ∈ shuffles, ∀ (f : R3) (s s1 : State) (bs : List (Nat × (Nat → Word))),
    Gang s ((0, f.a.toNat) :: bSrc f.b f.x) → vbOk f.b f.x = true →
    s.countIssue.gangOperandB f.g f.b f.x = .ok (s1, bs) →
    exec (p.1 f) s = .next ((s1.gangV f.g f.d.toNat fun q =>
      let k := s1.issuer.slots.idxOf q.1
      match p.2 (8 * k + q.2) (((bs.lookup q.1).getD fun _ => 0) q.2).toNat (8 * s1.issuer.slots.length) with
      | some n => s1.vlane f.a.toNat (s1.issuer.slots.getD (n / 8) 0, n % 8)
      | none => s1.vlane f.a.toNat q).advanceAll 4)) ∧
  (∀ p ∈ scans, ∀ (f : RP) (s : State), Gang s [(0, f.a.toNat)] → f.b.toNat < 8 →
    let u := s.countIssue
    let step := fun (acc : List ((Nat × Nat) × Word × BitVec 5)) q =>
      let c := (u.slice u.issuer.core q.1).fpctl
      let v := u.vlane f.a.toNat q
      (match acc with
        | [] => (q, p.2.1 c v)
        | (_, t, _) :: _ => (q, if u.pbit f.b.toNat q then p.2.1 c v else p.2.2 c t v)) :: acc
    exec (p.1 f) s = .next ((((u.gangLanes f.g).foldl step []).foldl (fun s w => s.modSlice s.issuer.core w.1.1 fun x =>
      (x.setV f.d.toNat w.1.2 w.2.1).orFlags w.2.2) u).advanceAll 4)) ∧
  ∀ (g : BitVec 4) (d a : BitVec 6) (w : BitVec 1) (s : State), Gang s [(0, a.toNat)] →
    let u := s.countIssue
    let ls := u.gangLanes g
    exec (.gbcst g d a w) s = .next ((match if w = 0 then ls.head? else ls.getLast? with
      | some p => u.gangV g d.toNat fun _ => u.vlane a.toNat p
      | none => u).advanceAll 4)

/-- The branch forms complete when no lane's target is misaligned (R82, R95, R96): every member's current path is resolved
over its lanes' targets, active lanes first having taken the return address into the link register, and holds open where the
gang splits (R87). -/
def Sys2Proof.Claim.BranchForms : Prop :=
  ∀ (b : Branch) (s : State), Gang s b.srcs →
    let g := b.guard
    let u := s.countIssue
    (∀ p ∈ u.gangLanes g, (b.target (u.slice u.issuer.core p.1) p.2).toNat % 4 = 0) →
    exec b.instr s = .next ((u.members fun x =>
      let next := fun l =>
        if (x.active g).getLsbD l then (b.target x l, x.path.depth + b.delta) else (x.path.pc + 4, x.path.depth)
      (match b.link with
        | some d => x.writeLanes d (x.lanes g) fun _ => (x.path.pc + 4).setWidth 32
        | none => x).branch next).openHolds
      (u.issuer.slots.map fun t => (t, (u.slice u.issuer.core t).path.decl, (u.slice u.issuer.core t).path.depth)))

/-- A branch of a single slice that all lanes of its path take, or none, moves the path's PC there and no lane elsewhere
(R82): the declared point is used up, and nothing else of the slice changes. -/
def Sys2Proof.Claim.UniformBranchMovesPath : Prop :=
  ∀ (g : BitVec 4) (o : BitVec 22) (s : State) (c t : Nat), Solo s c t [] →
    let x := (s.slice c t).issued
    let e := x.path
    x.cur < x.paths.length → e.mask ≠ 0 → e.pc.toNat % 4 = 0 → (x.active g = e.mask ∨ x.active g = 0) →
    let pc := if x.active g = 0 then e.pc + 4 else e.pc + 4 * o.signExtend 52
    exec (.bra g o) s = .next (s.setSlice c t (x.setPath x.cur { e with pc := pc, decl := none }))

/-- NOP, IFENCE, YIELD and RCVP complete (R97, R99, R100, R113): NOP and IFENCE only move on, YIELD moves on and then changes
path, RCVP declares its point. -/
def Sys2Proof.Claim.SimpleFlowForms : Prop :=
  ∀ (g : BitVec 4) (s : State), Gang s [] →
    exec (.nop g) s = .next (s.countIssue.advanceAll 4) ∧
    exec (.ifence g) s = .next (s.countIssue.advanceAll 4) ∧
    exec (.yield g) s = .next (s.countIssue.members fun x =>
      if x.active g = 0 then x.advance 4 else (x.advance 4).nextPath) ∧
    ∀ (o : BitVec 22) (c t : Nat), Solo s c t [] →
      let x := (s.slice c t).issued
      exec (.rcvp g o) s = .next (s.setSlice c t
        ((if x.active g = 0 then x
          else x.modPath fun p => { p with decl := some (p.pc + 4 * o.signExtend 52) }).advance 4))

/-- EXIT completes (R98): each member's active lanes leave, and a member left with no lane retires. For a slice of one path
whose lanes are all active, that is the end of the slice (R77), whose sections are abandoned (10 R264). -/
def Sys2Proof.Claim.ExitForms : Prop :=
  (∀ (g : BitVec 4) (s : State), Gang s [] →
    exec (.exit g) s = .next (s.issuer.slots.foldl (fun s t =>
      s.exitMember s.issuer.core t ((s.slice s.issuer.core t).active g)) s.countIssue)) ∧
  ∀ (g : BitVec 4) (s : State) (c t : Nat), Solo s c t [] →
    let x := s.slice c t
    x.cur < x.paths.length → x.path.link = none → x.active g = x.path.mask →
    (∀ i, i ≠ x.cur → (x.paths.getD i {}).state = .free) →
    exec (.exit g) s = .next ((((begun s c t).modSlice c t (·.exitLanes x.path.mask)).abandonIf fun h =>
      h.core == c && h.slot == t && h.group == x.group && x.path.mask.getLsbD h.lane).retire c t)

/-- RPT captures its body and opens a frame with the count of S[C] (R108, R109); an inactive slice moves past it. -/
def Sys2Proof.Claim.RepeatOpensFrame : Prop :=
  ∀ (g l : BitVec 4) (d a b : BitVec 2) (k : BitVec 5) (s : State) (c t : Nat), Solo s c t [(1, k.toNat)] →
    let x := (s.slice c t).issued
    let n := (x.sr k.toNat).toNat
    (x.active g = 0 → exec (.rpt g l d a b k) s = .next (s.setSlice c t (x.advance 4))) ∧
    ∀ (s1 : State) (body : List (Word × Word)), x.active g ≠ 0 → x.frame.susp = false → n ≤ 0x00FFFFFF →
      State.capture c x.asid x.system (n != 0) (l.toNat + 1) (x.path.pc + 4) (begun s c t) = (s1, .ok body) →
      exec (.rpt g l d a b k) s = .next ({ s1 with nextId := s1.nextId + 1 }.modSlice c t fun y =>
        if y.active g = 0 then y.advance 4 else y.openFrame n d.toNat a.toNat b.toNat s1.nextId body)

/-! ## System registers, traps and returns (15) -/

/-- SRD and SWR complete for every register of Table 15-3 that the slice may access in its mode (R398, R400): SRD writes S[D]
with what the register reads, SWR writes the register with S[D]. -/
def Sys2Proof.Claim.SystemRegisterForms : Prop :=
  ∀ (g : BitVec 4) (d : BitVec 6) (r : BitVec 12) (s : State) (c t : Nat), Solo s c t [(1, d.toNat)] → d.toNat < 32 →
    (s.slice c t).active g ≠ 0 →
    let u := begun s c t
    let may (need : SysAcc → Nat) : Prop :=
      sysHas r.toNat need = true ∧ (sysPriv r.toNat need = true → (s.slice c t).system = true)
    (may (·.rd) →
      exec (.srd g d r) s = .next (((u.sysRead c t r.toNat).1.modSlice c t fun x =>
        x.setS d.toNat (u.sysRead c t r.toNat).2).advanceAll 4)) ∧
    (may (·.wr) → r ≠ 0x61 → r ≠ 0x62 →
      exec (.swr g d r) s = .next ((u.setOwnReg c t r.toNat ((s.slice c t).sr d.toNat)).advanceAll 4)) ∧
    ∀ v, (r = 0x61 ∨ r = 0x62) → u.mcapWrite c t (r == 0x62) ((s.slice c t).sr d.toNat) = some v →
      exec (.swr g d r) s = .next (v.advanceAll 4)

/-- A register that is not in the table, or that has no such access, is not accessed: SRD and SWR take ILLEGAL_OPERAND with the
number as TADDR (R400), where the mode may ask for it. In user mode an access that asks for system mode takes PRIVILEGED before
any other effect, whatever the guard (R398; 02 R46, R47; log 14). With no lane active each form else only moves on,
in user mode too. -/
def Sys2Proof.Claim.SystemRegisterFaults : Prop :=
  ∀ (g : BitVec 4) (d : BitVec 6) (r : BitVec 12) (s : State) (c t : Nat),
    Solo s c t [(1, d.toNat)] → d.toNat < 32 →
    let x := s.slice c t
    let f : FaultRec := { code := 0x02, addr := r.toNat, lanes := [(t, x.active g)] }
    (x.active g ≠ 0 → sysHas r.toNat (·.rd) = false → (sysPriv r.toNat (·.rd) = true → x.system = true) →
      exec (.srd g d r) s = .next (s.gangTrap 4 f)) ∧
    (x.active g ≠ 0 → sysHas r.toNat (·.wr) = false → (sysPriv r.toNat (·.wr) = true → x.system = true) →
      exec (.swr g d r) s = .next (s.gangTrap 4 f)) ∧
    (x.system = false → sysPriv r.toNat (·.rd) = true → exec (.srd g d r) s = .next (s.gangTrap 4 { code := 0x03 })) ∧
    (x.system = false → sysPriv r.toNat (·.wr) = true → exec (.swr g d r) s = .next (s.gangTrap 4 { code := 0x03 })) ∧
    (x.active g = 0 → (sysPriv r.toNat (·.rd) = true → x.system = true) →
      exec (.srd g d r) s = .next (s.setSlice c t (x.issued.advance 4))) ∧
    (x.active g = 0 → (sysPriv r.toNat (·.wr) = true → x.system = true) →
      exec (.swr g d r) s = .next (s.setSlice c t (x.issued.advance 4)))

/-- TRAP and BRK take TRAP_INSTR and BREAKPOINT with their number as TADDR, TRAP with the next instruction as TPC (R406,
R407, Table 15-6); with no lane active they only move on. -/
def Sys2Proof.Claim.TrapForms : Prop :=
  ∀ (g : BitVec 4) (n : BitVec 6) (s : State) (c t : Nat), Solo s c t [] →
    let x := s.slice c t
    (x.active g = 0 →
      exec (.trap g n) s = .next (s.setSlice c t (x.issued.advance 4)) ∧
      exec (.brk g n) s = .next (s.setSlice c t (x.issued.advance 4))) ∧
    (x.active g ≠ 0 →
      exec (.trap g n) s =
        .next (s.gangTrap 4 { code := 0x11, addr := n.toNat, next := true, lanes := [(t, x.active g)] }) ∧
      exec (.brk g n) s = .next (s.gangTrap 4 { code := 0x12, addr := n.toNat, lanes := [(t, x.active g)] }))

/-- TRET returns from a user trap, ERET from a system trap (R409, R410): the slice's other registers stay. TRET outside a
handler takes ILLEGAL_INSTR, ERET in user mode PRIVILEGED. -/
def Sys2Proof.Claim.ReturnForms : Prop :=
  ∀ (g : BitVec 4) (s : State) (c t : Nat), Solo s c t [] →
    let x := s.slice c t
    (x.active g ≠ 0 → x.inh = true → exec (.tret g) s = .next (s.setSlice c t x.issued.tret)) ∧
    (x.active g ≠ 0 → x.inh = false →
      exec (.tret g) s = .next (s.gangTrap 4 { code := 0x01, lanes := [(t, x.active g)] })) ∧
    (x.active g = 0 → exec (.tret g) s = .next (s.setSlice c t (x.issued.advance 4))) ∧
    (x.active g ≠ 0 → x.system = true → exec (.eret g) s = .next (s.setSlice c t x.issued.eret)) ∧
    (x.system = false → exec (.eret g) s = .next (s.gangTrap 4 { code := 0x03 })) ∧
    (x.active g = 0 → x.system = true → exec (.eret g) s = .next (s.setSlice c t (x.issued.advance 4)))

/-- HALTG moves on, and in an attached context posts its report and halts the group (R409, R416); without a debugger it is a
NOP. -/
def Sys2Proof.Claim.HaltgForm : Prop :=
  ∀ (g : BitVec 4) (s : State) (c t : Nat), Solo s c t [] →
    let x := s.slice c t
    let u := s.setSlice c t (x.issued.advance 4)
    (x.active g = 0 ∨ s.attached c x.asid = false → exec (.haltg g) s = .next u) ∧
    (x.active g ≠ 0 → s.attached c x.asid = true →
      exec (.haltg g) s = .next ((u.report c t 0 (u.slice c t).path.pc (x.active g) (u.ixMask c [t]) 0).haltGroup c t 1))

/-! ## Queue registers (05) -/

/-- QWR, QRD, QTRY and QCNT complete on a queue register allotted to the slice's group (R119 to R122): QWR appends the lanes
of V[A], QRD and a QTRY that finds an entry take the oldest, QTRY clears its predicate when there is none, QCNT counts. -/
def Sys2Proof.Claim.QueueForms : Prop :=
  (∀ (f : R2) (s : State) (c t n : Nat), Acts s c t f.g [(0, f.a.toNat)] → f.d.toNat < 8 →
    let u := begun s c t
    let es := (tget {} (u.core c).queues n).entries
    u.queueOf c t f.d.toNat = some n → es.length < 8 →
    exec (.qwr f) s = .next ((u.setQueue c n (es ++ [row (s.slice c t) f.a.toNat])).advanceAll 4)) ∧
  (∀ (f : R2) (s : State) (c t n : Nat) (e : List Word) (es : List (List Word)), Acts s c t f.g [] → f.a.toNat < 8 →
    let u := begun s c t
    u.queueOf c t f.a.toNat = some n → (tget {} (u.core c).queues n).entries = e :: es →
    exec (.qrd f) s = .next (((u.setQueue c n es).modSlice c t fun x =>
      x.writeLanes f.d.toNat (x.lanes f.g) fun l => e.getD l 0).advanceAll 4)) ∧
  (∀ (f : RP) (s : State) (c t n : Nat), Acts s c t f.g [] → f.a.toNat < 8 → f.b.toNat < 8 →
    let u := begun s c t
    let mark := fun (x : Slice) b => (x.lanes f.g).foldl (fun y l => y.setPBit f.b.toNat l b) x
    u.queueOf c t f.a.toNat = some n →
    ((tget {} (u.core c).queues n).entries = [] →
      exec (.qtry f) s = .next ((u.modSlice c t fun x => mark x false).advanceAll 4)) ∧
    ∀ e es, (tget {} (u.core c).queues n).entries = e :: es →
      exec (.qtry f) s = .next (((u.setQueue c n es).modSlice c t fun x =>
        mark (x.writeLanes f.d.toNat (x.lanes f.g) fun l => e.getD l 0) true).advanceAll 4)) ∧
  ∀ (f : R2) (s : State) (c t n : Nat), Acts s c t f.g [] → f.a.toNat < 8 → f.d.toNat < 32 →
    let u := begun s c t
    u.queueOf c t f.a.toNat = some n →
    exec (.qcnt f) s = .next ((u.modSlice c t fun x =>
      x.setS f.d.toNat (w32 (tget {} (u.core c).queues n).entries.length)).advanceAll 4)

/-- A full queue parks QWR and an empty one QRD, with nothing changed but the park (R121). A queue name that the group was not allotted
takes QUEUE_MISUSE in QWR, QRD, QTRY and QCNT, and so does every name in a handler (R119). -/
def Sys2Proof.Claim.QueueWaits : Prop :=
  (∀ (f : R2) (s : State) (c t n : Nat),
    let u := begun s c t
    let es := (tget {} (u.core c).queues n).entries
    let waits (i : Instr) := exec i s = .next (s.parkGang fun _ => .queue c n)
    (Acts s c t f.g [(0, f.a.toNat)] → f.d.toNat < 8 → u.queueOf c t f.d.toNat = some n → 8 ≤ es.length → waits (.qwr f)) ∧
    (Acts s c t f.g [] → f.a.toNat < 8 → u.queueOf c t f.a.toNat = some n → es = [] → waits (.qrd f))) ∧
  (∀ (s : State) (c t q : Nat), (s.slice c t).handler = true → s.queueOf c t q = none) ∧
  ∀ (s : State) (c t : Nat) (g : BitVec 4),
    let misused (q : BitVec 6) : Prop := q.toNat < 8 ∧ ((s.slice c t).handler = true ∨ (begun s c t).queueOf c t q.toNat = none)
    let bad (i : Instr) := exec i s = .next (s.gangTrap 4 { code := 0x10, lanes := [(t, (s.slice c t).active g)] })
    (∀ d a : BitVec 6, Acts s c t g [(0, a.toNat)] → misused d → bad (.qwr ⟨g, d, a⟩)) ∧
    (∀ d a : BitVec 6, Acts s c t g [] → misused a → bad (.qrd ⟨g, d, a⟩)) ∧
    (∀ d a b : BitVec 6, Acts s c t g [] → misused a → b.toNat < 8 → bad (.qtry ⟨g, d, a, b⟩)) ∧
    ∀ d a : BitVec 6, Acts s c t g [] → misused a → d.toNat < 32 → bad (.qcnt ⟨g, d, a⟩)

/-! ## Barriers (10) -/

/-- The named-barrier forms complete for a slice whose group has the barrier (R250 to R254). BARARV and BARSYN wait for the
slice's earlier accesses, then arrive, and BARSYN parks on the phase; a slice that is in ARRV already parks until the phase ends
and arrives then. BARWT goes on unless the slice has arrived in the phase; BARINIT sets EXPECT and AUTO, BARQRY reads the
barrier. With no lane active each only moves on. -/
def Sys2Proof.Claim.BarrierForms : Prop :=
  (∀ (g : BitVec 4) (i : BitVec 8) (a : BitVec 6) (s : State) (c t : Nat), Idles s c t g [(1, a.toNat)] → a.toNat < 32 →
    MovesOn (.bararv g i) s c t 4 ∧ MovesOn (.barsyn g i) s c t 4 ∧ MovesOn (.barwt g i) s c t 4 ∧
    MovesOn (.barinit g i a) s c t 4 ∧ MovesOn (.barqry g i a) s c t 4) ∧
  ∀ (g : BitVec 4) (i : BitVec 8) (s : State) (c t n ret : Nat), Acts s c t g [] →
    let u := begun s c t
    let b := u.barrier c n
    let arrived := b.arrived.contains (skey c t)
    u.barrierOf c t i.toNat = some (n, ret) →
    (u.releaseReady c t 2 = true → arrived = false →
      exec (.bararv g i) s = .next ((((u.skipInactive g).modSlice c t fun x => x.advance 4)).arrive c t n ret) ∧
      exec (.barsyn g i) s =
        .next (((u.skipInactive g).modSlice c t fun x => x.parkOn (.barrier c n b.phase true)).arrive c t n ret)) ∧
    (u.releaseReady c t 2 = true → arrived = true →
      let parked := Host.Outcome.next ((u.skipInactive g).modSlice c t fun x => x.parkOn (.barrier c n b.phase false))
      exec (.bararv g i) s = parked ∧ exec (.barsyn g i) s = parked) ∧
    (arrived = false → exec (.barwt g i) s = .next (u.advanceAll 4)) ∧
    (arrived = true →
      exec (.barwt g i) s = .next (u.modSlice c t fun x => x.parkOn (.barrier c n b.phase true))) ∧
    ∀ a : BitVec 6, a.toNat < 32 →
      (let v := (s.slice c t).sr a.toNat
       (s.slice c t).pendingReg 1 a.toNat = false → 1 ≤ bits v 0 11 → bits v 0 11 ≤ 120 → bits v 11 20 = 0 →
       exec (.barinit g i a) s = .next (((u.setBarrier c n
         { b with expect := bits v 0 11, auto := v.getLsbD 31 }).evalBarrier c n ret).advanceAll 4)) ∧
      exec (.barqry g i a) s = .next ((u.modSlice c t fun x => x.setS a.toNat
        (w32 (b.expect + b.total ret % 2 ^ 11 * 2 ^ 11 + (if b.auto then 2 ^ 30 else 0) + (if b.phase then 2 ^ 31 else 0)))
        ).advanceAll 4)

/-- The team-barrier forms complete for a slice whose team has the barrier (R255): the arrival, or the value, leaves for the
cluster's barrier unit; TBARSYN parks its slice. -/
def Sys2Proof.Claim.TeamBarrierForms : Prop :=
  ∀ (g : BitVec 4) (i : BitVec 8) (s : State) (c t : Nat), i.toNat ≤ 3 →
    let u := begun s c t
    (Idles s c t g [] → MovesOn (.tbarsyn g i) s c t 4) ∧
    ∀ n, u.teamBarrierOf c t i.toNat = some n →
    (Acts s c t g [] → u.releaseReady c t 3 = true →
      let w := u.skipInactive g
      exec (.tbarsyn g i) s = .next ((w.modSlice c t fun x => x.parkOn (.answer w.nextId)).send c (nodeTeam (clusterOf c))
        (w.slice c t).asid none (.teamArrive (w.teamOf c t) t n true none))) ∧
    ∀ a : BitVec 6, a.toNat < 32 → Acts s c t g [(1, a.toNat)] →
      let v := (s.slice c t).sr a.toNat
      1 ≤ bits v 0 11 → bits v 0 11 ≤ 1920 → bits v 11 20 = 0 →
      exec (.tbarinit g i a) s = .next ((u.send c (nodeTeam (clusterOf c)) (s.slice c t).asid none
        (.teamArrive (u.teamOf c t) t n false (some v))).advanceAll 4)

/-- A barrier that is not the group's, or an EXPECT out of its range, takes ILLEGAL_OPERAND and changes no barrier (R249,
R254). -/
def Sys2Proof.Claim.BarrierFaults : Prop :=
  ∀ (g : BitVec 4) (i : BitVec 8) (a : BitVec 6) (s : State) (c t : Nat), Acts s c t g [(1, a.toNat)] → a.toNat < 32 →
    let u := begun s c t
    let bad (j : Instr) := exec j s = .next (s.gangTrap 4 { code := 0x02, lanes := [(t, (s.slice c t).active g)] })
    (u.barrierOf c t i.toNat = none →
      bad (.bararv g i) ∧ bad (.barsyn g i) ∧ bad (.barwt g i) ∧ bad (.barinit g i a) ∧ bad (.barqry g i a)) ∧
    ∀ p, u.barrierOf c t i.toNat = some p →
      (bits ((s.slice c t).sr a.toNat) 0 11 = 0 ∨ 120 < bits ((s.slice c t).sr a.toNat) 0 11 ∨
        bits ((s.slice c t).sr a.toNat) 11 20 ≠ 0) → bad (.barinit g i a)

/-! ## Ordered sections (10) -/

/-- The OSEC forms complete (R258 to R263): one request per distinct key leaves for the key's home. OSE, OSEN, OSX, OSINI and
OSTK wait for the answers parked at the form (log 24, DEDUCED), P[D] or V[D] pending; OSFREE and OSQRY move on. OSX waits first
for its slice's earlier accesses, as a release. -/
def Sys2Proof.Claim.SectionForms : Prop :=
  (∀ (f : R3) (s : State), Gang s ((0, f.a.toNat) :: bSrc f.b f.x) → Free s → f.d.toNat < 8 → osecB f.b f.x = true →
    let u := s.countIssue
    let ls := u.osecLanes f.g f.a f.b f.x
    (ls = [] → exec (.ose f) s = .next (u.advanceAll 4) ∧ exec (.osen f) s = .next (u.advanceAll 4)) ∧
    (ls ≠ [] → (ls.map fun x => x.2).Nodup →
      exec (.ose f) s = .next (u.osecWait 0 ls 1 f.d.toNat) ∧ exec (.osen f) s = .next (u.osecWait 1 ls 2 f.d.toNat))) ∧
  (∀ (g : BitVec 4) (a b : BitVec 6) (x : BitVec 1) (s : State), Gang s ((0, a.toNat) :: bSrc b x) → Free s →
    osecB b x = true →
    let u := s.countIssue
    let ls := u.osecLanes g a b x
    exec (.osini g a b x) s = .next (if ls = [] then u.advanceAll 4 else u.osecWait 3 ls 4 0)) ∧
  ∀ (g : BitVec 4) (a : BitVec 6) (s : State), Gang s [(0, a.toNat)] → Free s →
    let u := s.countIssue
    let ls := u.osecLanes g a 48 1
    (ls = [] → exec (.osx g a) s = .next (u.advanceAll 4)) ∧
    (ls ≠ [] → u.releaseGang g 4 = .ok () → exec (.osx g a) s = .next (u.osecWait 2 ls 3 0)) ∧
    exec (.osfree g a) s = .next ((u.osecSend 4 ls none).advanceAll 4) ∧
    ∀ d : BitVec 6,
      exec (.ostk ⟨g, d, a⟩) s = .next (if ls = [] then u.advanceAll 4 else u.osecWait 6 ls 5 d.toNat) ∧
      (d.toNat % 2 = 0 → exec (.osqry ⟨g, d, a⟩) s = .next (if ls = [] then u.advanceAll 4 else
        ((u.taking g).foldl (fun s t => s.modSlice s.issuer.core t fun x =>
          { x with pending := x.pending ++ [⟨0, d.toNat, u.nextId, false⟩, ⟨0, d.toNat + 1, u.nextId, false⟩] })
          (u.osecOp 5 ls 0 0 (.v d.toNat 2))).advanceAll 4))

/-- Two lanes of a gang that enter one key with one sequence number take DUP_SEQUENCE, and no request leaves (R260). -/
def Sys2Proof.Claim.SectionDuplicates : Prop :=
  ∀ (f : R3) (s : State), Gang s ((0, f.a.toNat) :: bSrc f.b f.x) → Free s → f.d.toNat < 8 → osecB f.b f.x = true →
    ¬ ((s.countIssue.osecLanes f.g f.a f.b f.x).map fun x => x.2).Nodup →
    ∃ r : FaultRec, r.code = 0x0D ∧ exec (.ose f) s = .next (s.gangTrap 4 r) ∧ exec (.osen f) s = .next (s.gangTrap 4 r)

/-! ## The range deque (11) -/

/-- The owner's forms of the range deque complete in the context that owns the core's deque (R294 to R296): DQPSH pushes at the
bottom, DQPOP takes there, DQSPL takes at most k of the bottom entry, DQCNT counts and DQCLR empties. DQPOP and DQSPL take back
a last entry of one item that a steal of their own cycle has taken (R298). -/
def Sys2Proof.Claim.DequeForms : Prop :=
  let owned (s : State) (c t : Nat) (g : BitVec 4) (srcs : List (Nat × Nat)) : Prop :=
    Solo s c t srcs ∧ (s.slice c t).active g ≠ 0 ∧ (s.core c).deque.owner = some (s.slice c t).asid
  let result (i : Instr) (s v : State) (c t : Nat) (es : List (Nat × Nat × Nat)) (f : Slice → Slice) : Prop :=
    exec i s = .next (((v.modCore c fun k => { k with deque := { (v.core c).deque with entries := es } }).setSlice
      c t (f (s.slice c t).issued)).advanceAll 4)
  (∀ (f : R3) (s : State) (c t : Nat), owned s c t f.g ((1, f.d.toNat) :: (1, f.a.toNat) :: sbSrc f.b f.x) →
    (sOk f.d && sOk f.a && sbOk f.b f.x) = true →
    let x := s.slice c t
    x.sr f.a.toNat ≠ 0 → (s.core c).deque.entries.length < 64 →
    result (.dqpsh f) s (begun s c t) c t (((x.sr f.d.toNat).toNat, (x.sr f.a.toNat).toNat, (x.uniform f.b f.x).toNat) ::
      (s.core c).deque.entries) id) ∧
  (∀ (g : BitVec 4) (d : BitVec 6) (s : State) (c t : Nat), owned s c t g [] → d.toNat < 32 →
    let es := (s.core c).deque.entries
    let v := (begun s c t).takeBack c
    let vs := (v.core c).deque.entries
    (d.toNat % 4 = 0 → result (.dqpop g d) s v c t (vs.drop 1) fun x => x.setQuad d.toNat vs.head? c) ∧
    (result (.dqcnt g d) s (begun s c t) c t es fun x => x.setS d.toNat (w32 es.length)) ∧
    result (.dqclr g) s (begun s c t) c t [] id) ∧
  ∀ (f : RB) (s : State) (c t : Nat), owned s c t f.g (sbSrc f.b f.x) → f.d.toNat < 32 → f.d.toNat % 4 = 0 →
    sbOk f.b f.x = true →
    let k := ((s.slice c t).uniform f.b f.x).toNat
    0 < k →
    let v := (begun s c t).takeBack c
    ((v.core c).deque.entries = [] → result (.dqspl f) s v c t [] fun x => x.setQuad f.d.toNat none c) ∧
    ∀ b n tag rest, (v.core c).deque.entries = (b, n, tag) :: rest →
      result (.dqspl f) s v c t (if n ≤ k then rest else ((b + k) % 2 ^ 32, n - k, tag) :: rest) fun x =>
        x.setQuad f.d.toNat (some (b, min k n, tag)) c

/-- DQSTL completes (R297): a steal leaves for the named core, or for the next core of the ring, and the quad is pending until
its answer. A core number above 255 that is not the ring's takes SPACE_RANGE. -/
def Sys2Proof.Claim.StealForm : Prop :=
  ∀ (f : RB) (s : State) (c t : Nat), Acts s c t f.g (sbSrc f.b f.x) → f.d.toNat < 32 → f.d.toNat % 4 = 0 →
    sbOk f.b f.x = true →
    let u := begun s c t
    let v := ((s.slice c t).uniform f.b f.x).toNat
    let ring := v == 0xFFFF
    let dst := if v = 0xFFFF then (c + 1) % 256 else v
    (v ≤ 255 ∨ v = 0xFFFF →
      exec (.dqstl f) s = .next (((u.openOp
        { id := u.nextId, core := c, asid := (s.slice c t).asid, pc := u.issuer.pc, members := [t], left := 1,
          dest := .s f.d.toNat 4 }).send c dst (s.slice c t).asid (some u.nextId) (.steal t f.d.toNat dst ring)).advanceAll 4)) ∧
    (255 < v → v ≠ 0xFFFF →
      exec (.dqstl f) s = .next (s.gangTrap 4 { code := 0x05, addr := v, lanes := [(t, (s.slice c t).active f.g)] }))

/-! ## Messages, counters and fences (06, 09) -/

/-- The message forms complete (R161 to R164): SEND and SENDH send to a core of the context's reach, after a release with REL
= 1; WAITM moves on once a matching message waits, RECVM takes the first and acquires at DEVICE scope, MCNT counts, and HRET
ends a handler. -/
def Sys2Proof.Claim.MessageForms : Prop :=
  (∀ (g : BitVec 4) (r : BitVec 1) (a b : BitVec 6) (s : State) (c t : Nat), Acts s c t g ((0, a.toNat) :: sbSrc b 1) →
    codeOk b = true →
    let u := begun s c t
    let x := s.slice c t
    let home := (x.uniform b 1).toNat
    let sent (h : Bool) : State := (u.send c home x.asid none (.msg (sendMsg (u.slice c t) c a.toNat) h false)).advanceAll 4
    home ≤ 255 → u.reach x.asid home = true → (r = 1 → u.releaseReady c t 4 = true) → u.outbound c ≤ 15 →
    exec (.send g r a b 1) s = .next (sent false) ∧ exec (.sendh g r a b 1) s = .next (sent true)) ∧
  (∀ (g : BitVec 4) (n : BitVec 1) (b : BitVec 6) (s : State) (c t : Nat), Acts s c t g (sbSrc b 1) → codeOk b = true →
    (n = 1 → b = 48) →
    let u := begun s c t
    let x := s.slice c t
    let hits := fun m : Msg => m.hits x.asid n (x.uniform b 1)
    (((s.core c).mailbox.any hits) = true → exec (.waitm g n b 1) s = .next (u.advanceAll 4)) ∧
    ∀ d : BitVec 6,
      (d.toNat < 32 → exec (.mcnt g d n b 1) s = .next ((u.modSlice c t fun y =>
        y.setS d.toNat (w32 ((s.core c).mailbox.filter hits).length)).advanceAll 4)) ∧
      ∀ (l : List Msg) (m : Msg) (rest : List Msg), (s.core c).mailbox = l ++ m :: rest → l.any hits = false → hits m = true →
        exec (.recvm g d n b 1) s = .next (((((u.modCore c fun k => { k with mailbox := l ++ rest }).setSlice c t
          (x.issued.writeLanes d.toNat (List.range 8) fun i => m.words.getD i 0)).acquireNow c 4)).advanceAll 4)) ∧
  ∀ (g : BitVec 4) (s : State) (c t : Nat), Acts s c t g [] →
    (s.slice c t).handler = true →
    exec (.hret g) s = .next (((begun s c t).modSlice c t fun x => { x with paths := x.paths.map fun _ => {} }).retire c t)

/-- WAITM and RECVM park on the mailbox while no message matches, and HRET outside a handler takes ILLEGAL_INSTR (R163,
R164); a handler that would park takes HANDLER_BLOCK (R165). -/
def Sys2Proof.Claim.MessageWaits : Prop :=
  (∀ (g : BitVec 4) (n : BitVec 1) (d b : BitVec 6) (s : State) (c t : Nat), Acts s c t g (sbSrc b 1) → codeOk b = true →
    (n = 1 → b = 48) →
    let x := s.slice c t
    (s.core c).mailbox.any (fun m => m.hits x.asid n (x.uniform b 1)) = false →
    let waits (i : Instr) := exec i s = .next (if x.handler then s.gangTrap 4 { code := 0x18 }
      else s.parkGang fun _ => .mailbox c (if n = 1 then none else some (x.uniform b 1)))
    waits (.waitm g n b 1) ∧ waits (.recvm g d n b 1)) ∧
  ∀ (g : BitVec 4) (s : State) (c t : Nat), Acts s c t g [] → (s.slice c t).handler = false →
    exec (.hret g) s = .next (s.gangTrap 4 { code := 0x01, lanes := [(t, (s.slice c t).active g)] })

/-- SVREQ completes (R166): each active lane, in ascending order, sends its eight words to the raster unit it names, or to its
cluster's texture unit. -/
def Sys2Proof.Claim.ServiceRequestForm : Prop :=
  ∀ (g : BitVec 4) (a b : BitVec 6) (s : State) (c t : Nat), Acts s c t g (group 0 a.toNat 8 ++ sbSrc b 1) →
    codeOk b = true → a.toNat % 8 = 0 →
    let x := s.slice c t
    let n := (x.uniform b 1).toNat
    (n < 8 ∨ n = 16) →
    exec (.svreq g a b 1) s = .next (((x.lanes g).foldl (fun u l => u.send c
      (if n < 8 then nodeRaster n else nodeTexture (clusterOf c)) x.asid none
      (.service c (decide (n < 8)) ((List.range 8).map fun i => x.vr (a.toNat + i) l) 0)) (begun s c t)).advanceAll 4)

/-- WAITC, FENCE and MRAMP complete (09 R238, R239; 12 R326): WAITC once the counter is at most its operand, FENCE once the
slice's earlier accesses are done as its order asks, with the acquire's effect. Until then the slice issues nothing. -/
def Obligations.FenceForms : Prop :=
  (∀ (g : BitVec 4) (k : BitVec 3) (b : BitVec 6) (s : State) (c t : Nat), Acts s c t g (sbSrc b 1) → codeOk b = true →
    let x := s.slice c t
    let u := begun s c t
    exec (.waitc g k b 1) s =
      (if x.count k.toNat ≤ (x.uniform b 1).toNat then .next (u.advanceAll 4) else .next s) ∧
    exec (.mramp g b 1) s = .next ((u.modMat c fun m =>
      m.ramp s.cycle.toNat (max 64 (min 65535 (x.uniform b 1).toNat))).advanceAll 4)) ∧
  ∀ (g : BitVec 4) (o sc : BitVec 3) (s : State) (c t : Nat), Acts s c t g [] →
    let x := s.slice c t
    let u := begun s c t
    (sc = 0 → exec (.fence g o sc) s = .next (u.advanceAll 4)) ∧
    (sc ≠ 0 → (o ≠ 1 → u.releaseReady c t sc.toNat = true) → (o ≠ 2 → x.count 0 = 0 ∧ x.count 1 = 0) →
      exec (.fence g o sc) s = .next ((if o = 2 then u else u.acquireNow c sc.toNat).advanceAll 4)) ∧
    (sc ≠ 0 → ((o ≠ 1 ∧ u.releaseReady c t sc.toNat = false) ∨ (o ≠ 2 ∧ (x.count 0 ≠ 0 ∨ x.count 1 ≠ 0))) →
      exec (.fence g o sc) s = .next s)

/-! ## Plans (14) -/

/-- The PLAN forms complete for a slot assigned to the context whose record is legal and not watched (R386, R387; 15 R418): the
request leaves for the commit unit with the record's bytes, and S[D] is pending until the answer. PLARM, PLBIT and PLCOM wait
first for the slice's earlier accesses, as releases. -/
def Obligations.PlanForms : Prop :=
  (∀ (f : R3) (s : State) (c t : Nat), Acts s c t f.g ((1, f.a.toNat) :: sbSrc f.b f.x) →
    (sOk f.d && sOk f.a && sbOk f.b f.x) = true →
    let u := begun s c t
    let x := u.slice c t
    let slot := (x.sr f.a.toNat).toNat
    let off := (x.uniform f.b f.x).toNat
    let o := u.unitOp t f.d.toNat 1
    let sent (r : PlanReq) : State := ((u.openOp o).send c nodePlan o.asid (some o.id) (.plan slot r)).advanceAll 4
    let unwatched (n : Nat) : Prop := u.watchSpans f.g [(t, off, n)] = .ok ()
    u.releaseReady c t 4 = true →
    (u.planFault x slot off 32 false = none → unwatched 32 →
      exec (.plarm f) s = .next (sent (.arm o.id t f.d.toNat (u.planRecord x off 32)))) ∧
    (u.planFault x slot off 16 false = none → unwatched 16 →
      exec (.plbit f) s = .next (sent (.bit o.id t f.d.toNat (u.planRecord x off 16)))) ∧
    (u.planFault x slot off 24 true = none → unwatched 24 →
      exec (.plcom f) s = .next (sent (.com o.id t f.d.toNat (u.planRecord x off 24))))) ∧
  ∀ (f : R2) (s : State) (c t : Nat), Acts s c t f.g [(1, f.a.toNat)] → (sOk f.d && sOk f.a) = true →
    let u := begun s c t
    let x := u.slice c t
    let slot := (x.sr f.a.toNat).toNat
    slot < 64 → (u.plan slot).assigned = true → (u.plan slot).asid = x.asid →
    let o4 := u.unitOp t f.d.toNat 4
    let o1 := u.unitOp t f.d.toNat 1
    (f.d.toNat % 4 = 0 → exec (.plqry f) s =
      .next (((u.openOp o4).send c nodePlan o4.asid (some o4.id) (.plan slot (.qry o4.id t f.d.toNat))).advanceAll 4)) ∧
    exec (.pldis f) s =
      .next (((u.openOp o1).send c nodePlan o1.asid (some o1.id) (.plan slot (.dis o1.id t f.d.toNat))).advanceAll 4)

/-! ## Memory (06, 07) -/

/-- With no lane active a memory form only moves on. -/
def Sys2Proof.Claim.MemoryIdle : Prop :=
  ∀ (m : MemF), ∀ p ∈ memTable m, ∀ (s : State) (c t : Nat), Idles s c t m.g (p.reads m) → (p.ok && memBaseOk m) = true →
    MovesOn p.instr s c t 8

/-- LOCAL loads, stores and atomics complete (06 R145 to R149, 07 R191 to R193): every lane is performed in the instruction, in
ascending order. With SYNC the words of a load must be full, and a store leaves them full; TAKE asks a load's words full and
a store's empty, and a load leaves them empty. -/
def Obligations.LocalForms : Prop :=
  ∀ (m : MemF), ∀ p ∈ memTable m, ∀ (s v : State) (c t : Nat) (ok : List (Tgt × Nat)), p.instr.wf = true →
    Lands p m s c t v ok → m.space = 0 →
    let a := p.access m s v c ok
    let store := a.form.isStore
    let words := a.lanes.flatMap fun l => feWords l.pa a.size
    let w := v.performNow a p.kind.dest
    let fin (w : State) : State := (if p.acquires m then w.acquireNow c m.scope.toNat else w).advanceAll 8
    (m.ord.toNat < 5 → exec p.instr s = .next (fin w)) ∧
    (m.ord = 5 → store = true → exec p.instr s = .next (fin (words.foldl (fun s w => s.setFe w 1 false) w))) ∧
    (m.ord = 5 → store = false → (∀ x ∈ words, v.emptyWords.contains x = false) → exec p.instr s = .next (fin w)) ∧
    (m.ord = 6 → words.Nodup → (∀ x ∈ words, v.emptyWords.contains x = store) →
      exec p.instr s = .next (fin (words.foldl (fun s w => s.setFe w 1 (!store)) w)))

/-- LWIN forms complete (06 R152 to R155): a message leaves for each home that a lane names, and the operation waits for the
answers. -/
def Sys2Proof.Claim.LwinForms : Prop :=
  ∀ (m : MemF), ∀ p ∈ memTable m, ∀ (s v : State) (c t : Nat) (ok : List (Tgt × Nat)), p.instr.wf = true →
    Lands p m s c t v ok → m.space = 1 →
    exec p.instr s = .next ((p.acquired m c (v.lwinAccess m.g p.kind (p.access m s v c ok)
      (p.acquires m && p.kind.dest != .none) m.scope.toNat)).advanceAll 8)

/-- CLUSTER forms complete (06 R169 to R174): once its blocks are in the expanded store, a writer admitted to the segment
pool with no older access waiting, the access is performed at once or queued behind the slice's earlier ones. -/
def Sys2Proof.Claim.ClusterForms : Prop :=
  ∀ (m : MemF), ∀ p ∈ memTable m, ∀ (s v w : State) (c t : Nat) (ok : List (Tgt × Nat)), p.instr.wf = true →
    Lands p m s c t v ok → m.space = 2 →
    let k := clusterOf c
    let a := p.access m s v c ok
    let blocks := (a.lanes.map fun l => (l.pa - clusterBase k) / 256).eraseDups
    let write := p.kind.form != .load
    let now := (blocks.all fun b => (v.cluster k).grainer.any (·.1 == b)) && !w.clusterBehind c [t]
    (write = true → v.poolOlder k = false ∧ (v.cluster k).admits blocks = true) →
    v.touchBlocks k write blocks = some w →
    let o : Op := { w.memOp m.g (p.kind.code 2) p.kind a.lanes with left := if now then 0 else 1 }
    let x := (w.openOp o).noteAcquire o (p.acquires m && p.kind.dest != .none) m.scope.toNat
    exec p.instr s = .next (p.acquired m c ((if now then x.performCluster o.id c a
      else x.send c (nodeCluster k) o.asid (some o.id) (.cluster a)).advanceAll 8))

/-- GLOBAL forms to device memory complete while the core has miss entries, with no older access waiting for them, and room in its
posted-store queue (07 R181 to R185, R193 to R199): loads
serve near-cache hits, share fetches under way and request the rest; stores are posted; atomics, LDR and STC leave for their
homes. -/
def Obligations.GlobalForms : Prop :=
  ∀ (m : MemF), ∀ p ∈ memTable m, ∀ (s v : State) (c t : Nat) (ok : List (Tgt × Nat)), p.instr.wf = true →
    Lands p m s c t v ok → m.space = 3 → (∀ q ∈ ok, q.2 < 2 ^ 52) → v.entriesUsed c + ok.length ≤ 256 →
    v.entriesUsed c + (p.access m s v c ok).touched.length ≤ 256 → v.missOlder = false → v.postRoom c ok.length = true →
    ∃ w, p.request v (p.access m s v c ok) = .ok w ∧ exec p.instr s = .next (p.acquired m c w)

/-- A lane that fails its check makes the form fault before any lane is performed (01 R22, 06 R146, R152, R169; 07 R177):
the code and address of the lowest, and the mask of all that fail; what the lanes' translations walked and found stays
(R201). An address that is not a multiple of the size is
MISALIGNED. -/
def Obligations.MemoryFaults : Prop :=
  ∀ (m : MemF), ∀ p ∈ memTable m, ∀ (s : State) (c t : Nat), p.instr.wf = true → Acts s c t m.g (p.reads m) →
    (p.ok && memBaseOk m) = true →
    let u := begun s c t
    u.memWaits m.g (p.kind.code m.space.toNat) m.wt (memReleases m (p.kind.form == .load)) m.scope.toNat = .ok () →
    let ts := u.targets m p.kind.scalar
    let r := u.resolve m.space.toNat p.kind.size p.kind.acc p.kind.noSys ts
    (∀ q rest, r.bad = q :: rest → ∀ code addr, q.2 = .bad code addr →
      exec p.instr s =
        .next ((s.walked r.s).gangTrap 8 { code := code, addr := addr, lanes := tgtMasks (r.bad.map (·.1)) })) ∧
    ∀ q rest, ts = q :: rest → (∀ z ∈ ts, z.a % (max p.kind.size 1 : Nat) ≠ 0) →
      exec p.instr s = .next ((s.walked r.s).gangTrap 8 { code := 0x04, addr := taddr q.a, lanes := tgtMasks ts })

/-- The cache-maintenance forms complete (07 R205, R206; 04 R112) once their lanes' addresses translate: PREF fetches lines,
LINV, LWB, LCLN and PCLR are posted to the homes, or, in CLUSTER, done there; ICINV parks its slice until the caches have
dropped the lines. -/
def Sys2Proof.Claim.CacheForms : Prop :=
  ∀ (m : MemF) (s v : State) (c t : Nat) (ok : List (Tgt × Nat)), Acts s c t m.g ((0, m.a.toNat) :: memBaseSrc m) →
    memBaseOk m = true →
    let u := begun s c t
    let k := clusterOf c
    let acc (f : AccForm) (n : Nat) : Acc :=
      { form := f, size := n, cp := m.cp.toNat,
        lanes := ok.map fun q => { slot := q.1.slot, lane := q.1.lane, va := taddr q.1.a, pa := q.2 } }
    let pref : MemKind := { form := .load, size := 1, acc := .load, watch := 0 }
    let line (f : AccForm) : MemKind := { form := f, size := 1, acc := .none, watch := 0 }
    let pclr : MemKind := { form := .pclr, size := 64, acc := .store, noSys := true, watch := 2 }
    (u.memWaits m.g none m.wt false m.scope.toNat = .ok () →
      (∀ bad, u.resolve m.space.toNat 1 .load false (u.targets m false) = ⟨v, ok, bad⟩ →
        (ok = [] → exec (.pref m) s = .next (v.advanceAll 8)) ∧
        (ok ≠ [] → m.space = 3 → (∀ q ∈ ok, q.2 < 2 ^ 52) →
          exec (.pref m) s = .next ((v.prefetch m pref (acc .load 1)).advanceAll 8)) ∧
        ∀ w, ok ≠ [] → m.space ≠ 3 →
          v.touchBlocks k false ((ok.map fun q => (q.2 - clusterBase k) / 256).eraseDups) = some w →
          exec (.pref m) s = .next (w.advanceAll 8)) ∧
      (u.resolve m.space.toNat 1 .none false (u.targets m false) = ⟨v, ok, []⟩ →
        let o : Op := { v.memOp m.g none (line (.linv m.scope.toNat)) (acc (.linv m.scope.toNat) 1).lanes with
          keys := (ok.map fun q => q.2 / 128).eraseDups, await := 8, members := [t], pd := m.scope.toNat }
        exec (.icinv m) s = .next (({ v with ops := v.ops ++ [o], nextId := o.id + 1 }).members fun x =>
          x.parkOn (.answer o.id)))) ∧
    (∀ p ∈ ([(.linv, .linv m.scope.toNat), (.lwb, .lwb), (.lcln, .lcln)] : List ((MemF → Instr) × AccForm)),
      u.memWaits m.g ((line p.2).code m.space.toNat) m.wt false m.scope.toNat = .ok () →
      u.resolve m.space.toNat 1 .none false (u.targets m false) = ⟨v, ok, []⟩ →
      (m.space = 3 → (∀ q ∈ ok, q.2 < 2 ^ 52) → v.postRoom c ok.length = true →
        ∃ w, v.globalPosted m (line p.2) (acc p.2 1) = .ok w ∧ exec (p.1 m) s = .next w) ∧
      (m.space ≠ 3 →
        let now := !v.clusterBehind c [t]
        let o : Op := { v.memOp m.g ((line p.2).code 2) (line p.2) (acc p.2 1).lanes with left := if now then 0 else 1 }
        exec (p.1 m) s = .next ((if now then (v.openOp o).performCluster o.id c (acc p.2 1)
          else (v.openOp o).send c (nodeCluster k) o.asid (some o.id) (.cluster (acc p.2 1))).advanceAll 8))) ∧
    (u.memWaits m.g (some 3) m.wt (m.ord == 2) m.scope.toNat = .ok () → v.postRoom c ok.length = true →
      u.resolve m.space.toNat 64 .store true (u.targets m false) = ⟨v, ok, []⟩ →
      v.watch m.space.toNat 2 ok (fun _ => 64) = .ok () → (∀ q ∈ ok, q.2 < 2 ^ 52) →
      ∃ w, v.globalPosted m pclr (acc .pclr 64) = .ok w ∧ exec (.pclr m) s = .next w)

/-- FEMT and FFUL complete in LOCAL for lanes whose runs lie in the slice's memory (06 R151): the words of each run become
empty, or full; a lane with a count of zero does nothing. In LWIN one message leaves per lane. -/
def Sys2Proof.Claim.FullEmptyForms : Prop :=
  ∀ (m : MemF) (s : State) (c t : Nat), Acts s c t m.g ((0, m.a.toNat) :: (0, m.d.toNat) :: memBaseSrc m) →
    memBaseOk m = true →
    let u := begun s c t
    let count (q : Tgt) : Nat := ((u.slice c q.slot).vr m.d.toNat q.lane).toNat
    let ts := (u.targets m false).filter fun q => count q != 0
    ∀ ks : List Nat, ks.length = ts.length → (∀ p ∈ ts.zip ks, u.placeRun p.1 m.space.toNat (count p.1) = (u, .key p.2)) →
    u.watch m.space.toNat 2 (ts.zip ks) (fun q => 4 * count q) = .ok () →
    let lanes : List LaneAcc := (ts.zip ks).map fun p =>
      { slot := p.1.slot, lane := p.1.lane, va := taddr p.1.a, pa := p.2, val := count p.1 }
    ∀ p ∈ ([(.femt, .femt), (.fful, .fful)] : List ((MemF → Instr) × AccForm)),
      let kind : MemKind := { form := p.2, size := 4, acc := .none, watch := 2 }
      let a : Acc := { form := p.2, size := 4, lanes := lanes }
      u.memWaits m.g (kind.code m.space.toNat) m.wt (m.ord == 2) m.scope.toNat = .ok () →
      (m.space = 0 → exec (p.1 m) s = .next ((u.performNow a .none).advanceAll 8)) ∧
      (m.space ≠ 0 → exec (p.1 m) s = .next ((u.lwinAccess m.g kind a false 0).advanceAll 8))

/-! ## Copies and streams (08) -/

/-- TCOPY completes (R209, R210): the descriptor of each member leaves, as one request, for the engine that ENG names, and
the slice's copy counter counts it. -/
def Sys2Proof.Claim.CopyForm : Prop :=
  ∀ (g : BitVec 4) (ds ts : BitVec 6) (rel : BitVec 1) (eng : BitVec 2) (s : State) (c t : Nat) (desc : List Byte),
    Acts s c t g [(1, ds.toNat), (1, ts.toNat)] → (sOk ds && sOk ts) = true →
    let u := begun s c t
    let x := u.slice c t
    u.descAt t (x.sr ds.toNat).toNat = .ok desc → u.watchSpans g [(t, (x.sr ds.toNat).toNat, desc.length)] = .ok () →
    x.count 4 < 255 → (rel = 1 → u.releaseReady c t 4 = true) →
    u.outbound c ≤ 15 →
    let o : Op := { u.unitOp t 0 0 with dest := .none, code := some 4 }
    exec (.tcopy g ds ts rel eng) s = .next (((u.openOp o).send c (nodeEngine (engineOf c eng)) x.asid (some o.id)
      (.copy { seq := o.id, op := o.id, core := c, slot := t, asid := x.asid, tag := x.sr ts.toNat, desc,
               handler := x.handler, base := (u.localRun x).1, len := (u.localRun x).2 } none)).advanceAll 8)

/-- STBIND, STUNB and STSTAT complete (R218 to R225): STBIND binds a port to a legal pattern while the core's buffers last,
else clears P[D]; STUNB unbinds; STSTAT reads a port's state. -/
def Sys2Proof.Claim.StreamForms : Prop :=
  (∀ (g : BitVec 4) (d a : BitVec 6) (space : BitVec 3) (port : BitVec 2) (s : State) (c t : Nat) (p : List Byte),
    Acts s c t g [(1, a.toNat)] → d.toNat < 8 → a.toNat < 32 →
    let u := begun s c t
    let x := u.slice c t
    let old := tget {} x.ports port.toNat
    let used := (u.core c).streamUsed + if old.bound then 0 else 1
    let mark (y : Slice) (b : Bool) : Slice := y.writePred d.toNat (y.lanes g) fun _ => b
    u.patternAt t space.toNat (x.sr a.toNat).toNat = .ok p → u.watchSpans g [(t, (x.sr a.toNat).toNat, 32)] = .ok () →
    x.count 4 < 255 →
    (64 < used → exec (.stbind g d a space port) s = .next ((u.modSlice c t fun y => mark y false).advanceAll 8)) ∧
    (used ≤ 64 →
      let w := (u.modCore c fun k => { k with streamUsed := used }).endBind c t old
      let o : Op := { w.unitOp t 0 0 with dest := .none, code := some 4 }
      exec (.stbind g d a space port) s = .next (((w.openOp o).modSlice c t fun y => mark { y with
        ports := tset y.ports port.toNat { bound := true, space := space.toNat, pattern := p, op := o.id } } true).advanceAll 8))) ∧
  ∀ (g : BitVec 4) (port : BitVec 2) (s : State) (c t : Nat), Acts s c t g [] →
    let u := begun s c t
    let x := u.slice c t
    let p := tget {} x.ports port.toNat
    (p.bound = false → exec (.stunb g port) s = .next (u.advanceAll 8)) ∧
    (p.bound = true → x.count 4 < 255 →
      let w := (u.endBind c t p).modSlice c t fun y => { y with ports := tset y.ports port.toNat {} }
      exec (.stunb g port) s = .next ((w.openOp { w.unitOp t 0 0 with
        dest := .none, code := some 4, await := 0, osec := 9 }).advanceAll 8)) ∧
    ∀ d : BitVec 6, d.toNat < 32 →
      exec (.ststat g d port) s = .next (s.setSlice c t ((x.setS d.toNat
        (if p.bound then w32 (2 ^ 31 + p.buf.length * 2 ^ 27 + (p.total - p.popped)) else 0)).advance 8))

/-! ## The matrix unit (12) -/

/-- MMA and MMAS complete for all eight slices of a warp of width 64 (R306 to R311): with a lane active the operands are
captured and the command enters its group's class queue once that has room; with TEAM = 1 the even group of a pair also
sends its A fragment to its partner. With no lane active they only move on. -/
def Sys2Proof.Claim.MatrixMultiplyForms : Prop :=
  ∀ p ∈ ([(.mma, false), (.mmas, true)] : List ((MmaF → Instr) × Bool)), ∀ (f : MmaF) (s : State),
    let gs := matGroups f.a.toNat f.b.toNat f.sc.toNat f.mt.toNat f.etype.toNat p.2 f.spn.toNat
    let u := s.countIssue
    let c := s.issuer.core
    let x := s.slice c (s.issuer.slots.headD 0)
    Gang s ((groupRegs gs).map fun r => (0, r)) → f.d.toNat < 16 → groupsOk gs = true →
    ((x.frame.act && !x.frame.susp) = false → Met s 1) → x.handler = false → u.wholeWarp = true →
    (u.taking f.g = [] → exec (p.1 f) s = .next (u.advanceAll 8)) ∧
    ∀ (y : Group) (d k : Nat), u.taking f.g ≠ [] → u.group? u.gangGroup = some y →
      (u.core c).allocTile u.gangGroup f.d.toNat = some d →
      (if f.csrc = 2 then (u.core c).allocTile u.gangGroup f.ct.toNat = some k else k = 0) →
      (u.core c).mat.room y.mclass = true →
      let cmd := u.mmaCmd f p.2 u.gangGroup y d k
      let w := u.enterMat c cmd s.cycle.toNat
      (f.team = 0 → exec (p.1 f) s = .next (w.advanceAll 8)) ∧
      (f.team = 1 → y.teamSize % 2 = 0 →
        let v := w.modGroup u.gangGroup fun z => { z with frags := z.frags + 1 }
        (y.ix % 2 = 1 → exec (p.1 f) s = .next (v.advanceAll 8)) ∧
        ∀ pk z, y.ix % 2 = 0 → v.partner y = some (pk, z) →
          exec (p.1 f) s = .next ((v.send c z.core y.asid none (.afrag pk cmd.j ((cmd.frag.filter fun e =>
            (groupRegs [(f.a.toNat, aRegs cmd.etype, 1)]).contains (e.1 / 64)).map fun e =>
              (e.1 - 64 * f.a.toNat, e.2)))).advanceAll 8))

/-- A tile name that is not allocated makes an instruction that names it take TILE_UNALLOCATED with the name as TADDR (R301),
before a command enters. -/
def Sys2Proof.Claim.TileFaults : Prop :=
  ∀ (g : BitVec 4) (t : BitVec 6) (s : State) (c k : Nat) (d : BitVec 6) (part : BitVec 2), Solo s c k [] →
    (s.slice c k).active g ≠ 0 → (s.slice c k).handler = false → t.toNat < 16 →
    (s.core c).allocTile (s.slice c k).group t.toNat = none →
    let f : FaultRec := { code := 0x16, addr := t.toNat, lanes := [(k, (s.slice c k).active g)] }
    exec (.mzero g t) s = .next (s.gangTrap 8 f) ∧
    (d.toNat % 8 = 0 → exec (.mrdv g d t part) s = .next (s.gangTrap 8 f)) ∧
    ((s.slice c k).acquires = [] → ∀ a off, a.toNat < 32 → (s.slice c k).pendingReg 1 a.toNat = false →
      exec (.mld g a t off) s = .next (s.gangTrap 8 f) ∧ exec (.mst g a t off) s = .next (s.gangTrap 8 f))

/-- The tile forms complete on allocated tiles while the group's class queue has room (R300 to R305, R316 to R320): MALLOC
allocates and zeroes, MFREE frees, MZERO, MLD, MST, MRDV, MWRV and MCVTS enter a command; those that return data leave their
destination, or the slices, pending. -/
def Sys2Proof.Claim.TileForms : Prop :=
  (∀ (g : BitVec 4) (d a : BitVec 6) (s : State) (c t : Nat) (y : Group), Acts s c t g [(1, a.toNat)] → a.toNat < 32 →
    (s.slice c t).handler = false →
    let u := begun s c t
    let grp := (s.slice c t).group
    let k := u.core c
    let ms := maskNames ((s.slice c t).sr a.toNat)
    (d.toNat < 8 → u.group? grp = some y → (∀ n ∈ ms, n < k.allotment grp) →
      (ms = [] → exec (.malloc g d a) s = .next ((u.gangPred g d.toNat fun _ => true).advanceAll 8)) ∧
      (ms ≠ [] → (∃ n ∈ ms, (k.allocTile grp n).isSome = true) →
        exec (.malloc g d a) s = .next ((u.gangPred g d.toNat fun _ => false).advanceAll 8)) ∧
      (ms ≠ [] → (∀ n ∈ ms, k.allocTile grp n = none) → k.mat.room y.mclass = true →
        exec (.malloc g d a) s = .next (((((u.enterMat c
          { kind := .zero (ms.filterMap fun n => (k.tileOf grp n).map (·.1)), group := grp, cls := y.mclass, d := 0 } s.cycle.toNat).modCore
          c fun k => k.markTiles grp ms true)).gangPred g d.toNat fun _ => true).advanceAll 8))) ∧
    ((∀ n ∈ ms, (k.allocTile grp n).isSome = true) →
      exec (.mfree g a) s = .next ((u.modCore c fun k => k.markTiles grp ms false).advanceAll 8))) ∧
  ∀ (g : BitVec 4) (t : BitVec 6) (s : State) (c m d : Nat) (y : Group), Acts s c m g [] → t.toNat < 16 →
    (s.slice c m).handler = false →
    let u := begun s c m
    let x := u.slice c m
    u.group? x.group = some y → (u.core c).allocTile x.group t.toNat = some d → (u.core c).mat.room y.mclass = true →
    let enter (v : State) (cmd : MCmd) : State := (v.enterMat c { cmd with group := x.group, cls := y.mclass } s.cycle.toNat).advanceAll 8
    exec (.mzero g t) s = .next (enter u { kind := .zero [d], group := 0, cls := 0, d := d }) ∧
    (∀ (a : BitVec 6) (off : BitVec 16) (ea : Nat), a.toNat < 32 → x.pendingReg 1 a.toNat = false →
      ((x.sr a.toNat).toNat : Int) + off.toInt = ea → ea % 16 = 0 → ea + 8192 ≤ (u.localRun x).2 →
      let o := u.openMat g .none true
      let at_ := localBase c + (u.localRun x).1 + ea
      (u.spanHit m 1 ea 8192 = false →
        exec (.mld g a t off) s = .next (enter o.1 { kind := .mld at_, group := 0, cls := 0, d := d, op := o.2 })) ∧
      (u.spanHit m 2 ea 8192 = false →
        exec (.mst g a t off) s = .next (enter o.1 { kind := .mst at_, group := 0, cls := 0, d := d, op := o.2 }))) ∧
    ∀ (r : BitVec 6) (part fmt : BitVec 2) (rsel : BitVec 3) (sat : BitVec 1), r.toNat % 8 = 0 →
      let o := u.openMat g (.v r.toNat 8) false
      exec (.mrdv g r t part) s = .next (enter o.1
        { kind := .mrdv r.toNat part.toNat, group := 0, cls := 0, d := d, op := o.2, lanes := u.laneList g }) ∧
      exec (.mcvts g r t part fmt rsel sat) s = .next (enter o.1
        { kind := .mcvts r.toNat part.toNat fmt.toNat rsel.toNat (sat == 1), group := 0, cls := 0, d := d, op := o.2,
          lanes := u.laneList g, rms := [(m, bits x.fpctl 0 2)] }) ∧
      ((∀ q ∈ group 0 r.toNat 8, x.pendingReg q.1 q.2 = false) →
        exec (.mwrv g r t part) s = .next (enter u
          { kind := .mwrv part.toNat, group := 0, cls := 0, d := d, a := r.toNat,
            frag := u.captureFrag ((List.range 8).map (r.toNat + ·)), lanes := u.laneList g }))

/-- MREQ completes for a whole warp whose target core is in its context's reach (R322, R323): the captured command leaves for
that core, and its operation stays counted until the answer. -/
def Sys2Proof.Claim.MatrixRequestForm : Prop :=
  ∀ (g : BitVec 4) (d a b : BitVec 6) (csrc : BitVec 2) (sc : BitVec 6) (ks : BitVec 5) (etype : BitVec 3) (cs : BitVec 5)
    (s : State),
    let gs := matGroups a.toNat b.toNat sc.toNat 0 etype.toNat false 0
    let u := s.countIssue
    let c := s.issuer.core
    let x := u.slice c (s.issuer.slots.headD 0)
    let h := (x.sr cs.toNat).toNat
    Gang s ((groupRegs gs).map (fun r => (0, r)) ++ [(1, cs.toNat), (1, ks.toNat), (1, ks.toNat + 1)]) → Free s →
    d.toNat < 16 → groupsOk gs = true → ks.toNat % 2 = 0 → u.wholeWarp = true →
    (u.taking g = [] → exec (.mreq g d a b csrc sc ks etype cs) s = .next (u.advanceAll 8)) ∧
    (u.taking g ≠ [] → h ≤ 255 → u.reach x.asid h = true → u.outbound c < 16 →
      let o : Op := { id := u.nextId, core := c, asid := x.asid, pc := s.issuer.pc, members := s.issuer.slots, left := 1,
                      lanes := u.gangLanes g }
      exec (.mreq g d a b csrc sc ks etype cs) s = .next (((u.openOp o).send c h x.asid (some o.id)
        (.mreq { kind := .mma, group := 0, cls := 0, d := d.toNat, csrc := csrc.toNat, etype := etype.toNat, a := a.toNat,
                 b := b.toNat, sc := sc.toNat, frag := u.captureFrag (groupRegs gs), ftz := ftzOf x.fpctl,
                 zskip := zskipOf x.fpctl } (BitVec.ofNat 64 (x.spair ks.toNat)) d.toNat s.issuer.slots)).advanceAll 8))

/-! ## Traversal requests and structures (13, 14) -/

/-- TRQ completes for a loaded kernel and a structure of the context while request entries are free (R359, R360): an entry
and a thread context per active lane, and a pin of the structure's version asked at the table. -/
def Sys2Proof.Claim.TraversalRequestForm : Prop :=
  ∀ (f : TrqF) (s : State) (c t : Nat),
    Acts s c t f.g (group 0 f.a.toNat 12 ++ group 1 f.sp.toNat 2 ++ if f.note = 1 then [(1, f.d.toNat)] else []) →
    trqOk f = true →
    let u := begun s c t
    let x := u.slice c t
    ((u.rake c).kernel x.asid f.kid.toNat).isSome = true → x.spair f.sp.toNat % 32 = 0 →
    u.ownsStruct x.asid f.struct.toNat = true → (x.lanes f.g).length ≤ (u.rake c).freeEntries.length →
    (f.mode = 0 → x.count 5 < 255) → u.releaseReady c t 4 = true →
    let o := u.openTrav f t
    let r := o.1.startMember f t o.2
    exec (.trq f) s = .next ((r.1.send c nodeTable x.asid none (.table (.pinLanes f.struct.toNat c 0 r.2))).advanceAll 8)

/-- TRPOLL, TRKILL, TRPIN, TRUNP, TRPUB and TRLOAD complete (R365 to R367, R380): TRPOLL reads the rake's free entries,
threads and inbound queue, TRKILL marks entries, the others send their request to the version table or to the rake of the
core named. -/
def Sys2Proof.Claim.TraversalControlForms : Prop :=
  (∀ (g : BitVec 4) (d : BitVec 6) (sc : BitVec 1) (s : State) (c t : Nat), Solo s c t [] → (s.slice c t).active g ≠ 0 →
    let u := begun s c t
    let r := u.rake c
    (d.toNat < 32 → exec (.trpoll g d) s = .next ((u.modSlice c t fun x => x.setS d.toNat
      (w32 (r.freeEntries.length + r.inUse * 2 ^ 16 + r.inbound.length * 2 ^ 22))).advanceAll 8)) ∧
    exec (.trkill g sc) s = .next ((u.modRake c fun r => { r with reqs := r.reqs.map fun e =>
      (e.1, if e.2.ownedBy (u.slice c t) t || (sc == 1 && !(s.slice c t).handler && e.2.used && e.2.group == (s.slice c t).group)
        then { e.2 with kill := true } else e.2) }).advanceAll 8)) ∧
  (∀ (g : BitVec 4) (d a b : BitVec 6) (inv : BitVec 1) (s : State) (c t : Nat),
    Acts s c t g ((1, a.toNat) :: group 1 b.toNat 2) → (sOk d && sOk a && sOk b) = true →
    let u := begun s c t
    let x := u.slice c t
    let v := (x.sr a.toNat).toNat
    (v < 256 → u.ownsStruct x.asid v = true →
      (d.toNat % 4 = 0 →
        let o := u.unitOp t d.toNat 4
        exec (.trpin g d a) s = .next ((((u.openOp o).modSlice c t fun x =>
          { x with acquires := x.acquires ++ [⟨o.id, true⟩] }).send c nodeTable o.asid (some o.id)
          (.table (.pin v o.id t d.toNat))).advanceAll 8)) ∧
      (d.toNat % 2 = 0 → b.toNat % 2 = 0 → u.releaseReady c t 4 = true →
        (x.spair b.toNat = 0 ∨ pairFault (x.sr b.toNat) (x.sr (b.toNat + 1)) = none) →
        let o := u.unitOp t d.toNat 2
        exec (.trpub g d a b inv) s = .next (((u.openOp o).send c nodeTable o.asid (some o.id)
          (.table (.publish v o.id t d.toNat c (BitVec.ofNat 64 (x.spair b.toNat)) (inv == 1)))).advanceAll 8))) ∧
    (v < 1024 → u.ownsStruct x.asid (v % 256) = true →
      exec (.trunp g a) s = .next ((u.send c nodeTable x.asid none (.table (.unpin (v % 256) (v / 256)))).advanceAll 8))) ∧
  ∀ (g : BitVec 4) (d a b : BitVec 6) (k : BitVec 5) (s : State) (c t : Nat),
    Acts s c t g (group 1 a.toNat 2 ++ [(1, b.toNat), (1, k.toNat)]) → (sOk d && sOk a && sOk b && alignOk a 2) = true →
    let u := begun s c t
    let x := u.slice c t
    let l := loadArgs x a b k
    bits (x.sr b.toNat) 4 4 = 0 → bits (x.sr b.toNat) 16 16 = 0 → bits (x.sr k.toNat) 12 4 = 0 →
    bits (x.sr k.toNat) 28 4 = 0 → 0 < l.words → l.words ≤ 2048 → l.image % 4 = 0 → u.reach x.asid l.core = true →
    x.count 4 < 255 → u.releaseReady c t 4 = true →
    let o : Op := { u.unitOp t d.toNat 1 with code := some 4 }
    exec (.trload g d a b k) s = .next (((u.openOp o).send c (nodeRake l.core) o.asid (some o.id)
      (.kload t d.toNat l.kid l.first l.words l.image l.core)).advanceAll 8)

/-! ## Device-side launch and repacking (11) -/

/-- LQPSH and LQSTAT complete (R285 to R287): the launch record, or the query, leaves for the launch unit, and S[D] is pending
until the answer. -/
def Sys2Proof.Claim.LaunchQueueForms : Prop :=
  ∀ (g : BitVec 4) (d qs rs : BitVec 6) (rel : BitVec 1) (s : State) (c t : Nat),
    Acts s c t g [(1, qs.toNat), (1, rs.toNat)] → (sOk d && sOk qs && sOk rs) = true →
    let u := begun s c t
    let x := u.slice c t
    let q := (x.sr qs.toNat).toNat
    let o := u.unitOp t d.toNat 1
    (∀ key, u.lqCheck t q (x.sr rs.toNat).toNat = .ok key → u.watchSpans g [(t, (x.sr rs.toNat).toNat, 64)] = .ok () →
      (rel = 1 → u.releaseReady c t 4 = true) →
      exec (.lqpsh g d qs rs rel) s = .next (((u.openOp o).send c nodeLaunch o.asid (some o.id)
        (.launch q (u.recordWords key 16) (some (t, d.toNat)))).advanceAll 8)) ∧
    (q ≤ 127 → exec (.lqstat g d qs) s = .next (((u.openOp o).send c nodeLaunch o.asid (some o.id)
      (.lqstat q t d.toNat)).advanceAll 8))

/-- CALLQ and RETQ complete (R288, R289, R292): CALLQ appends a record of each active lane to the repack queue of the target
it names, discards the lanes whose target is unset, and ends them; RETQ ends the lanes of a slice that the repack unit
started. -/
def Sys2Proof.Claim.RepackForms : Prop :=
  (∀ (g : BitVec 4) (a b : BitVec 6) (x : BitVec 1) (s s1 : State) (c t : Nat) (bv : Nat → Word) (k : Core),
    Acts s c t g (group 0 a.toNat 8 ++ bSrc b x) → a.toNat % 8 = 0 → vbOk b x = true →
    (begun s c t).operandB c t g b x = .ok (s1, bv) →
    let y := s1.slice c t
    let rs := (y.lanes g).map fun l => ((bv l).toNat, (List.range 8).map fun i => y.vr (a.toNat + i) l)
    let u := ((rs.map (·.1)).eraseDups).foldl (fun s k => s.reachTarget (s.slice c t).asid k) s1
    let unset (r : Nat × List Word) : Bool := (u.target (s.slice c t).asid r.1).entry == 0
    (∀ r ∈ rs, r.1 ≤ 31) → (u.core c).repackAll (s.slice c t).asid u.cycle.toNat (rs.filter fun r => !unset r) = some k →
    u.releaseReady c t 4 = true →
    let w := (u.modCore c fun _ => k).discardLanes c (s.slice c t).asid (rs.filter unset)
    exec (.callq g a b x) s = .next (w.exitMember c t ((w.slice c t).active g))) ∧
  ∀ (g : BitVec 4) (s : State) (c t : Nat), Solo s c t [] → (s.slice c t).active g ≠ 0 →
    ((s.slice c t).repacked = true →
      exec (.retq g) s = .next ((begun s c t).exitMember c t ((s.slice c t).active g))) ∧
    ((s.slice c t).repacked = false →
      exec (.retq g) s = .next (s.gangTrap 4 { code := 0x01, lanes := [(t, (s.slice c t).active g)] }))

/-! ## Traversal threads (13) -/

/-- The integer forms of the traversal processor complete: W[D] takes the result, Z and N its flags (R335). A destination of
W30 or W31 ends the thread with ILLEGAL instead (R333). -/
def Sys2Proof.Claim.TraversalIntegerForms : Prop :=
  ∀ p ∈ travInts, ∀ s : State,
    let t := running s
    let put (d : BitVec 5) (r : Word) : Thread := ((t.setW d.toNat r).setZ (r == 0)).setN (r.getLsbD 31)
    (∀ f : T3,
      (f.d.toNat < 30 → Walks (p.1 f) s (put f.d (p.2.2 (t.wr f.a.toNat) (t.wr f.b.toNat)))) ∧
      (30 ≤ f.d.toNat → Ends (p.1 f) s 1)) ∧
    ∀ f : TI,
      (f.d.toNat < 30 → Walks (p.2.1 f) s (put f.d (p.2.2 (t.wr f.a.toNat) (f.i.signExtend 32)))) ∧
      (30 ≤ f.d.toNat → Ends (p.2.1 f) s 1)

/-- The floating forms, FCMP, MOVI, MOVI.HI and SEL of the traversal processor complete (R336, R337). -/
def Sys2Proof.Claim.TraversalFloatForms : Prop :=
  ∀ s : State, let t := running s
    (∀ p ∈ travFloats, ∀ f : T3,
      let r := BitVec.ofNat 32 (p.2 (t.wr f.a.toNat).toNat (t.wr f.b.toNat).toNat).1
      (f.d.toNat < 30 → Walks (p.1 f) s (((t.setW f.d.toNat r).setZ (r.setWidth 31 == 0)).setN
        (r.getLsbD 31 && !(f32.decode r.toNat).isNan))) ∧
      (30 ≤ f.d.toNat → Ends (p.1 f) s 1)) ∧
    (∀ a b : BitVec 5,
      let x := f32.decode (t.wr a.toNat).toNat
      let y := f32.decode (t.wr b.toNat).toNat
      let ok := !x.isNan && !y.isNan
      Walks (.tFcmp a b) s ((t.setZ (ok && x.cmp y == 0)).setN (ok && x.cmp y == -1))) ∧
    ∀ d : BitVec 5, d.toNat < 30 →
      (∀ i : BitVec 16, Walks (.tMovi d i) s (t.setW d.toNat (i.signExtend 32)) ∧
        Walks (.tMoviHi d i) s (t.setW d.toNat (i ++ (t.wr d.toNat).extractLsb' 0 16))) ∧
      ∀ a b c : BitVec 5, Walks (.tSel d a b c) s (t.setW d.toNat (t.wr (if t.cond c.toNat then a else b).toNat))

/-- BRC, JMP, END and YLD complete (R338, R339, R341): BRC adds its offset, or one, to the PC; JMP goes to W[A], with the
return PC in W[D] unless D is 31; END ends with OK; YLD lets the other ready threads go first. A JMP to more than 11 bits
ends with ILLEGAL. -/
def Sys2Proof.Claim.TraversalFlowForms : Prop :=
  ∀ s : State, let t := running s
    let c := s.rakeCore
    let n := s.rakeThread
    (∀ (k : BitVec 5) (i : BitVec 11),
      exec (.tBrc k i) s = .next (s.goto c n (t.pc + if t.cond k.toNat then i.toInt else 1))) ∧
    (∀ d a : BitVec 5, (d.toNat < 30 ∨ d = 31) →
      (2 ^ 11 ≤ (t.wr a.toNat).toNat → Ends (.tJmp d a) s 1) ∧
      ((t.wr a.toNat).toNat < 2 ^ 11 → exec (.tJmp d a) s = .next ((if d = 31 then s
        else s.modThread c n fun t => t.setW d.toNat (BitVec.ofNat 32 (t.pc + 1))).goto c n (t.wr a.toNat).toNat))) ∧
    Ends .tEnd s 0 ∧
    Walks .tYld s { t with yielded := (s.rake c).readyThreads.filter (· != n) }

/-- A PC within the loaded kernel moves; one outside it ends the thread with ILLEGAL at its old PC (R333, R338). -/
def Sys2Proof.Claim.TraversalPcRange : Prop :=
  ∀ (s : State) (k : BitVec 5) (i : BitVec 11),
    let t := running s
    let pc : Int := t.pc + if t.cond k.toNat then i.toInt else 1
    let inside := 0 ≤ pc ∧ pc < (s.kernelLen s.rakeCore t : Int)
    (inside → ∃ u, exec (.tBrc k i) s = .next u ∧ ((running u).pc : Int) = pc % 2 ^ 11 ∧ (running u).wait = .ready ∧
      ∀ j, j < 30 → (running u).wr j = t.wr j) ∧
    (¬ inside → Ends (.tBrc k i) s 1)

/-- EMIT and MIGR complete (R340, R356): EMIT sends a store for each sector, `v` being the state
after its translations, and moves its address past the words; MIGR to
the thread's own core clears Z and goes on, to another it sets out. -/
def Sys2Proof.Claim.TraversalEmitMigrate : Prop :=
  ∀ s : State, let t := running s
    let c := s.rakeCore
    let n := s.rakeThread
    (∀ (a b : BitVec 5) (k : BitVec 3) (v : State) (ps : List (Nat × Nat)), a.toNat + k.toNat + 1 ≤ 32 → b.toNat % 2 = 0 →
      b.toNat ≤ 28 →
      let addr := (t.wr b.toNat).toNat + (t.wr (b.toNat + 1)).toNat * 2 ^ 32
      addr < 2 ^ 52 → addr % 4 = 0 → s.threadPlaces t.asid .store 2 addr (4 * (k.toNat + 1)) = .ok (v, ps) →
      let up := (addr + 4 * (k.toNat + 1)) % 2 ^ 52
      let w := v.emitStores v.rakeCore v.rakeThread t.asid ps (wordsBytes (t.group a.toNat (k.toNat + 1)))
      exec (.tEmit a b k) s = .next ((w.modThread w.rakeCore w.rakeThread
        fun t => t.setGroup b.toNat [w32 up, w32 (up / 2 ^ 32)]).goNext w.rakeCore w.rakeThread)) ∧
    ∀ a : BitVec 5,
      let x := (t.wr a.toNat).toNat
      (2 ^ 11 ≤ x → Ends (.tMigr a) s 3) ∧
      (x < 2 ^ 11 → x % 256 = c → x / 256 = s.mgmt.devnum → Walks (.tMigr a) s (t.setZ false)) ∧
      (x < 2 ^ 11 → (x % 256 ≠ c ∨ x / 256 ≠ s.mgmt.devnum) → t.emits ≠ 0 →
        Awaits (.tMigr a) s (.migrating false (x % 256) (x / 256) false none)) ∧
      (x < 2 ^ 11 → (x % 256 ≠ c ∨ x / 256 ≠ s.mgmt.devnum) → ∀ u,
        (s.modThread c n fun t => { t with wait := .migrating false (x % 256) (x / 256) false none }).sendContext c n = .ok u →
        t.emits = 0 → exec (.tMigr a) s = .next u)

/-- NFCH completes for a legal address pair (R342): a node of another core, for a thread that may migrate, makes it set out;
else the thread waits for the node (`v` is the state after the address's translation). A pair that is malformed or misaligned
ends the thread. -/
def Sys2Proof.Claim.NodeFetchForm : Prop :=
  ∀ (s : State) (a : BitVec 5), a.toNat ≤ 30 →
    let t := running s
    let lo := t.wr a.toNat
    let hi := t.wr (a.toNat + 1)
    let lw := hi.getLsbD 31
    let addr := lo.toNat + if lw then 0 else bits hi 0 20 * 2 ^ 32
    (pairFault lo hi = some 0x05 → Ends (.tNfch a) s 3) ∧
    (pairFault lo hi = some 0x04 → Ends (.tNfch a) s 2) ∧
    (pairFault lo hi = none → (lw = true → lwinNode addr = true) → ∀ v : State,
      let waits (w : TWait) : Prop :=
        exec (.tNfch a) s = .next (v.modThread v.rakeCore v.rakeThread fun t => { t with wait := w })
      (s.nodeTarget t lw addr = .ok (v, none) → (lw = true → v.reach t.asid (addr / 2 ^ 18) = true) →
        waits (.node lw addr)) ∧
      ∀ h d, s.nodeTarget t lw addr = .ok (v, some (h, d)) → (v.thread v.rakeCore v.rakeThread).emits ≠ 0 →
        waits (.migrating true h d false none))

/-- The instructions that read the node buffer complete on a node of their format (R343 to R351): NDEC extracts a field,
NQBX a slot's box, BOX8 and SBOX8 test eight slots, TRI and SPHD a triangle, KCMP8 keys; VDIST waits for its vectors. Without
such a node they end with NODE_INVALID. -/
def Sys2Proof.Claim.NodeForms : Prop :=
  ∀ s : State, let t := running s
    (∀ ws, t.node = some ws →
      (∀ d b w : BitVec 5, d.toNat < 30 →
        Walks (.tNdec d b w) s (t.setW d.toNat (bfx (ws.getD w.toNat 0) (t.wr b.toNat)))) ∧
      (∀ f : T3, f.d.toNat < 30 →
        Walks (.tNdecX f) s (t.setW f.d.toNat (bfx (ws.getD (bits (t.wr f.a.toNat) 0 5) 0) (t.wr f.b.toNat)))) ∧
      (∀ (d : BitVec 5) (j : BitVec 3), d.toNat ≤ 24 → isWn8 ws = true →
        Walks (.tNqbx d j) s (t.setGroup d.toNat (slotBox ws j.toNat))) ∧
      (∀ d a : BitVec 5, d.toNat < 30 → isWn8 ws = true →
        let tests (rs : List (Bool × Word)) : Thread :=
          let mask := (((List.range 8).filter fun j => (rs.getD j (false, 0)).1).map (2 ^ ·)).sum
          { (t.setW d.toNat (BitVec.ofNat 32 mask)).setHit (mask != 0) with test := some rs }
        (a.toNat ≤ 24 → Walks (.tBox8 d a) s (tests ((List.range 8).map (boxTest (t.group a.toNat 8) ws)))) ∧
        (a.toNat ≤ 28 → Walks (.tSbox8 d a) s (tests ((List.range 8).map (sphereTest (t.group a.toNat 4) ws))))) ∧
      (∀ (d a b : BitVec 5) (j : BitVec 2), d.toNat ≤ 25 → a.toNat ≤ 22 → isTri ws = true →
        let r := if triEmpty ws j.toNat then none
          else triHit (t.group a.toNat 8) ((List.range 3).map (vertex ws j.toNat))
        (r = none → Walks (.tTri d a b j) s (t.setHit false)) ∧
        ∀ tt b1 b2, r = some (tt, b1, b2) →
          let old := t.wr d.toNat
          let id := triId ws j.toNat
          let inst := t.wr b.toNat
          let first := vless (fval tt) (fval old) || ((fval tt).cmp (fval old) == 0 && !(fval old).isNan &&
            (decide (id.toNat < (t.wr (d.toNat + 3)).toNat) ||
              (id == t.wr (d.toNat + 3) && decide (inst.toNat < (t.wr (d.toNat + 4)).toNat))))
          Walks (.tTri d a b j) s (if first then
            ((t.setGroup d.toNat [tt, b1, b2, id, inst]).setW (a.toNat + 7) tt).setHit true else t.setHit false)) ∧
      (∀ (d a : BitVec 5) (j : BitVec 2), d.toNat ≤ 28 → a.toNat ≤ 28 → isTri ws = true →
        let sp := t.group a.toNat 4
        ((triEmpty ws j.toNat || anyNan sp) = true → Walks (.tSphd d a j) s (t.setHit false)) ∧
        ((triEmpty ws j.toNat || anyNan sp) = false →
          let e := sphDist (sp.take 3) ((List.range 3).map (vertex ws j.toNat))
          let old := t.wr d.toNat
          let id := triId ws j.toNat
          let less := vless (fval e) (fval old) || (!(fval old).isNan && (fval e).cmp (fval old) == 0 &&
            decide (id.toNat < (t.wr (d.toNat + 1)).toNat))
          Walks (.tSphd d a j) s ((if less then t.setGroup d.toNat [e, id] else t).setHit
            (vleq vzero (fval (sp.getD 3 0)) && vleq (fval e) (fval (radSquare (sp.getD 3 0))))))) ∧
      (∀ (d a : BitVec 5) (k : BitVec 2), d.toNat ≤ 28 → isBtree ws = true →
        let key := t.wr a.toNat
        let ks := (ws.drop 1).take (bits (ws.getD 0 0) 4 4)
        let eq := ks.findIdx? (· == key)
        Walks (.tKcmp8 d a k) s ((t.setGroup d.toNat
          [w32 (ks.filter fun x => decide (keyRank k.toNat x ≤ keyRank k.toNat key)).length,
           match eq with | some i => w32 i | none => 0xFFFFFFFF]).setZ eq.isSome)) ∧
      ∀ f : T3, f.d.toNat < 30 → f.a.toNat ≤ 30 → vdistOk (t.wr f.b.toNat) = true → isGraph ws = true →
        bits (t.wr (f.a.toNat + 1)) 20 12 = 0 → bits (ws.getD 2 0) 20 12 = 0 → bits (ws.getD 1 0) 0 5 = 0 →
        Awaits (.tVdist f) s (.vector f.d.toNat f.a.toNat f.b.toNat)) ∧
    (t.node = none → ∀ d a b w : BitVec 5, d.toNat < 24 → a.toNat ≤ 22 →
      Ends (.tNdec d b w) s 7 ∧ Ends (.tNdecX ⟨d, a, b⟩) s 7 ∧ (∀ j, Ends (.tNqbx d j) s 7) ∧ Ends (.tBox8 d a) s 7 ∧
      Ends (.tSbox8 d a) s 7 ∧ ∀ j, Ends (.tTri d a b j) s 7 ∧ Ends (.tSphd d a j) s 7 ∧ Ends (.tKcmp8 d a j) s 7)

/-- The stack forms complete (R352 to R355). PUSHM pushes the children that the last test hit and the mask names, the
nearest last; PUSHME pushes one pair; POP takes the top entry, or reloads spilled ones first; STKQ reads the stack. -/
def Obligations.StackForms : Prop :=
  ∀ s : State, let t := running s
    let c := s.rakeCore
    let n := s.rakeThread
    (∀ (b : BitVec 5) (rs : List (Bool × Word)) (ws : List Word) (u : State) (v : Thread), t.test = some rs → t.node = some ws →
      s.pushAll t ((pushOrder (t.wr b.toNat) rs).map fun p => childEntry ws p.1 p.2) = .ok (u, v) →
      exec (.tPushm b) s = .next ((u.modThread c n fun _ => v.setEmpty false).goNext c n)) ∧
    (∀ b : BitVec 5, (t.test = none ∨ t.node = none) → Ends (.tPushm b) s 7) ∧
    (∀ a b : BitVec 5, a.toNat ≤ 30 →
      let lo := t.wr a.toNat
      let hi := t.wr (a.toNat + 1)
      let lw := hi.getLsbD 31
      let addr := lo.toNat + if lw then 0 else bits hi 0 20 * 2 ^ 32
      pairFault lo hi = none → (lw = true → lwinNode addr = true) → t.stack.length < 8 →
      Walks (.tPushmE a b) s ((t.setStack ((stackEntry (key18 (t.wr b.toNat)) lw addr, false) :: t.stack)).setEmpty false)) ∧
    ∀ d : BitVec 5,
      (d.toNat ≤ 27 →
        (t.stack = [] → t.spb = 0 → Walks (.tPop d) s (t.setEmpty true)) ∧
        (t.stack = [] → t.spb ≠ 0 → Awaits (.tPop d) s (.reload d.toNat false)) ∧
        ∀ e es, t.stack = e :: es → t.ordered = true →
          Walks (.tPop d) s (((t.setStack es).setGroup d.toNat (entryWords e.1)).setEmpty false)) ∧
      (d.toNat < 30 →
        let size := BitVec.ofNat 32 (4 * t.spb + t.stack.length)
        let bare := t.stack.isEmpty && t.spb == 0
        Walks (.tStkq d 0) s ((t.setW d.toNat size).setEmpty bare) ∧
        (∀ e es, t.stack = e :: es → Walks (.tStkq d 1) s ((t.setW d.toNat (w32 (e.1 / 2 ^ 46 * 2 ^ 14))).setEmpty false)) ∧
        (t.stack = [] → t.spb = 0 → Walks (.tStkq d 1) s ((t.setW d.toNat 0x7F800000).setEmpty true)) ∧
        (t.stack = [] → t.spb ≠ 0 → Awaits (.tStkq d 1) s (.reload d.toNat true)) ∧
        Walks (.tStkq d 2) s ((((t.setW d.toNat size).setStack []).setSpb 0).setEmpty true))

/-! ## Device steps: answers, memories, messages, slices (spec/95) -/

/-- The answers to a slice's operations complete (01 R11, 07 R188, 06 R155, 10 R259, 04 R112): an operation with no request
left ends, which writes its registers, drops its counter and frees what was pending; an ordered-section form acts on its
answers; ICINV's slices go on once the named caches have dropped the lines. -/
def Sys2Proof.Claim.AnswerEvents : Prop :=
  ∀ (s : State) (o : Op), Ended s o →
    (o.isLoad = true → Becomes (.evLoadDataReturn o.id) s (s.finishOp (if o.code = none then { o with poisoned := [] } else o))) ∧
    ((o.code = some 2 ∨ o.code = some 3) → Becomes (.evStoreAcknowledge o.id) s (s.finishOp o)) ∧
    ((∀ f ∈ s.flights, f.op ≠ some o.id) →
      (1 ≤ o.osec → o.osec ≤ 5 → Becomes (.evUnitAnswerArrival o.id) s (s.osecAnswer o)) ∧
      ((∃ d n, o.dest = .s d n) → o.isLoad = false → o.osec = 0 → s.isLent o.id = false →
        Becomes (.evUnitAnswerArrival o.id) s (s.finishOp o))) ∧
    (o.await = 8 → o.osec = 0 →
      Becomes (.evIcinvCompletion o.id) s (o.members.foldl (fun s t => s.modSlice o.core t fun x =>
        if x.live && x.park == some (.answer o.id) then x.unpark.advance 8 else x)
        ((s.dropOp o.id).dropIcache (scopeCores o.core o.pd) o.keys)))

/-- The requests at their homes are performed (06 R153, R170; 07 R180, R194 to R197): an LWIN access at its core, a CLUSTER
access once its blocks are expanded and no earlier one waits, a GLOBAL request at its slice, where it queues behind a held unit,
and an STC with the other requests of its instruction to that home, once its lanes' earlier LDRs are performed; a reserve takes
its unit, the holder applies its lanes, the unit passes on; a SYSTEM atomic goes lane by lane, and finds its sectors' errors (R201). -/
def Sys2Proof.Claim.MemoryEvents : Prop :=
  (∀ (s : State) (f : Flight) (a : Acc), Due s f →
    let u := s.dropFlight f.id
    let away := nodePeer 0 ≤ f.dst ∧ f.dst < nodePeer 8
    (f.pkt = .lwin a → Becomes (.evLwinAccessAtHome f.id) s (u.performLwin f a)) ∧
    (∀ sh, ¬ away → s.queued f.id = false → s.resvOpen f = false → f.pkt = .global a sh →
      Becomes (.evGlobalRequestAtHome f.id) s (if a.form = .stc then s.performStc f else s.arriveGlobal f a sh)) ∧
    (¬ away → s.queued f.id = false → f.pkt = .reserve a → Becomes (.evAtomicReserve f.id) s (s.arriveReserve f a)) ∧
    (∀ op l rest refused, f.op = some op → f.pkt = .sysAtomic a → a.lanes = l :: rest →
      let v := (if refused then s.modOp op fun o =>
          { o with laneFaults := o.laneFaults ++ [(l.slot, l.lane, 0x07, l.va)], writes := o.writes ++ o.dest.writes l 0 }
        else (s.findErrors f.asid [l.pa / 64]).performAcc op f.src { a with lanes := [l] }).lessLeft op |>.freeEntries op f.src 1
      Becomes (.evSystemAtomicopCompletion f.id refused) s (if rest.isEmpty then v.dropFlight f.id
        else { v with flights := v.flights.map fun (g : Flight) =>
          if g.id == f.id then { g with pkt := .sysAtomic { a with lanes := rest } } else g }))) ∧
  (∀ (s : State) (f : Flight) (a : Acc) (o : Op), s.flight? f.id = some f → f.pkt = .cluster a → f.op = some o.id →
    s.op? o.id = some o →
    ({ s with flights := s.flights.takeWhile (·.id != f.id) } : State).clusterBehind f.src o.members = false →
    Becomes (.evBlockExpansionComplete f.id) s (((s.dropFlight f.id).performCluster o.id f.src a).lessLeft o.id)) ∧
  ∀ (s : State) (u : AUnit), s.units.find? (·.key == u.key) = some u →
    (∀ a, u.applied = false → u.holder.pkt = .reserve a →
      let op := u.holder.op.getD 0
      let v := (s.modUnit u.key fun u => { u with applied := true }).findErrors u.holder.asid a.touched
      let w := (if u.key < 2 ^ 49 then v.dcacheFor (u.key / 32) 0 true else v).leaveFlight u.holder
      Becomes (.evAtomicGrant u.key) s (((w.performAcc op u.holder.src a).lessLeft op).freeEntries op u.holder.src a.entries)) ∧
    (u.applied = true → Becomes (.evAtomicUnitRelease u.key) s
      (State.forward u.key u.queue { s with units := s.units.filter (·.key != u.key) }).eqGo)

/-- A pool wait of 100,000 ticks of TIME ends (06 R176): the gang that waits takes CLUSTER_POOL_EXHAUSTED. -/
def Sys2Proof.Claim.PoolTimeoutEvent : Prop :=
  ∀ (s : State) (c t k since addr : Nat) (m : Pred), (s.slice c t).park = some (.pool k since addr m) →
    (s.slice c t).live = true → (s.slice c t).halted = false →
    (100000 ≤ s.time.toNat - since → Becomes (.evPoolWaitTimeout c t) s (s.poolFault c t)) ∧
    (s.time.toNat - since < 100000 → Becomes (.evPoolWaitTimeout c t) s s)

/-- Messages arrive (06 R160, R164): with room and none refused before it a message is admitted; without, it is refused and
held; the oldest refused one is admitted when room comes; one whose context holds no group on the core is discarded, or goes
to the run-time. -/
def Sys2Proof.Claim.MessageEvents : Prop :=
  ∀ (s : State) (f : Flight) (m : Msg) (h unit : Bool), f.pkt = .msg m h unit →
    let arrive (n : Nat) : Instr := if h then .evHandlerQueueArrival n else .evMessageArrival n
    let k := s.core f.dst
    let list := if h then k.handlerRefused else k.mailRefused
    let room := if h then k.handlerQ.length < 16 else k.mailbox.length < 64
    let takeIn (s : State) : State := if h then s.admitHandler f m else s.admitMail f m
    let unlisted := s.modCore f.dst fun k =>
      { k with mailRefused := k.mailRefused.filter (· != f.id), handlerRefused := k.handlerRefused.filter (· != f.id) }
    (Due s f →
      (list = [] → s.holds m.asid f.dst = true → room → Becomes (arrive f.id) s (takeIn s)) ∧
      (f.id ∉ list → s.holds m.asid f.dst = true → (list ≠ [] ∨ ¬ room) →
        Becomes (arrive f.id) s (s.modCore f.dst fun k => if h then { k with handlerRefused := k.handlerRefused ++ [f.id] }
          else { k with mailRefused := k.mailRefused ++ [f.id] })) ∧
      (f.id ∉ list → s.holds m.asid f.dst = false → Becomes (arrive f.id) s (s.strayMessage f m unit))) ∧
    (s.flight? f.id = some f → ∀ rest, list = f.id :: rest → s.holds m.asid f.dst = true → room →
      Becomes (.evMessageRetry f.id) s (takeIn unlisted))

/-- A handler starts in the lowest free handler slot with the message in V0 (06 R164), and one that has run its limit takes
HANDLER_BLOCK (R165). A message whose handler entry is unset is discarded. A context whose core state is saved on the core (11
R294) gets it back first, and waits while it does not fit. -/
def Sys2Proof.Claim.HandlerEvents : Prop :=
  (∀ (s : State) (c : Nat) (m : Msg) (rest : List Msg), (s.core c).handlerQ = m :: rest →
    let kind := bits (m.words.getD 0 0) 24 4
    let v := s.reachHandler m.asid kind
    let u := v.modCore c fun k => { k with handlerQ := rest }
    let entry := v.handlerEntry m.asid kind
    s.coreKeeper m.asid c = none →
    (entry = 0 → Becomes (.evHandlerStart c) s
      (u.post ([evWord 0x96 0 m.asid, w32 (1 + c * 2 ^ 8 + kind * 2 ^ 16), 1] ++ m.words.take 5))) ∧
    ∀ t, entry ≠ 0 → 120 ≤ t → t < 128 → (v.slice c t).phase = .empty →
      (∀ j, 120 ≤ j → j < t → (v.slice c j).phase ≠ .empty) →
      Becomes (.evHandlerStart c) s ((u.setSlice c t (handlerSlice m entry v.cycle.toNat)).acquireNow c 4)) ∧
  (∀ (s : State) (c : Nat) (m : Msg) (rest : List Msg), (s.core c).handlerQ = m :: rest →
    let kind := bits (m.words.getD 0 0) 24 4
    let u := (s.reachHandler m.asid kind).reachCore m.asid c
    u.handlerEntry m.asid kind ≠ 0 → (s.freeHandler c).isSome = true →
    (s.coreKeeper m.asid c).isSome = true →
    (u.coreFits m.asid c = true →
      Becomes (.evHandlerStart c) s (((u.enterCtx m.asid).restoreCore m.asid c).startHandler c)) ∧
    (u.coreFits m.asid c = false → Becomes (.evHandlerStart c) s s)) ∧
  ∀ (s : State) (c t : Nat), s.runLimitDue c t = true → (s.slice c t).halted = false →
    Becomes (.evHandlerRunLimit c t) s (s.takeRunLimit c t)

/-- A parked slice that is to be evaluated again goes on (01 R23), a hold that has lasted 512 visits closes (04 R88), the
fairness limit changes the path (R85). -/
def Sys2Proof.Claim.PathEvents : Prop :=
  ∀ (s : State) (c t : Nat), let x := s.slice c t
    (x.live = true → x.halted = false → x.park ≠ none → x.woken = true →
      Becomes (.evParkReevaluation c t) s (s.setSlice c t x.unpark)) ∧
    (∀ h, x.hold = some h → x.live = true → x.holding = true → 512 ≤ h.visits →
      Becomes (.evHoldVisitLimit c t) s (s.setSlice c t x.closeHold)) ∧
    (x.live = true → x.halted = false → x.fairDue = true → Becomes (.evFairnessSwitch c t) s (s.setSlice c t x.nextPath))

/-- A retired slice whose accesses are done counts as retired in its group and team after the cycle's issues (10 R251), and their
barriers are evaluated (R252, R255), and its slot is released once its counters are zero (04 R77). -/
def Sys2Proof.Claim.RetirementEvents : Prop :=
  ∀ (s : State) (c t : Nat), let x := s.slice c t
    x.phase = .retired →
    (x.counted = [] → (x.handler = true ∨ x.retCounted = true) →
      let u : State := { s.setSlice c t {} with
        ops := s.ops.map fun o => if o.core == c && o.members.contains t then
          { o with members := o.members.filter (· != t), gone := o.gone ++ [t] } else o }
      Becomes (.evSlotRelease c t) s (if x.handler then u else u.forgetGroup x.group)) ∧
    ∀ (g : Group) (m : Team), x.retCounted = false → x.handler = false → s.coreDone c = true →
      (∀ k < 4, x.count k = 0) → s.group? x.group = some g → s.teams.lookup g.team = some m →
      let u := ((s.setSlice c t { x with retCounted := true }).modGroup x.group fun g => { g with ret := g.ret + 1 }).modCore c
        fun k => { k with barriers := leaveArrv k.barriers x.group (skey c t) }
      let v := (ownedBarriers (u.core c).barriers x.group).foldl (fun s i => s.evalBarrier c i (g.ret + 1)) u
      v.teams = s.teams →
      let w := ({ v with teams := tset s.teams g.team { m with ret := m.ret + 1 } } : State).modCluster m.cluster fun k =>
        { k with barriers := leaveArrv k.barriers g.team (skey c t) }
      Becomes (.evRetirementCounted c t) s ((ownedBarriers (w.cluster m.cluster).barriers g.team).foldl
        (fun s i => s.evalTeamBarrier m.cluster i (m.ret + 1)) w)

/-- Team-barrier arrivals, section requests, steals, overruns and hangs take effect (10 R255, R259 to R269; 11 R297, R298): a steal
arrives before its core's owner forms of the cycle (one that comes after them is taken in the next cycle: log 71, DESIGN CHOICE), and
an only entry of one item is lent until the cycle ends (log 71, DESIGN CHOICE). What a hang report shows is log 33 (DEDUCED), and that
its HANG traps name no lanes log 78 (DESIGN CHOICE). -/
def Obligations.SynchronisationEvents : Prop :=
  (∀ (s : State) (f : Flight), Due s f →
    let u := s.dropFlight f.id
    (∀ team t id p v, f.pkt = .teamArrive team t id p (some v) →
      let c := clusterOf f.src
      let b : Barrier := tget {} (u.cluster c).barriers id
      (b.used = false ∨ team ≠ some b.owner → Becomes (.evTeamBarrierArrival f.id) s u) ∧
      (b.used = true → team = some b.owner →
      let b1 : Barrier := { b with expect := bits v 0 11, auto := v.getLsbD 31 }
      Becomes (.evTeamBarrierArrival f.id) s
        ((u.modCluster c fun k => { k with barriers := tset k.barriers id b1 }).evalTeamBarrier c id (u.teamRet b)))) ∧
    (∀ team t id p, f.pkt = .teamArrive team t id p none →
      let c := clusterOf f.src
      let b : Barrier := tget {} (u.cluster c).barriers id
      let x := u.slice f.src t
      b.used = true → team = some b.owner → u.teamOf f.src t = team →
      x.park = some (.answer f.id) → x.live = true → b.arrived.contains (skey f.src t) = false →
      let b1 : Barrier := { b with arrived := bitIns b.arrived (skey f.src t) }
      Becomes (.evTeamBarrierArrival f.id) s
        (((u.setSlice f.src t (x.parkOn (.teamBarrier c id b.phase true))).modCluster c fun k =>
          { k with barriers := tset k.barriers id b1 }).evalTeamBarrier c id (u.teamRet b))) ∧
    (∀ form key lanes, f.pkt = .osec form key lanes →
      Becomes (.evOsecRequestAtHome f.id) s (u.osecPerform f form key lanes)) ∧
    ∀ t d v ring (o : Op), f.pkt = .steal t d v ring → f.op = some o.id → s.op? o.id = some o → s.coreFresh v = true →
      let q := (u.core v).deque
      (∀ b n tag rest, q.owner = some o.asid → stealTop q.entries = some ((b, n, tag), rest) →
        let only := q.entries.length = 1 ∧ n = 1 ∧ rest = []
        Becomes (.evStealArrival f.id) s ((u.modCore v fun k => { k with deque := { q with
          entries := rest, lent := if only then some ⟨o.id, t, d, ring, b, tag⟩ else q.lent } }).answer o.id t d [b, n, tag, v])) ∧
      ((q.owner ≠ some o.asid ∨ q.entries = []) → ring = false →
        Becomes (.evStealArrival f.id) s (u.answer o.id t d [0, 0, 0, 0xFFFFFFFF]))) ∧
  (∀ (s u : State) (c t : Nat), (s.slice c t).live = true → (s.slice c t).halted = false → s.takeOverrun c t = some u →
    Becomes (.evSectionOverrun c t) s u) ∧
  ∀ (s : State) (asid : Nat), let c := s.ctx asid
    c.hanglim ≠ 0 → c.hanglim ≤ c.hang → s.hangCycle asid = true →
    let xs := s.ctxSlices asid
    let w := s.reachCtx asid
    let area := w.ctxField asid 16 8 % 2 ^ 52
    let bytes := wordsBytes (w.hangGraph xs)
    let runs := if area = 0 then [] else byteRuns 16 bytes.length bytes
    w.storeWaits asid area runs = false →
    let u := w.storeGlobal asid area runs
    let v := xs.foldl (fun s x => s.trapAlone (x.1 / 128) (x.1 % 128) { code := 0x0E }) u
    Becomes (.evHang asid) s ((v.post [evWord 0x93 0x0E asid, w32 xs.length, 0, 0, 0, 0, 0, 0]).modCtx asid fun c =>
      { c with hang := 0 })

/-! ## Device steps: copies, launches, matrix units -/

/-- The copy engines act (08 R207 to R217): a request is admitted to a queue of 16 or refused and held, the oldest refused one
is admitted when it comes again 64 cycles later and finds room, one of four active requests starts and takes its steps while no other
is within the engine's burst (a step that ends in the midst of a burst, and has nothing to wait for, keeps the engine: log 21), an
ended one sends COPY_DONE, and one that waits on the pool for 100,000 ticks of TIME ends. -/
def Sys2Proof.Claim.CopyEvents : Prop :=
  (∀ (s : State) (f : Flight) (r : CopyReq), s.flight? f.id = some f →
    let e := f.dst - nodeEngine 0
    let q := s.engine e
    let u := s.dropFlight f.id
    (f.pkt = .copy r none → s.first f = true →
      (q.refused = [] → q.queue.length < 16 →
        Becomes (.evCopyRequestArrival f.id) s (u.modEngine e fun q => { q with queue := q.queue ++ [r] })) ∧
      ((q.refused ≠ [] ∨ 16 ≤ q.queue.length) →
        let v := s.modEngine e fun q => { q with refused := q.refused ++ [f.id] }
        Becomes (.evCopyRequestArrival f.id) s { v with flights := v.flights.map fun (g : Flight) =>
          if g.id == f.id then { g with pkt := .copy r (some s.cycle.toNat) } else g })) ∧
    ∀ since, f.pkt = .copy r (some since) → since + 64 ≤ s.cycle.toNat →
      (q.refused.head? = some f.id → q.queue.length < 16 → Becomes (.evCopyRequestRetry f.id) s
        (u.modEngine e fun q => { q with refused := q.refused.drop 1, queue := q.queue ++ [r] })) ∧
      ((q.refused.head? ≠ some f.id ∨ 16 ≤ q.queue.length) →
        Becomes (.evCopyRequestRetry f.id) s { s with flights := s.flights.map fun (g : Flight) =>
          if g.id == f.id then { g with pkt := .copy r (some s.cycle.toNat) } else g })) ∧
  ∀ (s : State) (e : Nat), let q := s.engine e
    let burst (g : State × CopyReq × Bool) : Option Nat := if g.2.2 && g.2.1.bursting then some g.2.1.seq else none
    (∀ r rest, q.queue = r :: rest → q.active.length < 4 → q.free r.seq = true →
      let g := s.copyGo e r
      Becomes (.evCopyRequestStart e) s ((g.1.modEngine e fun q =>
        { q with queue := rest, active := q.active ++ [g.2.1], burst := burst g }).enginePark e g.2.1)) ∧
    ∀ (n : Nat) (r : CopyReq), q.active[n]? = some r →
      (r.ended = true → Becomes (.evCopyRequestEnd e n) s
        (((s.modEngine e fun q => { q with active := q.active.eraseIdx n }).endClean e r).send (nodeEngine e) r.core r.asid (some r.op)
          (.msg ⟨r.asid, r.doneWords e⟩ false true))) ∧
      (r.ended = false → (∀ i, r.wait ≠ .replay i) → q.free r.seq = true →
        let g := s.copyGo e r
        Becomes (.evCopyRequestEnd e n) s
          ((g.1.modEngine e fun q => { q with active := q.active.set n g.2.1, burst := burst g }).enginePark e g.2.1)) ∧
      ∀ since, r.wait = .pool since → 100000 ≤ s.time.toNat - since →
        let v := match r.asked with | some c => r.stopAt c | none => r
        Becomes (.evCopyPoolTimeout e n) s (s.modEngine e fun q => { q with active := q.active.set n v })

/-- A bound port of LOCAL memory with room takes the next element of its pattern (R222), its bind counting as done once the
first is there, and the buffers of an unbound port return to the core (R224). -/
def Sys2Proof.Claim.StreamEvents : Prop :=
  (∀ (s : State) (c t n : Nat), let x := s.slice c t
    let p := tget {} x.ports n
    x.live = true → p.bound = true → p.buf.length < 8 → p.fetched < p.total → p.space ≠ 2 →
    let key (j : Nat) : Nat := localBase c + (s.localRun x).1 + (patAddr p.pattern p.fetched j).toNat
    let q : Port := { p with fetched := p.fetched + 1,
                             buf := p.buf ++ [(List.range 8).map fun j => w32 (mread s.mem (key j) 4)] }
    let u := s.modSlice c t fun x => { x with ports := tset x.ports n q }
    Becomes (.evStreamRefill c t n) s (if p.fetched = p.popped then u.endBind c t p else u)) ∧
  ∀ (s : State) (o : Op), s.op? o.id = some o → o.code = some 4 → o.left = 1 → o.dest = .none → o.osec = 9 →
    Becomes (.evStreamBufferReturn o.id) s
      ((s.modCore o.core fun k => { k with streamUsed := k.streamUsed - o.members.length }).finishOp { o with left := 0 })

/-- The launch controller acts (11 R271 to R282), after what stands at the homes of the tables that it reads (07 R195, R201): the
host's record leaves for it; a record is admitted to its queue, sheds one, or is dropped; a head's dependency is polled; a waiting
head's level rises; the chosen head's next team is placed; a cluster is drained for a head that waits, or the request refused; a
grid whose groups are gone, their accesses performed, completes. The matter number of a refusal's log record is log 27, the
allotment of a team log 48, the end of a drain log 62 (the model's). -/
def Obligations.LaunchEvents : Prop :=
  (∀ (s : State) (q : Nat) (ws : List Word), q < 128 → ws ≠ [] → ws.length ≤ 16 →
    let u := s.modQueue q fun c => { c with buffer := (indexed ws).foldl (fun b p => tset b (16 - ws.length + p.1) p.2) c.buffer }
    Becomes (.evLaunchRecordSubmit q ws) s (u.send nodeHost nodeLaunch hostAsid none
      (.launch q ((List.range 16).map (tget 0 (u.queue q).buffer)) none))) ∧
  (∀ (s : State) (f : Flight) (q : Nat) (ws : List Word), Due s f →
    let u := s.dropFlight f.id
    let r := u.admitRecord q ws
    (f.pkt = .launch q ws none → (u.queue q).enable = true →
      Becomes (.evRecordAdmission f.id) s (if r.2 = 1 then r.1.modQueue q fun c => { c with drops := c.drops + 1 } else r.1)) ∧
    (f.pkt = .launch q ws none → (u.queue q).enable = false →
      Becomes (.evRecordAdmission f.id) s (u.modQueue q fun c => { c with drops := c.drops + 1 })) ∧
    ∀ t d, f.pkt = .launch q ws (some (t, d)) → (u.queue q).enable = true →
      (u.queue q).asid = some f.asid → Becomes (.evRecordAdmission f.id) s (r.1.answer (f.op.getD 0) t d [r.2])) ∧
  (∀ (s v : State) (q asid k : Nat) (r : LRec) (rest : List LRec), (s.queue q).records = r :: rest → (s.queue q).asid = some asid →
    r.checked = true → r.depOk = false → recDep r.words ≠ 0 → s.translateNow asid (recDep r.words) .load = (v, .ok k) →
    v.unitWaits k = false →
    let u := (v.reachHome k 4).findErrors asid [k / 64]
    u.poisonedAt (k / 64) = false → (recW r.words 10).toNat ≤ mread u.mem k 4 →
    Becomes (.evDependencyPoll q) s (u.modQueue q fun c => { c with
      records := { r with depOk := true } :: rest, since := if c.enable then some u.cycle.toNat else none, aged := u.cycle.toNat })) ∧
  (∀ (s : State) (q : Nat), (s.queue q).since ≠ none → (s.queue q).aged + 2 ^ 20 ≤ s.cycle.toNat → (s.queue q).eff < 63 →
    Becomes (.evLevelAging q) s (s.modQueue q fun c => { c with eff := c.eff + 1, aged := c.aged + 2 ^ 20 })) ∧
  (∀ (s : State) (q asid : Nat) (cs : List Nat) (r : LRec) (rest : List LRec), (s.queue q).records = r :: rest →
    (s.queue q).asid = some asid →
    let cl := clusterOf (cs.headD 0)
    let u := s.reachHeads
    u.chosenQueue = some q → cs.length = recTeamSize r.words → cs.eraseDups = cs →
    (∀ k ∈ cs, clusterOf k = cl ∧ (u.allot asid k r.words).isSome = true) → cl < 16 →
    u.clusterFits asid cl (u.effLevel q) q r.words = true → u.resumeFirst (u.effLevel q) = false →
    Becomes (.evTeamPlacement q cs) s (u.placeTeam q asid r cs)) ∧
  (∀ (s : State) (q c since : Nat), (s.queue q).since = some since → since + s.drainDly ≤ s.cycle.toNat → c < 16 →
    (∀ k ∈ s.clusters, k.2.drain.any (·.1 == q) = false) →
    ((∀ d l, (s.cluster c).drain = some (d, l) → l < s.effLevel q) →
      Becomes (.evDrainDelayExpiry q c) s (s.modCluster c fun k => { k with drain := some (q, s.effLevel q) })) ∧
    ∀ d l, (s.cluster c).drain = some (d, l) → s.effLevel q ≤ l → Becomes (.evDrainDelayExpiry q c) s (s.policyRefused 4 q)) ∧
  ∀ (s : State) (n : Nat) (g : Grid), s.grids.lookup n = some g → g.allPlaced = true → g.groupsLeft = 0 →
    s.gridPerformed n = true →
    Becomes (.evGridCompletion n) s (({ s with grids := tdel s.grids n } : State).completeRec g.queue g.asid g.words
      (if g.killed then stKilled else stDone) n)

/-- Pre-emption and the repack unit act (11 R283, R284, R288 to R291; 15 R411 to R414): the groups of a team below a waiting
head's level halt; a halted group that has drained is saved, once its core's issues of the cycle are made (01 R12); a saved
team that fits again and that no higher head keeps out is resumed; a repack queue falls due, and the queue served next starts a warp.
What the launch controller and the repack unit read takes its place at its home first (07 R195, R201). -/
def Obligations.PreemptionEvents : Prop :=
  (∀ (s : State) (q n : Nat) (g : Group), s.group? n = some g → (s.queue q).since ≠ none →
    let gs := s.teamGroups n g
    gs ≠ [] → (∀ h ∈ gs, h.2.halt = 0 ∧ h.2.saved = false ∧ s.groupLevel h.1 h.2 < s.effLevel q) →
    Becomes (.evPreemptionRequest q n) s (gs.foldl (fun s h => s.haltForSave h.1 h.2) s)) ∧
  (∀ (s : State) (n : Nat) (g : Group), s.group? n = some g → g.saved = false → g.retired = false → g.halt = 2 →
    s.coreDone g.core = true → let u := s.reachSave g.asid g.core
    u.saveEntry g.asid g.core % 2 = 1 →
    let last := (s.presentOn g.asid g.core).all fun h => h.1 == n
    let ts := s.liveSlots n g ++ if last then s.handlersOn g.asid g.core else []
    (∀ t ∈ ts, (s.slice g.core t).drained = true ∧ ∀ i, (s.slice g.core t).park ≠ some (.answer i)) →
    s.opsDrained g.core ts = true → (s.core g.core).mat.has n = false →
    Becomes (.evGroupSave n) s (u.saveGroup n g last)) ∧
  (∀ (s : State) (n : Nat) (g : Group), s.group? n = some g →
    let gs := s.teamGroups n g
    let u := s.reachHeads
    u.teamCanResume gs = true → u.resumeHigher (s.teamLevel gs) = false →
    (∀ q ∈ u.queues, s.teamLevel gs < u.effLevel q.1 → u.headFits q.1 = false) →
    Becomes (.evGroupResume n) s (gs.foldl (fun s h => match s.group? h.1 with | some x => s.resumeGroup h.1 x | none => s) u)) ∧
  (∀ (s : State) (c rq asid k : Nat) (r : List Word × Nat) (rs : List (List Word × Nat)),
    let q := tget {} (s.core c).repack rq
    let u := s.reachTarget asid k
    q.key = some (asid, k) → q.records = r :: rs → r.2 + (u.target asid k).timeout ≤ s.cycle.toNat →
    Becomes (.evRepackTimeout c rq) s
      (u.modCore c fun k => { k with repack := tset k.repack rq { q with due := true } })) ∧
  ∀ (s : State) (c n asid k : Nat) (q0 : RepackQ) (slots : List Nat), let a := s.reachTargets c
    a.servedQueue c = some (n, q0) → q0.key = some (asid, k) →
    let t := a.target asid k
    s.freeBlock c (2 ^ t.width) ((s.savedOn asid c).flatMap fun g => g.savedSlices.map (·.1)) = some slots →
    let b := a.reachCore asid c
    t.entry ≠ 0 → b.ctxValid asid = true → b.coreFits asid c = true →
    let u := (b.enterCtx asid).restoreCore asid c
    let q := tget q0 (u.core c).repack n
    let rs := (q.records.take t.lanes).map (·.1)
    let rest := q.records.drop t.lanes
    let used := slots.take ((rs.length + 7) / 8)
    let g : Group := { asid := asid, grid := 0, team := 0, teamIx := 0, ix := 0, core := c, slots := used, localBase := 0,
                       localLen := 0, mclass := 0, barriers := 0, queues := 0, tiles := 0, teamSize := 1, level := t.level,
                       repacked := true }
    let v := ({ u with groups := tset u.groups u.nextId g, nextId := u.nextId + 1 } : State).modCore c fun k =>
      { k with repack := if rest.isEmpty then tdel k.repack n else tset k.repack n { key := q.key, records := rest } }
    Becomes (.evRepackWarpStart c) s (((indexed used).foldl (fun v p =>
      let mine := (rs.drop (8 * p.1)).take 8
      v.setSlice c p.2 (repackSlice (freshSlice asid u.nextId 0 p.1 (2 ^ t.width) t.param t.entry v.cycle.toNat
        (BitVec.ofNat 8 (2 ^ mine.length - 1))) mine)) v).acquireNow c 4)

/-- The matrix unit acts (12 R303 to R326): the oldest command of the highest class that can start does so, after filler when
the unit has idled; a step ends, and the command goes on or gives way to a higher class; MLD and MST move word by word; a
command's end performs it; filler and the ramp's hold end; a remote command is entered, faults or is refused; a partner's
fragment arrives; MCAP is written. The order in which refused remote commands are kept is log 71 (DESIGN CHOICE), that of filler
and giving way log 46 (the model's). -/
def Obligations.MatrixEvents : Prop :=
  (∀ (s : State) (c : Nat), let u := (s.core c).mat
    let now := s.cycle.toNat
    (∀ m, u.running = none → u.next now = some m →
      (u.filler = none → m.kind.isMma = true → m.cls ∉ u.served → 256 ≤ u.idle now →
        Becomes (.evMatrixCommandStart c) s (s.modMat c fun u =>
          { u with filler := some (now + 47), fillerCmd := true, served := u.served ++ [m.cls] })) ∧
      (u.filler = none → (m.kind.isMma = false ∨ m.cls ∈ u.served ∨ u.idle now < 256) →
        Becomes (.evMatrixCommandStart c) s (s.modMat c fun u =>
          let r := u.take m
          { r.1 with running := some (r.2, now + r.2.cycles - 1),
                     served := if m.kind.isMma then u.served.filter (· != m.cls) else u.served }))) ∧
    (∀ m e, u.running = some (m, e) → (∃ a, m.kind = .mld a ∨ m.kind = .mst a) → m.step + 1 < 2048 →
      Becomes (.evMatrixStepEnd c) s ((s.moveWords c m 1).modMat c fun u =>
        { u with running := some ({ m with step := m.step + 1 }, e) })) ∧
    (∀ m e, u.running = some (m, e) → e < now →
      (m.kind.isMma = true → m.step + 1 < m.steps →
        let m1 := { m with step := m.step + 1, entered := e }
        Becomes (.evMatrixStepEnd c) s ((s.modCore c fun k => k.mmaStep m).modMat c fun u =>
          if u.higher now m1 then { u.setQ m1.cls (m1 :: u.q m1.cls) with running := none, since := max u.since (e + 1) }
          else { u with running := some (m1, e + m1.cycles) })) ∧
      (m.kind.isMma = true → m.steps ≤ m.step + 1 →
        Becomes (.evMatrixCommandEnd c) s (((s.modCore c fun k => k.mmaStep m).modMat c fun u =>
          { u with running := none, since := max u.since (e + 1) }).endTiles c m.group)) ∧
      (m.kind.isMma = false →
        Becomes (.evMatrixCommandEnd c) s (((s.performTile c m).modMat c fun u => { u with running := none }).endTiles c
          m.group))) ∧
    (∀ e, u.filler = some e → e < now → Becomes (.evFillerEnd c) s
      (s.modMat c fun u => { u with filler := none, fillerCmd := false, since := max u.since (e + 1) })) ∧
    (∀ e, u.holdEnd = some e → e < now → Becomes (.evRampHoldEnd c) s
      (s.modMat c fun u => { u with holdEnd := none, since := max u.since (e + 1) })) ∧
    ∀ t hi v w, (s.slice c t).live = true → s.mcapWrite c t hi v = some w → Becomes (.evMcapWrite c t hi v) s w) ∧
  ∀ (s : State) (f : Flight), Due s f →
    let u := s.dropFlight f.id
    (∀ g j a, f.pkt = .afrag g j a →
      ((∀ x, u.group? g = some x → x.retired = false) → (u.group? g).isSome = true →
        Becomes (.evTeamFragmentArrival f.id) s (u.modMat f.dst fun m => { m with afrags := m.afrags ++ [(g, j, a)] })) ∧
      (u.group? g = none → (u.core f.dst).mat.has g = false → Becomes (.evTeamFragmentArrival f.id) s u)) ∧
    ∀ m cap name ts, f.pkt = .mreq m cap name ts → s.coreDone f.dst = true →
      let listed (t : State) : State := t.modMat f.dst fun v => { v with refused := v.refused.filter fun r => (t.flight? r.1).isSome }
      (∀ o, f.op = some o.id → u.op? o.id = some o → s.mcapOwner f.dst = none →
        Becomes (.evRemoteMmaArrival f.id) s (listed (u.finishOp { o with fault := some (0x15, f.dst) }))) ∧
      ∀ g x d, s.mcapOwner f.dst = some (g, x) → (s.core f.dst).mat.mcap = cap → cap ≠ 0 →
        (s.core f.dst).allocTile g name = some d →
        ((s.core f.dst).mat.remoteRoom f.id x.mclass = true →
          Becomes (.evRemoteMmaArrival f.id) s (listed ((u.enterMat f.dst { m with group := g, cls := x.mclass, d := d }
            s.doneCycle).dropOp (f.op.getD 0)))) ∧
        ((s.core f.dst).mat.remoteRoom f.id x.mclass = false → (s.core f.dst).mat.refused.contains (f.id, x.mclass) = false →
          Becomes (.evRemoteMmaArrival f.id) s (listed (s.modMat f.dst fun v =>
            { v with refused := v.refused.filter (·.1 != f.id) ++ [(f.id, x.mclass)] })))

/-! ## Device steps: traversal processors, tables, plans, services -/

/-- What a traversal thread waits for comes (13 R342, R351, R352, R355, R357, R340): a node goes to the node buffer, a vector
distance to W[D], spilled entries back on chip, an EMIT store to memory; the thread then goes on, after its last
store to its end or, migrating, by sending its context. -/
def Sys2Proof.Claim.ThreadWaitEvents : Prop :=
  ∀ (s : State) (c n : Nat), let t := s.thread c n
    (∀ a, t.wait = .node true a → s.ownsSpan (a / 2 ^ 18) t.asid (a % 2 ^ 18) 128 = true →
      Becomes (.evNodeFetchComplete c n) s (s.putNode c n (mbytes s.mem (localBase (a / 2 ^ 18) + a % 2 ^ 18) 128))) ∧
    (∀ a u bs, t.wait = .node false a → s.threadLoad c n t.asid a 128 = .ok (u, bs) →
      Becomes (.evNodeFetchComplete c n) s (u.putNode c n bs)) ∧
    (∀ d a b u v q x, t.wait = .vector d a b →
      let w := t.wr b
      let len := bits w 0 12 * (vdistFmt w).2
      let ws := t.node.getD []
      s.threadLoad c n t.asid ((t.wr a).toNat + bits (t.wr (a + 1)) 0 20 * 2 ^ 32) len = .ok (u, q) →
      u.threadLoad c n t.asid ((ws.getD 1 0).toNat + bits (ws.getD 2 0) 0 20 * 2 ^ 32) len = .ok (v, x) →
      Becomes (.evVectorReadComplete c n) s ((v.modThread c n fun t => t.setW d (vdist w q x)).goNext c n)) ∧
    (∀ d u es, t.wait = .reload d false → s.spilled c n t (t.spb - 1) 1 = .ok (u, es) →
      Becomes (.evStackReloadComplete c n) s ((u.modThread c n fun _ =>
        ((t.setStack (es.reverse.map (·, false))).setSpb (t.spb - 1)).popNow d).goNext c n)) ∧
    (∀ d u es, t.wait = .reload d true → s.spilled c n t (t.spb - 1) 1 = .ok (u, es) →
      Becomes (.evStackReloadComplete c n) s ((u.modThread c n fun _ =>
        (t.setW d (w32 (es.getD 3 0 / 2 ^ 46 * 2 ^ 14))).setEmpty false).goNext c n)) ∧
    (∀ u es, t.wait = .restore → t.inPlace = true → s.spilled c n t t.spb ((t.depth + 3) / 4) = .ok (u, es) →
      Becomes (.evStackReloadComplete c n) s (u.modThread c n fun t =>
        { t with stack := (es.take t.depth).reverse.map (·, false), wait := .ready })) ∧
    (∀ i e, t.stack[i]? = some (e, false) → bitAt e 45 = true →
      Becomes (.evStackEntryReady c n i) s (s.modThread c n fun t => { t with stack := t.stack.set i (e, true) })) ∧
    (∀ i e u k, t.stack[i]? = some (e, false) → bitAt e 45 = false →
      s.translateNow t.asid (e % 2 ^ 45 * 128) .load = (u, .ok k) → k < 2 ^ 52 →
      Becomes (.evStackEntryReady c n i) s ((u.dcacheFor (k / 256) 0 false).modThread c n fun t =>
        { t with stack := t.stack.set i (e, true) })) ∧
    let goesOn (u : State) : Prop :=
      ((u.thread c n).emits ≠ 0 → Becomes (.evEmitAcknowledge c n) s u) ∧
      ((u.thread c n).emits = 0 →
        ((∀ a h d o, (u.thread c n).wait ≠ .migrating a h d false o) →
          Becomes (.evEmitAcknowledge c n) s (u.tryFinish c n)) ∧
        ∀ a h d o v, (u.thread c n).wait = .migrating a h d false o → u.sendContext c n = .ok v →
          Becomes (.evEmitAcknowledge c n) s v)
    (s.emitOf c n = none → goesOn s) ∧
    ∀ f k bs, s.emitOf c n = some (f, k, bs) → s.unitWaits k = false →
      goesOn (((s.dropFlight f.id).threadStore f.asid k bs).modThread c n fun t => { t with emits := t.emits - 1 })

/-- The rakes' other steps (13 R328, R331, R356 to R362, R367): a free slot takes an inbound context or a request, the two
sources in turn; a context arrives and is admitted, refused, or told to stay; a completion reaches its entry; a kernel is
loaded. What goes over a link takes its number, and waits while no port to the peer is up, or requests to it are held (18 R439 to
R441); a context for a peer without a path stays. -/
def Sys2Proof.Claim.RakeEvents : Prop :=
  (∀ (s : State) (c n : Nat), let r := s.rake c
    n < 32 → (tget {} r.threads n).used = false → (∀ i < n, (tget {} r.threads i).used = true) →
    (∀ x, r.nextInbound = some x → (r.nextLocal = none ∨ r.lastInbound = false) →
      Becomes (.evThreadSlotFill c) s (s.startInbound c n x)) ∧
    ∀ e, r.nextLocal = some e → (r.nextInbound = none ∨ r.lastInbound = true) →
      Becomes (.evThreadSlotFill c) s (s.startLocal c n e)) ∧
  (∀ (s : State) (f : Flight) (x : Inbound) (n : Nat), Due s f → f.pkt = .inbound x n →
    let c := f.dst - nodeRake 0
    let r := s.rake c
    let out := f.dst - nodePeer 0
    let back := f.src - nodePeer 0
    let come (t : State) : State := if toPeer f.src then t.modPeer back fun p =>
      { p with recvSeq := (p.recvSeq + 1) % 2 ^ 32, acks := p.acks ++ [p.recvSeq] } else t
    (r.refused.contains f.id = false → s.refusedSince f n = none →
      (toPeer f.dst = false → (toPeer f.src = true → s.portUp back = true) →
        Becomes (.evInboundContextArrival f.id) s ((come s).arriveContext f x n false)) ∧
      (toPeer f.dst = false → toPeer f.src = true → s.portUp back = false → Becomes (.evInboundContextArrival f.id) s s) ∧
      (toPeer f.dst = true →
        ((s.peer out).held = true ∨ (s.hasPath out = true ∧ s.portUp out = false) → Becomes (.evInboundContextArrival f.id) s s) ∧
        ((s.peer out).held = false → s.hasPath out = false → Becomes (.evInboundContextArrival f.id) s (s.noKernel f x n)) ∧
        ((s.peer out).held = false → s.hasPath out = true → s.portUp out = true → Becomes (.evInboundContextArrival f.id) s
          ((s.modPeer out fun p => { p with nextSeq := (p.nextSeq + 1) % 2 ^ 32 }).arriveContext f x n false)))) ∧
    (nodeRake 0 ≤ f.dst → (toPeer f.src = true → s.portUp back = true) → s.threadKilled (x.w.getD 31 0) = false →
      (r.kernel x.asid (bits (x.w.getD 31 0) 9 4)).isSome = true → r.inbound.length < 16 →
      (r.refused = [] → s.refusedSince f n = none → Becomes (.evInboundContextArrival f.id) s
        (((come s).freeSender f n).modRake c fun r => { r with inbound := r.inbound ++ [x] })) ∧
      (r.refused.head? = some f.id → (f.fromRake = true → s.refusedSince f n ≠ none) →
        (∀ since, s.refusedSince f n = some since → since.2 + 64 ≤ s.cycle.toNat ∧ s.cycle.toNat < since.1 + 2048) →
        Becomes (.evMigrationRetry f.id) s
        ((come (s.modRake c fun r => { r with refused := r.refused.filter (· != f.id) })).arriveContext f x n true))) ∧
    ∀ since, s.refusedSince f n = some since → since.1 + 2048 ≤ s.cycle.toNat →
      Becomes (.evMigrationRefusalLimit f.id) s
        ((s.modRake c fun r => { r with refused := r.refused.filter (· != f.id) }).noKernel f x n)) ∧
  (∀ (s u : State) (f : Flight) (d : TDone), Due s f → f.pkt = .tdone d → (f.dst < 256 ∨ nodeRake 0 ≤ f.dst) →
    let c := if f.dst < 256 then f.dst else f.dst - nodeRake 0
    let v := s.dropFlight f.id
    let q : TReq := tget {} (v.rake c).reqs d.rqe
    q.used = true → q.asid = f.asid → q.held = none →
    ((f.src < nodePeer 0 ∨ nodePeer 8 ≤ f.src) → v.deliver c d.rqe d.words d.status = some u →
      Becomes (.evTraversalCompletion f.id) s u) ∧
    ∀ p, f.src = nodePeer p → p ≤ 7 →
      (v.portUp p = true → (v.modPeer p fun r => { r with recvSeq := (r.recvSeq + 1) % 2 ^ 32, acks := r.acks ++ [r.recvSeq] }).deliver
        c d.rqe d.words d.status = some u → Becomes (.evTraversalCompletion f.id) s u) ∧
      (v.portUp p = false → Becomes (.evTraversalCompletion f.id) s s)) ∧
  ∀ (s : State) (f : Flight) (t d kid o n addr c : Nat), Due s f → f.pkt = .kload t d kid o n addr c →
    s.waitsReplay (.flight f.id) = false →
    ∀ x, (s.rake c).regions.find? (fun x => x.2.1 == f.asid) = some x →
      (x.2.2.2 < o + n → Becomes (.evKernelLoadRequest f.id) s (s.loadDone f c t d kid 2)) ∧
      (o + n ≤ x.2.2.2 → (s.rake c).kernelLive f.asid kid = true →
        Becomes (.evKernelLoadRequest f.id) s (s.loadDone f c t d kid 1)) ∧
      (o + n ≤ x.2.2.2 → (s.rake c).kernelLive f.asid kid = false →
        let u := s.modRake c fun r =>
          { r with kernels := r.kernels.filter fun k => !(k.1 == f.asid && k.2.1 == kid),
                   loading := (f.asid, kid) :: r.loading.filter (· != (f.asid, kid)) }
        ∀ v bs, u.rakeLoad f.asid addr (4 * n) = .ok (v, bs) →
          Becomes (.evKernelLoadRequest f.id) s ((v.modRake c fun r =>
            { r with program := (List.range n).foldl (fun p i => tset p (x.2.2.1 + o + i) (wordAt bs i)) r.program,
                     kernels := r.kernels ++ [(f.asid, kid, o, n)] }).loadDone f c t d kid 0))

/-- The version table and the deadline commit unit act (14 R377 to R380, R387 to R393): pins, publications and their
answers; a plan request is answered or starts its read; a read's end arms, extends or commits a slot; a deadline that passes
publishes the fallback. -/
def Sys2Proof.Claim.PlanEvents : Prop :=
  (∀ (s : State) (f : Flight), Due s f →
    let u := s.dropFlight f.id
    (∀ st op t d, f.pkt = .table (.pin st op t d) →
      let r := u.pinCurrent f.asid st
      Becomes (.evTableRequest f.id) s (r.1.answer op t d r.2)) ∧
    (∀ st n, f.pkt = .table (.unpin st n) → u.ownsStruct f.asid st = true →
      Becomes (.evTableRequest f.id) s (u.unpinSlot st n)) ∧
    (∀ st op t d c root inv, f.pkt = .table (.publish st op t d c root inv) →
      let r := u.publishRoot f.asid st c root inv
      Becomes (.evTableRequest f.id) s (r.1.answer op t d r.2)) ∧
    (∀ st core op es, f.pkt = .table (.pinLanes st core op es) →
      let r := u.pinLanes f.asid st es.length
      Becomes (.evTableRequest f.id) s (r.1.modRake core fun k => es.foldl (fun (k : Rake) e =>
        let q : TReq := tget {} k.reqs e
        { k with reqs := tset k.reqs e { q with pin := r.2.map fun n => (st, n), waiting := false } }) k)) ∧
    (∀ slot op t d, (f.pkt = .plan slot (.qry op t d) ∨ f.pkt = .plan slot (.dis op t d)) →
      s.waitsReplay (.flight f.id) = false →
      ∀ r, f.pkt = .plan slot r →
        Becomes (.evPlanRequestArrival f.id) s (((s.expireDue slot).dropFlight f.id).planArrives f slot r)) ∧
    ∀ slot op t d b, f.pkt = .plan slot (.com op t d b) →
      let r : PlanReq := .com op t d b
      let v := u.expireDue slot
      (r.malformed = true → Becomes (.evPlcomArrival f.id) s (r.reply v [plMalformed])) ∧
      (r.malformed = false → v.ownsPlan f.asid slot = true → (v.plan slot).state = 1 →
        (v.plan slot).deadline.toNat ≤ v.time.toNat → Becomes (.evPlcomArrival f.id) s (r.reply v [plLate])) ∧
      (r.malformed = false → v.ownsPlan f.asid slot = true → (v.plan slot).state = 1 →
        v.time.toNat < (v.plan slot).deadline.toNat → bitAt (recNat b 12 4) 8 = false →
        staleVersion (v.struct (recNat b 12 4 % 2 ^ 8)).lastinv (w32 (recNat b 16 4)) = true →
        Becomes (.evPlcomArrival f.id) s (r.reply v [plStale])) ∧
      (r.malformed = false → v.ownsPlan f.asid slot = true → (v.plan slot).state = 1 →
        v.time.toNat < (v.plan slot).deadline.toNat →
        (bitAt (recNat b 12 4) 8 = true ∨
          staleVersion (v.struct (recNat b 12 4 % 2 ^ 8)).lastinv (w32 (recNat b 16 4)) = false) →
        Becomes (.evPlcomArrival f.id) s ((r.reply (v.modPlan slot fun p => { p with state := 2, jobTime := v.time.toNat })
          [plDone]).send nodePlan nodePlan f.asid none (.planData slot r 0)))) ∧
  (∀ (s : State) (f : Flight) (slot op t d outp : Nat) (b : List Byte), s.flight? f.id = some f →
    s.waitsReplay (.flight f.id) = false →
    let v := s.expireDue slot
    (f.pkt = .planData slot (.arm op t d b) outp → ∀ w bs,
      v.unitRead f.asid (recNat b 16 8) (recNat b 24 2 / 64) [] = .data w bs →
      Becomes (.evPlarmReadComplete f.id) s ((w.dropFlight f.id).planRead f slot (.arm op t d b) outp (some bs))) ∧
    (f.pkt = .planData slot (.bit op t d b) outp → ∀ w bs,
      v.unitRead f.asid (recNat b 0 8) (recNat b 8 4 / 64) [] = .data w bs →
      Becomes (.evPlbitReadComplete f.id) s ((w.dropFlight f.id).planRead f slot (.bit op t d b) outp (some bs))) ∧
    (s.commitOf slot = some (f, .com op t d b) → ∀ w bs,
      v.unitRead f.asid (recNat b 0 8) (recNat b 8 4 / 64) [] = .data w bs →
      Becomes (.evPlanWriteComplete slot) s ((w.dropFlight f.id).planRead f slot (.com op t d b) 0 (some bs)))) ∧
  ∀ (s : State) (slot : Nat),
    ((s.plan slot).state = 1 → (s.plan slot).deadline.toNat ≤ s.time.toNat → (s.plan slot).armed < s.time.toNat →
      Becomes (.evDeadlineExpiry slot) s (s.publishFallback slot true)) ∧
    (((s.plan slot).state ≠ 1 ∨ s.time.toNat < (s.plan slot).deadline.toNat ∨ s.time.toNat ≤ (s.plan slot).armed) →
      Becomes (.evDeadlineExpiry slot) s s)

/-- A TRQ's pin request for k lanes adds k to PINS and to QPINS of the CURRENT slot and names that slot to its lanes; with no CURRENT
slot it pins nothing. The end of a lane's request frees its entry and takes one from both counts of the slot it pinned, and an OLD
slot whose PINS reaches 0 is FREE again and its builder's core gets VERSION_RETIRED (14 R378, Table 14-3). That the request of a
structure released meanwhile pins nothing is log 31. -/
def Sys2Proof.Claim.LanePins : Prop :=
  (∀ (s : State) (asid st k : Nat), let x := s.struct st
    (∀ n, s.ownsStruct asid st = true → x.cur = some n → let v := x.slot n
      (s.pinLanes asid st k).2 = some n ∧ (s.pinLanes asid st k).1 =
        s.modStruct st fun x => x.modSlot n fun _ => { v with pins := v.pins + k, qpins := v.qpins + k }) ∧
    (s.ownsStruct asid st = false ∨ x.cur = none → s.pinLanes asid st k = (s, none))) ∧
  ∀ (s : State) (c e : Nat), let q : TReq := tget {} (s.rake c).reqs e
    let u := s.modRake c fun r => { r with reqs := tset r.reqs e {}, order := r.order.filter (· != e) }
    (q.pin = none → s.freeEntry c e = u) ∧
    ∀ st n, q.pin = some (st, n) → let x := s.struct st
      let v := x.slot n
      let w := u.modStruct st fun x => x.modSlot n fun _ => { v with pins := v.pins - 1, qpins := v.qpins - 1 }
      (v.state ≠ 2 ∨ 1 < v.pins → s.freeEntry c e = w) ∧
      (v.state = 2 → v.pins = 1 → s.freeEntry c e =
        (w.modStruct st fun x => x.modSlot n fun _ => {}).unitMsg nodeTable v.bcore x.asid 0x82 0x01A1 (w32 st)
          [w32 (st + n * 2 ^ 8), v.num, v.root.setWidth 32, v.root.extractLsb' 32 32, 0, 0])

/-- The services answer (06 R166 to R168): a well-formed texture request whose descriptor and texels can be read gets its
filtered texel, a raster request its coverage; a request with a fault in it is rejected with its reason. An input queue that
is full, as the free value of log 30 tells, refuses the request, and the oldest refused one comes again. -/
def Sys2Proof.Claim.ServiceEvents : Prop :=
  ∀ (s : State) (f : Flight) (c : Nat) (ws : List Word), s.flight? f.id = some f →
    let src := 0x180 + (f.dst - nodeTexture 0)
    let w (i : Nat) : Nat := (ws.getD i 0).toNat
    let da := w 1 + 2 ^ 32 * w 2
    let x := f32.decode (w 3)
    let y := f32.decode (w 4)
    let good := w 0 / 2 ^ 24 ≤ 1 ∧ w 0 % 2 ^ 24 = 0 ∧ w 2 < 2 ^ 20 ∧ da % 16 = 0 ∧ x.isFin = true ∧ y.isFin = true ∧ w 5 = 0 ∧
      w 6 = 0
    let answers (u t : State) : Prop := (¬ good ∧ t = u.reject f src ws 1 0) ∨
      ∃ v d x' z l, good ∧ u.serviceRead f.asid da 16 = (v, some (.ok d)) ∧ Tex.of d = some x' ∧
        State.readTexels f.asid x'.size (x'.wanted (w 0 / 2 ^ 24 == 1) x y) v [] = (z, some (.ok l)) ∧
        t = (z.texResult x' l).1.reply f src 0x84 (ws.getD 7 0) (z.texResult x' l).2
    (s.first f = true →
      let full := Config.freeBool s.freeCount || s.serviceRefused f.dst s.nextId
      let v : State := { s with freeCount := s.freeCount + 1 }
      (f.pkt = .service c true ws 0 → Becomes (.evRasterRequest f.id) s
        (if full then v.refuseService f.id else (v.dropFlight f.id).raster f ws)) ∧
      (∀ t, f.pkt = .service c false ws 0 → answers (v.dropFlight f.id) t → Becomes (.evTextureRequest f.id) s
        (if full then v.refuseService f.id else t))) ∧
    ∀ k, k ≠ 0 → s.serviceRefused f.dst k = false →
      (f.pkt = .service c true ws k → Becomes (.evServiceRequestRetry f.id) s ((s.dropFlight f.id).raster f ws)) ∧
      ∀ t, f.pkt = .service c false ws k → answers (s.dropFlight f.id) t → Becomes (.evServiceRequestRetry f.id) s t

/-! ## Device steps: system registers, unit control, debugger, host, management, links -/

/-- Writes of device registers act in the step (15 R397 to R405): EQRES lets a waiter try again or ends it, or notes the decline
for slices that are saved; XLINV drops translations, EQHEAD lets waiting records in, the limits of a context change, and any
device register takes its value; a slice reads a counter. -/
def Sys2Proof.Claim.SystemEvents : Prop :=
  ∀ s : State,
    (∀ idx r, s.replayOf idx = some r →
      let u : State := { s with replays := dropReplay r s.replays }
      (∀ c t, r.who = .slice c t → Becomes (.evEqresRetry idx) s
        ((u.replayGang c idx).foldl (fun s t => s.modSlice c t fun x => { x with woken := true }) u)) ∧
      (∀ c t, r.who = .slice c t →
        let x := u.slice c ((u.replayGang c idx).headD 0)
        let pc := if x.frame.act && !x.frame.susp then x.frame.addr x.frame.j else x.path.pc
        (s.replaySaved r = false → Becomes (.evEqresDecline idx) s
          (u.trap c (u.replayGang c idx) { code := r.code, addr := r.addr, lanes := r.lanes } pc pc)) ∧
        (s.replaySaved r = true → Becomes (.evEqresDecline idx) s { s with
          replays := s.replays.map fun (q : Replay) => if q = r then { q with declined := true } else q })) ∧
      (∀ e q, r.who = .copy e q →
        Becomes (.evEqresRetry idx) s (u.copyReplay e q fun r => { r with wait := .none }) ∧
        Becomes (.evEqresDecline idx) s
          (u.copyReplay e q fun r => match r.asked with | some c => r.stopAt c | none => r))) ∧
    (∀ v, Becomes (.evEqheadWrite v) s
      ({ s with sys := { s.sys with eqhead := w32 (bits v 0 12) } } : State).eqGo) ∧
    (∀ a, Becomes (.evXlinvAsid a) s (s.setSysReg 0xB1 (w32 (a % 2 ^ 16)))) ∧
    (∀ a p, Becomes (.evXlinvPage a p) s
      ((s.setSysReg 0xB0 (w32 p)).setSysReg 0xB1 (w32 (a % 2 ^ 16 + 2 ^ 17 + p / 2 ^ 32 % 16 * 2 ^ 20)))) ∧
    Becomes .evXlinvAll s (s.setSysReg 0xB1 (w32 (2 ^ 16))) ∧
    (∀ a v, Becomes (.evHanglimWrite a v) s (s.setLimit (a % 2 ^ 16) true v) ∧
      Becomes (.evSectlimWrite a v) s (s.setLimit (a % 2 ^ 16) false v)) ∧
    (∀ r v, Becomes (.evSystemRegisterWrite r v) s (s.setSysReg r v)) ∧
    ∀ c t d, (s.slice c t).live = true → d < 32 →
      (let r := s.sysRead c t 0x40
       Becomes (.evCycloRead c t d) s (r.1.modSlice c t fun x => x.setS d r.2)) ∧
      (let r := s.sysRead c t 0x42
       Becomes (.evTimeloRead c t d) s (r.1.modSlice c t fun x => x.setS d r.2))

/-- A request of unit control is performed, and UCSTAT takes its outcome (15 R399, Table 15-2): an instance that does not
exist has no effect. A launch queue's flush drops its records. -/
def Sys2Proof.Claim.UnitControlEvents : Prop :=
  ∀ (s : State) (inst : Nat) (d0 d1 d2 : Word), inst < 2 ^ 16 →
    let asked (kind : Nat) (d1 d2 : Word) : State := { s with sys := { s.sys with
      ucsel := w32 (kind + inst * 2 ^ 8), ucdata0 := d0, ucdata1 := d1, ucdata2 := d2 } }
    let done (r : State × Nat) : State := { r.1 with sys := { r.1.sys with ucstat := w32 r.2 } }
    Becomes (.evUcClusterExtent inst d0) s (done ((asked 1 0 0).ucExtent inst d0)) ∧
    Becomes (.evUcRawRegion inst d0 d1 d2) s (done ((asked 2 d1 d2).ucRaw inst d0 d1 d2)) ∧
    Becomes (.evUcPoolFail inst d0) s (done ((asked 3 0 0).ucPoolFail inst d0)) ∧
    Becomes (.evUcLaunchQueue inst d0 d1) s (done ((asked 4 d1 0).ucQueue inst d0 d1)) ∧
    Becomes (.evUcRangeDeque inst d0) s (done ((asked 5 0 0).ucDeque inst d0)) ∧
    Becomes (.evUcStructure inst d0) s (done ((asked 6 0 0).ucStruct inst d0)) ∧
    Becomes (.evUcPlanSlot inst d0) s (done ((asked 7 0 0).ucPlan inst d0)) ∧
    Becomes (.evUcProgramMemory inst d0 d1 d2) s (done ((asked 8 d1 d2).ucProgram inst d0 d1 d2)) ∧
    (inst < 128 → Becomes (.evLaunchQueueFlush inst) s ((s.flushQueue inst).refreshHead inst))

/-- The debug mailbox's commands act on a core of the device with no STEP or MEM under way (15 R415 to R418, R450): ATTACH,
HALT, RESUME, STEP, READ, WRITE, WATCH, MEM and the clearing of a report, each with its result; a STEP that waits 1,000 ticks
ends. Result 1 of MEM without an attached context and of the arguments of READ and WRITE is log 35 (DEDUCED); the lane mask of a
HALT's report is a free value (log 3). -/
def Obligations.DebugEvents : Prop :=
  ∀ (s : State) (c : Nat), c < 256 →
    (∀ t since, (s.core c).stepping = some (t, since) → since + 1000 ≤ s.time.toNat →
      Becomes (.evStepStallLimit c) s (s.endStep c 3)) ∧
    (∀ r rest, (s.core c).reportsWaiting = r :: rest → Becomes (.evClearReport c) s (s.modCore c fun k =>
      { k with report := r, reportsWaiting := rest, dbgstat := w32 (1 + bits (r.headD 0) 8 7 * 2 ^ 8) })) ∧
    ((s.core c).reportsWaiting = [] → Becomes (.evClearReport c) s (s.modCore c fun k =>
      { k with dbgstat := w32 (k.dbgstat.toNat / 2 * 2) })) ∧
    ((s.core c).stepping = none → (s.core c).dbgMem = none →
      (∀ asid on, Becomes (.evAttach c asid on) s (((s.debugArgs c [w32 asid, if on then 1 else 0]).modCore c fun k =>
        { k with dbgctl := w32 (asid % 2 ^ 16 + (if on then 2 ^ 16 else 0) + (if k.dbgctl.getLsbD 17 then 2 ^ 17 else 0)) }
        ).debugDone c 0)) ∧
      (∀ t, let u := s.debugArgs c [w32 t]
        let x := u.slice c t
        ((128 ≤ t ∨ x.live = false) →
          Becomes (.evHalt c t) s (u.debugDone c 1) ∧ Becomes (.evResume c t) s (u.debugDone c 1) ∧
          Becomes (.evStep c t) s (u.debugDone c 1)) ∧
        (t < 128 → x.live = true →
          (x.halted = false → u.attached c x.asid = true →
            let v := (u.free.2.haltGroup c t 1).modSlice c t Slice.settle
            Becomes (.evHalt c t) s ((v.report c t 0 (v.slice c t).nextPc (u.free.1.setWidth 8)
              (v.ixMask c (v.haltedGang c t)) 0).debugDone c 0)) ∧
          (x.halted = false → u.attached c x.asid = false → Becomes (.evHalt c t) s ((u.haltGroup c t 1).debugDone c 0)) ∧
          (u.debugHalted c t = true →
            Becomes (.evResume c t) s ((u.resumeHalted c t).debugDone c 0) ∧
            Becomes (.evStep c t) s ((u.debugBusy c).modCore c fun k => { k with stepping := some (t, u.time.toNat) })))) ∧
      (∀ t off n, let u := s.debugArgs c [w32 t, w32 off, w32 n]
        (recordArgs t off n = false → Becomes (.evRead c t off n) s (u.debugDone c 1)) ∧
        (recordArgs t off n = true → (s.slice c t).halted = true →
          Becomes (.evRead c t off n) s ((u.debugData c (((u.sliceRecord c t).drop (off / 4)).take (n / 4))).debugDone c 0))) ∧
      (∀ t off ws, let u := (s.debugArgs c [w32 t, w32 off, w32 (4 * ws.length)]).debugData c ws
        (recordArgs t off (4 * ws.length) = false → Becomes (.evWrite c t off ws) s (u.debugDone c 1)) ∧
        (recordArgs t off (4 * ws.length) = true → (s.slice c t).halted = true →
        Becomes (.evWrite c t off ws) s ((u.writeRecord c t off ws).debugDone c 0))) ∧
      (∀ n a ah ctl, n ≤ 3 → bits ctl 5 4 ≤ 12 →
        Becomes (.evWatch c n a ah ctl) s (((s.debugArgs c [w32 n, a, ah, ctl]).modCore c fun k =>
          { k with wpaddr := tset k.wpaddr n a, wpaddrHi := tset k.wpaddrHi n (w32 (bits ah 0 20)),
                   wpctl := tset k.wpctl n (w32 (bits ctl 0 9)) }).debugDone c 0)) ∧
      ∀ space a len w data, let u := s.debugArgs c [w32 space, w32 a, w32 (a / 2 ^ 32), w32 len, if w then 1 else 0]
        let asid := bits (s.core c).dbgctl 0 16
        ((3 < space ∨ 256 < len ∨ (s.core c).dbgctl.getLsbD 16 = false) → Becomes (.evMem c space a len w data) s (u.debugDone c 1)) ∧
        (space = 0 → len ≤ 256 → (s.core c).dbgctl.getLsbD 16 = true →
          (∀ i < len, a + i < localSize ∧ u.ownsLocal c asid (a + i) = true) →
          let keys := (List.range len).map fun i => localBase c + (a + i)
          let v := u.modCore c fun k => { k with dbgMem := none }
          Becomes (.evMem c space a len w data) s (if w then
              ((indexed keys).foldl (fun s p => s.debugStore c p.2 (data.getD p.1 0)) v).debugDone c 0
            else (v.debugBytes c (keys.map (v.debugLoad c))).debugDone c 0)))

/-- The host's accesses, and the management commands of a powered device, act (18 R433 to R436, R443 to R447): BAR2 reads and
writes device memory after the atomics that stand there (07 R195), atomics get UR, DROPS clears after the records submitted
before, SENSORS, LOG, STAGE, COMMIT and ATTEST answer, the log reaches the flash, a shock is logged, a commit ends in an UPDATE.
-/
def Sys2Proof.Claim.ManagementEvents : Prop :=
  ∀ s : State, s.mgmt.power = true →
    (∀ off w data, data ≠ [] → off + data.length ≤ s.mgmt.bar2size →
      let pa := s.mgmt.bar2base + off
      let n := data.length
      let secs := (List.range ((pa + n - 1) / 64 - pa / 64 + 1)).map (pa / 64 + ·)
      let whole := secs.filter fun k => decide (pa ≤ 64 * k) && decide (64 * k + 64 ≤ pa + n)
      let touch (s : State) : State := secs.foldl (fun s k => s.dcacheFor (k / 4) 0 w) s
      let reply (s : State) (r : HostReply) : State := { s with mgmt := { s.mgmt with reply := r } }
      (dramSize < pa + n → Becomes (.evBar2Access off w data) s (reply s (if w then {} else { ur := true }))) ∧
      (pa + n ≤ dramSize → let u := s.settleRange pa n
        (w = true → Becomes (.evBar2Access off w data) s (reply (touch (whole.foldl State.clearPoison
          ((u.findErrors 0 (secs.filter fun k => !whole.contains k)).writeBytes pa data))) {})) ∧
        (w = false → let v := touch (u.findErrors 0 secs)
          Becomes (.evBar2Access off w data) s (reply v (if secs.any v.poisonedAt then { ep := true }
            else { data := mbytes v.mem pa n }))))) ∧
    (∀ off, off < s.mgmt.bar2size →
      Becomes (.evHostAtomicop off) s { s with mgmt := { s.mgmt with reply := { ur := true } } }) ∧
    (∀ q, q < 128 → Becomes (.evDropsWrite q 0) s (s.settleRecords.modQueue q fun c => { c with drops := 0 })) ∧
    Becomes .evSensors s (s.mgmtData (((List.range 64).map fun i => tget 0 s.mgmt.sensors i) ++ s.mgmt.rails |>.flatMap
      (natBytes 2))) ∧
    (∀ i n, (100 < n ∨ 8192 < i + n → Becomes (.evLog i n) s (s.mgmtDone 1)) ∧
      (n ≤ 100 → i + n ≤ 8192 → Becomes (.evLog i n) s
        (s.mgmtData ((List.range n).flatMap fun j => s.mgmt.log.getD (i + j) (List.replicate 32 0))))) ∧
    (∀ a n, s.mgmt.committing = none → 0 < n → a + n ≤ dramSize →
      let secs := (List.range ((a + n - 1) / 64 - a / 64 + 1)).map (a / 64 + ·)
      let u := (s.settleRange a n).findErrors 0 secs
      (∀ k ∈ secs, u.poisonedAt k = false) →
      Becomes (.evStage a n) s { u with mgmt := { u.mgmt with staged := mbytes u.mem a n, result := 0 } }) ∧
    (s.mgmt.committing = none → Becomes .evCommit s (if imagePasses s.mgmt.staged then
        { s with mgmt := { s.mgmt with committing := some s.mgmt.staged, result := 0 } }
      else s.free.2.mgmtDone (s.free.1.toNat % 256))) ∧
    (∀ img, s.mgmt.committing = some img → (∀ a n, Becomes (.evStage a n) s (s.mgmtDone 3)) ∧
      Becomes .evCommit s (s.mgmtDone 3) ∧
      let u := ({ s with mgmt := { s.mgmt with flash := img, flashOk := true, committing := none } } : State).log 8 []
      Becomes .evFlashCommitComplete s (if s.mgmt.recovery then u.boot else u)) ∧
    (∀ nonce, nonce.length = 32 →
      let img := sha512 s.mgmt.running
      let rcd := sha512 (Config.recordBytes s.mgmt.running)
      Becomes (.evAttest nonce) s (s.mgmtData (img ++ rcd ++
        Config.identitySign (sha512 (nonce ++ img ++ rcd ++ natBytes 4 0xA1))))) ∧
    Becomes .evLogFlashWrite s { s with mgmt := { s.mgmt with flushed := s.mgmt.log.length, flashAge := 0 } } ∧
    ∀ axis level, axis < 3 →
      (s.mgmt.shockThreshold < level →
        Becomes (.evShock axis level) s (s.log 3 (BitVec.ofNat 8 axis :: natBytes 2 level))) ∧
      (level ≤ s.mgmt.shockThreshold → Becomes (.evShock axis level) s s)

/-- Power, reset, temperature and the teardown of a context (18 R433, R444, R445, R447; 14 R394, R395): a reset leaves the
device as after boot; power comes and goes; between rotations the clock falls by 25 MHz at the configuration record's throttle
threshold or over a rail's limit, and rises again below its lower one; at the shutdown threshold every ARMED
slot's fallback is published, then every COMMITTING slot completes, then their PLAN_STATUS messages leave and the device stops, after
at most 50 ticks; a torn-down context leaves everything, once its COMMITTING slots have completed. That a read which has not come
after 50 ticks counts as failed is log 29 (the model's). -/
def Sys2Proof.Claim.PowerEvents : Prop :=
  (∀ s : State,
    (s.mgmt.power = true → s.mgmt.committing = none → Becomes .evDeviceReset s s.boot) ∧
    (s.mgmt.power = false → Becomes .evPowerOn s s.boot) ∧
    (∃ t, Becomes .evPowerLoss s t ∧ t.mgmt.power = false ∧ t.mgmt.log = s.mgmt.log.take s.mgmt.flushed ∧
      t.mgmt.flash = s.mgmt.flash ∧ t.slices = [] ∧ t.flights = []) ∧
    ∀ asid, let u := s.dropPlans asid
      (u.slotsIn 2 (Plan.isOf asid) ≠ [] → Becomes (.evContextTeardown asid) s u) ∧
      (u.slotsIn 2 (Plan.isOf asid) = [] → Becomes (.evContextTeardown asid) s
        (let t := (((((u.freePlans asid).dropTraversals asid).dropCopies asid).dropGroups asid).dropSections asid).dropQueues asid
         { t with ctxs := tdel t.ctxs asid }))) ∧
  ∀ s : State, s.mgmt.power = true → s.mgmt.shutdown = false →
    let m := s.mgmt
    let i := m.hottest.1
    let t := m.hottest.2
    (m.shutdownAt ≤ t ∨ m.closing ≠ none →
      let all : Plan → Bool := fun _ => true
      let armed := (s.slotsIn 1 all).map fun n => ((s.plan n).ncore, s.statusMsg n 2 (s.plan n).fb.length s.time.toNat 0 0)
      let since := (m.closing.map Prod.fst).getD s.time.toNat
      let owed := (m.closing.map Prod.snd).getD [] ++ armed
      let u := s.endPlans all
      let late := (u.slotsIn 2 all).foldl State.commitFails u
      let halts (v : State) : Prop := Becomes .evThermalShutdown s
        (let w := owed.foldl (fun s m => s.sendMsg nodePlan m.1 m.2) v
         ({ w with mgmt := { w.mgmt with shutdown := true, limit := 1, closing := none } } : State).log 1
          (BitVec.ofNat 8 i :: natBytes 2 t))
      (u.slotsIn 2 all = [] → halts u) ∧
      (u.slotsIn 2 all ≠ [] → s.time.toNat < since + 50 →
        Becomes .evThermalShutdown s { u with mgmt := { u.mgmt with closing := some (since, owed) } }) ∧
      (since + 50 ≤ s.time.toNat → late.slotsIn 2 all = [] → halts late)) ∧
    (s.cycle.toNat % 16 = 0 → s.visitCore = 0 → s.visitDp = 0 → m.lastThrottle + 100000 ≤ s.time.toNat →
      let down (limit : Nat) : State := { s with mgmt :=
        { m with clock := m.clock - 25, lastThrottle := s.time.toNat, limit := limit } }
      (m.clockLow + 25 ≤ m.clock →
        (m.throttleAt ≤ t →
          Becomes (.evThrottleStep false) s ((down 1).log 1 (BitVec.ofNat 8 i :: natBytes 2 t))) ∧
        ∀ r, t < m.throttleAt → m.overRail = some r →
          Becomes (.evThrottleStep false) s ((down 2).log 2 (BitVec.ofNat 8 r :: natBytes 2 (m.rails.getD r 0)))) ∧
      (t < m.raiseBelow → m.overRail = none → m.clock < m.ceiling →
        Becomes (.evThrottleStep true) s { s with mgmt :=
          { m with clock := m.clock + 25, lastThrottle := s.time.toNat,
                   limit := if m.clock + 25 < m.ceiling then m.limit else 0 } }))

/-- Links and requests to peers act (18 R438 to R441, 09 R240): a port trains with another device of its major version; a lane
is repaired once; a port fails; the next request in sequence is performed once, after what stands at the peer's units, and freed
by its acknowledgement; a peer's request is performed in sequence and acknowledged, a repeated one only acknowledged; with no
path left the peer is lost, what was for it discarded unless it is held since an earlier loss, and PEERCTL lets held requests go on.
A completion for a peer takes its number like a request, waits while requests are held or the paths retrain, and is kept until its
acknowledge (13 R339). A second far device on a port that
is up is log 70, a port's failure without a log record and the order among requests log 36, the payload of LINK_DOWN log 27 (the
model's). -/
def Obligations.LinkEvents : Prop :=
  (∀ (s : State) (p far major lane : Nat), p ≤ 3 →
    let l := s.link p
    (far ≤ 7 → s.lossDue far = false →
      (l.state = 0 → far ≠ s.mgmt.devnum → major = 1 → Becomes (.evLinkTraining p far major) s
        ((s.modLink p fun l => { l with state := 2, far := [far] }).modPeer far fun r => { r with path := true })) ∧
      (l.state = 2 → l.far.contains far = false → far ≠ s.mgmt.devnum → major = 1 → Becomes (.evLinkTraining p far major) s
        ((s.modLink p fun l => { l with far := l.far ++ [far] }).modPeer far fun r => { r with path := true })) ∧
      (l.state = 0 → (far = s.mgmt.devnum ∨ major ≠ 1) →
        Becomes (.evLinkTraining p far major) s (s.log 5 [BitVec.ofNat 8 p, 0]))) ∧
    (lane ≤ 4 → l.state ≠ 0 → l.spare = true → Becomes (.evLaneRepair p lane) s (s.modLink p fun l => { l with state := 0 })) ∧
    (lane ≤ 4 → l.state ≠ 0 → l.spare = false → Becomes (.evLaneRepair p lane) s ((s.modLink p fun l =>
      { l with state := 1, spare := true, lane := lane, since := s.time.toNat,
               errors := l.errors.filter (·.1 != lane) }).log 4
      [BitVec.ofNat 8 p, BitVec.ofNat 8 lane])) ∧
    (l.state = 1 → Becomes (.evLaneRetrainComplete p) s (s.modLink p fun l => { l with state := 2 })) ∧
    (l.state ≠ 0 → Becomes (.evLinkFailure p) s (s.modLink p fun l => { l with state := 0 }))) ∧
  (∀ (s : State) (f : Flight) (d : Nat), s.flight? f.id = some f → f.dst = nodePeer d → d ≤ 7 →
    (f.src < nodePeer 0 ∨ nodePeer 8 ≤ f.src) →
    let p := s.peer d
    let numbered (s : State) (f : Flight) : State := (s.modPeer d fun p => { p with
        unacked := p.unacked ++ [(f.id, p.nextSeq)], nextSeq := (p.nextSeq + 1) % 2 ^ 32 }).modOp (f.op.getD 0)
      fun o => { o with left := o.left + 1 }
    let u := s.settlePair d
    (((s.peerReqs d).find? fun g => !p.sent g.id).map (·.id) = some f.id → p.held = false →
      (p.path = false → Becomes (.evPeerRequestArrival f.id) s (s.discardRequest d f)) ∧
      (p.path = true → s.portUp d = true → s.resvOpen f = false →
        (∀ a sh, f.pkt = .global a sh → a.form ≠ .stc →
          Becomes (.evPeerRequestArrival f.id) s ((numbered u f).arriveGlobal f a sh)) ∧
        (∀ a sh, f.pkt = .global a sh → a.form = .stc →
          Becomes (.evPeerRequestArrival f.id) s (((u.stcRequests f).foldl (fun s r => numbered s r.1) u).performStc f)) ∧
        ∀ a, f.pkt = .reserve a → Becomes (.evPeerRequestArrival f.id) s ((numbered u f).arriveReserve f a))) ∧
    (p.sent f.id = true → s.queuesAtUnit f.id = false → s.portUp d = true →
      Becomes (.evPeerAcknowledge f.id) s (((s.dropFlight f.id).modPeer d fun p =>
        { p with unacked := p.unacked.filter (·.1 != f.id) }).lessLeft (f.op.getD 0)))) ∧
  (∀ (s : State) (f : Flight) (d seq : Nat) (a : Acc), s.flight? f.id = some f → f.src = nodePeer d → d ≤ 7 →
    f.pkt = .peerIn seq a → s.portUp d = true →
    let past := ((s.peer d).recvSeq + 2 ^ 32 - seq) % 2 ^ 32
    let acked (t : State) : State := t.modPeer d fun p => { p with acks := p.acks ++ [seq] }
    (past = 0 → a.form ≠ .ldr → a.form ≠ .stc → Becomes (.evPeerRequestArrival f.id) s
      (acked ((((s.dropFlight f.id).settle fun u => a.units.contains u.key).performGlobal { f with op := none } a []).modPeer d fun p =>
        { p with recvSeq := ((s.peer d).recvSeq + 1) % 2 ^ 32 }))) ∧
    (past ≠ 0 → past ≤ 4096 → Becomes (.evPeerRequestArrival f.id) s (acked (s.dropFlight f.id)))) ∧
  (∀ (s : State) (d : Nat), d ≤ 7 → (s.peer d).path = true → (∀ p ∈ s.links, p.2.state = 0 ∨ p.2.far.contains d = false) →
    (∃ t, Becomes (.evPeerLoss d) s t ∧ (t.peer d).path = false ∧ (t.peer d).unacked = []) ∧
    let u := s.modPeer d fun p => { p with path := false, discarded := 0 }
    let lost (v : State) : State := (v.modPeer d fun p => { p with path := false, unacked := [] }).log 6
      (BitVec.ofNat 8 d :: natBytes 4 (v.peer d).discarded)
    ((s.peer d).held = true → Becomes (.evPeerLoss d) s (lost u)) ∧
    ((s.peer d).held = false → Becomes (.evPeerLoss d) s (lost (u.dropOutstanding d)))) ∧
  (∀ (s : State) (f : Flight) (c : TDone) (d : Nat), s.flight? f.id = some f → f.dst = nodePeer d → d ≤ 7 → f.pkt = .tdone c →
    let p := s.peer d
    (p.held = true ∨ (p.path = true ∧ s.portUp d = false) → Becomes (.evTraversalCompletion f.id) s s) ∧
    ((s.flights.find? fun g => g.src == f.src && g.dst == f.dst && !p.sent g.id) = some f → p.held = false →
      (p.path = false → Becomes (.evTraversalCompletion f.id) s (s.dropFlight f.id)) ∧
      (s.portUp d = true → p.path = true → p.unacked.length < 4096 →
        Becomes (.evTraversalCompletion f.id) s ((s.modPeer d fun p => { p with
          unacked := p.unacked ++ [(f.id, p.nextSeq)], nextSeq := (p.nextSeq + 1) % 2 ^ 32 }).modOp (f.op.getD 0)
          fun o => { o with left := o.left + 1 })))) ∧
  ∀ (s : State) (v : Word), Becomes (.evPeerctlWrite v) s ((List.range 8).foldl (fun s d =>
    if v.getLsbD d && (s.peer d).held then s.modPeer d fun p => { p with held := false } else s) s)

/-! ## Encodings (02, 13) -/

/-- Words written out bit by bit in the manual decode to the instructions they stand for: a few of every family. -/
def Obligations.WordsDecode : Prop :=
  decodeSimt 0x7084107A 0 = .ok (.iaddss ⟨7, 4, 4, 7, 1⟩) ∧
  decodeSimt 0x72811234 0 = .ok (.movi ⟨7, 1, 0x1234⟩) ∧
  decodeSimt 0x72C15678 0 = .ok (.movhi ⟨7, 1, 0x5678⟩) ∧
  decodeSimt 0x76942085 0 = .ok (.pk4q 7 20 8 1 0 0) ∧
  decodeSimt 0x76D20C59 0 = .ok (.icmp 7 2 2 3 5 1 1) ∧
  decodeSimt 0x77892014 0 = .ok (.gred 7 9 8 0 1) ∧
  decodeSimt 0x79C14001 0 = .ok (.barsyn 7 5) ∧
  decodeSimt 0x1A021050 0 = .ok (.ose ⟨1, 2, 4, 5, 0⟩) ∧
  decodeSimt 0x7A441468 0 = .ok (.dqpsh ⟨7, 4, 5, 6, 1⟩) ∧
  decodeSimt 0x7A812038 0 = .ok (.send 7 1 8 3 1) ∧
  decodeSimt 0x7B050000 0 = .ok (.trap 7 5) ∧
  decodeSimt 0x74840040 0 = .ok (.srd 7 4 0x040) ∧
  decodeSimt 0x7B431058 0 = .ok (.plarm ⟨7, 3, 4, 5, 1⟩) ∧
  decodeSimt 0x78C0202B 0 = .ok (.callq 7 8 2 1) ∧
  decodeSimt 0x7D421002 0x00000907 = .ok (.fful ⟨7, 2, 4, 0, 0, 2, 0, 0, 2, 2, 0, 0⟩) ∧
  decodeSimt 0x7E401820 0x01000003 = .ok (.mld 7 6 2 0x100) ∧
  decodeSimt 0x7E000100 0 = .ok (.mma ⟨7, 0, 0, 16, 0, 0, 0, 0, 0, 0, 0⟩) ∧
  decodeSimt 0x7F050000 0 = .ok (.trpoll 7 5) ∧
  decodeSimt 0x7F431050 0x00008000 = .ok (.lqpsh 7 3 4 5 1) ∧
  decodeTrav 0x04120000 = .ok (.tNfch 18) ∧
  decodeTrav 0x0A80A803 = .ok (.tNdec 20 21 3) ∧
  decodeTrav 0x19805002 = .ok (.tTri 12 0 10 2) ∧
  decodeTrav 0x35200005 = .ok (.tBrc 9 5) ∧
  decodeTrav 0x400CC004 = .ok (.tEmit 12 24 4) ∧
  decodeTrav 0x4D870400 = .ok (.tAddImm ⟨12, 7, 0⟩) ∧
  decodeTrav 0x8DE0FFFF = .ok (.tMovi 15 0xFFFF)

/-- A well-formed SIMT instruction is what its own bytes decode to, and the bytes after it are left (02 R27 to R34, R44 to R47). -/
def Obligations.SimtEncodeDecode : Prop :=
  ∀ (i : Instr) (rest : List Byte), i.wf = true → travForm i = false → encode i ≠ [] →
    decodeBytes ((encode i).flatMap wordBytes ++ rest) = .ok (i, rest)

/-- A well-formed traversal instruction is one word, which decodes to it (13 R332 to R334). -/
def Obligations.TraversalEncodeDecode : Prop :=
  ∀ i : Instr, i.wf = true → travForm i = true → ∃ w, encode i = [w] ∧ decodeTrav w = .ok i

/-- A word that decodes is the encoding of what it decodes to: no bit of it is passed over (02 R33, R44; 13 R333). -/
def Obligations.DecodedIsEncoding : Prop :=
  (∀ (w0 w1 : Word) (i : Instr), decodeSimt w0 w1 = .ok i →
    i.wf = true ∧ encode i = if simtLen w0 = 4 then [w0] else [w0, w1]) ∧
  ∀ (w : Word) (i : Instr), decodeTrav w = .ok i → i.wf = true ∧ encode i = [w]

/-! ## Operand checks and RETQ -/

/-- A 6-bit field that names a predicate takes ILLEGAL_OPERAND above 7; P7 reads all ones and a write to it is discarded, the
instruction completing as otherwise (02 R38). The 3-bit fields cannot name another. -/
def Obligations.PredicateFields : Prop :=
  (∀ (s : State) (g : BitVec 4) (p d a : BitVec 6), 8 ≤ p.toNat →
    let bad (i : Instr) (len : Nat) : Prop := exec i s = .next (s.gangTrap len { code := 0x02 })
    (∀ b, bad (.pand ⟨g, p, a, b⟩) 4 ∧ bad (.pand ⟨g, d, p, b⟩) 4 ∧ bad (.pand ⟨g, d, a, p⟩) 4 ∧
      bad (.por ⟨g, p, a, b⟩) 4 ∧ bad (.por ⟨g, d, p, b⟩) 4 ∧ bad (.por ⟨g, d, a, p⟩) 4 ∧
      bad (.pxor ⟨g, p, a, b⟩) 4 ∧ bad (.pxor ⟨g, d, p, b⟩) 4 ∧ bad (.pxor ⟨g, d, a, p⟩) 4) ∧
    bad (.pnot ⟨g, p, a⟩) 4 ∧ bad (.pnot ⟨g, d, p⟩) 4 ∧ bad (.pmov ⟨g, p, a⟩) 4 ∧ bad (.pmov ⟨g, d, p⟩) 4 ∧
    bad (.ptos ⟨g, d, p⟩) 4 ∧ bad (.pfroms ⟨g, p, a⟩) 4 ∧
    (∀ h, bad (.vany g p a h) 4 ∧ bad (.vany g d p h) 4 ∧ bad (.vall g p a h) 4 ∧ bad (.vall g d p h) 4 ∧
      bad (.ballot g d p h) 4 ∧ bad (.gelect g p h) 4) ∧
    bad (.segsc ⟨g, d, a, p⟩) 4 ∧ bad (.segscf ⟨g, d, a, p⟩) 4 ∧ bad (.qtry ⟨g, d, a, p⟩) 4 ∧
    (∀ b x, bad (.ose ⟨g, p, a, b, x⟩) 4 ∧ bad (.osen ⟨g, p, a, b, x⟩) 4) ∧
    bad (.malloc g p a) 8 ∧ ∀ space port, bad (.stbind g p a space port) 8) ∧
  (∀ x : Slice, x.pr 7 = 0xFF ∧ ∀ l b, x.setPBit 7 l b = x) ∧
  ∀ (g : BitVec 4) (a b : BitVec 6) (s : State) (c t : Nat), Solo s c t [] → a.toNat < 8 → b.toNat < 8 →
    MovesOn (.pand ⟨g, 7, a, b⟩) s c t 4 ∧ MovesOn (.por ⟨g, 7, a, b⟩) s c t 4 ∧ MovesOn (.pxor ⟨g, 7, a, b⟩) s c t 4 ∧
    MovesOn (.pnot ⟨g, 7, a⟩) s c t 4 ∧ MovesOn (.pmov ⟨g, 7, a⟩) s c t 4

/-- NOP (04 R100): its word is 0x79000000 with a guard; in a slice it changes nothing but the PC, whether or not a lane is active;
any other bit of its format makes the word ILLEGAL_INSTR. -/
def Obligations.NopForm : Prop :=
  decodeSimt 0x79000000 0 = .ok (.nop 7) ∧
  (∀ (g : BitVec 4) (s : State), Gang s [] → exec (.nop g) s = .next (s.countIssue.advanceAll 4)) ∧
  (∀ (g : BitVec 4) (s : State) (c t : Nat), Solo s c t [] → t < 128 →
    let x := s.slice c t
    x.frame.act = false → x.cur < x.paths.length →
    ∃ u, exec (.nop g) s = .next u ∧ OnlySlice s u c t ∧
      let y := u.slice c t
      y.v = x.v ∧ y.s = x.s ∧ y.p = x.p ∧ y.fpflags = x.fpflags ∧ KeepsControl x y ∧ y.frame = x.frame ∧
      y.path = { x.path with pc := x.path.pc + 4 }) ∧
  ∀ (s : State) (w w1 : Word), fld w 22 6 = 0x24 → fld w 0 22 ≠ 0 → s.decoded w w1 = .done (s.gangTrap 4 { code := 0x01 })

/-- RETQ (11 R292): its word, with every format field zero; EXIT's effect in slices that the repack unit started; elsewhere
ILLEGAL_INSTR at execution, with a lane active; with none the PC advances. -/
def Obligations.RetqForm : Prop :=
  decodeSimt 0x78C00004 0 = .ok (.retq 7) ∧
  (∀ (w w1 : Word), fld w 22 6 = 0x23 → fld w 0 3 = 4 → w &&& 0x3FFFF8 ≠ 0 → ∀ i, decodeSimt w w1 ≠ .ok i) ∧
  ∀ (g : BitVec 4) (s : State),
    (Gang s [] → (∀ t ∈ s.issuer.slots, (s.slice s.issuer.core t).repacked = true) →
      exec (.retq g) s = exec (.exit g) s) ∧
    ∀ c t, Solo s c t [] →
      let x := s.slice c t
      (x.active g ≠ 0 → x.repacked = false →
        exec (.retq g) s = .next (s.gangTrap 4 { code := 0x01, lanes := [(t, x.active g)] })) ∧
      (x.active g = 0 → exec (.retq g) s = exec (.exit g) s) ∧
      (x.active g = 0 → x.cur < x.paths.length → x.path.state = .run → x.path.mask ≠ 0 →
        exec (.retq g) s = .next (s.setSlice c t (x.issued.modPath fun p => { p with pc := p.pc + 4 })))

/-! ## Frames -/

/-- The vector forms of A and B change nothing but V[D] in the active lanes, FPFLAGS, which only gains flags, the path's PC and
the issue counts (05 R124): every byte of memory, every other register of the slice and every other slice stay. B is a register
or a constant here; a queue or stream port also pops. -/
def Obligations.VectorFormsFrame : Prop :=
  ∀ p ∈ regForms, ∀ (f : R3) (s : State) (c t : Nat),
    Solo s c t ((0, f.a.toNat) :: bSrc f.b f.x ++ if p.2 then [(0, f.d.toNat)] else []) → vbOk f.b f.x = true →
    (f.x = 0 ∨ f.b.toNat < 32 ∨ 48 ≤ f.b.toNat) → t < 128 →
    ∃ u, exec (p.1 f) s = .next u ∧ OnlySlice s u c t ∧
      let x := s.slice c t
      let y := u.slice c t
      (∀ m l, m < 64 → l < 8 → (m ≠ f.d.toNat ∨ (x.active f.g).getLsbD l = false) → y.vr m l = x.vr m l) ∧
      y.s = x.s ∧ y.p = x.p ∧ (∀ k, 5 ≤ k ∨ x.fpflags.getLsbD k = true → y.fpflags.getLsbD k = x.fpflags.getLsbD k) ∧
      KeepsControl x y ∧ y.path.mask = x.path.mask

/-- The uniform forms change nothing but S[D], the path's PC and the issue counts (05 R131): every byte of memory, every V
and P register, every other S register, FPCTL and FPFLAGS and every other slice stay. -/
def Obligations.UniformFormsFrame : Prop :=
  ∀ p ∈ uniformForms, ∀ (f : R3) (s : State) (c t : Nat),
    Solo s c t ((1, f.a.toNat) :: sbSrc f.b f.x) → (sOk f.d && sOk f.a && sbOk f.b f.x) = true → t < 128 →
    ∃ u, exec (p.1 f) s = .next u ∧ OnlySlice s u c t ∧
      let x := s.slice c t
      let y := u.slice c t
      (∀ m, (m ≠ f.d.toNat ∨ x.active f.g = 0) → y.sr m = x.sr m) ∧
      y.v = x.v ∧ y.p = x.p ∧ y.fpflags = x.fpflags ∧ KeepsControl x y

/-- A LOCAL load, store or atomic changes no byte of memory but those at its lanes' addresses (06 R146): the byte of `q.2` and, for a
size of 2 bytes or more, those after it; a load changes none. With SYNC and TAKE (R149) it does so once its words are in the state
that it asks. The slice's S and P registers, FPCTL and FPFLAGS stay. -/
def Obligations.LocalFormsFrame : Prop :=
  ∀ (m : MemF), ∀ p ∈ memTable m, ∀ (s v : State) (c t : Nat) (ok : List (Tgt × Nat)), p.instr.wf = true →
    Lands p m s c t v ok → m.space = 0 →
    let words := (p.access m s v c ok).lanes.flatMap fun l => feWords l.pa p.kind.size
    let store := p.kind.form.isStore
    (m.ord = 5 → store = false → ∀ x ∈ words, v.emptyWords.contains x = false) →
    (m.ord = 6 → words.Nodup ∧ ∀ x ∈ words, v.emptyWords.contains x = store) →
    ∃ u, exec p.instr s = .next u ∧
      (∀ key, (∀ q ∈ ok, key < q.2 ∨ q.2 + max 1 p.kind.size ≤ key) → mget u.mem key = mget s.mem key) ∧
      (p.kind.form = .load → ∀ key, mget u.mem key = mget s.mem key) ∧
      (p.kind.scalar = false → (u.slice c t).s = (s.slice c t).s) ∧ (u.slice c t).p = (s.slice c t).p ∧
      (u.slice c t).fpctl = (s.slice c t).fpctl ∧ (u.slice c t).fpflags = (s.slice c t).fpflags

/-! ## Traps (15) -/

/-- Taking a trap (15 R407, R408): the registers that save the PC, cause, masks, address and gang; where the PC goes; the mode.
The trap ends a park, breaks reservations, suspends an open frame, and leaves the program's registers and other paths. TRAPVEC
is a multiple of 4 in every state that steps lead to (StepKeepsForm); bits 1:0 of SYSVEC are not part of the PC (log 58). In
system mode the group is killed, and the faulting slice notes what it would have saved, which a STEP reports (R417). A
debugger's trap in an attached context halts the group and posts its report instead. -/
def Obligations.TrapEntry : Prop :=
  (∀ (s : State) (c t : Nat) (f : FaultRec) (pc : Addr) (lanes gang : Pred) (event : Nat),
    let x := s.slice c t
    let u := s.trapSlice c t f pc lanes gang event
    let y := u.slice c t
    let saves (r : TrapRegs) (inh : Bool) : Prop :=
      r.pcHi.setWidth 20 ++ r.pc = pc ∧ r.cause.toNat % 2 ^ 8 = f.code % 2 ^ 8 ∧
      r.mask.toNat = lanes.toNat + x.path.mask.toNat * 2 ^ 8 ∧ r.addr.toNat = f.addr % 2 ^ 32 ∧
      r.addrHi.toNat = f.addr / 2 ^ 32 % 2 ^ 20 ∧
      r.info.toNat = gang.toNat + (s.liveMask c t).toNat * 2 ^ 8 + (if inh then 2 ^ 16 else 0)
    let entered : Prop := u.mem = s.mem ∧ y.park = none ∧ y.resv = x.resv.map Resv.broken ∧ (x.frame.act = true → y.frame.susp = true) ∧
      KeepsProgram x y ∧ ∀ c' t', t < 128 → t' < 128 → (c' ≠ c ∨ t' ≠ t) → u.slice c' t' = s.slice c' t'
    let call := f.code = 0x11 ∧ 32 ≤ f.addr ∧ f.addr < 64
    x.cur < x.paths.length → f.code < 2 ^ 8 →
    (x.system = false → x.inh = false → x.trapvec ≠ 0 → x.trapvec.toNat % 4 = 0 → ¬ call →
      saves y.t true ∧ y.e = x.e ∧ y.system = false ∧ y.path.pc = x.path.pc.extractLsb' 32 20 ++ x.trapvec ∧ entered) ∧
    (x.system = false → (x.inh = true ∨ x.trapvec = 0 ∨ call) →
      saves y.e x.inh ∧ y.t = x.t ∧ y.system = true ∧
      y.path.pc = instrAddr (s.sys.sysvecHi.extractLsb' 0 20 ++ s.sys.sysvec) ∧ entered) ∧
    (x.system = true → ∃ r, saves r x.inh ∧
      let v := (s.post [evWord 0x95 f.code x.asid, w32 (c + t * 2 ^ 16), causeWord f, pc.setWidth 32, 0, 0, 0, 0]).modSlice c t
        fun y => { y with fatal := some r }
      (x.handler = false → u = v.killGroup x.group) ∧
      (x.handler = true → u = (v.modSlice c t fun y => { y with killed := true }).retire c t))) ∧
  ∀ (s : State) (c t : Nat) (f : FaultRec) (pc next : Addr), f.defer = none →
    let tpc := if f.next then next else pc
    let debug := f.code = 0x12 ∨ f.code = 0x13 ∨ f.code = 0x14
    (debug → s.attached c (s.slice c t).asid = true →
      s.trap c [t] f pc next = (s.report c t f.code tpc (tget 0 f.lanes t) (s.ixMask c [t]) f.addr).haltGroup c t 1) ∧
    ((¬ debug ∨ s.attached c (s.slice c t).asid = false) → (s.slice c t).live = true →
      s.trap c [t] f pc next =
        ({ s with nextId := s.nextId + 1 } : State).trapSlice c t f tpc (tget 0 f.lanes t) (s.ixMask c [t]) s.nextId)

/-! ## Steps, reset and the whole machine (01, 18) -/

/-- A step runs the decoded instruction. When the slice of the visit can issue and the bytes at its PC decode, the step is that
instruction's execution, after which the rotation goes on to the next datapath; the word fetched is the four bytes in memory at
the PC's translation, the atomics that stand there performed (07 R195) and the errors of its sectors found (R201), unless its
line was cached; a missing line is read in the step itself (log 11, DESIGN CHOICE). A rake's turn and a device step likewise run
theirs and leave the rotation where it stands (log 1, DESIGN CHOICE). -/
def Obligations.StepRunsInstruction : Prop :=
  (∀ (s v u : State) (t : Nat) (w0 w1 : Word) (i : Instr),
    let c := s.visitCore
    let x := s.slice c t
    t = 8 * (s.cycle.toNat % 16) + s.visitDp → s.agenda = [] → s.running = true → Visits s c t →
    (fetching s c t).fetchWaits c x.asid x.system x.path.pc = false →
    (fetching s c t).fetchWord c x.asid x.system x.path.pc = (v, .ok w0) →
    (if simtLen w0 = 4 then v = u ∧ w1 = 0 else v.fetchWaits c x.asid x.system (x.path.pc + 4) = false ∧
      v.fetchWord c x.asid x.system (x.path.pc + 4) = (u, .ok w1)) →
    decodeSimt w0 w1 = .ok i →
    step s = Meaning.andThen (exec i u) fun z => (s.atPlace z).nextVisit) ∧
  (∀ (s v : State) (c asid key : Nat) (system : Bool) (a : Addr), s.translateCore c asid a.toNat .fetch system = (v, .ok key) →
    key % 4 = 0 → (v.core c).icache.contains (key / 128) = false →
    let u := (v.reachHome (128 * (key / 128)) 128).findErrors asid [2 * (key / 128), 2 * (key / 128) + 1]
    let m := u.mem
    (u.core c).icache.length < 256 → wfFrom 0 m = true → (s.fetchWord c asid system a).2 = .ok (BitVec.ofNat 32 ((mget m key).toNat +
      2 ^ 8 * (mget m (key + 1)).toNat + 2 ^ 16 * (mget m (key + 2)).toNat + 2 ^ 24 * (mget m (key + 3)).toNat))) ∧
  (∀ (s v : State) (c : Nat) (i : Instr) (rest : List Turn), s.agenda = .rake c :: rest → s.running = true →
    State.rakeIssue { s with agenda := rest } c = (v, some i) →
    step s = Meaning.andThen (exec i v) { s with agenda := rest }.atPlace) ∧
  ∀ (s : State) (i : Instr) (rest : List Turn), s.agenda = .event i :: rest → s.allows i = true →
    step s = Meaning.andThen (exec i { s with agenda := rest }) { s with agenda := rest }.atPlace

/-- The state after reset satisfies the invariants that every step keeps. -/
def Sys2Proof.Claim.ResetInvariants : Prop := Placed State.reset ∧ InForm State.reset

/-- The values that the manual gives after reset: the counters, memory of zeros, the cluster store of zero blocks with no
extent, unconfigured launch queues, zero capabilities, no slice live and no context valid (01 R17, R18; 06 R171; 11 R270; 12
R321; 18 R445). -/
def Sys2Proof.Claim.ResetState : Prop :=
  let s := State.reset
  s.cycle = 0 ∧ s.time = 0 ∧ (∀ a, mget s.mem a = 0) ∧ (∀ k, s.poisonedAt k = false) ∧
  (∀ q, (s.queue q).enable = false ∧ (s.queue q).depth = 0 ∧ (s.queue q).asid = none) ∧
  (∀ c, (s.core c).mat.mcap = 0 ∧ (s.cluster c).extents = [] ∧ (s.cluster c).grainer = []) ∧
  (∀ c t, (s.slice c t).live = false) ∧ ∀ asid, s.ctxValid asid = false

/-- The values that the manual gives after reset, and the invariants that every step keeps, hold in the state after reset. -/
def Obligations.ResetValues : Prop := Claim.ResetState ∧ Claim.ResetInvariants

/-- Every step leaves the rotation at a datapath of a core, and with nothing else to do it goes on to the next one: datapaths in
ascending order, then cores, then the next cycle. The rule has every datapath of every core visited in each cycle (01 R10); the
order among them is the model's (log 1, DESIGN CHOICE). -/
def Obligations.StepKeepsPlaced : Prop :=
  (∀ s s' : State, Placed s → step s = .next s' → Placed s') ∧
  ∀ s s' : State, s.agenda = [] → s.running = true → step s = .next s' →
    (s.visitDp < 7 → s'.visitCore = s.visitCore ∧ s'.visitDp = s.visitDp + 1) ∧
    (7 ≤ s.visitDp → s.visitCore < 255 → s'.visitCore = s.visitCore + 1 ∧ s'.visitDp = 0) ∧
    (7 ≤ s.visitDp → 255 ≤ s.visitCore → s'.visitCore = 0 ∧ s'.visitDp = 0)

/-- Every step keeps memory in its canonical form (log 55), and TRAPVEC a multiple of 4 in every slice (15 Table 15-3; log 47). -/
def Obligations.StepKeepsForm : Prop := ∀ s s' : State, InForm s → step s = .next s' → InForm s'

/-- Without main power no step changes anything but POWER_ON's, and in recovery only the management mailbox, BAR2 and the
device's own power and reset act (18 R445, R447): memory, slices, cores, groups, operations and messages stay through every step
that is none of those and writes no command to the mailbox. -/
def Obligations.RecoveryAccepts : Prop :=
  ∀ s s' : State, step s = .next s' →
    (s.mgmt.power = false → (∀ rest, s.agenda ≠ .event .evPowerOn :: rest) → s' = { s with agenda := s.agenda.drop 1 }) ∧
    (s.mgmt.power = true → s.mgmt.recovery = true →
      (∀ i rest, s.agenda = .event i :: rest → Instr.inRecovery i = false) →
      (∀ off w rest, s.agenda = .hostWrite off w :: rest → off ≠ 0x02000000) →
      s'.mem = s.mem ∧ s'.slices = s.slices ∧ s'.cores = s.cores ∧ s'.groups = s.groups ∧ s'.sys = s.sys ∧
      s'.ops = s.ops ∧ s'.flights = s.flights)

/-! ## The statements of several instructions, put together -/

/-- The integer, bitwise and shift forms, the immediate and the uniform forms complete (05 R126, R128 to R131, R141; R132 and R144 for
VEXTR, SMOV and PTOS). -/
def Obligations.IntegerForms : Prop :=
  Claim.IntegerLaneForms ∧ Claim.ImmediateForms ∧ Claim.UniformForms

/-- The floating, fused, packed and converting forms complete, each lane with its own rounding and flags (05 R134 to R140, 03
R67 to R72). -/
def Obligations.FloatForms : Prop :=
  Claim.FloatLaneForms ∧ Claim.UnaryFloatForms

/-- The moves, selects and lane moves, and the packing and unpacking forms, complete (05 R132, R133, R140, R142). -/
def Obligations.MoveAndPackForms : Prop :=
  Claim.MoveForms ∧ Claim.PackForms

/-- The votes, reductions, shuffles, scans and broadcasts of a gang complete (04 R89, R101 to R105). -/
def Obligations.GangForms : Prop :=
  Claim.VoteForms ∧ Claim.ShuffleForms

/-- The branch forms complete, for a gang by the resolution of every member's path, for a uniform branch by the move of its PC
(04 R82, R87, R95, R96). -/
def Obligations.BranchAndPathForms : Prop :=
  Claim.BranchForms ∧ Claim.UniformBranchMovesPath

/-- NOP, IFENCE, YIELD, RCVP, EXIT and RPT complete (04 R97 to R100, R107 to R109, R113). -/
def Obligations.FlowForms : Prop :=
  Claim.SimpleFlowForms ∧ Claim.ExitForms ∧ Claim.RepeatOpensFrame

/-- SRD and SWR complete for every register that the mode may access, and take their fault for the others (15 R398, R400). -/
def Obligations.SystemRegisters : Prop :=
  Claim.SystemRegisterForms ∧ Claim.SystemRegisterFaults

/-- TRAP, BRK, TRET and HALTG act when a lane is active, and else move on; ERET does so in system mode, and in user mode takes
PRIVILEGED whatever its guard (log 14, DEDUCED). The PC of HALTG's report is log 35 (DEDUCED). (15 R409) -/
def Obligations.TrapAndReturnForms : Prop :=
  Claim.TrapForms ∧ Claim.ReturnForms ∧ Claim.HaltgForm

/-- The queue-register forms complete, QWR and QRD park while the queue is full or empty, and all four take QUEUE_MISUSE for a name
that the group was not allotted and in a handler (05 R119 to R123). -/
def Obligations.QueueRegisters : Prop :=
  Claim.QueueForms ∧ Claim.QueueWaits

/-- The named-barrier and team-barrier forms complete, and fault on a barrier that is not the group's (10 R249 to R255). -/
def Obligations.NamedBarriers : Prop :=
  Claim.BarrierForms ∧ Claim.TeamBarrierForms ∧ Claim.BarrierFaults

/-- The ordered-section forms send their requests and wait, parked at the form (log 24, DEDUCED), or move on; two lanes with one
ticket fault (10 R258 to R263). -/
def Obligations.OrderedSections : Prop :=
  Claim.SectionForms ∧ Claim.SectionDuplicates

/-- The deque's owner forms and steals complete (11 R294 to R298). -/
def Obligations.RangeDeque : Prop :=
  Claim.DequeForms ∧ Claim.StealForm

/-- The message and service forms complete, and the receiving ones park while no message matches (06 R161 to R166). -/
def Obligations.MessagesAndServices : Prop :=
  Claim.MessageForms ∧ Claim.MessageWaits ∧ Claim.ServiceRequestForm

/-- The launch-queue and repack forms complete (11 R285 to R292). -/
def Obligations.LaunchAndRepackForms : Prop :=
  Claim.LaunchQueueForms ∧ Claim.RepackForms

/-- With no lane active a memory form only moves on; LWIN forms send to the homes they name; CLUSTER forms are performed or
queue (06 R152 to R155, R169 to R174). -/
def Obligations.RemoteLocalAndClusterForms : Prop :=
  Claim.MemoryIdle ∧ Claim.LwinForms ∧ Claim.ClusterForms

/-- The cache-maintenance forms, ICINV, FEMT and FFUL complete (04 R112, 06 R151, 07 R205, R206). -/
def Obligations.CacheAndFullEmptyForms : Prop :=
  Claim.CacheForms ∧ Claim.FullEmptyForms

/-- TCOPY and the stream-port forms complete (08 R209 to R225). -/
def Obligations.CopyAndStreamForms : Prop :=
  Claim.CopyForm ∧ Claim.StreamForms

/-- MMA, MMAS and MREQ complete for a whole warp of 64 lanes (12 R310, R311, R314, R322, R323). -/
def Obligations.MatrixForms : Prop :=
  Claim.MatrixMultiplyForms ∧ Claim.MatrixRequestForm

/-- The tile forms complete on allocated tiles and fault on others (12 R300, R301, R315 to R320). -/
def Obligations.MatrixTiles : Prop :=
  Claim.TileForms ∧ Claim.TileFaults

/-- TRQ, TRPOLL, TRKILL, TRLOAD, TRPIN, TRUNP and TRPUB complete (13 R359, R360, R365 to R367; 14 R379, R380). -/
def Obligations.TraversalAndStructureForms : Prop :=
  Claim.TraversalRequestForm ∧ Claim.TraversalControlForms

/-- The arithmetic of the traversal processor completes (13 R335 to R337), and ends its thread for a destination of W30 or W31
(R333). -/
def Obligations.TraversalArithmetic : Prop :=
  Claim.TraversalIntegerForms ∧ Claim.TraversalFloatForms

/-- BRC, JMP, END, YLD, EMIT and MIGR complete (13 R338 to R341, R356), the PC staying inside the kernel. -/
def Obligations.TraversalFlow : Prop :=
  Claim.TraversalFlowForms ∧ Claim.TraversalPcRange ∧ Claim.TraversalEmitMigrate

/-- NFCH waits for its node, and the instructions that read the node buffer complete on a node of their format (13 R342 to
R351). -/
def Obligations.NodeAccess : Prop :=
  Claim.NodeFetchForm ∧ Claim.NodeForms

/-- Answers end operations; parked, holding and long-running slices go on; retired ones are counted and their slots freed. -/
def Obligations.AnswerAndSliceEvents : Prop :=
  Claim.AnswerEvents ∧ Claim.PathEvents ∧ Claim.RetirementEvents

/-- Requests are performed at their homes, atomic units pass from holder to holder, and a wait for the pool ends after its limit. -/
def Obligations.MemoryDeviceEvents : Prop :=
  Claim.MemoryEvents ∧ Claim.PoolTimeoutEvent

/-- Messages are admitted, held or discarded, and handlers start and are limited (06 R160, R164, R165). -/
def Obligations.MessageDeviceEvents : Prop :=
  Claim.MessageEvents ∧ Claim.HandlerEvents

/-- Copy engines take in, start, run and end requests, and stream ports refill (08 R207 to R224). How a turn of an engine goes is log
21 (DESIGN CHOICE), the end of a bind's count log 45 (DEDUCED). -/
def Obligations.CopyAndStreamEvents : Prop :=
  Claim.CopyEvents ∧ Claim.StreamEvents

/-- Traversal threads' waits end, and the rakes start threads, take in contexts, deliver completions and load kernels (13). -/
def Obligations.TraversalDeviceEvents : Prop :=
  Claim.ThreadWaitEvents ∧ Claim.RakeEvents

/-- The version table with its pins, the deadline commit unit, the texture and the raster services act (14 R378 to
R391, 06 R166 to R168). That a malformed record is answered so whatever its slot's state is log 29, a texture's order of reads and reasons log 38 (DEDUCED). -/
def Obligations.PlanAndServiceEvents : Prop :=
  Claim.PlanEvents ∧ Claim.LanePins ∧ Claim.ServiceEvents

/-- Writes of device registers and requests of unit control act (15 R397 to R405). -/
def Obligations.SystemAndUnitEvents : Prop :=
  Claim.SystemEvents ∧ Claim.UnitControlEvents

/-- The host's accesses, the management commands, power, reset, temperature and context teardown act (18 R433 to R436, R443
to R447; 14 R394, R395). ATTEST's layout is log 71, log payloads and LOG's index and result log 27, the result of a failed COMMIT a free
value (log 3), the teardown in one step log 37 (the model's). -/
def Obligations.ManagementAndPowerEvents : Prop :=
  Claim.ManagementEvents ∧ Claim.PowerEvents
end

