-- ==== Sys2Proof/Laws/State.lean ====
section
/-! SUPPORT. One lemma per field per update of the state and of a slice: what the update leaves as it was. -/

namespace Sys2Proof.Machine

/-! ### State.setSlice -/
@[simp] theorem State.setSlice_agenda (s : State) (c t : Nat) (x : Slice) : (s.setSlice c t x).agenda = s.agenda := rfl
@[simp] theorem State.setSlice_visitCore (s : State) (c t : Nat) (x : Slice) : (s.setSlice c t x).visitCore = s.visitCore := rfl
@[simp] theorem State.setSlice_visitDp (s : State) (c t : Nat) (x : Slice) : (s.setSlice c t x).visitDp = s.visitDp := rfl
@[simp] theorem State.setSlice_issuer (s : State) (c t : Nat) (x : Slice) : (s.setSlice c t x).issuer = s.issuer := rfl
@[simp] theorem State.setSlice_rakeCore (s : State) (c t : Nat) (x : Slice) : (s.setSlice c t x).rakeCore = s.rakeCore := rfl
@[simp] theorem State.setSlice_rakeThread (s : State) (c t : Nat) (x : Slice) : (s.setSlice c t x).rakeThread = s.rakeThread := rfl
@[simp] theorem State.setSlice_freeCount (s : State) (c t : Nat) (x : Slice) : (s.setSlice c t x).freeCount = s.freeCount := rfl
@[simp] theorem State.setSlice_nextId (s : State) (c t : Nat) (x : Slice) : (s.setSlice c t x).nextId = s.nextId := rfl
@[simp] theorem State.setSlice_cycle (s : State) (c t : Nat) (x : Slice) : (s.setSlice c t x).cycle = s.cycle := rfl
@[simp] theorem State.setSlice_time (s : State) (c t : Nat) (x : Slice) : (s.setSlice c t x).time = s.time := rfl
@[simp] theorem State.setSlice_mem (s : State) (c t : Nat) (x : Slice) : (s.setSlice c t x).mem = s.mem := rfl
@[simp] theorem State.setSlice_emptyWords (s : State) (c t : Nat) (x : Slice) : (s.setSlice c t x).emptyWords = s.emptyWords := rfl
@[simp] theorem State.setSlice_poison (s : State) (c t : Nat) (x : Slice) : (s.setSlice c t x).poison = s.poison := rfl
@[simp] theorem State.setSlice_bad (s : State) (c t : Nat) (x : Slice) : (s.setSlice c t x).bad = s.bad := rfl
@[simp] theorem State.setSlice_clean (s : State) (c t : Nat) (x : Slice) : (s.setSlice c t x).clean = s.clean := rfl
@[simp] theorem State.setSlice_dcache (s : State) (c t : Nat) (x : Slice) : (s.setSlice c t x).dcache = s.dcache := rfl
@[simp] theorem State.setSlice_units (s : State) (c t : Nat) (x : Slice) : (s.setSlice c t x).units = s.units := rfl
@[simp] theorem State.setSlice_cores (s : State) (c t : Nat) (x : Slice) : (s.setSlice c t x).cores = s.cores := rfl
@[simp] theorem State.setSlice_clusters (s : State) (c t : Nat) (x : Slice) : (s.setSlice c t x).clusters = s.clusters := rfl
@[simp] theorem State.setSlice_sys (s : State) (c t : Nat) (x : Slice) : (s.setSlice c t x).sys = s.sys := rfl
@[simp] theorem State.setSlice_ctxs (s : State) (c t : Nat) (x : Slice) : (s.setSlice c t x).ctxs = s.ctxs := rfl
@[simp] theorem State.setSlice_replays (s : State) (c t : Nat) (x : Slice) : (s.setSlice c t x).replays = s.replays := rfl
@[simp] theorem State.setSlice_nextReplay (s : State) (c t : Nat) (x : Slice) : (s.setSlice c t x).nextReplay = s.nextReplay := rfl
@[simp] theorem State.setSlice_eqWaiting (s : State) (c t : Nat) (x : Slice) : (s.setSlice c t x).eqWaiting = s.eqWaiting := rfl
@[simp] theorem State.setSlice_queues (s : State) (c t : Nat) (x : Slice) : (s.setSlice c t x).queues = s.queues := rfl
@[simp] theorem State.setSlice_doneWaits (s : State) (c t : Nat) (x : Slice) : (s.setSlice c t x).doneWaits = s.doneWaits := rfl
@[simp] theorem State.setSlice_lastQueue (s : State) (c t : Nat) (x : Slice) : (s.setSlice c t x).lastQueue = s.lastQueue := rfl
@[simp] theorem State.setSlice_drainDly (s : State) (c t : Nat) (x : Slice) : (s.setSlice c t x).drainDly = s.drainDly := rfl
@[simp] theorem State.setSlice_grids (s : State) (c t : Nat) (x : Slice) : (s.setSlice c t x).grids = s.grids := rfl
@[simp] theorem State.setSlice_teams (s : State) (c t : Nat) (x : Slice) : (s.setSlice c t x).teams = s.teams := rfl
@[simp] theorem State.setSlice_groups (s : State) (c t : Nat) (x : Slice) : (s.setSlice c t x).groups = s.groups := rfl
@[simp] theorem State.setSlice_sections (s : State) (c t : Nat) (x : Slice) : (s.setSlice c t x).sections = s.sections := rfl
@[simp] theorem State.setSlice_structs (s : State) (c t : Nat) (x : Slice) : (s.setSlice c t x).structs = s.structs := rfl
@[simp] theorem State.setSlice_plans (s : State) (c t : Nat) (x : Slice) : (s.setSlice c t x).plans = s.plans := rfl
@[simp] theorem State.setSlice_ops (s : State) (c t : Nat) (x : Slice) : (s.setSlice c t x).ops = s.ops := rfl
@[simp] theorem State.setSlice_flights (s : State) (c t : Nat) (x : Slice) : (s.setSlice c t x).flights = s.flights := rfl
@[simp] theorem State.setSlice_links (s : State) (c t : Nat) (x : Slice) : (s.setSlice c t x).links = s.links := rfl
@[simp] theorem State.setSlice_peers (s : State) (c t : Nat) (x : Slice) : (s.setSlice c t x).peers = s.peers := rfl
@[simp] theorem State.setSlice_mgmt (s : State) (c t : Nat) (x : Slice) : (s.setSlice c t x).mgmt = s.mgmt := rfl
/-! ### State.modSlice -/
@[simp] theorem State.modSlice_agenda (s : State) (c t : Nat) (f : Slice → Slice) : (s.modSlice c t f).agenda = s.agenda := rfl
@[simp] theorem State.modSlice_visitCore (s : State) (c t : Nat) (f : Slice → Slice) : (s.modSlice c t f).visitCore = s.visitCore := rfl
@[simp] theorem State.modSlice_visitDp (s : State) (c t : Nat) (f : Slice → Slice) : (s.modSlice c t f).visitDp = s.visitDp := rfl
@[simp] theorem State.modSlice_issuer (s : State) (c t : Nat) (f : Slice → Slice) : (s.modSlice c t f).issuer = s.issuer := rfl
@[simp] theorem State.modSlice_rakeCore (s : State) (c t : Nat) (f : Slice → Slice) : (s.modSlice c t f).rakeCore = s.rakeCore := rfl
@[simp] theorem State.modSlice_rakeThread (s : State) (c t : Nat) (f : Slice → Slice) : (s.modSlice c t f).rakeThread = s.rakeThread := rfl
@[simp] theorem State.modSlice_freeCount (s : State) (c t : Nat) (f : Slice → Slice) : (s.modSlice c t f).freeCount = s.freeCount := rfl
@[simp] theorem State.modSlice_nextId (s : State) (c t : Nat) (f : Slice → Slice) : (s.modSlice c t f).nextId = s.nextId := rfl
@[simp] theorem State.modSlice_cycle (s : State) (c t : Nat) (f : Slice → Slice) : (s.modSlice c t f).cycle = s.cycle := rfl
@[simp] theorem State.modSlice_time (s : State) (c t : Nat) (f : Slice → Slice) : (s.modSlice c t f).time = s.time := rfl
@[simp] theorem State.modSlice_mem (s : State) (c t : Nat) (f : Slice → Slice) : (s.modSlice c t f).mem = s.mem := rfl
@[simp] theorem State.modSlice_emptyWords (s : State) (c t : Nat) (f : Slice → Slice) : (s.modSlice c t f).emptyWords = s.emptyWords := rfl
@[simp] theorem State.modSlice_poison (s : State) (c t : Nat) (f : Slice → Slice) : (s.modSlice c t f).poison = s.poison := rfl
@[simp] theorem State.modSlice_bad (s : State) (c t : Nat) (f : Slice → Slice) : (s.modSlice c t f).bad = s.bad := rfl
@[simp] theorem State.modSlice_clean (s : State) (c t : Nat) (f : Slice → Slice) : (s.modSlice c t f).clean = s.clean := rfl
@[simp] theorem State.modSlice_dcache (s : State) (c t : Nat) (f : Slice → Slice) : (s.modSlice c t f).dcache = s.dcache := rfl
@[simp] theorem State.modSlice_units (s : State) (c t : Nat) (f : Slice → Slice) : (s.modSlice c t f).units = s.units := rfl
@[simp] theorem State.modSlice_cores (s : State) (c t : Nat) (f : Slice → Slice) : (s.modSlice c t f).cores = s.cores := rfl
@[simp] theorem State.modSlice_clusters (s : State) (c t : Nat) (f : Slice → Slice) : (s.modSlice c t f).clusters = s.clusters := rfl
@[simp] theorem State.modSlice_sys (s : State) (c t : Nat) (f : Slice → Slice) : (s.modSlice c t f).sys = s.sys := rfl
@[simp] theorem State.modSlice_ctxs (s : State) (c t : Nat) (f : Slice → Slice) : (s.modSlice c t f).ctxs = s.ctxs := rfl
@[simp] theorem State.modSlice_replays (s : State) (c t : Nat) (f : Slice → Slice) : (s.modSlice c t f).replays = s.replays := rfl
@[simp] theorem State.modSlice_nextReplay (s : State) (c t : Nat) (f : Slice → Slice) : (s.modSlice c t f).nextReplay = s.nextReplay := rfl
@[simp] theorem State.modSlice_eqWaiting (s : State) (c t : Nat) (f : Slice → Slice) : (s.modSlice c t f).eqWaiting = s.eqWaiting := rfl
@[simp] theorem State.modSlice_queues (s : State) (c t : Nat) (f : Slice → Slice) : (s.modSlice c t f).queues = s.queues := rfl
@[simp] theorem State.modSlice_doneWaits (s : State) (c t : Nat) (f : Slice → Slice) : (s.modSlice c t f).doneWaits = s.doneWaits := rfl
@[simp] theorem State.modSlice_lastQueue (s : State) (c t : Nat) (f : Slice → Slice) : (s.modSlice c t f).lastQueue = s.lastQueue := rfl
@[simp] theorem State.modSlice_drainDly (s : State) (c t : Nat) (f : Slice → Slice) : (s.modSlice c t f).drainDly = s.drainDly := rfl
@[simp] theorem State.modSlice_grids (s : State) (c t : Nat) (f : Slice → Slice) : (s.modSlice c t f).grids = s.grids := rfl
@[simp] theorem State.modSlice_teams (s : State) (c t : Nat) (f : Slice → Slice) : (s.modSlice c t f).teams = s.teams := rfl
@[simp] theorem State.modSlice_groups (s : State) (c t : Nat) (f : Slice → Slice) : (s.modSlice c t f).groups = s.groups := rfl
@[simp] theorem State.modSlice_sections (s : State) (c t : Nat) (f : Slice → Slice) : (s.modSlice c t f).sections = s.sections := rfl
@[simp] theorem State.modSlice_structs (s : State) (c t : Nat) (f : Slice → Slice) : (s.modSlice c t f).structs = s.structs := rfl
@[simp] theorem State.modSlice_plans (s : State) (c t : Nat) (f : Slice → Slice) : (s.modSlice c t f).plans = s.plans := rfl
@[simp] theorem State.modSlice_ops (s : State) (c t : Nat) (f : Slice → Slice) : (s.modSlice c t f).ops = s.ops := rfl
@[simp] theorem State.modSlice_flights (s : State) (c t : Nat) (f : Slice → Slice) : (s.modSlice c t f).flights = s.flights := rfl
@[simp] theorem State.modSlice_links (s : State) (c t : Nat) (f : Slice → Slice) : (s.modSlice c t f).links = s.links := rfl
@[simp] theorem State.modSlice_peers (s : State) (c t : Nat) (f : Slice → Slice) : (s.modSlice c t f).peers = s.peers := rfl
@[simp] theorem State.modSlice_mgmt (s : State) (c t : Nat) (f : Slice → Slice) : (s.modSlice c t f).mgmt = s.mgmt := rfl
/-! ### State.modCore -/
@[simp] theorem State.modCore_agenda (s : State) (k : Nat) (f : Core → Core) : (s.modCore k f).agenda = s.agenda := rfl
@[simp] theorem State.modCore_visitCore (s : State) (k : Nat) (f : Core → Core) : (s.modCore k f).visitCore = s.visitCore := rfl
@[simp] theorem State.modCore_visitDp (s : State) (k : Nat) (f : Core → Core) : (s.modCore k f).visitDp = s.visitDp := rfl
@[simp] theorem State.modCore_issuer (s : State) (k : Nat) (f : Core → Core) : (s.modCore k f).issuer = s.issuer := rfl
@[simp] theorem State.modCore_rakeCore (s : State) (k : Nat) (f : Core → Core) : (s.modCore k f).rakeCore = s.rakeCore := rfl
@[simp] theorem State.modCore_rakeThread (s : State) (k : Nat) (f : Core → Core) : (s.modCore k f).rakeThread = s.rakeThread := rfl
@[simp] theorem State.modCore_freeCount (s : State) (k : Nat) (f : Core → Core) : (s.modCore k f).freeCount = s.freeCount := rfl
@[simp] theorem State.modCore_nextId (s : State) (k : Nat) (f : Core → Core) : (s.modCore k f).nextId = s.nextId := rfl
@[simp] theorem State.modCore_cycle (s : State) (k : Nat) (f : Core → Core) : (s.modCore k f).cycle = s.cycle := rfl
@[simp] theorem State.modCore_time (s : State) (k : Nat) (f : Core → Core) : (s.modCore k f).time = s.time := rfl
@[simp] theorem State.modCore_mem (s : State) (k : Nat) (f : Core → Core) : (s.modCore k f).mem = s.mem := rfl
@[simp] theorem State.modCore_emptyWords (s : State) (k : Nat) (f : Core → Core) : (s.modCore k f).emptyWords = s.emptyWords := rfl
@[simp] theorem State.modCore_poison (s : State) (k : Nat) (f : Core → Core) : (s.modCore k f).poison = s.poison := rfl
@[simp] theorem State.modCore_bad (s : State) (k : Nat) (f : Core → Core) : (s.modCore k f).bad = s.bad := rfl
@[simp] theorem State.modCore_clean (s : State) (k : Nat) (f : Core → Core) : (s.modCore k f).clean = s.clean := rfl
@[simp] theorem State.modCore_dcache (s : State) (k : Nat) (f : Core → Core) : (s.modCore k f).dcache = s.dcache := rfl
@[simp] theorem State.modCore_units (s : State) (k : Nat) (f : Core → Core) : (s.modCore k f).units = s.units := rfl
@[simp] theorem State.modCore_slices (s : State) (k : Nat) (f : Core → Core) : (s.modCore k f).slices = s.slices := rfl
@[simp] theorem State.modCore_clusters (s : State) (k : Nat) (f : Core → Core) : (s.modCore k f).clusters = s.clusters := rfl
@[simp] theorem State.modCore_sys (s : State) (k : Nat) (f : Core → Core) : (s.modCore k f).sys = s.sys := rfl
@[simp] theorem State.modCore_ctxs (s : State) (k : Nat) (f : Core → Core) : (s.modCore k f).ctxs = s.ctxs := rfl
@[simp] theorem State.modCore_replays (s : State) (k : Nat) (f : Core → Core) : (s.modCore k f).replays = s.replays := rfl
@[simp] theorem State.modCore_nextReplay (s : State) (k : Nat) (f : Core → Core) : (s.modCore k f).nextReplay = s.nextReplay := rfl
@[simp] theorem State.modCore_eqWaiting (s : State) (k : Nat) (f : Core → Core) : (s.modCore k f).eqWaiting = s.eqWaiting := rfl
@[simp] theorem State.modCore_queues (s : State) (k : Nat) (f : Core → Core) : (s.modCore k f).queues = s.queues := rfl
@[simp] theorem State.modCore_doneWaits (s : State) (k : Nat) (f : Core → Core) : (s.modCore k f).doneWaits = s.doneWaits := rfl
@[simp] theorem State.modCore_lastQueue (s : State) (k : Nat) (f : Core → Core) : (s.modCore k f).lastQueue = s.lastQueue := rfl
@[simp] theorem State.modCore_drainDly (s : State) (k : Nat) (f : Core → Core) : (s.modCore k f).drainDly = s.drainDly := rfl
@[simp] theorem State.modCore_grids (s : State) (k : Nat) (f : Core → Core) : (s.modCore k f).grids = s.grids := rfl
@[simp] theorem State.modCore_teams (s : State) (k : Nat) (f : Core → Core) : (s.modCore k f).teams = s.teams := rfl
@[simp] theorem State.modCore_groups (s : State) (k : Nat) (f : Core → Core) : (s.modCore k f).groups = s.groups := rfl
@[simp] theorem State.modCore_sections (s : State) (k : Nat) (f : Core → Core) : (s.modCore k f).sections = s.sections := rfl
@[simp] theorem State.modCore_structs (s : State) (k : Nat) (f : Core → Core) : (s.modCore k f).structs = s.structs := rfl
@[simp] theorem State.modCore_plans (s : State) (k : Nat) (f : Core → Core) : (s.modCore k f).plans = s.plans := rfl
@[simp] theorem State.modCore_ops (s : State) (k : Nat) (f : Core → Core) : (s.modCore k f).ops = s.ops := rfl
@[simp] theorem State.modCore_flights (s : State) (k : Nat) (f : Core → Core) : (s.modCore k f).flights = s.flights := rfl
@[simp] theorem State.modCore_links (s : State) (k : Nat) (f : Core → Core) : (s.modCore k f).links = s.links := rfl
@[simp] theorem State.modCore_peers (s : State) (k : Nat) (f : Core → Core) : (s.modCore k f).peers = s.peers := rfl
@[simp] theorem State.modCore_mgmt (s : State) (k : Nat) (f : Core → Core) : (s.modCore k f).mgmt = s.mgmt := rfl
/-! ### State.modRake -/
@[simp] theorem State.modRake_agenda (s : State) (k : Nat) (f : Rake → Rake) : (s.modRake k f).agenda = s.agenda := rfl
@[simp] theorem State.modRake_visitCore (s : State) (k : Nat) (f : Rake → Rake) : (s.modRake k f).visitCore = s.visitCore := rfl
@[simp] theorem State.modRake_visitDp (s : State) (k : Nat) (f : Rake → Rake) : (s.modRake k f).visitDp = s.visitDp := rfl
@[simp] theorem State.modRake_issuer (s : State) (k : Nat) (f : Rake → Rake) : (s.modRake k f).issuer = s.issuer := rfl
@[simp] theorem State.modRake_rakeCore (s : State) (k : Nat) (f : Rake → Rake) : (s.modRake k f).rakeCore = s.rakeCore := rfl
@[simp] theorem State.modRake_rakeThread (s : State) (k : Nat) (f : Rake → Rake) : (s.modRake k f).rakeThread = s.rakeThread := rfl
@[simp] theorem State.modRake_freeCount (s : State) (k : Nat) (f : Rake → Rake) : (s.modRake k f).freeCount = s.freeCount := rfl
@[simp] theorem State.modRake_nextId (s : State) (k : Nat) (f : Rake → Rake) : (s.modRake k f).nextId = s.nextId := rfl
@[simp] theorem State.modRake_cycle (s : State) (k : Nat) (f : Rake → Rake) : (s.modRake k f).cycle = s.cycle := rfl
@[simp] theorem State.modRake_time (s : State) (k : Nat) (f : Rake → Rake) : (s.modRake k f).time = s.time := rfl
@[simp] theorem State.modRake_mem (s : State) (k : Nat) (f : Rake → Rake) : (s.modRake k f).mem = s.mem := rfl
@[simp] theorem State.modRake_emptyWords (s : State) (k : Nat) (f : Rake → Rake) : (s.modRake k f).emptyWords = s.emptyWords := rfl
@[simp] theorem State.modRake_poison (s : State) (k : Nat) (f : Rake → Rake) : (s.modRake k f).poison = s.poison := rfl
@[simp] theorem State.modRake_bad (s : State) (k : Nat) (f : Rake → Rake) : (s.modRake k f).bad = s.bad := rfl
@[simp] theorem State.modRake_clean (s : State) (k : Nat) (f : Rake → Rake) : (s.modRake k f).clean = s.clean := rfl
@[simp] theorem State.modRake_dcache (s : State) (k : Nat) (f : Rake → Rake) : (s.modRake k f).dcache = s.dcache := rfl
@[simp] theorem State.modRake_units (s : State) (k : Nat) (f : Rake → Rake) : (s.modRake k f).units = s.units := rfl
@[simp] theorem State.modRake_slices (s : State) (k : Nat) (f : Rake → Rake) : (s.modRake k f).slices = s.slices := rfl
@[simp] theorem State.modRake_clusters (s : State) (k : Nat) (f : Rake → Rake) : (s.modRake k f).clusters = s.clusters := rfl
@[simp] theorem State.modRake_sys (s : State) (k : Nat) (f : Rake → Rake) : (s.modRake k f).sys = s.sys := rfl
@[simp] theorem State.modRake_ctxs (s : State) (k : Nat) (f : Rake → Rake) : (s.modRake k f).ctxs = s.ctxs := rfl
@[simp] theorem State.modRake_replays (s : State) (k : Nat) (f : Rake → Rake) : (s.modRake k f).replays = s.replays := rfl
@[simp] theorem State.modRake_nextReplay (s : State) (k : Nat) (f : Rake → Rake) : (s.modRake k f).nextReplay = s.nextReplay := rfl
@[simp] theorem State.modRake_eqWaiting (s : State) (k : Nat) (f : Rake → Rake) : (s.modRake k f).eqWaiting = s.eqWaiting := rfl
@[simp] theorem State.modRake_queues (s : State) (k : Nat) (f : Rake → Rake) : (s.modRake k f).queues = s.queues := rfl
@[simp] theorem State.modRake_doneWaits (s : State) (k : Nat) (f : Rake → Rake) : (s.modRake k f).doneWaits = s.doneWaits := rfl
@[simp] theorem State.modRake_lastQueue (s : State) (k : Nat) (f : Rake → Rake) : (s.modRake k f).lastQueue = s.lastQueue := rfl
@[simp] theorem State.modRake_drainDly (s : State) (k : Nat) (f : Rake → Rake) : (s.modRake k f).drainDly = s.drainDly := rfl
@[simp] theorem State.modRake_grids (s : State) (k : Nat) (f : Rake → Rake) : (s.modRake k f).grids = s.grids := rfl
@[simp] theorem State.modRake_teams (s : State) (k : Nat) (f : Rake → Rake) : (s.modRake k f).teams = s.teams := rfl
@[simp] theorem State.modRake_groups (s : State) (k : Nat) (f : Rake → Rake) : (s.modRake k f).groups = s.groups := rfl
@[simp] theorem State.modRake_sections (s : State) (k : Nat) (f : Rake → Rake) : (s.modRake k f).sections = s.sections := rfl
@[simp] theorem State.modRake_structs (s : State) (k : Nat) (f : Rake → Rake) : (s.modRake k f).structs = s.structs := rfl
@[simp] theorem State.modRake_plans (s : State) (k : Nat) (f : Rake → Rake) : (s.modRake k f).plans = s.plans := rfl
@[simp] theorem State.modRake_ops (s : State) (k : Nat) (f : Rake → Rake) : (s.modRake k f).ops = s.ops := rfl
@[simp] theorem State.modRake_flights (s : State) (k : Nat) (f : Rake → Rake) : (s.modRake k f).flights = s.flights := rfl
@[simp] theorem State.modRake_links (s : State) (k : Nat) (f : Rake → Rake) : (s.modRake k f).links = s.links := rfl
@[simp] theorem State.modRake_peers (s : State) (k : Nat) (f : Rake → Rake) : (s.modRake k f).peers = s.peers := rfl
@[simp] theorem State.modRake_mgmt (s : State) (k : Nat) (f : Rake → Rake) : (s.modRake k f).mgmt = s.mgmt := rfl
/-! ### State.modThread -/
@[simp] theorem State.modThread_agenda (s : State) (k t : Nat) (f : Thread → Thread) : (s.modThread k t f).agenda = s.agenda := rfl
@[simp] theorem State.modThread_visitCore (s : State) (k t : Nat) (f : Thread → Thread) : (s.modThread k t f).visitCore = s.visitCore := rfl
@[simp] theorem State.modThread_visitDp (s : State) (k t : Nat) (f : Thread → Thread) : (s.modThread k t f).visitDp = s.visitDp := rfl
@[simp] theorem State.modThread_issuer (s : State) (k t : Nat) (f : Thread → Thread) : (s.modThread k t f).issuer = s.issuer := rfl
@[simp] theorem State.modThread_rakeCore (s : State) (k t : Nat) (f : Thread → Thread) : (s.modThread k t f).rakeCore = s.rakeCore := rfl
@[simp] theorem State.modThread_rakeThread (s : State) (k t : Nat) (f : Thread → Thread) : (s.modThread k t f).rakeThread = s.rakeThread := rfl
@[simp] theorem State.modThread_freeCount (s : State) (k t : Nat) (f : Thread → Thread) : (s.modThread k t f).freeCount = s.freeCount := rfl
@[simp] theorem State.modThread_nextId (s : State) (k t : Nat) (f : Thread → Thread) : (s.modThread k t f).nextId = s.nextId := rfl
@[simp] theorem State.modThread_cycle (s : State) (k t : Nat) (f : Thread → Thread) : (s.modThread k t f).cycle = s.cycle := rfl
@[simp] theorem State.modThread_time (s : State) (k t : Nat) (f : Thread → Thread) : (s.modThread k t f).time = s.time := rfl
@[simp] theorem State.modThread_mem (s : State) (k t : Nat) (f : Thread → Thread) : (s.modThread k t f).mem = s.mem := rfl
@[simp] theorem State.modThread_emptyWords (s : State) (k t : Nat) (f : Thread → Thread) : (s.modThread k t f).emptyWords = s.emptyWords := rfl
@[simp] theorem State.modThread_poison (s : State) (k t : Nat) (f : Thread → Thread) : (s.modThread k t f).poison = s.poison := rfl
@[simp] theorem State.modThread_bad (s : State) (k t : Nat) (f : Thread → Thread) : (s.modThread k t f).bad = s.bad := rfl
@[simp] theorem State.modThread_clean (s : State) (k t : Nat) (f : Thread → Thread) : (s.modThread k t f).clean = s.clean := rfl
@[simp] theorem State.modThread_dcache (s : State) (k t : Nat) (f : Thread → Thread) : (s.modThread k t f).dcache = s.dcache := rfl
@[simp] theorem State.modThread_units (s : State) (k t : Nat) (f : Thread → Thread) : (s.modThread k t f).units = s.units := rfl
@[simp] theorem State.modThread_slices (s : State) (k t : Nat) (f : Thread → Thread) : (s.modThread k t f).slices = s.slices := rfl
@[simp] theorem State.modThread_clusters (s : State) (k t : Nat) (f : Thread → Thread) : (s.modThread k t f).clusters = s.clusters := rfl
@[simp] theorem State.modThread_sys (s : State) (k t : Nat) (f : Thread → Thread) : (s.modThread k t f).sys = s.sys := rfl
@[simp] theorem State.modThread_ctxs (s : State) (k t : Nat) (f : Thread → Thread) : (s.modThread k t f).ctxs = s.ctxs := rfl
@[simp] theorem State.modThread_replays (s : State) (k t : Nat) (f : Thread → Thread) : (s.modThread k t f).replays = s.replays := rfl
@[simp] theorem State.modThread_nextReplay (s : State) (k t : Nat) (f : Thread → Thread) : (s.modThread k t f).nextReplay = s.nextReplay := rfl
@[simp] theorem State.modThread_eqWaiting (s : State) (k t : Nat) (f : Thread → Thread) : (s.modThread k t f).eqWaiting = s.eqWaiting := rfl
@[simp] theorem State.modThread_queues (s : State) (k t : Nat) (f : Thread → Thread) : (s.modThread k t f).queues = s.queues := rfl
@[simp] theorem State.modThread_doneWaits (s : State) (k t : Nat) (f : Thread → Thread) : (s.modThread k t f).doneWaits = s.doneWaits := rfl
@[simp] theorem State.modThread_lastQueue (s : State) (k t : Nat) (f : Thread → Thread) : (s.modThread k t f).lastQueue = s.lastQueue := rfl
@[simp] theorem State.modThread_drainDly (s : State) (k t : Nat) (f : Thread → Thread) : (s.modThread k t f).drainDly = s.drainDly := rfl
@[simp] theorem State.modThread_grids (s : State) (k t : Nat) (f : Thread → Thread) : (s.modThread k t f).grids = s.grids := rfl
@[simp] theorem State.modThread_teams (s : State) (k t : Nat) (f : Thread → Thread) : (s.modThread k t f).teams = s.teams := rfl
@[simp] theorem State.modThread_groups (s : State) (k t : Nat) (f : Thread → Thread) : (s.modThread k t f).groups = s.groups := rfl
@[simp] theorem State.modThread_sections (s : State) (k t : Nat) (f : Thread → Thread) : (s.modThread k t f).sections = s.sections := rfl
@[simp] theorem State.modThread_structs (s : State) (k t : Nat) (f : Thread → Thread) : (s.modThread k t f).structs = s.structs := rfl
@[simp] theorem State.modThread_plans (s : State) (k t : Nat) (f : Thread → Thread) : (s.modThread k t f).plans = s.plans := rfl
@[simp] theorem State.modThread_ops (s : State) (k t : Nat) (f : Thread → Thread) : (s.modThread k t f).ops = s.ops := rfl
@[simp] theorem State.modThread_flights (s : State) (k t : Nat) (f : Thread → Thread) : (s.modThread k t f).flights = s.flights := rfl
@[simp] theorem State.modThread_links (s : State) (k t : Nat) (f : Thread → Thread) : (s.modThread k t f).links = s.links := rfl
@[simp] theorem State.modThread_peers (s : State) (k t : Nat) (f : Thread → Thread) : (s.modThread k t f).peers = s.peers := rfl
@[simp] theorem State.modThread_mgmt (s : State) (k t : Nat) (f : Thread → Thread) : (s.modThread k t f).mgmt = s.mgmt := rfl
/-! ### State.modCluster -/
@[simp] theorem State.modCluster_agenda (s : State) (c : Nat) (f : Cluster → Cluster) : (s.modCluster c f).agenda = s.agenda := rfl
@[simp] theorem State.modCluster_visitCore (s : State) (c : Nat) (f : Cluster → Cluster) : (s.modCluster c f).visitCore = s.visitCore := rfl
@[simp] theorem State.modCluster_visitDp (s : State) (c : Nat) (f : Cluster → Cluster) : (s.modCluster c f).visitDp = s.visitDp := rfl
@[simp] theorem State.modCluster_issuer (s : State) (c : Nat) (f : Cluster → Cluster) : (s.modCluster c f).issuer = s.issuer := rfl
@[simp] theorem State.modCluster_rakeCore (s : State) (c : Nat) (f : Cluster → Cluster) : (s.modCluster c f).rakeCore = s.rakeCore := rfl
@[simp] theorem State.modCluster_rakeThread (s : State) (c : Nat) (f : Cluster → Cluster) : (s.modCluster c f).rakeThread = s.rakeThread := rfl
@[simp] theorem State.modCluster_freeCount (s : State) (c : Nat) (f : Cluster → Cluster) : (s.modCluster c f).freeCount = s.freeCount := rfl
@[simp] theorem State.modCluster_nextId (s : State) (c : Nat) (f : Cluster → Cluster) : (s.modCluster c f).nextId = s.nextId := rfl
@[simp] theorem State.modCluster_cycle (s : State) (c : Nat) (f : Cluster → Cluster) : (s.modCluster c f).cycle = s.cycle := rfl
@[simp] theorem State.modCluster_time (s : State) (c : Nat) (f : Cluster → Cluster) : (s.modCluster c f).time = s.time := rfl
@[simp] theorem State.modCluster_mem (s : State) (c : Nat) (f : Cluster → Cluster) : (s.modCluster c f).mem = s.mem := rfl
@[simp] theorem State.modCluster_emptyWords (s : State) (c : Nat) (f : Cluster → Cluster) : (s.modCluster c f).emptyWords = s.emptyWords := rfl
@[simp] theorem State.modCluster_poison (s : State) (c : Nat) (f : Cluster → Cluster) : (s.modCluster c f).poison = s.poison := rfl
@[simp] theorem State.modCluster_bad (s : State) (c : Nat) (f : Cluster → Cluster) : (s.modCluster c f).bad = s.bad := rfl
@[simp] theorem State.modCluster_clean (s : State) (c : Nat) (f : Cluster → Cluster) : (s.modCluster c f).clean = s.clean := rfl
@[simp] theorem State.modCluster_dcache (s : State) (c : Nat) (f : Cluster → Cluster) : (s.modCluster c f).dcache = s.dcache := rfl
@[simp] theorem State.modCluster_units (s : State) (c : Nat) (f : Cluster → Cluster) : (s.modCluster c f).units = s.units := rfl
@[simp] theorem State.modCluster_slices (s : State) (c : Nat) (f : Cluster → Cluster) : (s.modCluster c f).slices = s.slices := rfl
@[simp] theorem State.modCluster_cores (s : State) (c : Nat) (f : Cluster → Cluster) : (s.modCluster c f).cores = s.cores := rfl
@[simp] theorem State.modCluster_sys (s : State) (c : Nat) (f : Cluster → Cluster) : (s.modCluster c f).sys = s.sys := rfl
@[simp] theorem State.modCluster_ctxs (s : State) (c : Nat) (f : Cluster → Cluster) : (s.modCluster c f).ctxs = s.ctxs := rfl
@[simp] theorem State.modCluster_replays (s : State) (c : Nat) (f : Cluster → Cluster) : (s.modCluster c f).replays = s.replays := rfl
@[simp] theorem State.modCluster_nextReplay (s : State) (c : Nat) (f : Cluster → Cluster) : (s.modCluster c f).nextReplay = s.nextReplay := rfl
@[simp] theorem State.modCluster_eqWaiting (s : State) (c : Nat) (f : Cluster → Cluster) : (s.modCluster c f).eqWaiting = s.eqWaiting := rfl
@[simp] theorem State.modCluster_queues (s : State) (c : Nat) (f : Cluster → Cluster) : (s.modCluster c f).queues = s.queues := rfl
@[simp] theorem State.modCluster_doneWaits (s : State) (c : Nat) (f : Cluster → Cluster) : (s.modCluster c f).doneWaits = s.doneWaits := rfl
@[simp] theorem State.modCluster_lastQueue (s : State) (c : Nat) (f : Cluster → Cluster) : (s.modCluster c f).lastQueue = s.lastQueue := rfl
@[simp] theorem State.modCluster_drainDly (s : State) (c : Nat) (f : Cluster → Cluster) : (s.modCluster c f).drainDly = s.drainDly := rfl
@[simp] theorem State.modCluster_grids (s : State) (c : Nat) (f : Cluster → Cluster) : (s.modCluster c f).grids = s.grids := rfl
@[simp] theorem State.modCluster_teams (s : State) (c : Nat) (f : Cluster → Cluster) : (s.modCluster c f).teams = s.teams := rfl
@[simp] theorem State.modCluster_groups (s : State) (c : Nat) (f : Cluster → Cluster) : (s.modCluster c f).groups = s.groups := rfl
@[simp] theorem State.modCluster_sections (s : State) (c : Nat) (f : Cluster → Cluster) : (s.modCluster c f).sections = s.sections := rfl
@[simp] theorem State.modCluster_structs (s : State) (c : Nat) (f : Cluster → Cluster) : (s.modCluster c f).structs = s.structs := rfl
@[simp] theorem State.modCluster_plans (s : State) (c : Nat) (f : Cluster → Cluster) : (s.modCluster c f).plans = s.plans := rfl
@[simp] theorem State.modCluster_ops (s : State) (c : Nat) (f : Cluster → Cluster) : (s.modCluster c f).ops = s.ops := rfl
@[simp] theorem State.modCluster_flights (s : State) (c : Nat) (f : Cluster → Cluster) : (s.modCluster c f).flights = s.flights := rfl
@[simp] theorem State.modCluster_links (s : State) (c : Nat) (f : Cluster → Cluster) : (s.modCluster c f).links = s.links := rfl
@[simp] theorem State.modCluster_peers (s : State) (c : Nat) (f : Cluster → Cluster) : (s.modCluster c f).peers = s.peers := rfl
@[simp] theorem State.modCluster_mgmt (s : State) (c : Nat) (f : Cluster → Cluster) : (s.modCluster c f).mgmt = s.mgmt := rfl
/-! ### State.modCtx -/
@[simp] theorem State.modCtx_agenda (s : State) (a : Nat) (f : Ctx → Ctx) : (s.modCtx a f).agenda = s.agenda := rfl
@[simp] theorem State.modCtx_visitCore (s : State) (a : Nat) (f : Ctx → Ctx) : (s.modCtx a f).visitCore = s.visitCore := rfl
@[simp] theorem State.modCtx_visitDp (s : State) (a : Nat) (f : Ctx → Ctx) : (s.modCtx a f).visitDp = s.visitDp := rfl
@[simp] theorem State.modCtx_issuer (s : State) (a : Nat) (f : Ctx → Ctx) : (s.modCtx a f).issuer = s.issuer := rfl
@[simp] theorem State.modCtx_rakeCore (s : State) (a : Nat) (f : Ctx → Ctx) : (s.modCtx a f).rakeCore = s.rakeCore := rfl
@[simp] theorem State.modCtx_rakeThread (s : State) (a : Nat) (f : Ctx → Ctx) : (s.modCtx a f).rakeThread = s.rakeThread := rfl
@[simp] theorem State.modCtx_freeCount (s : State) (a : Nat) (f : Ctx → Ctx) : (s.modCtx a f).freeCount = s.freeCount := rfl
@[simp] theorem State.modCtx_nextId (s : State) (a : Nat) (f : Ctx → Ctx) : (s.modCtx a f).nextId = s.nextId := rfl
@[simp] theorem State.modCtx_cycle (s : State) (a : Nat) (f : Ctx → Ctx) : (s.modCtx a f).cycle = s.cycle := rfl
@[simp] theorem State.modCtx_time (s : State) (a : Nat) (f : Ctx → Ctx) : (s.modCtx a f).time = s.time := rfl
@[simp] theorem State.modCtx_mem (s : State) (a : Nat) (f : Ctx → Ctx) : (s.modCtx a f).mem = s.mem := rfl
@[simp] theorem State.modCtx_emptyWords (s : State) (a : Nat) (f : Ctx → Ctx) : (s.modCtx a f).emptyWords = s.emptyWords := rfl
@[simp] theorem State.modCtx_poison (s : State) (a : Nat) (f : Ctx → Ctx) : (s.modCtx a f).poison = s.poison := rfl
@[simp] theorem State.modCtx_bad (s : State) (a : Nat) (f : Ctx → Ctx) : (s.modCtx a f).bad = s.bad := rfl
@[simp] theorem State.modCtx_clean (s : State) (a : Nat) (f : Ctx → Ctx) : (s.modCtx a f).clean = s.clean := rfl
@[simp] theorem State.modCtx_dcache (s : State) (a : Nat) (f : Ctx → Ctx) : (s.modCtx a f).dcache = s.dcache := rfl
@[simp] theorem State.modCtx_units (s : State) (a : Nat) (f : Ctx → Ctx) : (s.modCtx a f).units = s.units := rfl
@[simp] theorem State.modCtx_slices (s : State) (a : Nat) (f : Ctx → Ctx) : (s.modCtx a f).slices = s.slices := rfl
@[simp] theorem State.modCtx_cores (s : State) (a : Nat) (f : Ctx → Ctx) : (s.modCtx a f).cores = s.cores := rfl
@[simp] theorem State.modCtx_clusters (s : State) (a : Nat) (f : Ctx → Ctx) : (s.modCtx a f).clusters = s.clusters := rfl
@[simp] theorem State.modCtx_sys (s : State) (a : Nat) (f : Ctx → Ctx) : (s.modCtx a f).sys = s.sys := rfl
@[simp] theorem State.modCtx_replays (s : State) (a : Nat) (f : Ctx → Ctx) : (s.modCtx a f).replays = s.replays := rfl
@[simp] theorem State.modCtx_nextReplay (s : State) (a : Nat) (f : Ctx → Ctx) : (s.modCtx a f).nextReplay = s.nextReplay := rfl
@[simp] theorem State.modCtx_eqWaiting (s : State) (a : Nat) (f : Ctx → Ctx) : (s.modCtx a f).eqWaiting = s.eqWaiting := rfl
@[simp] theorem State.modCtx_queues (s : State) (a : Nat) (f : Ctx → Ctx) : (s.modCtx a f).queues = s.queues := rfl
@[simp] theorem State.modCtx_doneWaits (s : State) (a : Nat) (f : Ctx → Ctx) : (s.modCtx a f).doneWaits = s.doneWaits := rfl
@[simp] theorem State.modCtx_lastQueue (s : State) (a : Nat) (f : Ctx → Ctx) : (s.modCtx a f).lastQueue = s.lastQueue := rfl
@[simp] theorem State.modCtx_drainDly (s : State) (a : Nat) (f : Ctx → Ctx) : (s.modCtx a f).drainDly = s.drainDly := rfl
@[simp] theorem State.modCtx_grids (s : State) (a : Nat) (f : Ctx → Ctx) : (s.modCtx a f).grids = s.grids := rfl
@[simp] theorem State.modCtx_teams (s : State) (a : Nat) (f : Ctx → Ctx) : (s.modCtx a f).teams = s.teams := rfl
@[simp] theorem State.modCtx_groups (s : State) (a : Nat) (f : Ctx → Ctx) : (s.modCtx a f).groups = s.groups := rfl
@[simp] theorem State.modCtx_sections (s : State) (a : Nat) (f : Ctx → Ctx) : (s.modCtx a f).sections = s.sections := rfl
@[simp] theorem State.modCtx_structs (s : State) (a : Nat) (f : Ctx → Ctx) : (s.modCtx a f).structs = s.structs := rfl
@[simp] theorem State.modCtx_plans (s : State) (a : Nat) (f : Ctx → Ctx) : (s.modCtx a f).plans = s.plans := rfl
@[simp] theorem State.modCtx_ops (s : State) (a : Nat) (f : Ctx → Ctx) : (s.modCtx a f).ops = s.ops := rfl
@[simp] theorem State.modCtx_flights (s : State) (a : Nat) (f : Ctx → Ctx) : (s.modCtx a f).flights = s.flights := rfl
@[simp] theorem State.modCtx_links (s : State) (a : Nat) (f : Ctx → Ctx) : (s.modCtx a f).links = s.links := rfl
@[simp] theorem State.modCtx_peers (s : State) (a : Nat) (f : Ctx → Ctx) : (s.modCtx a f).peers = s.peers := rfl
@[simp] theorem State.modCtx_mgmt (s : State) (a : Nat) (f : Ctx → Ctx) : (s.modCtx a f).mgmt = s.mgmt := rfl
/-! ### State.modGroup -/
@[simp] theorem State.modGroup_agenda (s : State) (g : Nat) (f : Group → Group) : (s.modGroup g f).agenda = s.agenda := by unfold State.modGroup; split <;> rfl
@[simp] theorem State.modGroup_visitCore (s : State) (g : Nat) (f : Group → Group) : (s.modGroup g f).visitCore = s.visitCore := by unfold State.modGroup; split <;> rfl
@[simp] theorem State.modGroup_visitDp (s : State) (g : Nat) (f : Group → Group) : (s.modGroup g f).visitDp = s.visitDp := by unfold State.modGroup; split <;> rfl
@[simp] theorem State.modGroup_issuer (s : State) (g : Nat) (f : Group → Group) : (s.modGroup g f).issuer = s.issuer := by unfold State.modGroup; split <;> rfl
@[simp] theorem State.modGroup_rakeCore (s : State) (g : Nat) (f : Group → Group) : (s.modGroup g f).rakeCore = s.rakeCore := by unfold State.modGroup; split <;> rfl
@[simp] theorem State.modGroup_rakeThread (s : State) (g : Nat) (f : Group → Group) : (s.modGroup g f).rakeThread = s.rakeThread := by unfold State.modGroup; split <;> rfl
@[simp] theorem State.modGroup_freeCount (s : State) (g : Nat) (f : Group → Group) : (s.modGroup g f).freeCount = s.freeCount := by unfold State.modGroup; split <;> rfl
@[simp] theorem State.modGroup_nextId (s : State) (g : Nat) (f : Group → Group) : (s.modGroup g f).nextId = s.nextId := by unfold State.modGroup; split <;> rfl
@[simp] theorem State.modGroup_cycle (s : State) (g : Nat) (f : Group → Group) : (s.modGroup g f).cycle = s.cycle := by unfold State.modGroup; split <;> rfl
@[simp] theorem State.modGroup_time (s : State) (g : Nat) (f : Group → Group) : (s.modGroup g f).time = s.time := by unfold State.modGroup; split <;> rfl
@[simp] theorem State.modGroup_mem (s : State) (g : Nat) (f : Group → Group) : (s.modGroup g f).mem = s.mem := by unfold State.modGroup; split <;> rfl
@[simp] theorem State.modGroup_emptyWords (s : State) (g : Nat) (f : Group → Group) : (s.modGroup g f).emptyWords = s.emptyWords := by unfold State.modGroup; split <;> rfl
@[simp] theorem State.modGroup_poison (s : State) (g : Nat) (f : Group → Group) : (s.modGroup g f).poison = s.poison := by unfold State.modGroup; split <;> rfl
@[simp] theorem State.modGroup_bad (s : State) (g : Nat) (f : Group → Group) : (s.modGroup g f).bad = s.bad := by unfold State.modGroup; split <;> rfl
@[simp] theorem State.modGroup_clean (s : State) (g : Nat) (f : Group → Group) : (s.modGroup g f).clean = s.clean := by unfold State.modGroup; split <;> rfl
@[simp] theorem State.modGroup_dcache (s : State) (g : Nat) (f : Group → Group) : (s.modGroup g f).dcache = s.dcache := by unfold State.modGroup; split <;> rfl
@[simp] theorem State.modGroup_units (s : State) (g : Nat) (f : Group → Group) : (s.modGroup g f).units = s.units := by unfold State.modGroup; split <;> rfl
@[simp] theorem State.modGroup_slices (s : State) (g : Nat) (f : Group → Group) : (s.modGroup g f).slices = s.slices := by unfold State.modGroup; split <;> rfl
@[simp] theorem State.modGroup_cores (s : State) (g : Nat) (f : Group → Group) : (s.modGroup g f).cores = s.cores := by unfold State.modGroup; split <;> rfl
@[simp] theorem State.modGroup_clusters (s : State) (g : Nat) (f : Group → Group) : (s.modGroup g f).clusters = s.clusters := by unfold State.modGroup; split <;> rfl
@[simp] theorem State.modGroup_sys (s : State) (g : Nat) (f : Group → Group) : (s.modGroup g f).sys = s.sys := by unfold State.modGroup; split <;> rfl
@[simp] theorem State.modGroup_ctxs (s : State) (g : Nat) (f : Group → Group) : (s.modGroup g f).ctxs = s.ctxs := by unfold State.modGroup; split <;> rfl
@[simp] theorem State.modGroup_replays (s : State) (g : Nat) (f : Group → Group) : (s.modGroup g f).replays = s.replays := by unfold State.modGroup; split <;> rfl
@[simp] theorem State.modGroup_nextReplay (s : State) (g : Nat) (f : Group → Group) : (s.modGroup g f).nextReplay = s.nextReplay := by unfold State.modGroup; split <;> rfl
@[simp] theorem State.modGroup_eqWaiting (s : State) (g : Nat) (f : Group → Group) : (s.modGroup g f).eqWaiting = s.eqWaiting := by unfold State.modGroup; split <;> rfl
@[simp] theorem State.modGroup_queues (s : State) (g : Nat) (f : Group → Group) : (s.modGroup g f).queues = s.queues := by unfold State.modGroup; split <;> rfl
@[simp] theorem State.modGroup_doneWaits (s : State) (g : Nat) (f : Group → Group) : (s.modGroup g f).doneWaits = s.doneWaits := by unfold State.modGroup; split <;> rfl
@[simp] theorem State.modGroup_lastQueue (s : State) (g : Nat) (f : Group → Group) : (s.modGroup g f).lastQueue = s.lastQueue := by unfold State.modGroup; split <;> rfl
@[simp] theorem State.modGroup_drainDly (s : State) (g : Nat) (f : Group → Group) : (s.modGroup g f).drainDly = s.drainDly := by unfold State.modGroup; split <;> rfl
@[simp] theorem State.modGroup_grids (s : State) (g : Nat) (f : Group → Group) : (s.modGroup g f).grids = s.grids := by unfold State.modGroup; split <;> rfl
@[simp] theorem State.modGroup_teams (s : State) (g : Nat) (f : Group → Group) : (s.modGroup g f).teams = s.teams := by unfold State.modGroup; split <;> rfl
@[simp] theorem State.modGroup_sections (s : State) (g : Nat) (f : Group → Group) : (s.modGroup g f).sections = s.sections := by unfold State.modGroup; split <;> rfl
@[simp] theorem State.modGroup_structs (s : State) (g : Nat) (f : Group → Group) : (s.modGroup g f).structs = s.structs := by unfold State.modGroup; split <;> rfl
@[simp] theorem State.modGroup_plans (s : State) (g : Nat) (f : Group → Group) : (s.modGroup g f).plans = s.plans := by unfold State.modGroup; split <;> rfl
@[simp] theorem State.modGroup_ops (s : State) (g : Nat) (f : Group → Group) : (s.modGroup g f).ops = s.ops := by unfold State.modGroup; split <;> rfl
@[simp] theorem State.modGroup_flights (s : State) (g : Nat) (f : Group → Group) : (s.modGroup g f).flights = s.flights := by unfold State.modGroup; split <;> rfl
@[simp] theorem State.modGroup_links (s : State) (g : Nat) (f : Group → Group) : (s.modGroup g f).links = s.links := by unfold State.modGroup; split <;> rfl
@[simp] theorem State.modGroup_peers (s : State) (g : Nat) (f : Group → Group) : (s.modGroup g f).peers = s.peers := by unfold State.modGroup; split <;> rfl
@[simp] theorem State.modGroup_mgmt (s : State) (g : Nat) (f : Group → Group) : (s.modGroup g f).mgmt = s.mgmt := by unfold State.modGroup; split <;> rfl
/-! ### State.modQueue -/
@[simp] theorem State.modQueue_agenda (s : State) (q : Nat) (f : LaunchQ → LaunchQ) : (s.modQueue q f).agenda = s.agenda := rfl
@[simp] theorem State.modQueue_visitCore (s : State) (q : Nat) (f : LaunchQ → LaunchQ) : (s.modQueue q f).visitCore = s.visitCore := rfl
@[simp] theorem State.modQueue_visitDp (s : State) (q : Nat) (f : LaunchQ → LaunchQ) : (s.modQueue q f).visitDp = s.visitDp := rfl
@[simp] theorem State.modQueue_issuer (s : State) (q : Nat) (f : LaunchQ → LaunchQ) : (s.modQueue q f).issuer = s.issuer := rfl
@[simp] theorem State.modQueue_rakeCore (s : State) (q : Nat) (f : LaunchQ → LaunchQ) : (s.modQueue q f).rakeCore = s.rakeCore := rfl
@[simp] theorem State.modQueue_rakeThread (s : State) (q : Nat) (f : LaunchQ → LaunchQ) : (s.modQueue q f).rakeThread = s.rakeThread := rfl
@[simp] theorem State.modQueue_freeCount (s : State) (q : Nat) (f : LaunchQ → LaunchQ) : (s.modQueue q f).freeCount = s.freeCount := rfl
@[simp] theorem State.modQueue_nextId (s : State) (q : Nat) (f : LaunchQ → LaunchQ) : (s.modQueue q f).nextId = s.nextId := rfl
@[simp] theorem State.modQueue_cycle (s : State) (q : Nat) (f : LaunchQ → LaunchQ) : (s.modQueue q f).cycle = s.cycle := rfl
@[simp] theorem State.modQueue_time (s : State) (q : Nat) (f : LaunchQ → LaunchQ) : (s.modQueue q f).time = s.time := rfl
@[simp] theorem State.modQueue_mem (s : State) (q : Nat) (f : LaunchQ → LaunchQ) : (s.modQueue q f).mem = s.mem := rfl
@[simp] theorem State.modQueue_emptyWords (s : State) (q : Nat) (f : LaunchQ → LaunchQ) : (s.modQueue q f).emptyWords = s.emptyWords := rfl
@[simp] theorem State.modQueue_poison (s : State) (q : Nat) (f : LaunchQ → LaunchQ) : (s.modQueue q f).poison = s.poison := rfl
@[simp] theorem State.modQueue_bad (s : State) (q : Nat) (f : LaunchQ → LaunchQ) : (s.modQueue q f).bad = s.bad := rfl
@[simp] theorem State.modQueue_clean (s : State) (q : Nat) (f : LaunchQ → LaunchQ) : (s.modQueue q f).clean = s.clean := rfl
@[simp] theorem State.modQueue_dcache (s : State) (q : Nat) (f : LaunchQ → LaunchQ) : (s.modQueue q f).dcache = s.dcache := rfl
@[simp] theorem State.modQueue_units (s : State) (q : Nat) (f : LaunchQ → LaunchQ) : (s.modQueue q f).units = s.units := rfl
@[simp] theorem State.modQueue_slices (s : State) (q : Nat) (f : LaunchQ → LaunchQ) : (s.modQueue q f).slices = s.slices := rfl
@[simp] theorem State.modQueue_cores (s : State) (q : Nat) (f : LaunchQ → LaunchQ) : (s.modQueue q f).cores = s.cores := rfl
@[simp] theorem State.modQueue_clusters (s : State) (q : Nat) (f : LaunchQ → LaunchQ) : (s.modQueue q f).clusters = s.clusters := rfl
@[simp] theorem State.modQueue_sys (s : State) (q : Nat) (f : LaunchQ → LaunchQ) : (s.modQueue q f).sys = s.sys := rfl
@[simp] theorem State.modQueue_ctxs (s : State) (q : Nat) (f : LaunchQ → LaunchQ) : (s.modQueue q f).ctxs = s.ctxs := rfl
@[simp] theorem State.modQueue_replays (s : State) (q : Nat) (f : LaunchQ → LaunchQ) : (s.modQueue q f).replays = s.replays := rfl
@[simp] theorem State.modQueue_nextReplay (s : State) (q : Nat) (f : LaunchQ → LaunchQ) : (s.modQueue q f).nextReplay = s.nextReplay := rfl
@[simp] theorem State.modQueue_eqWaiting (s : State) (q : Nat) (f : LaunchQ → LaunchQ) : (s.modQueue q f).eqWaiting = s.eqWaiting := rfl
@[simp] theorem State.modQueue_doneWaits (s : State) (q : Nat) (f : LaunchQ → LaunchQ) : (s.modQueue q f).doneWaits = s.doneWaits := rfl
@[simp] theorem State.modQueue_lastQueue (s : State) (q : Nat) (f : LaunchQ → LaunchQ) : (s.modQueue q f).lastQueue = s.lastQueue := rfl
@[simp] theorem State.modQueue_drainDly (s : State) (q : Nat) (f : LaunchQ → LaunchQ) : (s.modQueue q f).drainDly = s.drainDly := rfl
@[simp] theorem State.modQueue_grids (s : State) (q : Nat) (f : LaunchQ → LaunchQ) : (s.modQueue q f).grids = s.grids := rfl
@[simp] theorem State.modQueue_teams (s : State) (q : Nat) (f : LaunchQ → LaunchQ) : (s.modQueue q f).teams = s.teams := rfl
@[simp] theorem State.modQueue_groups (s : State) (q : Nat) (f : LaunchQ → LaunchQ) : (s.modQueue q f).groups = s.groups := rfl
@[simp] theorem State.modQueue_sections (s : State) (q : Nat) (f : LaunchQ → LaunchQ) : (s.modQueue q f).sections = s.sections := rfl
@[simp] theorem State.modQueue_structs (s : State) (q : Nat) (f : LaunchQ → LaunchQ) : (s.modQueue q f).structs = s.structs := rfl
@[simp] theorem State.modQueue_plans (s : State) (q : Nat) (f : LaunchQ → LaunchQ) : (s.modQueue q f).plans = s.plans := rfl
@[simp] theorem State.modQueue_ops (s : State) (q : Nat) (f : LaunchQ → LaunchQ) : (s.modQueue q f).ops = s.ops := rfl
@[simp] theorem State.modQueue_flights (s : State) (q : Nat) (f : LaunchQ → LaunchQ) : (s.modQueue q f).flights = s.flights := rfl
@[simp] theorem State.modQueue_links (s : State) (q : Nat) (f : LaunchQ → LaunchQ) : (s.modQueue q f).links = s.links := rfl
@[simp] theorem State.modQueue_peers (s : State) (q : Nat) (f : LaunchQ → LaunchQ) : (s.modQueue q f).peers = s.peers := rfl
@[simp] theorem State.modQueue_mgmt (s : State) (q : Nat) (f : LaunchQ → LaunchQ) : (s.modQueue q f).mgmt = s.mgmt := rfl
/-! ### State.modStruct -/
@[simp] theorem State.modStruct_agenda (s : State) (n : Nat) (f : Struct → Struct) : (s.modStruct n f).agenda = s.agenda := rfl
@[simp] theorem State.modStruct_visitCore (s : State) (n : Nat) (f : Struct → Struct) : (s.modStruct n f).visitCore = s.visitCore := rfl
@[simp] theorem State.modStruct_visitDp (s : State) (n : Nat) (f : Struct → Struct) : (s.modStruct n f).visitDp = s.visitDp := rfl
@[simp] theorem State.modStruct_issuer (s : State) (n : Nat) (f : Struct → Struct) : (s.modStruct n f).issuer = s.issuer := rfl
@[simp] theorem State.modStruct_rakeCore (s : State) (n : Nat) (f : Struct → Struct) : (s.modStruct n f).rakeCore = s.rakeCore := rfl
@[simp] theorem State.modStruct_rakeThread (s : State) (n : Nat) (f : Struct → Struct) : (s.modStruct n f).rakeThread = s.rakeThread := rfl
@[simp] theorem State.modStruct_freeCount (s : State) (n : Nat) (f : Struct → Struct) : (s.modStruct n f).freeCount = s.freeCount := rfl
@[simp] theorem State.modStruct_nextId (s : State) (n : Nat) (f : Struct → Struct) : (s.modStruct n f).nextId = s.nextId := rfl
@[simp] theorem State.modStruct_cycle (s : State) (n : Nat) (f : Struct → Struct) : (s.modStruct n f).cycle = s.cycle := rfl
@[simp] theorem State.modStruct_time (s : State) (n : Nat) (f : Struct → Struct) : (s.modStruct n f).time = s.time := rfl
@[simp] theorem State.modStruct_mem (s : State) (n : Nat) (f : Struct → Struct) : (s.modStruct n f).mem = s.mem := rfl
@[simp] theorem State.modStruct_emptyWords (s : State) (n : Nat) (f : Struct → Struct) : (s.modStruct n f).emptyWords = s.emptyWords := rfl
@[simp] theorem State.modStruct_poison (s : State) (n : Nat) (f : Struct → Struct) : (s.modStruct n f).poison = s.poison := rfl
@[simp] theorem State.modStruct_bad (s : State) (n : Nat) (f : Struct → Struct) : (s.modStruct n f).bad = s.bad := rfl
@[simp] theorem State.modStruct_clean (s : State) (n : Nat) (f : Struct → Struct) : (s.modStruct n f).clean = s.clean := rfl
@[simp] theorem State.modStruct_dcache (s : State) (n : Nat) (f : Struct → Struct) : (s.modStruct n f).dcache = s.dcache := rfl
@[simp] theorem State.modStruct_units (s : State) (n : Nat) (f : Struct → Struct) : (s.modStruct n f).units = s.units := rfl
@[simp] theorem State.modStruct_slices (s : State) (n : Nat) (f : Struct → Struct) : (s.modStruct n f).slices = s.slices := rfl
@[simp] theorem State.modStruct_cores (s : State) (n : Nat) (f : Struct → Struct) : (s.modStruct n f).cores = s.cores := rfl
@[simp] theorem State.modStruct_clusters (s : State) (n : Nat) (f : Struct → Struct) : (s.modStruct n f).clusters = s.clusters := rfl
@[simp] theorem State.modStruct_sys (s : State) (n : Nat) (f : Struct → Struct) : (s.modStruct n f).sys = s.sys := rfl
@[simp] theorem State.modStruct_ctxs (s : State) (n : Nat) (f : Struct → Struct) : (s.modStruct n f).ctxs = s.ctxs := rfl
@[simp] theorem State.modStruct_replays (s : State) (n : Nat) (f : Struct → Struct) : (s.modStruct n f).replays = s.replays := rfl
@[simp] theorem State.modStruct_nextReplay (s : State) (n : Nat) (f : Struct → Struct) : (s.modStruct n f).nextReplay = s.nextReplay := rfl
@[simp] theorem State.modStruct_eqWaiting (s : State) (n : Nat) (f : Struct → Struct) : (s.modStruct n f).eqWaiting = s.eqWaiting := rfl
@[simp] theorem State.modStruct_queues (s : State) (n : Nat) (f : Struct → Struct) : (s.modStruct n f).queues = s.queues := rfl
@[simp] theorem State.modStruct_doneWaits (s : State) (n : Nat) (f : Struct → Struct) : (s.modStruct n f).doneWaits = s.doneWaits := rfl
@[simp] theorem State.modStruct_lastQueue (s : State) (n : Nat) (f : Struct → Struct) : (s.modStruct n f).lastQueue = s.lastQueue := rfl
@[simp] theorem State.modStruct_drainDly (s : State) (n : Nat) (f : Struct → Struct) : (s.modStruct n f).drainDly = s.drainDly := rfl
@[simp] theorem State.modStruct_grids (s : State) (n : Nat) (f : Struct → Struct) : (s.modStruct n f).grids = s.grids := rfl
@[simp] theorem State.modStruct_teams (s : State) (n : Nat) (f : Struct → Struct) : (s.modStruct n f).teams = s.teams := rfl
@[simp] theorem State.modStruct_groups (s : State) (n : Nat) (f : Struct → Struct) : (s.modStruct n f).groups = s.groups := rfl
@[simp] theorem State.modStruct_sections (s : State) (n : Nat) (f : Struct → Struct) : (s.modStruct n f).sections = s.sections := rfl
@[simp] theorem State.modStruct_plans (s : State) (n : Nat) (f : Struct → Struct) : (s.modStruct n f).plans = s.plans := rfl
@[simp] theorem State.modStruct_ops (s : State) (n : Nat) (f : Struct → Struct) : (s.modStruct n f).ops = s.ops := rfl
@[simp] theorem State.modStruct_flights (s : State) (n : Nat) (f : Struct → Struct) : (s.modStruct n f).flights = s.flights := rfl
@[simp] theorem State.modStruct_links (s : State) (n : Nat) (f : Struct → Struct) : (s.modStruct n f).links = s.links := rfl
@[simp] theorem State.modStruct_peers (s : State) (n : Nat) (f : Struct → Struct) : (s.modStruct n f).peers = s.peers := rfl
@[simp] theorem State.modStruct_mgmt (s : State) (n : Nat) (f : Struct → Struct) : (s.modStruct n f).mgmt = s.mgmt := rfl
/-! ### State.modPlan -/
@[simp] theorem State.modPlan_agenda (s : State) (n : Nat) (f : Plan → Plan) : (s.modPlan n f).agenda = s.agenda := rfl
@[simp] theorem State.modPlan_visitCore (s : State) (n : Nat) (f : Plan → Plan) : (s.modPlan n f).visitCore = s.visitCore := rfl
@[simp] theorem State.modPlan_visitDp (s : State) (n : Nat) (f : Plan → Plan) : (s.modPlan n f).visitDp = s.visitDp := rfl
@[simp] theorem State.modPlan_issuer (s : State) (n : Nat) (f : Plan → Plan) : (s.modPlan n f).issuer = s.issuer := rfl
@[simp] theorem State.modPlan_rakeCore (s : State) (n : Nat) (f : Plan → Plan) : (s.modPlan n f).rakeCore = s.rakeCore := rfl
@[simp] theorem State.modPlan_rakeThread (s : State) (n : Nat) (f : Plan → Plan) : (s.modPlan n f).rakeThread = s.rakeThread := rfl
@[simp] theorem State.modPlan_freeCount (s : State) (n : Nat) (f : Plan → Plan) : (s.modPlan n f).freeCount = s.freeCount := rfl
@[simp] theorem State.modPlan_nextId (s : State) (n : Nat) (f : Plan → Plan) : (s.modPlan n f).nextId = s.nextId := rfl
@[simp] theorem State.modPlan_cycle (s : State) (n : Nat) (f : Plan → Plan) : (s.modPlan n f).cycle = s.cycle := rfl
@[simp] theorem State.modPlan_time (s : State) (n : Nat) (f : Plan → Plan) : (s.modPlan n f).time = s.time := rfl
@[simp] theorem State.modPlan_mem (s : State) (n : Nat) (f : Plan → Plan) : (s.modPlan n f).mem = s.mem := rfl
@[simp] theorem State.modPlan_emptyWords (s : State) (n : Nat) (f : Plan → Plan) : (s.modPlan n f).emptyWords = s.emptyWords := rfl
@[simp] theorem State.modPlan_poison (s : State) (n : Nat) (f : Plan → Plan) : (s.modPlan n f).poison = s.poison := rfl
@[simp] theorem State.modPlan_bad (s : State) (n : Nat) (f : Plan → Plan) : (s.modPlan n f).bad = s.bad := rfl
@[simp] theorem State.modPlan_clean (s : State) (n : Nat) (f : Plan → Plan) : (s.modPlan n f).clean = s.clean := rfl
@[simp] theorem State.modPlan_dcache (s : State) (n : Nat) (f : Plan → Plan) : (s.modPlan n f).dcache = s.dcache := rfl
@[simp] theorem State.modPlan_units (s : State) (n : Nat) (f : Plan → Plan) : (s.modPlan n f).units = s.units := rfl
@[simp] theorem State.modPlan_slices (s : State) (n : Nat) (f : Plan → Plan) : (s.modPlan n f).slices = s.slices := rfl
@[simp] theorem State.modPlan_cores (s : State) (n : Nat) (f : Plan → Plan) : (s.modPlan n f).cores = s.cores := rfl
@[simp] theorem State.modPlan_clusters (s : State) (n : Nat) (f : Plan → Plan) : (s.modPlan n f).clusters = s.clusters := rfl
@[simp] theorem State.modPlan_sys (s : State) (n : Nat) (f : Plan → Plan) : (s.modPlan n f).sys = s.sys := rfl
@[simp] theorem State.modPlan_ctxs (s : State) (n : Nat) (f : Plan → Plan) : (s.modPlan n f).ctxs = s.ctxs := rfl
@[simp] theorem State.modPlan_replays (s : State) (n : Nat) (f : Plan → Plan) : (s.modPlan n f).replays = s.replays := rfl
@[simp] theorem State.modPlan_nextReplay (s : State) (n : Nat) (f : Plan → Plan) : (s.modPlan n f).nextReplay = s.nextReplay := rfl
@[simp] theorem State.modPlan_eqWaiting (s : State) (n : Nat) (f : Plan → Plan) : (s.modPlan n f).eqWaiting = s.eqWaiting := rfl
@[simp] theorem State.modPlan_queues (s : State) (n : Nat) (f : Plan → Plan) : (s.modPlan n f).queues = s.queues := rfl
@[simp] theorem State.modPlan_doneWaits (s : State) (n : Nat) (f : Plan → Plan) : (s.modPlan n f).doneWaits = s.doneWaits := rfl
@[simp] theorem State.modPlan_lastQueue (s : State) (n : Nat) (f : Plan → Plan) : (s.modPlan n f).lastQueue = s.lastQueue := rfl
@[simp] theorem State.modPlan_drainDly (s : State) (n : Nat) (f : Plan → Plan) : (s.modPlan n f).drainDly = s.drainDly := rfl
@[simp] theorem State.modPlan_grids (s : State) (n : Nat) (f : Plan → Plan) : (s.modPlan n f).grids = s.grids := rfl
@[simp] theorem State.modPlan_teams (s : State) (n : Nat) (f : Plan → Plan) : (s.modPlan n f).teams = s.teams := rfl
@[simp] theorem State.modPlan_groups (s : State) (n : Nat) (f : Plan → Plan) : (s.modPlan n f).groups = s.groups := rfl
@[simp] theorem State.modPlan_sections (s : State) (n : Nat) (f : Plan → Plan) : (s.modPlan n f).sections = s.sections := rfl
@[simp] theorem State.modPlan_structs (s : State) (n : Nat) (f : Plan → Plan) : (s.modPlan n f).structs = s.structs := rfl
@[simp] theorem State.modPlan_ops (s : State) (n : Nat) (f : Plan → Plan) : (s.modPlan n f).ops = s.ops := rfl
@[simp] theorem State.modPlan_flights (s : State) (n : Nat) (f : Plan → Plan) : (s.modPlan n f).flights = s.flights := rfl
@[simp] theorem State.modPlan_links (s : State) (n : Nat) (f : Plan → Plan) : (s.modPlan n f).links = s.links := rfl
@[simp] theorem State.modPlan_peers (s : State) (n : Nat) (f : Plan → Plan) : (s.modPlan n f).peers = s.peers := rfl
@[simp] theorem State.modPlan_mgmt (s : State) (n : Nat) (f : Plan → Plan) : (s.modPlan n f).mgmt = s.mgmt := rfl
/-! ### State.modOp -/
@[simp] theorem State.modOp_agenda (s : State) (i : Nat) (f : Op → Op) : (s.modOp i f).agenda = s.agenda := rfl
@[simp] theorem State.modOp_visitCore (s : State) (i : Nat) (f : Op → Op) : (s.modOp i f).visitCore = s.visitCore := rfl
@[simp] theorem State.modOp_visitDp (s : State) (i : Nat) (f : Op → Op) : (s.modOp i f).visitDp = s.visitDp := rfl
@[simp] theorem State.modOp_issuer (s : State) (i : Nat) (f : Op → Op) : (s.modOp i f).issuer = s.issuer := rfl
@[simp] theorem State.modOp_rakeCore (s : State) (i : Nat) (f : Op → Op) : (s.modOp i f).rakeCore = s.rakeCore := rfl
@[simp] theorem State.modOp_rakeThread (s : State) (i : Nat) (f : Op → Op) : (s.modOp i f).rakeThread = s.rakeThread := rfl
@[simp] theorem State.modOp_freeCount (s : State) (i : Nat) (f : Op → Op) : (s.modOp i f).freeCount = s.freeCount := rfl
@[simp] theorem State.modOp_nextId (s : State) (i : Nat) (f : Op → Op) : (s.modOp i f).nextId = s.nextId := rfl
@[simp] theorem State.modOp_cycle (s : State) (i : Nat) (f : Op → Op) : (s.modOp i f).cycle = s.cycle := rfl
@[simp] theorem State.modOp_time (s : State) (i : Nat) (f : Op → Op) : (s.modOp i f).time = s.time := rfl
@[simp] theorem State.modOp_mem (s : State) (i : Nat) (f : Op → Op) : (s.modOp i f).mem = s.mem := rfl
@[simp] theorem State.modOp_emptyWords (s : State) (i : Nat) (f : Op → Op) : (s.modOp i f).emptyWords = s.emptyWords := rfl
@[simp] theorem State.modOp_poison (s : State) (i : Nat) (f : Op → Op) : (s.modOp i f).poison = s.poison := rfl
@[simp] theorem State.modOp_bad (s : State) (i : Nat) (f : Op → Op) : (s.modOp i f).bad = s.bad := rfl
@[simp] theorem State.modOp_clean (s : State) (i : Nat) (f : Op → Op) : (s.modOp i f).clean = s.clean := rfl
@[simp] theorem State.modOp_dcache (s : State) (i : Nat) (f : Op → Op) : (s.modOp i f).dcache = s.dcache := rfl
@[simp] theorem State.modOp_units (s : State) (i : Nat) (f : Op → Op) : (s.modOp i f).units = s.units := rfl
@[simp] theorem State.modOp_slices (s : State) (i : Nat) (f : Op → Op) : (s.modOp i f).slices = s.slices := rfl
@[simp] theorem State.modOp_cores (s : State) (i : Nat) (f : Op → Op) : (s.modOp i f).cores = s.cores := rfl
@[simp] theorem State.modOp_clusters (s : State) (i : Nat) (f : Op → Op) : (s.modOp i f).clusters = s.clusters := rfl
@[simp] theorem State.modOp_sys (s : State) (i : Nat) (f : Op → Op) : (s.modOp i f).sys = s.sys := rfl
@[simp] theorem State.modOp_ctxs (s : State) (i : Nat) (f : Op → Op) : (s.modOp i f).ctxs = s.ctxs := rfl
@[simp] theorem State.modOp_replays (s : State) (i : Nat) (f : Op → Op) : (s.modOp i f).replays = s.replays := rfl
@[simp] theorem State.modOp_nextReplay (s : State) (i : Nat) (f : Op → Op) : (s.modOp i f).nextReplay = s.nextReplay := rfl
@[simp] theorem State.modOp_eqWaiting (s : State) (i : Nat) (f : Op → Op) : (s.modOp i f).eqWaiting = s.eqWaiting := rfl
@[simp] theorem State.modOp_queues (s : State) (i : Nat) (f : Op → Op) : (s.modOp i f).queues = s.queues := rfl
@[simp] theorem State.modOp_doneWaits (s : State) (i : Nat) (f : Op → Op) : (s.modOp i f).doneWaits = s.doneWaits := rfl
@[simp] theorem State.modOp_lastQueue (s : State) (i : Nat) (f : Op → Op) : (s.modOp i f).lastQueue = s.lastQueue := rfl
@[simp] theorem State.modOp_drainDly (s : State) (i : Nat) (f : Op → Op) : (s.modOp i f).drainDly = s.drainDly := rfl
@[simp] theorem State.modOp_grids (s : State) (i : Nat) (f : Op → Op) : (s.modOp i f).grids = s.grids := rfl
@[simp] theorem State.modOp_teams (s : State) (i : Nat) (f : Op → Op) : (s.modOp i f).teams = s.teams := rfl
@[simp] theorem State.modOp_groups (s : State) (i : Nat) (f : Op → Op) : (s.modOp i f).groups = s.groups := rfl
@[simp] theorem State.modOp_sections (s : State) (i : Nat) (f : Op → Op) : (s.modOp i f).sections = s.sections := rfl
@[simp] theorem State.modOp_structs (s : State) (i : Nat) (f : Op → Op) : (s.modOp i f).structs = s.structs := rfl
@[simp] theorem State.modOp_plans (s : State) (i : Nat) (f : Op → Op) : (s.modOp i f).plans = s.plans := rfl
@[simp] theorem State.modOp_flights (s : State) (i : Nat) (f : Op → Op) : (s.modOp i f).flights = s.flights := rfl
@[simp] theorem State.modOp_links (s : State) (i : Nat) (f : Op → Op) : (s.modOp i f).links = s.links := rfl
@[simp] theorem State.modOp_peers (s : State) (i : Nat) (f : Op → Op) : (s.modOp i f).peers = s.peers := rfl
@[simp] theorem State.modOp_mgmt (s : State) (i : Nat) (f : Op → Op) : (s.modOp i f).mgmt = s.mgmt := rfl
/-! ### State.dropOp -/
@[simp] theorem State.dropOp_agenda (s : State) (i : Nat) : (s.dropOp i).agenda = s.agenda := rfl
@[simp] theorem State.dropOp_visitCore (s : State) (i : Nat) : (s.dropOp i).visitCore = s.visitCore := rfl
@[simp] theorem State.dropOp_visitDp (s : State) (i : Nat) : (s.dropOp i).visitDp = s.visitDp := rfl
@[simp] theorem State.dropOp_issuer (s : State) (i : Nat) : (s.dropOp i).issuer = s.issuer := rfl
@[simp] theorem State.dropOp_rakeCore (s : State) (i : Nat) : (s.dropOp i).rakeCore = s.rakeCore := rfl
@[simp] theorem State.dropOp_rakeThread (s : State) (i : Nat) : (s.dropOp i).rakeThread = s.rakeThread := rfl
@[simp] theorem State.dropOp_freeCount (s : State) (i : Nat) : (s.dropOp i).freeCount = s.freeCount := rfl
@[simp] theorem State.dropOp_nextId (s : State) (i : Nat) : (s.dropOp i).nextId = s.nextId := rfl
@[simp] theorem State.dropOp_cycle (s : State) (i : Nat) : (s.dropOp i).cycle = s.cycle := rfl
@[simp] theorem State.dropOp_time (s : State) (i : Nat) : (s.dropOp i).time = s.time := rfl
@[simp] theorem State.dropOp_mem (s : State) (i : Nat) : (s.dropOp i).mem = s.mem := rfl
@[simp] theorem State.dropOp_emptyWords (s : State) (i : Nat) : (s.dropOp i).emptyWords = s.emptyWords := rfl
@[simp] theorem State.dropOp_poison (s : State) (i : Nat) : (s.dropOp i).poison = s.poison := rfl
@[simp] theorem State.dropOp_bad (s : State) (i : Nat) : (s.dropOp i).bad = s.bad := rfl
@[simp] theorem State.dropOp_clean (s : State) (i : Nat) : (s.dropOp i).clean = s.clean := rfl
@[simp] theorem State.dropOp_dcache (s : State) (i : Nat) : (s.dropOp i).dcache = s.dcache := rfl
@[simp] theorem State.dropOp_units (s : State) (i : Nat) : (s.dropOp i).units = s.units := rfl
@[simp] theorem State.dropOp_slices (s : State) (i : Nat) : (s.dropOp i).slices = s.slices := rfl
@[simp] theorem State.dropOp_cores (s : State) (i : Nat) : (s.dropOp i).cores = s.cores := rfl
@[simp] theorem State.dropOp_clusters (s : State) (i : Nat) : (s.dropOp i).clusters = s.clusters := rfl
@[simp] theorem State.dropOp_sys (s : State) (i : Nat) : (s.dropOp i).sys = s.sys := rfl
@[simp] theorem State.dropOp_ctxs (s : State) (i : Nat) : (s.dropOp i).ctxs = s.ctxs := rfl
@[simp] theorem State.dropOp_replays (s : State) (i : Nat) : (s.dropOp i).replays = s.replays := rfl
@[simp] theorem State.dropOp_nextReplay (s : State) (i : Nat) : (s.dropOp i).nextReplay = s.nextReplay := rfl
@[simp] theorem State.dropOp_eqWaiting (s : State) (i : Nat) : (s.dropOp i).eqWaiting = s.eqWaiting := rfl
@[simp] theorem State.dropOp_queues (s : State) (i : Nat) : (s.dropOp i).queues = s.queues := rfl
@[simp] theorem State.dropOp_doneWaits (s : State) (i : Nat) : (s.dropOp i).doneWaits = s.doneWaits := rfl
@[simp] theorem State.dropOp_lastQueue (s : State) (i : Nat) : (s.dropOp i).lastQueue = s.lastQueue := rfl
@[simp] theorem State.dropOp_drainDly (s : State) (i : Nat) : (s.dropOp i).drainDly = s.drainDly := rfl
@[simp] theorem State.dropOp_grids (s : State) (i : Nat) : (s.dropOp i).grids = s.grids := rfl
@[simp] theorem State.dropOp_teams (s : State) (i : Nat) : (s.dropOp i).teams = s.teams := rfl
@[simp] theorem State.dropOp_groups (s : State) (i : Nat) : (s.dropOp i).groups = s.groups := rfl
@[simp] theorem State.dropOp_sections (s : State) (i : Nat) : (s.dropOp i).sections = s.sections := rfl
@[simp] theorem State.dropOp_structs (s : State) (i : Nat) : (s.dropOp i).structs = s.structs := rfl
@[simp] theorem State.dropOp_plans (s : State) (i : Nat) : (s.dropOp i).plans = s.plans := rfl
@[simp] theorem State.dropOp_flights (s : State) (i : Nat) : (s.dropOp i).flights = s.flights := rfl
@[simp] theorem State.dropOp_links (s : State) (i : Nat) : (s.dropOp i).links = s.links := rfl
@[simp] theorem State.dropOp_peers (s : State) (i : Nat) : (s.dropOp i).peers = s.peers := rfl
@[simp] theorem State.dropOp_mgmt (s : State) (i : Nat) : (s.dropOp i).mgmt = s.mgmt := rfl
/-! ### State.dropFlight -/
@[simp] theorem State.dropFlight_agenda (s : State) (i : Nat) : (s.dropFlight i).agenda = s.agenda := rfl
@[simp] theorem State.dropFlight_visitCore (s : State) (i : Nat) : (s.dropFlight i).visitCore = s.visitCore := rfl
@[simp] theorem State.dropFlight_visitDp (s : State) (i : Nat) : (s.dropFlight i).visitDp = s.visitDp := rfl
@[simp] theorem State.dropFlight_issuer (s : State) (i : Nat) : (s.dropFlight i).issuer = s.issuer := rfl
@[simp] theorem State.dropFlight_rakeCore (s : State) (i : Nat) : (s.dropFlight i).rakeCore = s.rakeCore := rfl
@[simp] theorem State.dropFlight_rakeThread (s : State) (i : Nat) : (s.dropFlight i).rakeThread = s.rakeThread := rfl
@[simp] theorem State.dropFlight_freeCount (s : State) (i : Nat) : (s.dropFlight i).freeCount = s.freeCount := rfl
@[simp] theorem State.dropFlight_nextId (s : State) (i : Nat) : (s.dropFlight i).nextId = s.nextId := rfl
@[simp] theorem State.dropFlight_cycle (s : State) (i : Nat) : (s.dropFlight i).cycle = s.cycle := rfl
@[simp] theorem State.dropFlight_time (s : State) (i : Nat) : (s.dropFlight i).time = s.time := rfl
@[simp] theorem State.dropFlight_mem (s : State) (i : Nat) : (s.dropFlight i).mem = s.mem := rfl
@[simp] theorem State.dropFlight_emptyWords (s : State) (i : Nat) : (s.dropFlight i).emptyWords = s.emptyWords := rfl
@[simp] theorem State.dropFlight_poison (s : State) (i : Nat) : (s.dropFlight i).poison = s.poison := rfl
@[simp] theorem State.dropFlight_bad (s : State) (i : Nat) : (s.dropFlight i).bad = s.bad := rfl
@[simp] theorem State.dropFlight_clean (s : State) (i : Nat) : (s.dropFlight i).clean = s.clean := rfl
@[simp] theorem State.dropFlight_dcache (s : State) (i : Nat) : (s.dropFlight i).dcache = s.dcache := rfl
@[simp] theorem State.dropFlight_units (s : State) (i : Nat) : (s.dropFlight i).units = s.units := rfl
@[simp] theorem State.dropFlight_slices (s : State) (i : Nat) : (s.dropFlight i).slices = s.slices := rfl
@[simp] theorem State.dropFlight_cores (s : State) (i : Nat) : (s.dropFlight i).cores = s.cores := rfl
@[simp] theorem State.dropFlight_clusters (s : State) (i : Nat) : (s.dropFlight i).clusters = s.clusters := rfl
@[simp] theorem State.dropFlight_sys (s : State) (i : Nat) : (s.dropFlight i).sys = s.sys := rfl
@[simp] theorem State.dropFlight_ctxs (s : State) (i : Nat) : (s.dropFlight i).ctxs = s.ctxs := rfl
@[simp] theorem State.dropFlight_replays (s : State) (i : Nat) : (s.dropFlight i).replays = s.replays := rfl
@[simp] theorem State.dropFlight_nextReplay (s : State) (i : Nat) : (s.dropFlight i).nextReplay = s.nextReplay := rfl
@[simp] theorem State.dropFlight_eqWaiting (s : State) (i : Nat) : (s.dropFlight i).eqWaiting = s.eqWaiting := rfl
@[simp] theorem State.dropFlight_queues (s : State) (i : Nat) : (s.dropFlight i).queues = s.queues := rfl
@[simp] theorem State.dropFlight_doneWaits (s : State) (i : Nat) : (s.dropFlight i).doneWaits = s.doneWaits := rfl
@[simp] theorem State.dropFlight_lastQueue (s : State) (i : Nat) : (s.dropFlight i).lastQueue = s.lastQueue := rfl
@[simp] theorem State.dropFlight_drainDly (s : State) (i : Nat) : (s.dropFlight i).drainDly = s.drainDly := rfl
@[simp] theorem State.dropFlight_grids (s : State) (i : Nat) : (s.dropFlight i).grids = s.grids := rfl
@[simp] theorem State.dropFlight_teams (s : State) (i : Nat) : (s.dropFlight i).teams = s.teams := rfl
@[simp] theorem State.dropFlight_groups (s : State) (i : Nat) : (s.dropFlight i).groups = s.groups := rfl
@[simp] theorem State.dropFlight_sections (s : State) (i : Nat) : (s.dropFlight i).sections = s.sections := rfl
@[simp] theorem State.dropFlight_structs (s : State) (i : Nat) : (s.dropFlight i).structs = s.structs := rfl
@[simp] theorem State.dropFlight_plans (s : State) (i : Nat) : (s.dropFlight i).plans = s.plans := rfl
@[simp] theorem State.dropFlight_ops (s : State) (i : Nat) : (s.dropFlight i).ops = s.ops := rfl
@[simp] theorem State.dropFlight_links (s : State) (i : Nat) : (s.dropFlight i).links = s.links := rfl
@[simp] theorem State.dropFlight_peers (s : State) (i : Nat) : (s.dropFlight i).peers = s.peers := rfl
@[simp] theorem State.dropFlight_mgmt (s : State) (i : Nat) : (s.dropFlight i).mgmt = s.mgmt := rfl
/-! ### State.send -/
@[simp] theorem State.send_agenda (s : State) (a b asid : Nat) (o : Option Nat) (p : Pkt) : (s.send a b asid o p).agenda = s.agenda := rfl
@[simp] theorem State.send_visitCore (s : State) (a b asid : Nat) (o : Option Nat) (p : Pkt) : (s.send a b asid o p).visitCore = s.visitCore := rfl
@[simp] theorem State.send_visitDp (s : State) (a b asid : Nat) (o : Option Nat) (p : Pkt) : (s.send a b asid o p).visitDp = s.visitDp := rfl
@[simp] theorem State.send_issuer (s : State) (a b asid : Nat) (o : Option Nat) (p : Pkt) : (s.send a b asid o p).issuer = s.issuer := rfl
@[simp] theorem State.send_rakeCore (s : State) (a b asid : Nat) (o : Option Nat) (p : Pkt) : (s.send a b asid o p).rakeCore = s.rakeCore := rfl
@[simp] theorem State.send_rakeThread (s : State) (a b asid : Nat) (o : Option Nat) (p : Pkt) : (s.send a b asid o p).rakeThread = s.rakeThread := rfl
@[simp] theorem State.send_freeCount (s : State) (a b asid : Nat) (o : Option Nat) (p : Pkt) : (s.send a b asid o p).freeCount = s.freeCount := rfl
@[simp] theorem State.send_cycle (s : State) (a b asid : Nat) (o : Option Nat) (p : Pkt) : (s.send a b asid o p).cycle = s.cycle := rfl
@[simp] theorem State.send_time (s : State) (a b asid : Nat) (o : Option Nat) (p : Pkt) : (s.send a b asid o p).time = s.time := rfl
@[simp] theorem State.send_mem (s : State) (a b asid : Nat) (o : Option Nat) (p : Pkt) : (s.send a b asid o p).mem = s.mem := rfl
@[simp] theorem State.send_emptyWords (s : State) (a b asid : Nat) (o : Option Nat) (p : Pkt) : (s.send a b asid o p).emptyWords = s.emptyWords := rfl
@[simp] theorem State.send_poison (s : State) (a b asid : Nat) (o : Option Nat) (p : Pkt) : (s.send a b asid o p).poison = s.poison := rfl
@[simp] theorem State.send_bad (s : State) (a b asid : Nat) (o : Option Nat) (p : Pkt) : (s.send a b asid o p).bad = s.bad := rfl
@[simp] theorem State.send_clean (s : State) (a b asid : Nat) (o : Option Nat) (p : Pkt) : (s.send a b asid o p).clean = s.clean := rfl
@[simp] theorem State.send_dcache (s : State) (a b asid : Nat) (o : Option Nat) (p : Pkt) : (s.send a b asid o p).dcache = s.dcache := rfl
@[simp] theorem State.send_units (s : State) (a b asid : Nat) (o : Option Nat) (p : Pkt) : (s.send a b asid o p).units = s.units := rfl
@[simp] theorem State.send_slices (s : State) (a b asid : Nat) (o : Option Nat) (p : Pkt) : (s.send a b asid o p).slices = s.slices := rfl
@[simp] theorem State.send_cores (s : State) (a b asid : Nat) (o : Option Nat) (p : Pkt) : (s.send a b asid o p).cores = s.cores := rfl
@[simp] theorem State.send_clusters (s : State) (a b asid : Nat) (o : Option Nat) (p : Pkt) : (s.send a b asid o p).clusters = s.clusters := rfl
@[simp] theorem State.send_sys (s : State) (a b asid : Nat) (o : Option Nat) (p : Pkt) : (s.send a b asid o p).sys = s.sys := rfl
@[simp] theorem State.send_ctxs (s : State) (a b asid : Nat) (o : Option Nat) (p : Pkt) : (s.send a b asid o p).ctxs = s.ctxs := rfl
@[simp] theorem State.send_replays (s : State) (a b asid : Nat) (o : Option Nat) (p : Pkt) : (s.send a b asid o p).replays = s.replays := rfl
@[simp] theorem State.send_nextReplay (s : State) (a b asid : Nat) (o : Option Nat) (p : Pkt) : (s.send a b asid o p).nextReplay = s.nextReplay := rfl
@[simp] theorem State.send_eqWaiting (s : State) (a b asid : Nat) (o : Option Nat) (p : Pkt) : (s.send a b asid o p).eqWaiting = s.eqWaiting := rfl
@[simp] theorem State.send_queues (s : State) (a b asid : Nat) (o : Option Nat) (p : Pkt) : (s.send a b asid o p).queues = s.queues := rfl
@[simp] theorem State.send_doneWaits (s : State) (a b asid : Nat) (o : Option Nat) (p : Pkt) : (s.send a b asid o p).doneWaits = s.doneWaits := rfl
@[simp] theorem State.send_lastQueue (s : State) (a b asid : Nat) (o : Option Nat) (p : Pkt) : (s.send a b asid o p).lastQueue = s.lastQueue := rfl
@[simp] theorem State.send_drainDly (s : State) (a b asid : Nat) (o : Option Nat) (p : Pkt) : (s.send a b asid o p).drainDly = s.drainDly := rfl
@[simp] theorem State.send_grids (s : State) (a b asid : Nat) (o : Option Nat) (p : Pkt) : (s.send a b asid o p).grids = s.grids := rfl
@[simp] theorem State.send_teams (s : State) (a b asid : Nat) (o : Option Nat) (p : Pkt) : (s.send a b asid o p).teams = s.teams := rfl
@[simp] theorem State.send_groups (s : State) (a b asid : Nat) (o : Option Nat) (p : Pkt) : (s.send a b asid o p).groups = s.groups := rfl
@[simp] theorem State.send_sections (s : State) (a b asid : Nat) (o : Option Nat) (p : Pkt) : (s.send a b asid o p).sections = s.sections := rfl
@[simp] theorem State.send_structs (s : State) (a b asid : Nat) (o : Option Nat) (p : Pkt) : (s.send a b asid o p).structs = s.structs := rfl
@[simp] theorem State.send_plans (s : State) (a b asid : Nat) (o : Option Nat) (p : Pkt) : (s.send a b asid o p).plans = s.plans := rfl
@[simp] theorem State.send_ops (s : State) (a b asid : Nat) (o : Option Nat) (p : Pkt) : (s.send a b asid o p).ops = s.ops := rfl
@[simp] theorem State.send_links (s : State) (a b asid : Nat) (o : Option Nat) (p : Pkt) : (s.send a b asid o p).links = s.links := rfl
@[simp] theorem State.send_peers (s : State) (a b asid : Nat) (o : Option Nat) (p : Pkt) : (s.send a b asid o p).peers = s.peers := rfl
@[simp] theorem State.send_mgmt (s : State) (a b asid : Nat) (o : Option Nat) (p : Pkt) : (s.send a b asid o p).mgmt = s.mgmt := rfl
/-! ### State.wake -/
@[simp] theorem State.wake_agenda (s : State) (p : Park → Bool) : (s.wake p).agenda = s.agenda := rfl
@[simp] theorem State.wake_visitCore (s : State) (p : Park → Bool) : (s.wake p).visitCore = s.visitCore := rfl
@[simp] theorem State.wake_visitDp (s : State) (p : Park → Bool) : (s.wake p).visitDp = s.visitDp := rfl
@[simp] theorem State.wake_issuer (s : State) (p : Park → Bool) : (s.wake p).issuer = s.issuer := rfl
@[simp] theorem State.wake_rakeCore (s : State) (p : Park → Bool) : (s.wake p).rakeCore = s.rakeCore := rfl
@[simp] theorem State.wake_rakeThread (s : State) (p : Park → Bool) : (s.wake p).rakeThread = s.rakeThread := rfl
@[simp] theorem State.wake_freeCount (s : State) (p : Park → Bool) : (s.wake p).freeCount = s.freeCount := rfl
@[simp] theorem State.wake_nextId (s : State) (p : Park → Bool) : (s.wake p).nextId = s.nextId := rfl
@[simp] theorem State.wake_cycle (s : State) (p : Park → Bool) : (s.wake p).cycle = s.cycle := rfl
@[simp] theorem State.wake_time (s : State) (p : Park → Bool) : (s.wake p).time = s.time := rfl
@[simp] theorem State.wake_mem (s : State) (p : Park → Bool) : (s.wake p).mem = s.mem := rfl
@[simp] theorem State.wake_emptyWords (s : State) (p : Park → Bool) : (s.wake p).emptyWords = s.emptyWords := rfl
@[simp] theorem State.wake_poison (s : State) (p : Park → Bool) : (s.wake p).poison = s.poison := rfl
@[simp] theorem State.wake_bad (s : State) (p : Park → Bool) : (s.wake p).bad = s.bad := rfl
@[simp] theorem State.wake_clean (s : State) (p : Park → Bool) : (s.wake p).clean = s.clean := rfl
@[simp] theorem State.wake_dcache (s : State) (p : Park → Bool) : (s.wake p).dcache = s.dcache := rfl
@[simp] theorem State.wake_units (s : State) (p : Park → Bool) : (s.wake p).units = s.units := rfl
@[simp] theorem State.wake_cores (s : State) (p : Park → Bool) : (s.wake p).cores = s.cores := rfl
@[simp] theorem State.wake_clusters (s : State) (p : Park → Bool) : (s.wake p).clusters = s.clusters := rfl
@[simp] theorem State.wake_sys (s : State) (p : Park → Bool) : (s.wake p).sys = s.sys := rfl
@[simp] theorem State.wake_ctxs (s : State) (p : Park → Bool) : (s.wake p).ctxs = s.ctxs := rfl
@[simp] theorem State.wake_replays (s : State) (p : Park → Bool) : (s.wake p).replays = s.replays := rfl
@[simp] theorem State.wake_nextReplay (s : State) (p : Park → Bool) : (s.wake p).nextReplay = s.nextReplay := rfl
@[simp] theorem State.wake_eqWaiting (s : State) (p : Park → Bool) : (s.wake p).eqWaiting = s.eqWaiting := rfl
@[simp] theorem State.wake_queues (s : State) (p : Park → Bool) : (s.wake p).queues = s.queues := rfl
@[simp] theorem State.wake_doneWaits (s : State) (p : Park → Bool) : (s.wake p).doneWaits = s.doneWaits := rfl
@[simp] theorem State.wake_lastQueue (s : State) (p : Park → Bool) : (s.wake p).lastQueue = s.lastQueue := rfl
@[simp] theorem State.wake_drainDly (s : State) (p : Park → Bool) : (s.wake p).drainDly = s.drainDly := rfl
@[simp] theorem State.wake_grids (s : State) (p : Park → Bool) : (s.wake p).grids = s.grids := rfl
@[simp] theorem State.wake_teams (s : State) (p : Park → Bool) : (s.wake p).teams = s.teams := rfl
@[simp] theorem State.wake_groups (s : State) (p : Park → Bool) : (s.wake p).groups = s.groups := rfl
@[simp] theorem State.wake_sections (s : State) (p : Park → Bool) : (s.wake p).sections = s.sections := rfl
@[simp] theorem State.wake_structs (s : State) (p : Park → Bool) : (s.wake p).structs = s.structs := rfl
@[simp] theorem State.wake_plans (s : State) (p : Park → Bool) : (s.wake p).plans = s.plans := rfl
@[simp] theorem State.wake_ops (s : State) (p : Park → Bool) : (s.wake p).ops = s.ops := rfl
@[simp] theorem State.wake_flights (s : State) (p : Park → Bool) : (s.wake p).flights = s.flights := rfl
@[simp] theorem State.wake_links (s : State) (p : Park → Bool) : (s.wake p).links = s.links := rfl
@[simp] theorem State.wake_peers (s : State) (p : Park → Bool) : (s.wake p).peers = s.peers := rfl
@[simp] theorem State.wake_mgmt (s : State) (p : Park → Bool) : (s.wake p).mgmt = s.mgmt := rfl
/-! ### Slice.setV -/
@[simp] theorem Slice.setV_phase (x : Slice) (n l : Nat) (w : Word) : (x.setV n l w).phase = x.phase := rfl
@[simp] theorem Slice.setV_asid (x : Slice) (n l : Nat) (w : Word) : (x.setV n l w).asid = x.asid := rfl
@[simp] theorem Slice.setV_group (x : Slice) (n l : Nat) (w : Word) : (x.setV n l w).group = x.group := rfl
@[simp] theorem Slice.setV_warp (x : Slice) (n l : Nat) (w : Word) : (x.setV n l w).warp = x.warp := rfl
@[simp] theorem Slice.setV_ix (x : Slice) (n l : Nat) (w : Word) : (x.setV n l w).ix = x.ix := rfl
@[simp] theorem Slice.setV_width (x : Slice) (n l : Nat) (w : Word) : (x.setV n l w).width = x.width := rfl
@[simp] theorem Slice.setV_repacked (x : Slice) (n l : Nat) (w : Word) : (x.setV n l w).repacked = x.repacked := rfl
@[simp] theorem Slice.setV_handler (x : Slice) (n l : Nat) (w : Word) : (x.setV n l w).handler = x.handler := rfl
@[simp] theorem Slice.setV_startCycle (x : Slice) (n l : Nat) (w : Word) : (x.setV n l w).startCycle = x.startCycle := rfl
@[simp] theorem Slice.setV_limitTaken (x : Slice) (n l : Nat) (w : Word) : (x.setV n l w).limitTaken = x.limitTaken := rfl
@[simp] theorem Slice.setV_s (x : Slice) (n l : Nat) (w : Word) : (x.setV n l w).s = x.s := rfl
@[simp] theorem Slice.setV_p (x : Slice) (n l : Nat) (w : Word) : (x.setV n l w).p = x.p := rfl
@[simp] theorem Slice.setV_fpctl (x : Slice) (n l : Nat) (w : Word) : (x.setV n l w).fpctl = x.fpctl := rfl
@[simp] theorem Slice.setV_fpflags (x : Slice) (n l : Nat) (w : Word) : (x.setV n l w).fpflags = x.fpflags := rfl
@[simp] theorem Slice.setV_paths (x : Slice) (n l : Nat) (w : Word) : (x.setV n l w).paths = x.paths := rfl
@[simp] theorem Slice.setV_cur (x : Slice) (n l : Nat) (w : Word) : (x.setV n l w).cur = x.cur := rfl
@[simp] theorem Slice.setV_fair (x : Slice) (n l : Nat) (w : Word) : (x.setV n l w).fair = x.fair := rfl
@[simp] theorem Slice.setV_born (x : Slice) (n l : Nat) (w : Word) : (x.setV n l w).born = x.born := rfl
@[simp] theorem Slice.setV_hold (x : Slice) (n l : Nat) (w : Word) : (x.setV n l w).hold = x.hold := rfl
@[simp] theorem Slice.setV_park (x : Slice) (n l : Nat) (w : Word) : (x.setV n l w).park = x.park := rfl
@[simp] theorem Slice.setV_woken (x : Slice) (n l : Nat) (w : Word) : (x.setV n l w).woken = x.woken := rfl
@[simp] theorem Slice.setV_met (x : Slice) (n l : Nat) (w : Word) : (x.setV n l w).met = x.met := rfl
@[simp] theorem Slice.setV_trapvec (x : Slice) (n l : Nat) (w : Word) : (x.setV n l w).trapvec = x.trapvec := rfl
@[simp] theorem Slice.setV_t (x : Slice) (n l : Nat) (w : Word) : (x.setV n l w).t = x.t := rfl
@[simp] theorem Slice.setV_e (x : Slice) (n l : Nat) (w : Word) : (x.setV n l w).e = x.e := rfl
@[simp] theorem Slice.setV_system (x : Slice) (n l : Nat) (w : Word) : (x.setV n l w).system = x.system := rfl
@[simp] theorem Slice.setV_userEvent (x : Slice) (n l : Nat) (w : Word) : (x.setV n l w).userEvent = x.userEvent := rfl
@[simp] theorem Slice.setV_sysEvent (x : Slice) (n l : Nat) (w : Word) : (x.setV n l w).sysEvent = x.sysEvent := rfl
@[simp] theorem Slice.setV_frame (x : Slice) (n l : Nat) (w : Word) : (x.setV n l w).frame = x.frame := rfl
@[simp] theorem Slice.setV_counted (x : Slice) (n l : Nat) (w : Word) : (x.setV n l w).counted = x.counted := rfl
@[simp] theorem Slice.setV_pending (x : Slice) (n l : Nat) (w : Word) : (x.setV n l w).pending = x.pending := rfl
@[simp] theorem Slice.setV_deferred (x : Slice) (n l : Nat) (w : Word) : (x.setV n l w).deferred = x.deferred := rfl
@[simp] theorem Slice.setV_resv (x : Slice) (n l : Nat) (w : Word) : (x.setV n l w).resv = x.resv := rfl
@[simp] theorem Slice.setV_ports (x : Slice) (n l : Nat) (w : Word) : (x.setV n l w).ports = x.ports := rfl
@[simp] theorem Slice.setV_cycleShadow (x : Slice) (n l : Nat) (w : Word) : (x.setV n l w).cycleShadow = x.cycleShadow := rfl
@[simp] theorem Slice.setV_timeShadow (x : Slice) (n l : Nat) (w : Word) : (x.setV n l w).timeShadow = x.timeShadow := rfl
@[simp] theorem Slice.setV_acquires (x : Slice) (n l : Nat) (w : Word) : (x.setV n l w).acquires = x.acquires := rfl
@[simp] theorem Slice.setV_halted (x : Slice) (n l : Nat) (w : Word) : (x.setV n l w).halted = x.halted := rfl
@[simp] theorem Slice.setV_killed (x : Slice) (n l : Nat) (w : Word) : (x.setV n l w).killed = x.killed := rfl
@[simp] theorem Slice.setV_fatal (x : Slice) (n l : Nat) (w : Word) : (x.setV n l w).fatal = x.fatal := rfl
@[simp] theorem Slice.setV_retCounted (x : Slice) (n l : Nat) (w : Word) : (x.setV n l w).retCounted = x.retCounted := rfl
@[simp] theorem Slice.setV_stamp (x : Slice) (n l : Nat) (w : Word) : (x.setV n l w).stamp = x.stamp := rfl
@[simp] theorem Slice.setV_overrun (x : Slice) (n l : Nat) (w : Word) : (x.setV n l w).overrun = x.overrun := rfl
@[simp] theorem Slice.setV_wskip (x : Slice) (n l : Nat) (w : Word) : (x.setV n l w).wskip = x.wskip := rfl
@[simp] theorem Slice.setV_poolSince (x : Slice) (n l : Nat) (w : Word) : (x.setV n l w).poolSince = x.poolSince := rfl
@[simp] theorem Slice.setV_parkSeq (x : Slice) (n l : Nat) (w : Word) : (x.setV n l w).parkSeq = x.parkSeq := rfl
@[simp] theorem Slice.setV_pausedCycles (x : Slice) (n l : Nat) (w : Word) : (x.setV n l w).pausedCycles = x.pausedCycles := rfl
@[simp] theorem Slice.setV_savedAt (x : Slice) (n l : Nat) (w : Word) : (x.setV n l w).savedAt = x.savedAt := rfl
/-! ### Slice.setS -/
@[simp] theorem Slice.setS_phase (x : Slice) (n : Nat) (w : Word) : (x.setS n w).phase = x.phase := rfl
@[simp] theorem Slice.setS_asid (x : Slice) (n : Nat) (w : Word) : (x.setS n w).asid = x.asid := rfl
@[simp] theorem Slice.setS_group (x : Slice) (n : Nat) (w : Word) : (x.setS n w).group = x.group := rfl
@[simp] theorem Slice.setS_warp (x : Slice) (n : Nat) (w : Word) : (x.setS n w).warp = x.warp := rfl
@[simp] theorem Slice.setS_ix (x : Slice) (n : Nat) (w : Word) : (x.setS n w).ix = x.ix := rfl
@[simp] theorem Slice.setS_width (x : Slice) (n : Nat) (w : Word) : (x.setS n w).width = x.width := rfl
@[simp] theorem Slice.setS_repacked (x : Slice) (n : Nat) (w : Word) : (x.setS n w).repacked = x.repacked := rfl
@[simp] theorem Slice.setS_handler (x : Slice) (n : Nat) (w : Word) : (x.setS n w).handler = x.handler := rfl
@[simp] theorem Slice.setS_startCycle (x : Slice) (n : Nat) (w : Word) : (x.setS n w).startCycle = x.startCycle := rfl
@[simp] theorem Slice.setS_limitTaken (x : Slice) (n : Nat) (w : Word) : (x.setS n w).limitTaken = x.limitTaken := rfl
@[simp] theorem Slice.setS_v (x : Slice) (n : Nat) (w : Word) : (x.setS n w).v = x.v := rfl
@[simp] theorem Slice.setS_p (x : Slice) (n : Nat) (w : Word) : (x.setS n w).p = x.p := rfl
@[simp] theorem Slice.setS_fpctl (x : Slice) (n : Nat) (w : Word) : (x.setS n w).fpctl = x.fpctl := rfl
@[simp] theorem Slice.setS_fpflags (x : Slice) (n : Nat) (w : Word) : (x.setS n w).fpflags = x.fpflags := rfl
@[simp] theorem Slice.setS_paths (x : Slice) (n : Nat) (w : Word) : (x.setS n w).paths = x.paths := rfl
@[simp] theorem Slice.setS_cur (x : Slice) (n : Nat) (w : Word) : (x.setS n w).cur = x.cur := rfl
@[simp] theorem Slice.setS_fair (x : Slice) (n : Nat) (w : Word) : (x.setS n w).fair = x.fair := rfl
@[simp] theorem Slice.setS_born (x : Slice) (n : Nat) (w : Word) : (x.setS n w).born = x.born := rfl
@[simp] theorem Slice.setS_hold (x : Slice) (n : Nat) (w : Word) : (x.setS n w).hold = x.hold := rfl
@[simp] theorem Slice.setS_park (x : Slice) (n : Nat) (w : Word) : (x.setS n w).park = x.park := rfl
@[simp] theorem Slice.setS_woken (x : Slice) (n : Nat) (w : Word) : (x.setS n w).woken = x.woken := rfl
@[simp] theorem Slice.setS_met (x : Slice) (n : Nat) (w : Word) : (x.setS n w).met = x.met := rfl
@[simp] theorem Slice.setS_trapvec (x : Slice) (n : Nat) (w : Word) : (x.setS n w).trapvec = x.trapvec := rfl
@[simp] theorem Slice.setS_t (x : Slice) (n : Nat) (w : Word) : (x.setS n w).t = x.t := rfl
@[simp] theorem Slice.setS_e (x : Slice) (n : Nat) (w : Word) : (x.setS n w).e = x.e := rfl
@[simp] theorem Slice.setS_system (x : Slice) (n : Nat) (w : Word) : (x.setS n w).system = x.system := rfl
@[simp] theorem Slice.setS_userEvent (x : Slice) (n : Nat) (w : Word) : (x.setS n w).userEvent = x.userEvent := rfl
@[simp] theorem Slice.setS_sysEvent (x : Slice) (n : Nat) (w : Word) : (x.setS n w).sysEvent = x.sysEvent := rfl
@[simp] theorem Slice.setS_frame (x : Slice) (n : Nat) (w : Word) : (x.setS n w).frame = x.frame := rfl
@[simp] theorem Slice.setS_counted (x : Slice) (n : Nat) (w : Word) : (x.setS n w).counted = x.counted := rfl
@[simp] theorem Slice.setS_pending (x : Slice) (n : Nat) (w : Word) : (x.setS n w).pending = x.pending := rfl
@[simp] theorem Slice.setS_deferred (x : Slice) (n : Nat) (w : Word) : (x.setS n w).deferred = x.deferred := rfl
@[simp] theorem Slice.setS_resv (x : Slice) (n : Nat) (w : Word) : (x.setS n w).resv = x.resv := rfl
@[simp] theorem Slice.setS_ports (x : Slice) (n : Nat) (w : Word) : (x.setS n w).ports = x.ports := rfl
@[simp] theorem Slice.setS_cycleShadow (x : Slice) (n : Nat) (w : Word) : (x.setS n w).cycleShadow = x.cycleShadow := rfl
@[simp] theorem Slice.setS_timeShadow (x : Slice) (n : Nat) (w : Word) : (x.setS n w).timeShadow = x.timeShadow := rfl
@[simp] theorem Slice.setS_acquires (x : Slice) (n : Nat) (w : Word) : (x.setS n w).acquires = x.acquires := rfl
@[simp] theorem Slice.setS_halted (x : Slice) (n : Nat) (w : Word) : (x.setS n w).halted = x.halted := rfl
@[simp] theorem Slice.setS_killed (x : Slice) (n : Nat) (w : Word) : (x.setS n w).killed = x.killed := rfl
@[simp] theorem Slice.setS_fatal (x : Slice) (n : Nat) (w : Word) : (x.setS n w).fatal = x.fatal := rfl
@[simp] theorem Slice.setS_retCounted (x : Slice) (n : Nat) (w : Word) : (x.setS n w).retCounted = x.retCounted := rfl
@[simp] theorem Slice.setS_stamp (x : Slice) (n : Nat) (w : Word) : (x.setS n w).stamp = x.stamp := rfl
@[simp] theorem Slice.setS_overrun (x : Slice) (n : Nat) (w : Word) : (x.setS n w).overrun = x.overrun := rfl
@[simp] theorem Slice.setS_wskip (x : Slice) (n : Nat) (w : Word) : (x.setS n w).wskip = x.wskip := rfl
@[simp] theorem Slice.setS_poolSince (x : Slice) (n : Nat) (w : Word) : (x.setS n w).poolSince = x.poolSince := rfl
@[simp] theorem Slice.setS_parkSeq (x : Slice) (n : Nat) (w : Word) : (x.setS n w).parkSeq = x.parkSeq := rfl
@[simp] theorem Slice.setS_pausedCycles (x : Slice) (n : Nat) (w : Word) : (x.setS n w).pausedCycles = x.pausedCycles := rfl
@[simp] theorem Slice.setS_savedAt (x : Slice) (n : Nat) (w : Word) : (x.setS n w).savedAt = x.savedAt := rfl
/-! ### Slice.setP -/
@[simp] theorem Slice.setP_phase (x : Slice) (n : Nat) (m : Pred) : (x.setP n m).phase = x.phase := by unfold Slice.setP; split <;> rfl
@[simp] theorem Slice.setP_asid (x : Slice) (n : Nat) (m : Pred) : (x.setP n m).asid = x.asid := by unfold Slice.setP; split <;> rfl
@[simp] theorem Slice.setP_group (x : Slice) (n : Nat) (m : Pred) : (x.setP n m).group = x.group := by unfold Slice.setP; split <;> rfl
@[simp] theorem Slice.setP_warp (x : Slice) (n : Nat) (m : Pred) : (x.setP n m).warp = x.warp := by unfold Slice.setP; split <;> rfl
@[simp] theorem Slice.setP_ix (x : Slice) (n : Nat) (m : Pred) : (x.setP n m).ix = x.ix := by unfold Slice.setP; split <;> rfl
@[simp] theorem Slice.setP_width (x : Slice) (n : Nat) (m : Pred) : (x.setP n m).width = x.width := by unfold Slice.setP; split <;> rfl
@[simp] theorem Slice.setP_repacked (x : Slice) (n : Nat) (m : Pred) : (x.setP n m).repacked = x.repacked := by unfold Slice.setP; split <;> rfl
@[simp] theorem Slice.setP_handler (x : Slice) (n : Nat) (m : Pred) : (x.setP n m).handler = x.handler := by unfold Slice.setP; split <;> rfl
@[simp] theorem Slice.setP_startCycle (x : Slice) (n : Nat) (m : Pred) : (x.setP n m).startCycle = x.startCycle := by unfold Slice.setP; split <;> rfl
@[simp] theorem Slice.setP_limitTaken (x : Slice) (n : Nat) (m : Pred) : (x.setP n m).limitTaken = x.limitTaken := by unfold Slice.setP; split <;> rfl
@[simp] theorem Slice.setP_v (x : Slice) (n : Nat) (m : Pred) : (x.setP n m).v = x.v := by unfold Slice.setP; split <;> rfl
@[simp] theorem Slice.setP_s (x : Slice) (n : Nat) (m : Pred) : (x.setP n m).s = x.s := by unfold Slice.setP; split <;> rfl
@[simp] theorem Slice.setP_fpctl (x : Slice) (n : Nat) (m : Pred) : (x.setP n m).fpctl = x.fpctl := by unfold Slice.setP; split <;> rfl
@[simp] theorem Slice.setP_fpflags (x : Slice) (n : Nat) (m : Pred) : (x.setP n m).fpflags = x.fpflags := by unfold Slice.setP; split <;> rfl
@[simp] theorem Slice.setP_paths (x : Slice) (n : Nat) (m : Pred) : (x.setP n m).paths = x.paths := by unfold Slice.setP; split <;> rfl
@[simp] theorem Slice.setP_cur (x : Slice) (n : Nat) (m : Pred) : (x.setP n m).cur = x.cur := by unfold Slice.setP; split <;> rfl
@[simp] theorem Slice.setP_fair (x : Slice) (n : Nat) (m : Pred) : (x.setP n m).fair = x.fair := by unfold Slice.setP; split <;> rfl
@[simp] theorem Slice.setP_born (x : Slice) (n : Nat) (m : Pred) : (x.setP n m).born = x.born := by unfold Slice.setP; split <;> rfl
@[simp] theorem Slice.setP_hold (x : Slice) (n : Nat) (m : Pred) : (x.setP n m).hold = x.hold := by unfold Slice.setP; split <;> rfl
@[simp] theorem Slice.setP_park (x : Slice) (n : Nat) (m : Pred) : (x.setP n m).park = x.park := by unfold Slice.setP; split <;> rfl
@[simp] theorem Slice.setP_woken (x : Slice) (n : Nat) (m : Pred) : (x.setP n m).woken = x.woken := by unfold Slice.setP; split <;> rfl
@[simp] theorem Slice.setP_met (x : Slice) (n : Nat) (m : Pred) : (x.setP n m).met = x.met := by unfold Slice.setP; split <;> rfl
@[simp] theorem Slice.setP_trapvec (x : Slice) (n : Nat) (m : Pred) : (x.setP n m).trapvec = x.trapvec := by unfold Slice.setP; split <;> rfl
@[simp] theorem Slice.setP_t (x : Slice) (n : Nat) (m : Pred) : (x.setP n m).t = x.t := by unfold Slice.setP; split <;> rfl
@[simp] theorem Slice.setP_e (x : Slice) (n : Nat) (m : Pred) : (x.setP n m).e = x.e := by unfold Slice.setP; split <;> rfl
@[simp] theorem Slice.setP_system (x : Slice) (n : Nat) (m : Pred) : (x.setP n m).system = x.system := by unfold Slice.setP; split <;> rfl
@[simp] theorem Slice.setP_userEvent (x : Slice) (n : Nat) (m : Pred) : (x.setP n m).userEvent = x.userEvent := by unfold Slice.setP; split <;> rfl
@[simp] theorem Slice.setP_sysEvent (x : Slice) (n : Nat) (m : Pred) : (x.setP n m).sysEvent = x.sysEvent := by unfold Slice.setP; split <;> rfl
@[simp] theorem Slice.setP_frame (x : Slice) (n : Nat) (m : Pred) : (x.setP n m).frame = x.frame := by unfold Slice.setP; split <;> rfl
@[simp] theorem Slice.setP_counted (x : Slice) (n : Nat) (m : Pred) : (x.setP n m).counted = x.counted := by unfold Slice.setP; split <;> rfl
@[simp] theorem Slice.setP_pending (x : Slice) (n : Nat) (m : Pred) : (x.setP n m).pending = x.pending := by unfold Slice.setP; split <;> rfl
@[simp] theorem Slice.setP_deferred (x : Slice) (n : Nat) (m : Pred) : (x.setP n m).deferred = x.deferred := by unfold Slice.setP; split <;> rfl
@[simp] theorem Slice.setP_resv (x : Slice) (n : Nat) (m : Pred) : (x.setP n m).resv = x.resv := by unfold Slice.setP; split <;> rfl
@[simp] theorem Slice.setP_ports (x : Slice) (n : Nat) (m : Pred) : (x.setP n m).ports = x.ports := by unfold Slice.setP; split <;> rfl
@[simp] theorem Slice.setP_cycleShadow (x : Slice) (n : Nat) (m : Pred) : (x.setP n m).cycleShadow = x.cycleShadow := by unfold Slice.setP; split <;> rfl
@[simp] theorem Slice.setP_timeShadow (x : Slice) (n : Nat) (m : Pred) : (x.setP n m).timeShadow = x.timeShadow := by unfold Slice.setP; split <;> rfl
@[simp] theorem Slice.setP_acquires (x : Slice) (n : Nat) (m : Pred) : (x.setP n m).acquires = x.acquires := by unfold Slice.setP; split <;> rfl
@[simp] theorem Slice.setP_halted (x : Slice) (n : Nat) (m : Pred) : (x.setP n m).halted = x.halted := by unfold Slice.setP; split <;> rfl
@[simp] theorem Slice.setP_killed (x : Slice) (n : Nat) (m : Pred) : (x.setP n m).killed = x.killed := by unfold Slice.setP; split <;> rfl
@[simp] theorem Slice.setP_fatal (x : Slice) (n : Nat) (m : Pred) : (x.setP n m).fatal = x.fatal := by unfold Slice.setP; split <;> rfl
@[simp] theorem Slice.setP_retCounted (x : Slice) (n : Nat) (m : Pred) : (x.setP n m).retCounted = x.retCounted := by unfold Slice.setP; split <;> rfl
@[simp] theorem Slice.setP_stamp (x : Slice) (n : Nat) (m : Pred) : (x.setP n m).stamp = x.stamp := by unfold Slice.setP; split <;> rfl
@[simp] theorem Slice.setP_overrun (x : Slice) (n : Nat) (m : Pred) : (x.setP n m).overrun = x.overrun := by unfold Slice.setP; split <;> rfl
@[simp] theorem Slice.setP_wskip (x : Slice) (n : Nat) (m : Pred) : (x.setP n m).wskip = x.wskip := by unfold Slice.setP; split <;> rfl
@[simp] theorem Slice.setP_poolSince (x : Slice) (n : Nat) (m : Pred) : (x.setP n m).poolSince = x.poolSince := by unfold Slice.setP; split <;> rfl
@[simp] theorem Slice.setP_parkSeq (x : Slice) (n : Nat) (m : Pred) : (x.setP n m).parkSeq = x.parkSeq := by unfold Slice.setP; split <;> rfl
@[simp] theorem Slice.setP_pausedCycles (x : Slice) (n : Nat) (m : Pred) : (x.setP n m).pausedCycles = x.pausedCycles := by unfold Slice.setP; split <;> rfl
@[simp] theorem Slice.setP_savedAt (x : Slice) (n : Nat) (m : Pred) : (x.setP n m).savedAt = x.savedAt := by unfold Slice.setP; split <;> rfl
/-! ### Slice.setPBit -/
@[simp] theorem Slice.setPBit_phase (x : Slice) (n l : Nat) (b : Bool) : (x.setPBit n l b).phase = x.phase := by unfold Slice.setPBit Slice.setP; split <;> rfl
@[simp] theorem Slice.setPBit_asid (x : Slice) (n l : Nat) (b : Bool) : (x.setPBit n l b).asid = x.asid := by unfold Slice.setPBit Slice.setP; split <;> rfl
@[simp] theorem Slice.setPBit_group (x : Slice) (n l : Nat) (b : Bool) : (x.setPBit n l b).group = x.group := by unfold Slice.setPBit Slice.setP; split <;> rfl
@[simp] theorem Slice.setPBit_warp (x : Slice) (n l : Nat) (b : Bool) : (x.setPBit n l b).warp = x.warp := by unfold Slice.setPBit Slice.setP; split <;> rfl
@[simp] theorem Slice.setPBit_ix (x : Slice) (n l : Nat) (b : Bool) : (x.setPBit n l b).ix = x.ix := by unfold Slice.setPBit Slice.setP; split <;> rfl
@[simp] theorem Slice.setPBit_width (x : Slice) (n l : Nat) (b : Bool) : (x.setPBit n l b).width = x.width := by unfold Slice.setPBit Slice.setP; split <;> rfl
@[simp] theorem Slice.setPBit_repacked (x : Slice) (n l : Nat) (b : Bool) : (x.setPBit n l b).repacked = x.repacked := by unfold Slice.setPBit Slice.setP; split <;> rfl
@[simp] theorem Slice.setPBit_handler (x : Slice) (n l : Nat) (b : Bool) : (x.setPBit n l b).handler = x.handler := by unfold Slice.setPBit Slice.setP; split <;> rfl
@[simp] theorem Slice.setPBit_startCycle (x : Slice) (n l : Nat) (b : Bool) : (x.setPBit n l b).startCycle = x.startCycle := by unfold Slice.setPBit Slice.setP; split <;> rfl
@[simp] theorem Slice.setPBit_limitTaken (x : Slice) (n l : Nat) (b : Bool) : (x.setPBit n l b).limitTaken = x.limitTaken := by unfold Slice.setPBit Slice.setP; split <;> rfl
@[simp] theorem Slice.setPBit_v (x : Slice) (n l : Nat) (b : Bool) : (x.setPBit n l b).v = x.v := by unfold Slice.setPBit Slice.setP; split <;> rfl
@[simp] theorem Slice.setPBit_s (x : Slice) (n l : Nat) (b : Bool) : (x.setPBit n l b).s = x.s := by unfold Slice.setPBit Slice.setP; split <;> rfl
@[simp] theorem Slice.setPBit_fpctl (x : Slice) (n l : Nat) (b : Bool) : (x.setPBit n l b).fpctl = x.fpctl := by unfold Slice.setPBit Slice.setP; split <;> rfl
@[simp] theorem Slice.setPBit_fpflags (x : Slice) (n l : Nat) (b : Bool) : (x.setPBit n l b).fpflags = x.fpflags := by unfold Slice.setPBit Slice.setP; split <;> rfl
@[simp] theorem Slice.setPBit_paths (x : Slice) (n l : Nat) (b : Bool) : (x.setPBit n l b).paths = x.paths := by unfold Slice.setPBit Slice.setP; split <;> rfl
@[simp] theorem Slice.setPBit_cur (x : Slice) (n l : Nat) (b : Bool) : (x.setPBit n l b).cur = x.cur := by unfold Slice.setPBit Slice.setP; split <;> rfl
@[simp] theorem Slice.setPBit_fair (x : Slice) (n l : Nat) (b : Bool) : (x.setPBit n l b).fair = x.fair := by unfold Slice.setPBit Slice.setP; split <;> rfl
@[simp] theorem Slice.setPBit_born (x : Slice) (n l : Nat) (b : Bool) : (x.setPBit n l b).born = x.born := by unfold Slice.setPBit Slice.setP; split <;> rfl
@[simp] theorem Slice.setPBit_hold (x : Slice) (n l : Nat) (b : Bool) : (x.setPBit n l b).hold = x.hold := by unfold Slice.setPBit Slice.setP; split <;> rfl
@[simp] theorem Slice.setPBit_park (x : Slice) (n l : Nat) (b : Bool) : (x.setPBit n l b).park = x.park := by unfold Slice.setPBit Slice.setP; split <;> rfl
@[simp] theorem Slice.setPBit_woken (x : Slice) (n l : Nat) (b : Bool) : (x.setPBit n l b).woken = x.woken := by unfold Slice.setPBit Slice.setP; split <;> rfl
@[simp] theorem Slice.setPBit_met (x : Slice) (n l : Nat) (b : Bool) : (x.setPBit n l b).met = x.met := by unfold Slice.setPBit Slice.setP; split <;> rfl
@[simp] theorem Slice.setPBit_trapvec (x : Slice) (n l : Nat) (b : Bool) : (x.setPBit n l b).trapvec = x.trapvec := by unfold Slice.setPBit Slice.setP; split <;> rfl
@[simp] theorem Slice.setPBit_t (x : Slice) (n l : Nat) (b : Bool) : (x.setPBit n l b).t = x.t := by unfold Slice.setPBit Slice.setP; split <;> rfl
@[simp] theorem Slice.setPBit_e (x : Slice) (n l : Nat) (b : Bool) : (x.setPBit n l b).e = x.e := by unfold Slice.setPBit Slice.setP; split <;> rfl
@[simp] theorem Slice.setPBit_system (x : Slice) (n l : Nat) (b : Bool) : (x.setPBit n l b).system = x.system := by unfold Slice.setPBit Slice.setP; split <;> rfl
@[simp] theorem Slice.setPBit_userEvent (x : Slice) (n l : Nat) (b : Bool) : (x.setPBit n l b).userEvent = x.userEvent := by unfold Slice.setPBit Slice.setP; split <;> rfl
@[simp] theorem Slice.setPBit_sysEvent (x : Slice) (n l : Nat) (b : Bool) : (x.setPBit n l b).sysEvent = x.sysEvent := by unfold Slice.setPBit Slice.setP; split <;> rfl
@[simp] theorem Slice.setPBit_frame (x : Slice) (n l : Nat) (b : Bool) : (x.setPBit n l b).frame = x.frame := by unfold Slice.setPBit Slice.setP; split <;> rfl
@[simp] theorem Slice.setPBit_counted (x : Slice) (n l : Nat) (b : Bool) : (x.setPBit n l b).counted = x.counted := by unfold Slice.setPBit Slice.setP; split <;> rfl
@[simp] theorem Slice.setPBit_pending (x : Slice) (n l : Nat) (b : Bool) : (x.setPBit n l b).pending = x.pending := by unfold Slice.setPBit Slice.setP; split <;> rfl
@[simp] theorem Slice.setPBit_deferred (x : Slice) (n l : Nat) (b : Bool) : (x.setPBit n l b).deferred = x.deferred := by unfold Slice.setPBit Slice.setP; split <;> rfl
@[simp] theorem Slice.setPBit_resv (x : Slice) (n l : Nat) (b : Bool) : (x.setPBit n l b).resv = x.resv := by unfold Slice.setPBit Slice.setP; split <;> rfl
@[simp] theorem Slice.setPBit_ports (x : Slice) (n l : Nat) (b : Bool) : (x.setPBit n l b).ports = x.ports := by unfold Slice.setPBit Slice.setP; split <;> rfl
@[simp] theorem Slice.setPBit_cycleShadow (x : Slice) (n l : Nat) (b : Bool) : (x.setPBit n l b).cycleShadow = x.cycleShadow := by unfold Slice.setPBit Slice.setP; split <;> rfl
@[simp] theorem Slice.setPBit_timeShadow (x : Slice) (n l : Nat) (b : Bool) : (x.setPBit n l b).timeShadow = x.timeShadow := by unfold Slice.setPBit Slice.setP; split <;> rfl
@[simp] theorem Slice.setPBit_acquires (x : Slice) (n l : Nat) (b : Bool) : (x.setPBit n l b).acquires = x.acquires := by unfold Slice.setPBit Slice.setP; split <;> rfl
@[simp] theorem Slice.setPBit_halted (x : Slice) (n l : Nat) (b : Bool) : (x.setPBit n l b).halted = x.halted := by unfold Slice.setPBit Slice.setP; split <;> rfl
@[simp] theorem Slice.setPBit_killed (x : Slice) (n l : Nat) (b : Bool) : (x.setPBit n l b).killed = x.killed := by unfold Slice.setPBit Slice.setP; split <;> rfl
@[simp] theorem Slice.setPBit_fatal (x : Slice) (n l : Nat) (b : Bool) : (x.setPBit n l b).fatal = x.fatal := by unfold Slice.setPBit Slice.setP; split <;> rfl
@[simp] theorem Slice.setPBit_retCounted (x : Slice) (n l : Nat) (b : Bool) : (x.setPBit n l b).retCounted = x.retCounted := by unfold Slice.setPBit Slice.setP; split <;> rfl
@[simp] theorem Slice.setPBit_stamp (x : Slice) (n l : Nat) (b : Bool) : (x.setPBit n l b).stamp = x.stamp := by unfold Slice.setPBit Slice.setP; split <;> rfl
@[simp] theorem Slice.setPBit_overrun (x : Slice) (n l : Nat) (b : Bool) : (x.setPBit n l b).overrun = x.overrun := by unfold Slice.setPBit Slice.setP; split <;> rfl
@[simp] theorem Slice.setPBit_wskip (x : Slice) (n l : Nat) (b : Bool) : (x.setPBit n l b).wskip = x.wskip := by unfold Slice.setPBit Slice.setP; split <;> rfl
@[simp] theorem Slice.setPBit_poolSince (x : Slice) (n l : Nat) (b : Bool) : (x.setPBit n l b).poolSince = x.poolSince := by unfold Slice.setPBit Slice.setP; split <;> rfl
@[simp] theorem Slice.setPBit_parkSeq (x : Slice) (n l : Nat) (b : Bool) : (x.setPBit n l b).parkSeq = x.parkSeq := by unfold Slice.setPBit Slice.setP; split <;> rfl
@[simp] theorem Slice.setPBit_pausedCycles (x : Slice) (n l : Nat) (b : Bool) : (x.setPBit n l b).pausedCycles = x.pausedCycles := by unfold Slice.setPBit Slice.setP; split <;> rfl
@[simp] theorem Slice.setPBit_savedAt (x : Slice) (n l : Nat) (b : Bool) : (x.setPBit n l b).savedAt = x.savedAt := by unfold Slice.setPBit Slice.setP; split <;> rfl
/-! ### Slice.orFlags -/
@[simp] theorem Slice.orFlags_phase (x : Slice) (f : BitVec 5) : (x.orFlags f).phase = x.phase := rfl
@[simp] theorem Slice.orFlags_asid (x : Slice) (f : BitVec 5) : (x.orFlags f).asid = x.asid := rfl
@[simp] theorem Slice.orFlags_group (x : Slice) (f : BitVec 5) : (x.orFlags f).group = x.group := rfl
@[simp] theorem Slice.orFlags_warp (x : Slice) (f : BitVec 5) : (x.orFlags f).warp = x.warp := rfl
@[simp] theorem Slice.orFlags_ix (x : Slice) (f : BitVec 5) : (x.orFlags f).ix = x.ix := rfl
@[simp] theorem Slice.orFlags_width (x : Slice) (f : BitVec 5) : (x.orFlags f).width = x.width := rfl
@[simp] theorem Slice.orFlags_repacked (x : Slice) (f : BitVec 5) : (x.orFlags f).repacked = x.repacked := rfl
@[simp] theorem Slice.orFlags_handler (x : Slice) (f : BitVec 5) : (x.orFlags f).handler = x.handler := rfl
@[simp] theorem Slice.orFlags_startCycle (x : Slice) (f : BitVec 5) : (x.orFlags f).startCycle = x.startCycle := rfl
@[simp] theorem Slice.orFlags_limitTaken (x : Slice) (f : BitVec 5) : (x.orFlags f).limitTaken = x.limitTaken := rfl
@[simp] theorem Slice.orFlags_v (x : Slice) (f : BitVec 5) : (x.orFlags f).v = x.v := rfl
@[simp] theorem Slice.orFlags_s (x : Slice) (f : BitVec 5) : (x.orFlags f).s = x.s := rfl
@[simp] theorem Slice.orFlags_p (x : Slice) (f : BitVec 5) : (x.orFlags f).p = x.p := rfl
@[simp] theorem Slice.orFlags_fpctl (x : Slice) (f : BitVec 5) : (x.orFlags f).fpctl = x.fpctl := rfl
@[simp] theorem Slice.orFlags_paths (x : Slice) (f : BitVec 5) : (x.orFlags f).paths = x.paths := rfl
@[simp] theorem Slice.orFlags_cur (x : Slice) (f : BitVec 5) : (x.orFlags f).cur = x.cur := rfl
@[simp] theorem Slice.orFlags_fair (x : Slice) (f : BitVec 5) : (x.orFlags f).fair = x.fair := rfl
@[simp] theorem Slice.orFlags_born (x : Slice) (f : BitVec 5) : (x.orFlags f).born = x.born := rfl
@[simp] theorem Slice.orFlags_hold (x : Slice) (f : BitVec 5) : (x.orFlags f).hold = x.hold := rfl
@[simp] theorem Slice.orFlags_park (x : Slice) (f : BitVec 5) : (x.orFlags f).park = x.park := rfl
@[simp] theorem Slice.orFlags_woken (x : Slice) (f : BitVec 5) : (x.orFlags f).woken = x.woken := rfl
@[simp] theorem Slice.orFlags_met (x : Slice) (f : BitVec 5) : (x.orFlags f).met = x.met := rfl
@[simp] theorem Slice.orFlags_trapvec (x : Slice) (f : BitVec 5) : (x.orFlags f).trapvec = x.trapvec := rfl
@[simp] theorem Slice.orFlags_t (x : Slice) (f : BitVec 5) : (x.orFlags f).t = x.t := rfl
@[simp] theorem Slice.orFlags_e (x : Slice) (f : BitVec 5) : (x.orFlags f).e = x.e := rfl
@[simp] theorem Slice.orFlags_system (x : Slice) (f : BitVec 5) : (x.orFlags f).system = x.system := rfl
@[simp] theorem Slice.orFlags_userEvent (x : Slice) (f : BitVec 5) : (x.orFlags f).userEvent = x.userEvent := rfl
@[simp] theorem Slice.orFlags_sysEvent (x : Slice) (f : BitVec 5) : (x.orFlags f).sysEvent = x.sysEvent := rfl
@[simp] theorem Slice.orFlags_frame (x : Slice) (f : BitVec 5) : (x.orFlags f).frame = x.frame := rfl
@[simp] theorem Slice.orFlags_counted (x : Slice) (f : BitVec 5) : (x.orFlags f).counted = x.counted := rfl
@[simp] theorem Slice.orFlags_pending (x : Slice) (f : BitVec 5) : (x.orFlags f).pending = x.pending := rfl
@[simp] theorem Slice.orFlags_deferred (x : Slice) (f : BitVec 5) : (x.orFlags f).deferred = x.deferred := rfl
@[simp] theorem Slice.orFlags_resv (x : Slice) (f : BitVec 5) : (x.orFlags f).resv = x.resv := rfl
@[simp] theorem Slice.orFlags_ports (x : Slice) (f : BitVec 5) : (x.orFlags f).ports = x.ports := rfl
@[simp] theorem Slice.orFlags_cycleShadow (x : Slice) (f : BitVec 5) : (x.orFlags f).cycleShadow = x.cycleShadow := rfl
@[simp] theorem Slice.orFlags_timeShadow (x : Slice) (f : BitVec 5) : (x.orFlags f).timeShadow = x.timeShadow := rfl
@[simp] theorem Slice.orFlags_acquires (x : Slice) (f : BitVec 5) : (x.orFlags f).acquires = x.acquires := rfl
@[simp] theorem Slice.orFlags_halted (x : Slice) (f : BitVec 5) : (x.orFlags f).halted = x.halted := rfl
@[simp] theorem Slice.orFlags_killed (x : Slice) (f : BitVec 5) : (x.orFlags f).killed = x.killed := rfl
@[simp] theorem Slice.orFlags_fatal (x : Slice) (f : BitVec 5) : (x.orFlags f).fatal = x.fatal := rfl
@[simp] theorem Slice.orFlags_retCounted (x : Slice) (f : BitVec 5) : (x.orFlags f).retCounted = x.retCounted := rfl
@[simp] theorem Slice.orFlags_stamp (x : Slice) (f : BitVec 5) : (x.orFlags f).stamp = x.stamp := rfl
@[simp] theorem Slice.orFlags_overrun (x : Slice) (f : BitVec 5) : (x.orFlags f).overrun = x.overrun := rfl
@[simp] theorem Slice.orFlags_wskip (x : Slice) (f : BitVec 5) : (x.orFlags f).wskip = x.wskip := rfl
@[simp] theorem Slice.orFlags_poolSince (x : Slice) (f : BitVec 5) : (x.orFlags f).poolSince = x.poolSince := rfl
@[simp] theorem Slice.orFlags_parkSeq (x : Slice) (f : BitVec 5) : (x.orFlags f).parkSeq = x.parkSeq := rfl
@[simp] theorem Slice.orFlags_pausedCycles (x : Slice) (f : BitVec 5) : (x.orFlags f).pausedCycles = x.pausedCycles := rfl
@[simp] theorem Slice.orFlags_savedAt (x : Slice) (f : BitVec 5) : (x.orFlags f).savedAt = x.savedAt := rfl
/-! ### Slice.setPath -/
@[simp] theorem Slice.setPath_phase (x : Slice) (i : Nat) (p : Path) : (x.setPath i p).phase = x.phase := rfl
@[simp] theorem Slice.setPath_asid (x : Slice) (i : Nat) (p : Path) : (x.setPath i p).asid = x.asid := rfl
@[simp] theorem Slice.setPath_group (x : Slice) (i : Nat) (p : Path) : (x.setPath i p).group = x.group := rfl
@[simp] theorem Slice.setPath_warp (x : Slice) (i : Nat) (p : Path) : (x.setPath i p).warp = x.warp := rfl
@[simp] theorem Slice.setPath_ix (x : Slice) (i : Nat) (p : Path) : (x.setPath i p).ix = x.ix := rfl
@[simp] theorem Slice.setPath_width (x : Slice) (i : Nat) (p : Path) : (x.setPath i p).width = x.width := rfl
@[simp] theorem Slice.setPath_repacked (x : Slice) (i : Nat) (p : Path) : (x.setPath i p).repacked = x.repacked := rfl
@[simp] theorem Slice.setPath_handler (x : Slice) (i : Nat) (p : Path) : (x.setPath i p).handler = x.handler := rfl
@[simp] theorem Slice.setPath_startCycle (x : Slice) (i : Nat) (p : Path) : (x.setPath i p).startCycle = x.startCycle := rfl
@[simp] theorem Slice.setPath_limitTaken (x : Slice) (i : Nat) (p : Path) : (x.setPath i p).limitTaken = x.limitTaken := rfl
@[simp] theorem Slice.setPath_v (x : Slice) (i : Nat) (p : Path) : (x.setPath i p).v = x.v := rfl
@[simp] theorem Slice.setPath_s (x : Slice) (i : Nat) (p : Path) : (x.setPath i p).s = x.s := rfl
@[simp] theorem Slice.setPath_p (x : Slice) (i : Nat) (p : Path) : (x.setPath i p).p = x.p := rfl
@[simp] theorem Slice.setPath_fpctl (x : Slice) (i : Nat) (p : Path) : (x.setPath i p).fpctl = x.fpctl := rfl
@[simp] theorem Slice.setPath_fpflags (x : Slice) (i : Nat) (p : Path) : (x.setPath i p).fpflags = x.fpflags := rfl
@[simp] theorem Slice.setPath_cur (x : Slice) (i : Nat) (p : Path) : (x.setPath i p).cur = x.cur := rfl
@[simp] theorem Slice.setPath_fair (x : Slice) (i : Nat) (p : Path) : (x.setPath i p).fair = x.fair := rfl
@[simp] theorem Slice.setPath_born (x : Slice) (i : Nat) (p : Path) : (x.setPath i p).born = x.born := rfl
@[simp] theorem Slice.setPath_hold (x : Slice) (i : Nat) (p : Path) : (x.setPath i p).hold = x.hold := rfl
@[simp] theorem Slice.setPath_park (x : Slice) (i : Nat) (p : Path) : (x.setPath i p).park = x.park := rfl
@[simp] theorem Slice.setPath_woken (x : Slice) (i : Nat) (p : Path) : (x.setPath i p).woken = x.woken := rfl
@[simp] theorem Slice.setPath_met (x : Slice) (i : Nat) (p : Path) : (x.setPath i p).met = x.met := rfl
@[simp] theorem Slice.setPath_trapvec (x : Slice) (i : Nat) (p : Path) : (x.setPath i p).trapvec = x.trapvec := rfl
@[simp] theorem Slice.setPath_t (x : Slice) (i : Nat) (p : Path) : (x.setPath i p).t = x.t := rfl
@[simp] theorem Slice.setPath_e (x : Slice) (i : Nat) (p : Path) : (x.setPath i p).e = x.e := rfl
@[simp] theorem Slice.setPath_system (x : Slice) (i : Nat) (p : Path) : (x.setPath i p).system = x.system := rfl
@[simp] theorem Slice.setPath_userEvent (x : Slice) (i : Nat) (p : Path) : (x.setPath i p).userEvent = x.userEvent := rfl
@[simp] theorem Slice.setPath_sysEvent (x : Slice) (i : Nat) (p : Path) : (x.setPath i p).sysEvent = x.sysEvent := rfl
@[simp] theorem Slice.setPath_frame (x : Slice) (i : Nat) (p : Path) : (x.setPath i p).frame = x.frame := rfl
@[simp] theorem Slice.setPath_counted (x : Slice) (i : Nat) (p : Path) : (x.setPath i p).counted = x.counted := rfl
@[simp] theorem Slice.setPath_pending (x : Slice) (i : Nat) (p : Path) : (x.setPath i p).pending = x.pending := rfl
@[simp] theorem Slice.setPath_deferred (x : Slice) (i : Nat) (p : Path) : (x.setPath i p).deferred = x.deferred := rfl
@[simp] theorem Slice.setPath_resv (x : Slice) (i : Nat) (p : Path) : (x.setPath i p).resv = x.resv := rfl
@[simp] theorem Slice.setPath_ports (x : Slice) (i : Nat) (p : Path) : (x.setPath i p).ports = x.ports := rfl
@[simp] theorem Slice.setPath_cycleShadow (x : Slice) (i : Nat) (p : Path) : (x.setPath i p).cycleShadow = x.cycleShadow := rfl
@[simp] theorem Slice.setPath_timeShadow (x : Slice) (i : Nat) (p : Path) : (x.setPath i p).timeShadow = x.timeShadow := rfl
@[simp] theorem Slice.setPath_acquires (x : Slice) (i : Nat) (p : Path) : (x.setPath i p).acquires = x.acquires := rfl
@[simp] theorem Slice.setPath_halted (x : Slice) (i : Nat) (p : Path) : (x.setPath i p).halted = x.halted := rfl
@[simp] theorem Slice.setPath_killed (x : Slice) (i : Nat) (p : Path) : (x.setPath i p).killed = x.killed := rfl
@[simp] theorem Slice.setPath_fatal (x : Slice) (i : Nat) (p : Path) : (x.setPath i p).fatal = x.fatal := rfl
@[simp] theorem Slice.setPath_retCounted (x : Slice) (i : Nat) (p : Path) : (x.setPath i p).retCounted = x.retCounted := rfl
@[simp] theorem Slice.setPath_stamp (x : Slice) (i : Nat) (p : Path) : (x.setPath i p).stamp = x.stamp := rfl
@[simp] theorem Slice.setPath_overrun (x : Slice) (i : Nat) (p : Path) : (x.setPath i p).overrun = x.overrun := rfl
@[simp] theorem Slice.setPath_wskip (x : Slice) (i : Nat) (p : Path) : (x.setPath i p).wskip = x.wskip := rfl
@[simp] theorem Slice.setPath_poolSince (x : Slice) (i : Nat) (p : Path) : (x.setPath i p).poolSince = x.poolSince := rfl
@[simp] theorem Slice.setPath_parkSeq (x : Slice) (i : Nat) (p : Path) : (x.setPath i p).parkSeq = x.parkSeq := rfl
@[simp] theorem Slice.setPath_pausedCycles (x : Slice) (i : Nat) (p : Path) : (x.setPath i p).pausedCycles = x.pausedCycles := rfl
@[simp] theorem Slice.setPath_savedAt (x : Slice) (i : Nat) (p : Path) : (x.setPath i p).savedAt = x.savedAt := rfl
/-! ### Slice.modPath -/
@[simp] theorem Slice.modPath_phase (x : Slice) (f : Path → Path) : (x.modPath f).phase = x.phase := rfl
@[simp] theorem Slice.modPath_asid (x : Slice) (f : Path → Path) : (x.modPath f).asid = x.asid := rfl
@[simp] theorem Slice.modPath_group (x : Slice) (f : Path → Path) : (x.modPath f).group = x.group := rfl
@[simp] theorem Slice.modPath_warp (x : Slice) (f : Path → Path) : (x.modPath f).warp = x.warp := rfl
@[simp] theorem Slice.modPath_ix (x : Slice) (f : Path → Path) : (x.modPath f).ix = x.ix := rfl
@[simp] theorem Slice.modPath_width (x : Slice) (f : Path → Path) : (x.modPath f).width = x.width := rfl
@[simp] theorem Slice.modPath_repacked (x : Slice) (f : Path → Path) : (x.modPath f).repacked = x.repacked := rfl
@[simp] theorem Slice.modPath_handler (x : Slice) (f : Path → Path) : (x.modPath f).handler = x.handler := rfl
@[simp] theorem Slice.modPath_startCycle (x : Slice) (f : Path → Path) : (x.modPath f).startCycle = x.startCycle := rfl
@[simp] theorem Slice.modPath_limitTaken (x : Slice) (f : Path → Path) : (x.modPath f).limitTaken = x.limitTaken := rfl
@[simp] theorem Slice.modPath_v (x : Slice) (f : Path → Path) : (x.modPath f).v = x.v := rfl
@[simp] theorem Slice.modPath_s (x : Slice) (f : Path → Path) : (x.modPath f).s = x.s := rfl
@[simp] theorem Slice.modPath_p (x : Slice) (f : Path → Path) : (x.modPath f).p = x.p := rfl
@[simp] theorem Slice.modPath_fpctl (x : Slice) (f : Path → Path) : (x.modPath f).fpctl = x.fpctl := rfl
@[simp] theorem Slice.modPath_fpflags (x : Slice) (f : Path → Path) : (x.modPath f).fpflags = x.fpflags := rfl
@[simp] theorem Slice.modPath_cur (x : Slice) (f : Path → Path) : (x.modPath f).cur = x.cur := rfl
@[simp] theorem Slice.modPath_fair (x : Slice) (f : Path → Path) : (x.modPath f).fair = x.fair := rfl
@[simp] theorem Slice.modPath_born (x : Slice) (f : Path → Path) : (x.modPath f).born = x.born := rfl
@[simp] theorem Slice.modPath_hold (x : Slice) (f : Path → Path) : (x.modPath f).hold = x.hold := rfl
@[simp] theorem Slice.modPath_park (x : Slice) (f : Path → Path) : (x.modPath f).park = x.park := rfl
@[simp] theorem Slice.modPath_woken (x : Slice) (f : Path → Path) : (x.modPath f).woken = x.woken := rfl
@[simp] theorem Slice.modPath_met (x : Slice) (f : Path → Path) : (x.modPath f).met = x.met := rfl
@[simp] theorem Slice.modPath_trapvec (x : Slice) (f : Path → Path) : (x.modPath f).trapvec = x.trapvec := rfl
@[simp] theorem Slice.modPath_t (x : Slice) (f : Path → Path) : (x.modPath f).t = x.t := rfl
@[simp] theorem Slice.modPath_e (x : Slice) (f : Path → Path) : (x.modPath f).e = x.e := rfl
@[simp] theorem Slice.modPath_system (x : Slice) (f : Path → Path) : (x.modPath f).system = x.system := rfl
@[simp] theorem Slice.modPath_userEvent (x : Slice) (f : Path → Path) : (x.modPath f).userEvent = x.userEvent := rfl
@[simp] theorem Slice.modPath_sysEvent (x : Slice) (f : Path → Path) : (x.modPath f).sysEvent = x.sysEvent := rfl
@[simp] theorem Slice.modPath_frame (x : Slice) (f : Path → Path) : (x.modPath f).frame = x.frame := rfl
@[simp] theorem Slice.modPath_counted (x : Slice) (f : Path → Path) : (x.modPath f).counted = x.counted := rfl
@[simp] theorem Slice.modPath_pending (x : Slice) (f : Path → Path) : (x.modPath f).pending = x.pending := rfl
@[simp] theorem Slice.modPath_deferred (x : Slice) (f : Path → Path) : (x.modPath f).deferred = x.deferred := rfl
@[simp] theorem Slice.modPath_resv (x : Slice) (f : Path → Path) : (x.modPath f).resv = x.resv := rfl
@[simp] theorem Slice.modPath_ports (x : Slice) (f : Path → Path) : (x.modPath f).ports = x.ports := rfl
@[simp] theorem Slice.modPath_cycleShadow (x : Slice) (f : Path → Path) : (x.modPath f).cycleShadow = x.cycleShadow := rfl
@[simp] theorem Slice.modPath_timeShadow (x : Slice) (f : Path → Path) : (x.modPath f).timeShadow = x.timeShadow := rfl
@[simp] theorem Slice.modPath_acquires (x : Slice) (f : Path → Path) : (x.modPath f).acquires = x.acquires := rfl
@[simp] theorem Slice.modPath_halted (x : Slice) (f : Path → Path) : (x.modPath f).halted = x.halted := rfl
@[simp] theorem Slice.modPath_killed (x : Slice) (f : Path → Path) : (x.modPath f).killed = x.killed := rfl
@[simp] theorem Slice.modPath_fatal (x : Slice) (f : Path → Path) : (x.modPath f).fatal = x.fatal := rfl
@[simp] theorem Slice.modPath_retCounted (x : Slice) (f : Path → Path) : (x.modPath f).retCounted = x.retCounted := rfl
@[simp] theorem Slice.modPath_stamp (x : Slice) (f : Path → Path) : (x.modPath f).stamp = x.stamp := rfl
@[simp] theorem Slice.modPath_overrun (x : Slice) (f : Path → Path) : (x.modPath f).overrun = x.overrun := rfl
@[simp] theorem Slice.modPath_wskip (x : Slice) (f : Path → Path) : (x.modPath f).wskip = x.wskip := rfl
@[simp] theorem Slice.modPath_poolSince (x : Slice) (f : Path → Path) : (x.modPath f).poolSince = x.poolSince := rfl
@[simp] theorem Slice.modPath_parkSeq (x : Slice) (f : Path → Path) : (x.modPath f).parkSeq = x.parkSeq := rfl
@[simp] theorem Slice.modPath_pausedCycles (x : Slice) (f : Path → Path) : (x.modPath f).pausedCycles = x.pausedCycles := rfl
@[simp] theorem Slice.modPath_savedAt (x : Slice) (f : Path → Path) : (x.modPath f).savedAt = x.savedAt := rfl
/-! ### Slice.unpark -/
@[simp] theorem Slice.unpark_phase (x : Slice) : (x.unpark).phase = x.phase := rfl
@[simp] theorem Slice.unpark_asid (x : Slice) : (x.unpark).asid = x.asid := rfl
@[simp] theorem Slice.unpark_group (x : Slice) : (x.unpark).group = x.group := rfl
@[simp] theorem Slice.unpark_warp (x : Slice) : (x.unpark).warp = x.warp := rfl
@[simp] theorem Slice.unpark_ix (x : Slice) : (x.unpark).ix = x.ix := rfl
@[simp] theorem Slice.unpark_width (x : Slice) : (x.unpark).width = x.width := rfl
@[simp] theorem Slice.unpark_repacked (x : Slice) : (x.unpark).repacked = x.repacked := rfl
@[simp] theorem Slice.unpark_handler (x : Slice) : (x.unpark).handler = x.handler := rfl
@[simp] theorem Slice.unpark_startCycle (x : Slice) : (x.unpark).startCycle = x.startCycle := rfl
@[simp] theorem Slice.unpark_limitTaken (x : Slice) : (x.unpark).limitTaken = x.limitTaken := rfl
@[simp] theorem Slice.unpark_v (x : Slice) : (x.unpark).v = x.v := rfl
@[simp] theorem Slice.unpark_s (x : Slice) : (x.unpark).s = x.s := rfl
@[simp] theorem Slice.unpark_p (x : Slice) : (x.unpark).p = x.p := rfl
@[simp] theorem Slice.unpark_fpctl (x : Slice) : (x.unpark).fpctl = x.fpctl := rfl
@[simp] theorem Slice.unpark_fpflags (x : Slice) : (x.unpark).fpflags = x.fpflags := rfl
@[simp] theorem Slice.unpark_paths (x : Slice) : (x.unpark).paths = x.paths := rfl
@[simp] theorem Slice.unpark_cur (x : Slice) : (x.unpark).cur = x.cur := rfl
@[simp] theorem Slice.unpark_fair (x : Slice) : (x.unpark).fair = x.fair := rfl
@[simp] theorem Slice.unpark_born (x : Slice) : (x.unpark).born = x.born := rfl
@[simp] theorem Slice.unpark_hold (x : Slice) : (x.unpark).hold = x.hold := rfl
@[simp] theorem Slice.unpark_met (x : Slice) : (x.unpark).met = x.met := rfl
@[simp] theorem Slice.unpark_trapvec (x : Slice) : (x.unpark).trapvec = x.trapvec := rfl
@[simp] theorem Slice.unpark_t (x : Slice) : (x.unpark).t = x.t := rfl
@[simp] theorem Slice.unpark_e (x : Slice) : (x.unpark).e = x.e := rfl
@[simp] theorem Slice.unpark_system (x : Slice) : (x.unpark).system = x.system := rfl
@[simp] theorem Slice.unpark_userEvent (x : Slice) : (x.unpark).userEvent = x.userEvent := rfl
@[simp] theorem Slice.unpark_sysEvent (x : Slice) : (x.unpark).sysEvent = x.sysEvent := rfl
@[simp] theorem Slice.unpark_frame (x : Slice) : (x.unpark).frame = x.frame := rfl
@[simp] theorem Slice.unpark_counted (x : Slice) : (x.unpark).counted = x.counted := rfl
@[simp] theorem Slice.unpark_pending (x : Slice) : (x.unpark).pending = x.pending := rfl
@[simp] theorem Slice.unpark_deferred (x : Slice) : (x.unpark).deferred = x.deferred := rfl
@[simp] theorem Slice.unpark_resv (x : Slice) : (x.unpark).resv = x.resv := rfl
@[simp] theorem Slice.unpark_ports (x : Slice) : (x.unpark).ports = x.ports := rfl
@[simp] theorem Slice.unpark_cycleShadow (x : Slice) : (x.unpark).cycleShadow = x.cycleShadow := rfl
@[simp] theorem Slice.unpark_timeShadow (x : Slice) : (x.unpark).timeShadow = x.timeShadow := rfl
@[simp] theorem Slice.unpark_acquires (x : Slice) : (x.unpark).acquires = x.acquires := rfl
@[simp] theorem Slice.unpark_halted (x : Slice) : (x.unpark).halted = x.halted := rfl
@[simp] theorem Slice.unpark_killed (x : Slice) : (x.unpark).killed = x.killed := rfl
@[simp] theorem Slice.unpark_fatal (x : Slice) : (x.unpark).fatal = x.fatal := rfl
@[simp] theorem Slice.unpark_retCounted (x : Slice) : (x.unpark).retCounted = x.retCounted := rfl
@[simp] theorem Slice.unpark_stamp (x : Slice) : (x.unpark).stamp = x.stamp := rfl
@[simp] theorem Slice.unpark_overrun (x : Slice) : (x.unpark).overrun = x.overrun := rfl
@[simp] theorem Slice.unpark_wskip (x : Slice) : (x.unpark).wskip = x.wskip := rfl
@[simp] theorem Slice.unpark_poolSince (x : Slice) : (x.unpark).poolSince = x.poolSince := rfl
@[simp] theorem Slice.unpark_parkSeq (x : Slice) : (x.unpark).parkSeq = x.parkSeq := rfl
@[simp] theorem Slice.unpark_pausedCycles (x : Slice) : (x.unpark).pausedCycles = x.pausedCycles := rfl
@[simp] theorem Slice.unpark_savedAt (x : Slice) : (x.unpark).savedAt = x.savedAt := rfl
/-! ### Slice.parkOn -/
@[simp] theorem Slice.parkOn_phase (x : Slice) (o : Park) : (x.parkOn o).phase = x.phase := rfl
@[simp] theorem Slice.parkOn_asid (x : Slice) (o : Park) : (x.parkOn o).asid = x.asid := rfl
@[simp] theorem Slice.parkOn_group (x : Slice) (o : Park) : (x.parkOn o).group = x.group := rfl
@[simp] theorem Slice.parkOn_warp (x : Slice) (o : Park) : (x.parkOn o).warp = x.warp := rfl
@[simp] theorem Slice.parkOn_ix (x : Slice) (o : Park) : (x.parkOn o).ix = x.ix := rfl
@[simp] theorem Slice.parkOn_width (x : Slice) (o : Park) : (x.parkOn o).width = x.width := rfl
@[simp] theorem Slice.parkOn_repacked (x : Slice) (o : Park) : (x.parkOn o).repacked = x.repacked := rfl
@[simp] theorem Slice.parkOn_handler (x : Slice) (o : Park) : (x.parkOn o).handler = x.handler := rfl
@[simp] theorem Slice.parkOn_startCycle (x : Slice) (o : Park) : (x.parkOn o).startCycle = x.startCycle := rfl
@[simp] theorem Slice.parkOn_limitTaken (x : Slice) (o : Park) : (x.parkOn o).limitTaken = x.limitTaken := rfl
@[simp] theorem Slice.parkOn_v (x : Slice) (o : Park) : (x.parkOn o).v = x.v := rfl
@[simp] theorem Slice.parkOn_s (x : Slice) (o : Park) : (x.parkOn o).s = x.s := rfl
@[simp] theorem Slice.parkOn_p (x : Slice) (o : Park) : (x.parkOn o).p = x.p := rfl
@[simp] theorem Slice.parkOn_fpctl (x : Slice) (o : Park) : (x.parkOn o).fpctl = x.fpctl := rfl
@[simp] theorem Slice.parkOn_fpflags (x : Slice) (o : Park) : (x.parkOn o).fpflags = x.fpflags := rfl
@[simp] theorem Slice.parkOn_paths (x : Slice) (o : Park) : (x.parkOn o).paths = x.paths := rfl
@[simp] theorem Slice.parkOn_cur (x : Slice) (o : Park) : (x.parkOn o).cur = x.cur := rfl
@[simp] theorem Slice.parkOn_fair (x : Slice) (o : Park) : (x.parkOn o).fair = x.fair := rfl
@[simp] theorem Slice.parkOn_born (x : Slice) (o : Park) : (x.parkOn o).born = x.born := rfl
@[simp] theorem Slice.parkOn_hold (x : Slice) (o : Park) : (x.parkOn o).hold = x.hold := rfl
@[simp] theorem Slice.parkOn_met (x : Slice) (o : Park) : (x.parkOn o).met = x.met := rfl
@[simp] theorem Slice.parkOn_trapvec (x : Slice) (o : Park) : (x.parkOn o).trapvec = x.trapvec := rfl
@[simp] theorem Slice.parkOn_t (x : Slice) (o : Park) : (x.parkOn o).t = x.t := rfl
@[simp] theorem Slice.parkOn_e (x : Slice) (o : Park) : (x.parkOn o).e = x.e := rfl
@[simp] theorem Slice.parkOn_system (x : Slice) (o : Park) : (x.parkOn o).system = x.system := rfl
@[simp] theorem Slice.parkOn_userEvent (x : Slice) (o : Park) : (x.parkOn o).userEvent = x.userEvent := rfl
@[simp] theorem Slice.parkOn_sysEvent (x : Slice) (o : Park) : (x.parkOn o).sysEvent = x.sysEvent := rfl
@[simp] theorem Slice.parkOn_frame (x : Slice) (o : Park) : (x.parkOn o).frame = x.frame := rfl
@[simp] theorem Slice.parkOn_counted (x : Slice) (o : Park) : (x.parkOn o).counted = x.counted := rfl
@[simp] theorem Slice.parkOn_pending (x : Slice) (o : Park) : (x.parkOn o).pending = x.pending := rfl
@[simp] theorem Slice.parkOn_deferred (x : Slice) (o : Park) : (x.parkOn o).deferred = x.deferred := rfl
@[simp] theorem Slice.parkOn_resv (x : Slice) (o : Park) : (x.parkOn o).resv = x.resv := rfl
@[simp] theorem Slice.parkOn_ports (x : Slice) (o : Park) : (x.parkOn o).ports = x.ports := rfl
@[simp] theorem Slice.parkOn_cycleShadow (x : Slice) (o : Park) : (x.parkOn o).cycleShadow = x.cycleShadow := rfl
@[simp] theorem Slice.parkOn_timeShadow (x : Slice) (o : Park) : (x.parkOn o).timeShadow = x.timeShadow := rfl
@[simp] theorem Slice.parkOn_acquires (x : Slice) (o : Park) : (x.parkOn o).acquires = x.acquires := rfl
@[simp] theorem Slice.parkOn_halted (x : Slice) (o : Park) : (x.parkOn o).halted = x.halted := rfl
@[simp] theorem Slice.parkOn_killed (x : Slice) (o : Park) : (x.parkOn o).killed = x.killed := rfl
@[simp] theorem Slice.parkOn_fatal (x : Slice) (o : Park) : (x.parkOn o).fatal = x.fatal := rfl
@[simp] theorem Slice.parkOn_retCounted (x : Slice) (o : Park) : (x.parkOn o).retCounted = x.retCounted := rfl
@[simp] theorem Slice.parkOn_stamp (x : Slice) (o : Park) : (x.parkOn o).stamp = x.stamp := rfl
@[simp] theorem Slice.parkOn_overrun (x : Slice) (o : Park) : (x.parkOn o).overrun = x.overrun := rfl
@[simp] theorem Slice.parkOn_wskip (x : Slice) (o : Park) : (x.parkOn o).wskip = x.wskip := rfl
@[simp] theorem Slice.parkOn_poolSince (x : Slice) (o : Park) : (x.parkOn o).poolSince = x.poolSince := rfl
@[simp] theorem Slice.parkOn_parkSeq (x : Slice) (o : Park) : (x.parkOn o).parkSeq = x.parkSeq := rfl
@[simp] theorem Slice.parkOn_pausedCycles (x : Slice) (o : Park) : (x.parkOn o).pausedCycles = x.pausedCycles := rfl
@[simp] theorem Slice.parkOn_savedAt (x : Slice) (o : Park) : (x.parkOn o).savedAt = x.savedAt := rfl
/-! ### Slice.unpend -/
@[simp] theorem Slice.unpend_phase (x : Slice) (i : Nat) : (x.unpend i).phase = x.phase := rfl
@[simp] theorem Slice.unpend_asid (x : Slice) (i : Nat) : (x.unpend i).asid = x.asid := rfl
@[simp] theorem Slice.unpend_group (x : Slice) (i : Nat) : (x.unpend i).group = x.group := rfl
@[simp] theorem Slice.unpend_warp (x : Slice) (i : Nat) : (x.unpend i).warp = x.warp := rfl
@[simp] theorem Slice.unpend_ix (x : Slice) (i : Nat) : (x.unpend i).ix = x.ix := rfl
@[simp] theorem Slice.unpend_width (x : Slice) (i : Nat) : (x.unpend i).width = x.width := rfl
@[simp] theorem Slice.unpend_repacked (x : Slice) (i : Nat) : (x.unpend i).repacked = x.repacked := rfl
@[simp] theorem Slice.unpend_handler (x : Slice) (i : Nat) : (x.unpend i).handler = x.handler := rfl
@[simp] theorem Slice.unpend_startCycle (x : Slice) (i : Nat) : (x.unpend i).startCycle = x.startCycle := rfl
@[simp] theorem Slice.unpend_limitTaken (x : Slice) (i : Nat) : (x.unpend i).limitTaken = x.limitTaken := rfl
@[simp] theorem Slice.unpend_v (x : Slice) (i : Nat) : (x.unpend i).v = x.v := rfl
@[simp] theorem Slice.unpend_s (x : Slice) (i : Nat) : (x.unpend i).s = x.s := rfl
@[simp] theorem Slice.unpend_p (x : Slice) (i : Nat) : (x.unpend i).p = x.p := rfl
@[simp] theorem Slice.unpend_fpctl (x : Slice) (i : Nat) : (x.unpend i).fpctl = x.fpctl := rfl
@[simp] theorem Slice.unpend_fpflags (x : Slice) (i : Nat) : (x.unpend i).fpflags = x.fpflags := rfl
@[simp] theorem Slice.unpend_paths (x : Slice) (i : Nat) : (x.unpend i).paths = x.paths := rfl
@[simp] theorem Slice.unpend_cur (x : Slice) (i : Nat) : (x.unpend i).cur = x.cur := rfl
@[simp] theorem Slice.unpend_fair (x : Slice) (i : Nat) : (x.unpend i).fair = x.fair := rfl
@[simp] theorem Slice.unpend_born (x : Slice) (i : Nat) : (x.unpend i).born = x.born := rfl
@[simp] theorem Slice.unpend_hold (x : Slice) (i : Nat) : (x.unpend i).hold = x.hold := rfl
@[simp] theorem Slice.unpend_park (x : Slice) (i : Nat) : (x.unpend i).park = x.park := rfl
@[simp] theorem Slice.unpend_woken (x : Slice) (i : Nat) : (x.unpend i).woken = x.woken := rfl
@[simp] theorem Slice.unpend_met (x : Slice) (i : Nat) : (x.unpend i).met = x.met := rfl
@[simp] theorem Slice.unpend_trapvec (x : Slice) (i : Nat) : (x.unpend i).trapvec = x.trapvec := rfl
@[simp] theorem Slice.unpend_t (x : Slice) (i : Nat) : (x.unpend i).t = x.t := rfl
@[simp] theorem Slice.unpend_e (x : Slice) (i : Nat) : (x.unpend i).e = x.e := rfl
@[simp] theorem Slice.unpend_system (x : Slice) (i : Nat) : (x.unpend i).system = x.system := rfl
@[simp] theorem Slice.unpend_userEvent (x : Slice) (i : Nat) : (x.unpend i).userEvent = x.userEvent := rfl
@[simp] theorem Slice.unpend_sysEvent (x : Slice) (i : Nat) : (x.unpend i).sysEvent = x.sysEvent := rfl
@[simp] theorem Slice.unpend_frame (x : Slice) (i : Nat) : (x.unpend i).frame = x.frame := rfl
@[simp] theorem Slice.unpend_counted (x : Slice) (i : Nat) : (x.unpend i).counted = x.counted := rfl
@[simp] theorem Slice.unpend_deferred (x : Slice) (i : Nat) : (x.unpend i).deferred = x.deferred := rfl
@[simp] theorem Slice.unpend_resv (x : Slice) (i : Nat) : (x.unpend i).resv = x.resv := rfl
@[simp] theorem Slice.unpend_ports (x : Slice) (i : Nat) : (x.unpend i).ports = x.ports := rfl
@[simp] theorem Slice.unpend_cycleShadow (x : Slice) (i : Nat) : (x.unpend i).cycleShadow = x.cycleShadow := rfl
@[simp] theorem Slice.unpend_timeShadow (x : Slice) (i : Nat) : (x.unpend i).timeShadow = x.timeShadow := rfl
@[simp] theorem Slice.unpend_acquires (x : Slice) (i : Nat) : (x.unpend i).acquires = x.acquires := rfl
@[simp] theorem Slice.unpend_halted (x : Slice) (i : Nat) : (x.unpend i).halted = x.halted := rfl
@[simp] theorem Slice.unpend_killed (x : Slice) (i : Nat) : (x.unpend i).killed = x.killed := rfl
@[simp] theorem Slice.unpend_fatal (x : Slice) (i : Nat) : (x.unpend i).fatal = x.fatal := rfl
@[simp] theorem Slice.unpend_retCounted (x : Slice) (i : Nat) : (x.unpend i).retCounted = x.retCounted := rfl
@[simp] theorem Slice.unpend_stamp (x : Slice) (i : Nat) : (x.unpend i).stamp = x.stamp := rfl
@[simp] theorem Slice.unpend_overrun (x : Slice) (i : Nat) : (x.unpend i).overrun = x.overrun := rfl
@[simp] theorem Slice.unpend_wskip (x : Slice) (i : Nat) : (x.unpend i).wskip = x.wskip := rfl
@[simp] theorem Slice.unpend_poolSince (x : Slice) (i : Nat) : (x.unpend i).poolSince = x.poolSince := rfl
@[simp] theorem Slice.unpend_parkSeq (x : Slice) (i : Nat) : (x.unpend i).parkSeq = x.parkSeq := rfl
@[simp] theorem Slice.unpend_pausedCycles (x : Slice) (i : Nat) : (x.unpend i).pausedCycles = x.pausedCycles := rfl
@[simp] theorem Slice.unpend_savedAt (x : Slice) (i : Nat) : (x.unpend i).savedAt = x.savedAt := rfl
/-! ### Slice.complete -/
@[simp] theorem Slice.complete_phase (x : Slice) (i : Nat) : (x.complete i).phase = x.phase := rfl
@[simp] theorem Slice.complete_asid (x : Slice) (i : Nat) : (x.complete i).asid = x.asid := rfl
@[simp] theorem Slice.complete_group (x : Slice) (i : Nat) : (x.complete i).group = x.group := rfl
@[simp] theorem Slice.complete_warp (x : Slice) (i : Nat) : (x.complete i).warp = x.warp := rfl
@[simp] theorem Slice.complete_ix (x : Slice) (i : Nat) : (x.complete i).ix = x.ix := rfl
@[simp] theorem Slice.complete_width (x : Slice) (i : Nat) : (x.complete i).width = x.width := rfl
@[simp] theorem Slice.complete_repacked (x : Slice) (i : Nat) : (x.complete i).repacked = x.repacked := rfl
@[simp] theorem Slice.complete_handler (x : Slice) (i : Nat) : (x.complete i).handler = x.handler := rfl
@[simp] theorem Slice.complete_startCycle (x : Slice) (i : Nat) : (x.complete i).startCycle = x.startCycle := rfl
@[simp] theorem Slice.complete_limitTaken (x : Slice) (i : Nat) : (x.complete i).limitTaken = x.limitTaken := rfl
@[simp] theorem Slice.complete_v (x : Slice) (i : Nat) : (x.complete i).v = x.v := rfl
@[simp] theorem Slice.complete_s (x : Slice) (i : Nat) : (x.complete i).s = x.s := rfl
@[simp] theorem Slice.complete_p (x : Slice) (i : Nat) : (x.complete i).p = x.p := rfl
@[simp] theorem Slice.complete_fpctl (x : Slice) (i : Nat) : (x.complete i).fpctl = x.fpctl := rfl
@[simp] theorem Slice.complete_fpflags (x : Slice) (i : Nat) : (x.complete i).fpflags = x.fpflags := rfl
@[simp] theorem Slice.complete_paths (x : Slice) (i : Nat) : (x.complete i).paths = x.paths := rfl
@[simp] theorem Slice.complete_cur (x : Slice) (i : Nat) : (x.complete i).cur = x.cur := rfl
@[simp] theorem Slice.complete_fair (x : Slice) (i : Nat) : (x.complete i).fair = x.fair := rfl
@[simp] theorem Slice.complete_born (x : Slice) (i : Nat) : (x.complete i).born = x.born := rfl
@[simp] theorem Slice.complete_hold (x : Slice) (i : Nat) : (x.complete i).hold = x.hold := rfl
@[simp] theorem Slice.complete_park (x : Slice) (i : Nat) : (x.complete i).park = x.park := rfl
@[simp] theorem Slice.complete_woken (x : Slice) (i : Nat) : (x.complete i).woken = x.woken := rfl
@[simp] theorem Slice.complete_met (x : Slice) (i : Nat) : (x.complete i).met = x.met := rfl
@[simp] theorem Slice.complete_trapvec (x : Slice) (i : Nat) : (x.complete i).trapvec = x.trapvec := rfl
@[simp] theorem Slice.complete_t (x : Slice) (i : Nat) : (x.complete i).t = x.t := rfl
@[simp] theorem Slice.complete_e (x : Slice) (i : Nat) : (x.complete i).e = x.e := rfl
@[simp] theorem Slice.complete_system (x : Slice) (i : Nat) : (x.complete i).system = x.system := rfl
@[simp] theorem Slice.complete_userEvent (x : Slice) (i : Nat) : (x.complete i).userEvent = x.userEvent := rfl
@[simp] theorem Slice.complete_sysEvent (x : Slice) (i : Nat) : (x.complete i).sysEvent = x.sysEvent := rfl
@[simp] theorem Slice.complete_frame (x : Slice) (i : Nat) : (x.complete i).frame = x.frame := rfl
@[simp] theorem Slice.complete_pending (x : Slice) (i : Nat) : (x.complete i).pending = x.pending := rfl
@[simp] theorem Slice.complete_deferred (x : Slice) (i : Nat) : (x.complete i).deferred = x.deferred := rfl
@[simp] theorem Slice.complete_resv (x : Slice) (i : Nat) : (x.complete i).resv = x.resv := rfl
@[simp] theorem Slice.complete_ports (x : Slice) (i : Nat) : (x.complete i).ports = x.ports := rfl
@[simp] theorem Slice.complete_cycleShadow (x : Slice) (i : Nat) : (x.complete i).cycleShadow = x.cycleShadow := rfl
@[simp] theorem Slice.complete_timeShadow (x : Slice) (i : Nat) : (x.complete i).timeShadow = x.timeShadow := rfl
@[simp] theorem Slice.complete_acquires (x : Slice) (i : Nat) : (x.complete i).acquires = x.acquires := rfl
@[simp] theorem Slice.complete_halted (x : Slice) (i : Nat) : (x.complete i).halted = x.halted := rfl
@[simp] theorem Slice.complete_killed (x : Slice) (i : Nat) : (x.complete i).killed = x.killed := rfl
@[simp] theorem Slice.complete_fatal (x : Slice) (i : Nat) : (x.complete i).fatal = x.fatal := rfl
@[simp] theorem Slice.complete_retCounted (x : Slice) (i : Nat) : (x.complete i).retCounted = x.retCounted := rfl
@[simp] theorem Slice.complete_stamp (x : Slice) (i : Nat) : (x.complete i).stamp = x.stamp := rfl
@[simp] theorem Slice.complete_overrun (x : Slice) (i : Nat) : (x.complete i).overrun = x.overrun := rfl
@[simp] theorem Slice.complete_wskip (x : Slice) (i : Nat) : (x.complete i).wskip = x.wskip := rfl
@[simp] theorem Slice.complete_poolSince (x : Slice) (i : Nat) : (x.complete i).poolSince = x.poolSince := rfl
@[simp] theorem Slice.complete_parkSeq (x : Slice) (i : Nat) : (x.complete i).parkSeq = x.parkSeq := rfl
@[simp] theorem Slice.complete_pausedCycles (x : Slice) (i : Nat) : (x.complete i).pausedCycles = x.pausedCycles := rfl
@[simp] theorem Slice.complete_savedAt (x : Slice) (i : Nat) : (x.complete i).savedAt = x.savedAt := rfl
/-! ### Slice.advance -/
@[simp] theorem Slice.advance_phase (x : Slice) (n : Nat) : (x.advance n).phase = x.phase := by unfold Slice.advance Slice.modPath; dsimp only; split <;> (try split) <;> (try split) <;> rfl
@[simp] theorem Slice.advance_asid (x : Slice) (n : Nat) : (x.advance n).asid = x.asid := by unfold Slice.advance Slice.modPath; dsimp only; split <;> (try split) <;> (try split) <;> rfl
@[simp] theorem Slice.advance_group (x : Slice) (n : Nat) : (x.advance n).group = x.group := by unfold Slice.advance Slice.modPath; dsimp only; split <;> (try split) <;> (try split) <;> rfl
@[simp] theorem Slice.advance_warp (x : Slice) (n : Nat) : (x.advance n).warp = x.warp := by unfold Slice.advance Slice.modPath; dsimp only; split <;> (try split) <;> (try split) <;> rfl
@[simp] theorem Slice.advance_ix (x : Slice) (n : Nat) : (x.advance n).ix = x.ix := by unfold Slice.advance Slice.modPath; dsimp only; split <;> (try split) <;> (try split) <;> rfl
@[simp] theorem Slice.advance_width (x : Slice) (n : Nat) : (x.advance n).width = x.width := by unfold Slice.advance Slice.modPath; dsimp only; split <;> (try split) <;> (try split) <;> rfl
@[simp] theorem Slice.advance_repacked (x : Slice) (n : Nat) : (x.advance n).repacked = x.repacked := by unfold Slice.advance Slice.modPath; dsimp only; split <;> (try split) <;> (try split) <;> rfl
@[simp] theorem Slice.advance_handler (x : Slice) (n : Nat) : (x.advance n).handler = x.handler := by unfold Slice.advance Slice.modPath; dsimp only; split <;> (try split) <;> (try split) <;> rfl
@[simp] theorem Slice.advance_startCycle (x : Slice) (n : Nat) : (x.advance n).startCycle = x.startCycle := by unfold Slice.advance Slice.modPath; dsimp only; split <;> (try split) <;> (try split) <;> rfl
@[simp] theorem Slice.advance_limitTaken (x : Slice) (n : Nat) : (x.advance n).limitTaken = x.limitTaken := by unfold Slice.advance Slice.modPath; dsimp only; split <;> (try split) <;> (try split) <;> rfl
@[simp] theorem Slice.advance_v (x : Slice) (n : Nat) : (x.advance n).v = x.v := by unfold Slice.advance Slice.modPath; dsimp only; split <;> (try split) <;> (try split) <;> rfl
@[simp] theorem Slice.advance_s (x : Slice) (n : Nat) : (x.advance n).s = x.s := by unfold Slice.advance Slice.modPath; dsimp only; split <;> (try split) <;> (try split) <;> rfl
@[simp] theorem Slice.advance_p (x : Slice) (n : Nat) : (x.advance n).p = x.p := by unfold Slice.advance Slice.modPath; dsimp only; split <;> (try split) <;> (try split) <;> rfl
@[simp] theorem Slice.advance_fpctl (x : Slice) (n : Nat) : (x.advance n).fpctl = x.fpctl := by unfold Slice.advance Slice.modPath; dsimp only; split <;> (try split) <;> (try split) <;> rfl
@[simp] theorem Slice.advance_fpflags (x : Slice) (n : Nat) : (x.advance n).fpflags = x.fpflags := by unfold Slice.advance Slice.modPath; dsimp only; split <;> (try split) <;> (try split) <;> rfl
@[simp] theorem Slice.advance_cur (x : Slice) (n : Nat) : (x.advance n).cur = x.cur := by unfold Slice.advance Slice.modPath; dsimp only; split <;> (try split) <;> (try split) <;> rfl
@[simp] theorem Slice.advance_fair (x : Slice) (n : Nat) : (x.advance n).fair = x.fair := by unfold Slice.advance Slice.modPath; dsimp only; split <;> (try split) <;> (try split) <;> rfl
@[simp] theorem Slice.advance_born (x : Slice) (n : Nat) : (x.advance n).born = x.born := by unfold Slice.advance Slice.modPath; dsimp only; split <;> (try split) <;> (try split) <;> rfl
@[simp] theorem Slice.advance_hold (x : Slice) (n : Nat) : (x.advance n).hold = x.hold := by unfold Slice.advance Slice.modPath; dsimp only; split <;> (try split) <;> (try split) <;> rfl
@[simp] theorem Slice.advance_park (x : Slice) (n : Nat) : (x.advance n).park = x.park := by unfold Slice.advance Slice.modPath; dsimp only; split <;> (try split) <;> (try split) <;> rfl
@[simp] theorem Slice.advance_woken (x : Slice) (n : Nat) : (x.advance n).woken = x.woken := by unfold Slice.advance Slice.modPath; dsimp only; split <;> (try split) <;> (try split) <;> rfl
@[simp] theorem Slice.advance_met (x : Slice) (n : Nat) : (x.advance n).met = x.met := by unfold Slice.advance Slice.modPath; dsimp only; split <;> (try split) <;> (try split) <;> rfl
@[simp] theorem Slice.advance_trapvec (x : Slice) (n : Nat) : (x.advance n).trapvec = x.trapvec := by unfold Slice.advance Slice.modPath; dsimp only; split <;> (try split) <;> (try split) <;> rfl
@[simp] theorem Slice.advance_t (x : Slice) (n : Nat) : (x.advance n).t = x.t := by unfold Slice.advance Slice.modPath; dsimp only; split <;> (try split) <;> (try split) <;> rfl
@[simp] theorem Slice.advance_e (x : Slice) (n : Nat) : (x.advance n).e = x.e := by unfold Slice.advance Slice.modPath; dsimp only; split <;> (try split) <;> (try split) <;> rfl
@[simp] theorem Slice.advance_system (x : Slice) (n : Nat) : (x.advance n).system = x.system := by unfold Slice.advance Slice.modPath; dsimp only; split <;> (try split) <;> (try split) <;> rfl
@[simp] theorem Slice.advance_userEvent (x : Slice) (n : Nat) : (x.advance n).userEvent = x.userEvent := by unfold Slice.advance Slice.modPath; dsimp only; split <;> (try split) <;> (try split) <;> rfl
@[simp] theorem Slice.advance_sysEvent (x : Slice) (n : Nat) : (x.advance n).sysEvent = x.sysEvent := by unfold Slice.advance Slice.modPath; dsimp only; split <;> (try split) <;> (try split) <;> rfl
@[simp] theorem Slice.advance_counted (x : Slice) (n : Nat) : (x.advance n).counted = x.counted := by unfold Slice.advance Slice.modPath; dsimp only; split <;> (try split) <;> (try split) <;> rfl
@[simp] theorem Slice.advance_pending (x : Slice) (n : Nat) : (x.advance n).pending = x.pending := by unfold Slice.advance Slice.modPath; dsimp only; split <;> (try split) <;> (try split) <;> rfl
@[simp] theorem Slice.advance_deferred (x : Slice) (n : Nat) : (x.advance n).deferred = x.deferred := by unfold Slice.advance Slice.modPath; dsimp only; split <;> (try split) <;> (try split) <;> rfl
@[simp] theorem Slice.advance_resv (x : Slice) (n : Nat) : (x.advance n).resv = x.resv := by unfold Slice.advance Slice.modPath; dsimp only; split <;> (try split) <;> (try split) <;> rfl
@[simp] theorem Slice.advance_ports (x : Slice) (n : Nat) : (x.advance n).ports = x.ports := by unfold Slice.advance Slice.modPath; dsimp only; split <;> (try split) <;> (try split) <;> rfl
@[simp] theorem Slice.advance_cycleShadow (x : Slice) (n : Nat) : (x.advance n).cycleShadow = x.cycleShadow := by unfold Slice.advance Slice.modPath; dsimp only; split <;> (try split) <;> (try split) <;> rfl
@[simp] theorem Slice.advance_timeShadow (x : Slice) (n : Nat) : (x.advance n).timeShadow = x.timeShadow := by unfold Slice.advance Slice.modPath; dsimp only; split <;> (try split) <;> (try split) <;> rfl
@[simp] theorem Slice.advance_acquires (x : Slice) (n : Nat) : (x.advance n).acquires = x.acquires := by unfold Slice.advance Slice.modPath; dsimp only; split <;> (try split) <;> (try split) <;> rfl
@[simp] theorem Slice.advance_halted (x : Slice) (n : Nat) : (x.advance n).halted = x.halted := by unfold Slice.advance Slice.modPath; dsimp only; split <;> (try split) <;> (try split) <;> rfl
@[simp] theorem Slice.advance_killed (x : Slice) (n : Nat) : (x.advance n).killed = x.killed := by unfold Slice.advance Slice.modPath; dsimp only; split <;> (try split) <;> (try split) <;> rfl
@[simp] theorem Slice.advance_fatal (x : Slice) (n : Nat) : (x.advance n).fatal = x.fatal := by unfold Slice.advance Slice.modPath; dsimp only; split <;> (try split) <;> (try split) <;> rfl
@[simp] theorem Slice.advance_retCounted (x : Slice) (n : Nat) : (x.advance n).retCounted = x.retCounted := by unfold Slice.advance Slice.modPath; dsimp only; split <;> (try split) <;> (try split) <;> rfl
@[simp] theorem Slice.advance_stamp (x : Slice) (n : Nat) : (x.advance n).stamp = x.stamp := by unfold Slice.advance Slice.modPath; dsimp only; split <;> (try split) <;> (try split) <;> rfl
@[simp] theorem Slice.advance_overrun (x : Slice) (n : Nat) : (x.advance n).overrun = x.overrun := by unfold Slice.advance Slice.modPath; dsimp only; split <;> (try split) <;> (try split) <;> rfl
@[simp] theorem Slice.advance_wskip (x : Slice) (n : Nat) : (x.advance n).wskip = x.wskip := by unfold Slice.advance Slice.modPath; dsimp only; split <;> (try split) <;> (try split) <;> rfl
@[simp] theorem Slice.advance_pausedCycles (x : Slice) (n : Nat) : (x.advance n).pausedCycles = x.pausedCycles := by unfold Slice.advance Slice.modPath; dsimp only; split <;> (try split) <;> (try split) <;> rfl
@[simp] theorem Slice.advance_savedAt (x : Slice) (n : Nat) : (x.advance n).savedAt = x.savedAt := by unfold Slice.advance Slice.modPath; dsimp only; split <;> (try split) <;> (try split) <;> rfl

end Sys2Proof.Machine
end

