-- ==== Sys2Proof/Laws/Tables.lean ====
section
/-! SUPPORT. Tables read back what was set; every memory operation keeps the canonical form; the parts of the state and the
registers read back what was written. -/

namespace Sys2Proof.Machine

/-! ## Tables -/

theorem tget_tset {β : Type} (d : β) (t : Tab β) (n m : Nat) (x : β) :
    tget d (tset t n x) m = if m = n then x else tget d t m := by
  induction t with
  | nil => simp only [tset, tget]; by_cases h : n = m <;> simp [h, eq_comm]
  | cons p t ih =>
    obtain ⟨k, v⟩ := p
    by_cases hk : k = n
    · subst hk
      rw [tset, if_pos rfl, tget, tget]
      by_cases h : k = m
      · simp [h]
      · rw [if_neg h, if_neg h, if_neg fun e => h e.symm]
    · by_cases hn : n < k
      · rw [tset, if_neg hk, if_pos hn, tget]
        by_cases h : n = m
        · simp [h]
        · rw [if_neg h, if_neg fun e => h e.symm]
      · rw [tset, if_neg hk, if_neg hn, tget, tget, ih]
        by_cases h : k = m
        · subst h; simp [hk]
        · rw [if_neg h, if_neg h]

@[simp] theorem tget_tset_self {β : Type} (d : β) (t : Tab β) (n : Nat) (x : β) : tget d (tset t n x) n = x := by
  simp [tget_tset]

theorem tget_tset_of_ne {β : Type} (d : β) (t : Tab β) {n m : Nat} (x : β) (h : m ≠ n) :
    tget d (tset t n x) m = tget d t m := by simp [tget_tset, h]

@[simp] theorem tset_tset {β : Type} (t : Tab β) (n : Nat) (x y : β) : tset (tset t n x) n y = tset t n y := by
  induction t with
  | nil => simp [tset]
  | cons p t ih =>
    obtain ⟨k, v⟩ := p
    simp only [tset]
    split
    · simp [tset]
    · split
      · simp [tset]
      · simp [tset, *]

/-! ## Memory in canonical form -/

theorem wfFrom_mono {m : Memory} {lo hi : Nat} (h : wfFrom hi m) (le : lo ≤ hi) : wfFrom lo m := by
  cases m with
  | nil => rfl
  | cons c t => obtain ⟨a, b⟩ := c; simp [wfFrom] at *; exact ⟨⟨by omega, h.1.2⟩, h.2⟩

theorem tget_of_wfFrom_lt {m : Memory} {lo a : Nat} (h : wfFrom lo m) (lt : a < lo) : tget 0 m a = 0 := by
  induction m generalizing lo with
  | nil => rfl
  | cons c t ih =>
    obtain ⟨k, b⟩ := c
    simp [wfFrom] at h
    simp only [tget, if_neg (show k ≠ a by omega)]
    exact ih h.2 (by omega)

theorem wfFrom_tset {m : Memory} {lo a : Nat} {b : Byte} (h : wfFrom lo m) (le : lo ≤ a) (hb : ¬b = 0#8) :
    wfFrom lo (tset m a b) := by
  induction m generalizing lo with
  | nil => simp [tset, wfFrom, le, hb]
  | cons c t ih =>
    obtain ⟨k, v⟩ := c
    simp [wfFrom] at h
    by_cases hk : k = a
    · subst hk; simp [tset, wfFrom, le, hb, h.2]
    · by_cases ha : a < k
      · simp [tset, hk, ha, wfFrom, le, hb, h.1.2, h.2]
      · simp [tset, hk, ha, wfFrom, h.1]; exact ih h.2 (by omega)

theorem wfFrom_tdel {m : Memory} {lo a : Nat} (h : wfFrom lo m) : wfFrom lo (tdel m a) := by
  induction m generalizing lo with
  | nil => exact h
  | cons c t ih =>
    obtain ⟨k, v⟩ := c
    simp [wfFrom] at h
    simp only [tdel]
    split
    · exact wfFrom_mono h.2 (by omega)
    · simp [wfFrom, h.1]; exact ih h.2

theorem wfFrom_filter {m : Memory} {lo : Nat} (p : Host.Cell → Bool) (h : wfFrom lo m) : wfFrom lo (m.filter p) := by
  induction m generalizing lo with
  | nil => exact h
  | cons c t ih =>
    obtain ⟨k, v⟩ := c
    simp [wfFrom] at h
    simp only [List.filter]
    split
    · simp [wfFrom, h.1]; exact ih h.2
    · exact wfFrom_mono (ih h.2) (by omega)

/-- A byte write keeps the canonical form. -/
theorem mset_wf {m : Memory} (a : Nat) (b : Byte) (h : m.wf) : (mset m a b).wf := by
  unfold mset Memory.wf at *
  split
  · exact wfFrom_tdel h
  · exact wfFrom_tset h (Nat.zero_le _) ‹_›

theorem mwrite_wf {m : Memory} (a n v : Nat) (h : m.wf) : (mwrite m a n v).wf := by
  induction n generalizing m a v with
  | zero => exact h
  | succ n ih => exact ih _ _ (mset_wf _ _ h)

theorem mwriteBytes_wf {m : Memory} (a : Nat) (bs : List Byte) (h : m.wf) : (mwriteBytes m a bs).wf := by
  induction bs generalizing m a with
  | nil => exact h
  | cons b t ih => exact ih _ (mset_wf _ _ h)

theorem filter_wf {m : Memory} (p : Host.Cell → Bool) (h : m.wf) : (Memory.wf (m.filter p)) := wfFrom_filter p h

theorem mclear_wf {m : Memory} (a n : Nat) (h : m.wf) : (mclear m a n).wf := filter_wf _ h

theorem mcopy_wf {m : Memory} (src : Memory) (a n : Nat) (h : m.wf) : (mcopy m src a n).wf := by
  have go : ∀ (l : Memory) (m : Memory), m.wf → (l.foldl (fun m c => mset m c.1 c.2) m).wf := by
    intro l
    induction l with
    | nil => intro m h; exact h
    | cons c t ih => intro m h; exact ih _ (mset_wf _ _ h)
  exact go _ _ (mclear_wf a n h)

theorem reset_mem_wf : State.reset.mem.wf := rfl

theorem tget_tdel {m : Memory} {lo : Nat} (a k : Nat) (h : wfFrom lo m) :
    tget 0 (tdel m a) k = if k = a then 0 else tget 0 m k := by
  induction m generalizing lo with
  | nil => simp [tdel, tget]
  | cons c t ih =>
    obtain ⟨i, v⟩ := c
    simp [wfFrom] at h
    simp only [tdel]
    split
    · subst_vars
      split
      · subst_vars; exact tget_of_wfFrom_lt h.2 (by omega)
      · simp only [tget, if_neg (show i ≠ k by omega)]
    · simp only [tget, ih h.2]
      split
      · subst_vars; rw [if_neg (by assumption)]
      · rfl

/-- A byte of memory reads what was last written to it, and every other byte as before. -/
theorem mget_mset {m : Memory} (a k : Nat) (b : Byte) (h : m.wf) :
    mget (mset m a b) k = if k = a then b else mget m k := by
  unfold mget mset
  split
  · rw [tget_tdel a k h]; split <;> simp_all
  · exact tget_tset 0 m a k b

theorem mget_mwrite {m : Memory} (a n v k : Nat) (h : m.wf) :
    mget (mwrite m a n v) k = if a ≤ k ∧ k < a + n then BitVec.ofNat 8 (v / 256 ^ (k - a)) else mget m k := by
  induction n generalizing m a v with
  | zero => rw [mwrite, if_neg (by omega)]
  | succ n ih =>
    rw [mwrite, ih _ _ (mset_wf _ _ h), mget_mset _ _ _ h]
    rcases Nat.lt_trichotomy k a with lt | eq | gt
    · rw [if_neg (by omega), if_neg (by omega), if_neg (by omega)]
    · subst eq; rw [if_neg (by omega), if_pos rfl, if_pos (by omega)]; simp
    · rw [if_neg (show k ≠ a by omega)]
      by_cases hk : k < a + (n + 1)
      · rw [if_pos (by omega), if_pos (by omega), Nat.div_div_eq_div_mul]
        congr 2
        rw [show k - a = (k - (a + 1)) + 1 by omega, pow_succ']
      · rw [if_neg (by omega), if_neg (by omega)]

theorem mget_mwriteBytes {m : Memory} (a : Nat) (bs : List Byte) (k : Nat) (h : m.wf) :
    mget (mwriteBytes m a bs) k = if a ≤ k ∧ k < a + bs.length then bs.getD (k - a) 0 else mget m k := by
  induction bs generalizing m a with
  | nil => rw [mwriteBytes, if_neg (by simp)]
  | cons b t ih =>
    rw [mwriteBytes, ih _ (mset_wf _ _ h), mget_mset _ _ _ h]
    rcases Nat.lt_trichotomy k a with lt | eq | gt
    · rw [if_neg (by omega), if_neg (by omega), if_neg (by omega)]
    · subst eq; rw [if_neg (by omega), if_pos rfl, if_pos (by simp)]; simp
    · rw [if_neg (show k ≠ a by omega), List.length_cons]
      by_cases hk : k < a + (t.length + 1)
      · rw [if_pos (by omega), if_pos (by omega), show k - a = (k - (a + 1)) + 1 by omega, List.getD_cons_succ]
      · rw [if_neg (by omega), if_neg (by omega)]

/-! ## Slices and cores -/

@[simp] theorem State.slice_setSlice_self (s : State) (c t : Nat) (x : Slice) : (s.setSlice c t x).slice c t = x := by
  simp [State.slice, State.setSlice]

theorem State.slice_setSlice_of_ne (s : State) {c t d u : Nat} (x : Slice) (h : skey d u ≠ skey c t) :
    (s.setSlice c t x).slice d u = s.slice d u := tget_tset_of_ne _ _ _ h

@[simp] theorem State.setSlice_setSlice (s : State) (c t : Nat) (x y : Slice) :
    (s.setSlice c t x).setSlice c t y = s.setSlice c t y := by simp [State.setSlice]

@[simp] theorem State.slice_modSlice_self (s : State) (c t : Nat) (f : Slice → Slice) :
    (s.modSlice c t f).slice c t = f (s.slice c t) := by simp [State.modSlice]

@[simp] theorem State.setSlice_core (s : State) (c t k : Nat) (x : Slice) : (s.setSlice c t x).core k = s.core k := rfl
@[simp] theorem State.modSlice_core (s : State) (c t k : Nat) (f : Slice → Slice) : (s.modSlice c t f).core k = s.core k := rfl
@[simp] theorem State.modCore_slice (s : State) (c t k : Nat) (f : Core → Core) : (s.modCore k f).slice c t = s.slice c t := rfl
@[simp] theorem State.modCore_core_self (s : State) (k : Nat) (f : Core → Core) : (s.modCore k f).core k = f (s.core k) := by
  simp [State.modCore, State.core]
@[simp] theorem State.send_slice (s : State) (a b asid c t : Nat) (o : Option Nat) (p : Pkt) :
    (s.send a b asid o p).slice c t = s.slice c t := rfl
@[simp] theorem State.send_core (s : State) (a b asid k : Nat) (o : Option Nat) (p : Pkt) :
    (s.send a b asid o p).core k = s.core k := rfl

theorem skey_inj {c t d u : Nat} (ht : t < 128) (hu : u < 128) (h : skey c t = skey d u) : c = d ∧ t = u := by
  unfold skey at h; omega

/-! ## Registers -/

theorem Slice.vr_setV (x : Slice) (n l m k : Nat) (w : Word) (hl : l < 8) (hk : k < 8) :
    (x.setV n l w).vr m k = if m = n ∧ k = l then w else x.vr m k := by
  unfold Slice.vr Slice.setV
  rw [tget_tset]
  by_cases h : m = n ∧ k = l
  · rw [if_pos h, if_pos (by omega)]
  · rw [if_neg h, if_neg (by omega)]

theorem Slice.sr_setS (x : Slice) (n m : Nat) (w : Word) : (x.setS n w).sr m = if m = n then w else x.sr m :=
  tget_tset 0 x.s n m w

/-- P7 discards writes and reads ones (02 R28, R38). -/
theorem Slice.pr_setP (x : Slice) (n m : Nat) (b : Pred) : (x.setP n b).pr m = if m = n ∧ n ≠ 7 then b else x.pr m := by
  unfold Slice.setP
  by_cases h7 : n = 7
  · simp [h7]
  · by_cases hm : m = n
    · subst hm; simp [Slice.pr, h7]
    · simp only [if_neg h7, Slice.pr, tget_tset, if_neg hm]
      rw [if_neg (show ¬ (m = n ∧ n ≠ 7) from fun h => hm h.1)]

@[simp] theorem Slice.pr_seven (x : Slice) : x.pr 7 = 0xFF := rfl

end Sys2Proof.Machine
end

