-- ==== Sys2Proof/Laws/Gang.lean ====
section
/-! SUPPORT. What the frame of a SIMT instruction does (`gangwise`, `simt`, `uniformly`), said once: when the instruction
runs, and for a gang of one what it then leaves. -/

namespace Sys2Proof.Machine

/-- A member may run an instruction with this head: nothing it reads is pending, and no acquire holds it back. -/
def Head.quiet (h : Head) (x : Slice) : Prop :=
  x.pendingReg 9 0 = false ∧ (h.mem = true → x.acquires = []) ∧ ∀ r ∈ h.srcs, x.pendingReg r.1 r.2 = false

theorem Head.quiet_iff (h : Head) (x : Slice) :
    h.quiet x ↔ (x.pendingReg 9 0 || (h.mem && !x.acquires.isEmpty) || h.srcs.any fun r => x.pendingReg r.1 r.2) = false := by
  unfold Head.quiet
  cases h.mem <;> simp [List.any_eq_false, and_assoc]

/-- An instruction whose checks pass is its body: its next state, moved past the instruction where it says so, or its stop. -/
theorem gangwise_eq {h : Head} {s : State} {body : State → Except Stop State} (ok : h.ok = true)
    (priv : h.priv = true → ∀ u ∈ s.issuer.slots, (s.slice s.issuer.core u).system = true)
    (quiet : ∀ u ∈ s.issuer.slots, h.quiet (s.slice s.issuer.core u))
    (met : h.rdv = true → ∀ u ∈ s.issuer.slots, (s.slice s.issuer.core u).met = true) :
    gangwise h s body = match body s.countIssue with
      | .ok t => .next (if h.adv = true then t.advanceAll h.len else t)
      | .error e => s.stop h.len e := by
  have hq : (s.issuer.slots.any fun u => (s.slice s.issuer.core u).pendingReg 9 0 ||
      (h.mem && !(s.slice s.issuer.core u).acquires.isEmpty) ||
      h.srcs.any fun r => (s.slice s.issuer.core u).pendingReg r.1 r.2) = false := by
    rw [List.any_eq_false]
    intro u hu
    rw [(h.quiet_iff _).1 (quiet u hu)]
    simp
  have hp : (h.priv && s.issuer.slots.any fun u => !(s.slice s.issuer.core u).system) = false := by
    cases hpv : h.priv
    · rfl
    · rw [Bool.true_and, List.any_eq_false]; intro u hu; simp [priv hpv u hu]
  have hm : (h.rdv && s.issuer.slots.any fun u => !(s.slice s.issuer.core u).met) = false := by
    cases hrd : h.rdv
    · rfl
    · rw [Bool.true_and, List.any_eq_false]; intro u hu; simp [met hrd u hu]
  simp only [gangwise, ok, hp, hq, hm, Bool.not_true, Bool.false_eq_true, if_false] <;> rfl

/-- An instruction whose checks pass runs its body, and moves past itself where it says so. -/
theorem gangwise_next {h : Head} {s t : State} {body : State → Except Stop State} (ok : h.ok = true)
    (priv : h.priv = true → ∀ u ∈ s.issuer.slots, (s.slice s.issuer.core u).system = true)
    (quiet : ∀ u ∈ s.issuer.slots, h.quiet (s.slice s.issuer.core u))
    (met : h.rdv = true → ∀ u ∈ s.issuer.slots, (s.slice s.issuer.core u).met = true)
    (hb : body s.countIssue = .ok t) :
    gangwise h s body = .next (if h.adv = true then t.advanceAll h.len else t) := by
  rw [gangwise_eq ok priv quiet met, hb]

/-- An instruction that a decode-time operand check turns away takes ILLEGAL_OPERAND (02 R46, step 5). -/
theorem gangwise_not_ok {h : Head} {s : State} {body : State → Except Stop State} (ok : h.ok = false) :
    gangwise h s body = .next (s.gangTrap h.len { code := 0x02 }) := by
  simp [gangwise, ok]

/-- A gang of one counts the issue in its slice. -/
theorem State.countIssue_solo {s : State} {c t : Nat} (hc : s.issuer.core = c) (hs : s.issuer.slots = [t]) :
    s.countIssue = s.setSlice c t (s.slice c t).issued := by
  subst hc; unfold State.countIssue; rw [hs]; rfl

/-- For a gang of one: the body on the state with the issue counted, or its stop. -/
theorem gangwise_solo {h : Head} {s : State} {c t : Nat} {body : State → Except Stop State} (hc : s.issuer.core = c)
    (hs : s.issuer.slots = [t]) (ok : h.ok = true) (priv : h.priv = true → (s.slice c t).system = true)
    (quiet : h.quiet (s.slice c t)) (met : h.rdv = true → (s.slice c t).met = true) :
    gangwise h s body = match body (s.setSlice c t (s.slice c t).issued) with
      | .ok u => .next (if h.adv = true then u.advanceAll h.len else u)
      | .error e => s.stop h.len e := by
  subst hc
  rw [gangwise_eq ok, State.countIssue_solo rfl hs]
  · intro hp v hv; rw [hs] at hv; rw [List.mem_singleton.1 hv]; exact priv hp
  · intro v hv; rw [hs] at hv; rw [List.mem_singleton.1 hv]; exact quiet
  · intro hp v hv; rw [hs] at hv; rw [List.mem_singleton.1 hv]; exact met hp

theorem State.advanceAll_solo {s : State} {c t : Nat} (n : Nat) (hc : s.issuer.core = c) (hs : s.issuer.slots = [t]) :
    s.advanceAll n = s.setSlice c t ((s.slice c t).advance n) := by
  subst hc; unfold State.advanceAll; rw [hs]; rfl

/-- For a gang of one, `simt` runs the body in its slice. -/
theorem simt_solo {h : Head} {s u : State} {c t : Nat} {body : State → Nat → Nat → Except Stop State}
    (hc : s.issuer.core = c) (hs : s.issuer.slots = [t]) (ok : h.ok = true)
    (priv : h.priv = true → (s.slice c t).system = true) (quiet : h.quiet (s.slice c t))
    (met : h.rdv = true → (s.slice c t).met = true)
    (hb : body (s.setSlice c t (s.slice c t).issued) c t = .ok u) (hu : u.issuer = s.issuer) :
    simt h s body = .next (if h.adv = true then u.setSlice c t ((u.slice c t).advance h.len) else u) := by
  subst hc
  have key : simt h s body = .next (if h.adv = true then u.advanceAll h.len else u) := by
    apply gangwise_next ok
    · intro hp v hv; rw [hs] at hv; rw [List.mem_singleton.1 hv]; exact priv hp
    · intro v hv; rw [hs] at hv; rw [List.mem_singleton.1 hv]; exact quiet
    · intro hp v hv; rw [hs] at hv; rw [List.mem_singleton.1 hv]; exact met hp
    · rw [State.countIssue_solo rfl hs]
      simp only [State.setSlice_issuer, hs, gangFault, List.filterMap_cons, hb, List.filterMap_nil, List.head?_nil,
        Option.map_none, List.foldlM_cons, List.foldlM_nil]
      rfl
  rw [key, State.advanceAll_solo h.len (by rw [hu]) (by rw [hu, hs])]

/-- For a gang of one with an active lane, `uniformly` runs the body; with none it only moves on. -/
theorem uniformly_solo {h : Head} {s u : State} {c t : Nat} {g : BitVec 4} {body : State → Nat → Nat → Except Stop State}
    (hc : s.issuer.core = c) (hs : s.issuer.slots = [t]) (ok : h.ok = true)
    (priv : h.priv = true → (s.slice c t).system = true) (quiet : h.quiet (s.slice c t))
    (met : h.rdv = true → (s.slice c t).met = true)
    (hb : if (s.slice c t).active g = 0 then u = s.setSlice c t (s.slice c t).issued
      else body (s.setSlice c t (s.slice c t).issued) c t = .ok u) (hu : u.issuer = s.issuer) :
    uniformly h g s body = .next (if h.adv = true then u.setSlice c t ((u.slice c t).advance h.len) else u) := by
  apply simt_solo hc hs ok priv quiet met _ hu
  have ha : (s.slice c t).issued.active g = (s.slice c t).active g := rfl
  simp only [State.slice_setSlice_self, ha]
  split at hb
  · rw [if_pos ‹_›, hb]
  · rw [if_neg ‹_›, hb]; rfl

/-- The members that take part in a gang of one. -/
theorem State.taking_solo {s : State} {c t : Nat} (g : BitVec 4) (hc : s.issuer.core = c) (hs : s.issuer.slots = [t]) :
    s.taking g = if (s.slice c t).active g = 0 then [] else [t] := by
  subst hc; unfold State.taking; rw [hs]
  simp only [List.filter_cons, List.filter_nil, bne_iff_ne, ne_eq, ite_not]

/-- The gang's change for a gang of one. -/
theorem State.foldl_solo {s : State} {t : Nat} (f : State → Nat → State) (hs : s.issuer.slots = [t]) :
    s.issuer.slots.foldl f s = f s t := by rw [hs]; rfl

end Sys2Proof.Machine
end

