-- ==== Sys2Proof/Laws/Lanes.lean ====
section
/-! SUPPORT. The lane-wise and uniform shapes of Machine/Operands.lean for a gang of one: the state each leaves; and what
writing lanes and predicate bits does. -/

namespace Sys2Proof.Machine

/-! ## Writing lanes -/

theorem Slice.vr_writeLanes (x : Slice) (d : Nat) (ls : List Nat) (f : Nat → Word) (n l : Nat) (hls : ∀ k ∈ ls, k < 8)
    (hl : l < 8) : (x.writeLanes d ls f).vr n l = if n = d ∧ l ∈ ls then f l else x.vr n l := by
  unfold Slice.writeLanes
  induction ls generalizing x with
  | nil => simp
  | cons k t ih =>
    rw [List.foldl_cons, ih _ fun j hj => hls j (List.mem_cons_of_mem _ hj), Slice.vr_setV _ _ _ _ _ _ (hls k List.mem_cons_self) hl]
    by_cases hn : n = d
    · by_cases hk : l = k
      · subst hk; simp [hn]
      · simp [hn, hk]
    · simp [hn]

theorem lanesOf_lt {m : Pred} : ∀ l ∈ lanesOf m, l < 8 := by
  intro l hl; simp only [lanesOf, List.mem_filter, List.mem_range] at hl; exact hl.1

theorem mem_lanesOf {m : Pred} {l : Nat} : l ∈ lanesOf m ↔ l < 8 ∧ m.getLsbD l = true := by
  simp [lanesOf, List.mem_filter]

theorem lanesOf_zero : lanesOf 0 = [] := by decide

/-- Everything of a slice that is not its V registers. -/
theorem Slice.writeLanes_eq (x : Slice) (d : Nat) (ls : List Nat) (f : Nat → Word) :
    ∃ v, x.writeLanes d ls f = { x with v := v } := by
  unfold Slice.writeLanes
  induction ls generalizing x with
  | nil => exact ⟨x.v, rfl⟩
  | cons k t ih => obtain ⟨v, hv⟩ := ih (x.setV d k (f k)); exact ⟨v, by rw [List.foldl_cons, hv]; rfl⟩

/-- Writing a register group writes element `m - d` of every lane in V[m]. -/
theorem Slice.vr_writeGroup (x : Slice) (d n : Nat) (ls : List Nat) (f : Nat → Nat → Word) (m l : Nat)
    (hls : ∀ k ∈ ls, k < 8) (hl : l < 8) :
    (x.writeGroup d n ls f).vr m l = if d ≤ m ∧ m < d + n ∧ l ∈ ls then f (m - d) l else x.vr m l := by
  unfold Slice.writeGroup
  induction n with
  | zero => simp; intro h1 h2; omega
  | succ n ih =>
    rw [List.range_succ, List.foldl_append, List.foldl_cons, List.foldl_nil, Slice.vr_writeLanes _ _ _ _ _ _ hls hl, ih]
    by_cases hl' : l ∈ ls
    · by_cases hm : m = d + n
      · subst hm; simp [hl']
      · simp only [hm, if_false, hl', and_true]
        by_cases hr : d ≤ m ∧ m < d + n
        · rw [if_pos hr, if_pos ⟨hr.1, by omega⟩]
        · rw [if_neg hr, if_neg (by omega)]
    · simp [hl']

theorem Slice.writeGroup_eq (x : Slice) (d n : Nat) (ls : List Nat) (f : Nat → Nat → Word) :
    ∃ v, x.writeGroup d n ls f = { x with v := v } := by
  unfold Slice.writeGroup
  induction n with
  | zero => exact ⟨x.v, rfl⟩
  | succ n ih =>
    obtain ⟨v, hv⟩ := ih
    rw [List.range_succ, List.foldl_append, List.foldl_cons, List.foldl_nil, hv]
    obtain ⟨w, hw⟩ := Slice.writeLanes_eq { x with v := v } (d + n) ls (f n)
    exact ⟨w, hw⟩

/-! ## Writing predicate bits -/

theorem Slice.pr_setPBit (x : Slice) (n l : Nat) (b : Bool) (m k : Nat) (hl : l < 8) (hk : k < 8) :
    ((x.setPBit n l b).pr m).getLsbD k = if m = n ∧ n ≠ 7 ∧ k = l then b else (x.pr m).getLsbD k := by
  unfold Slice.setPBit
  rw [Slice.pr_setP]
  by_cases h : m = n ∧ n ≠ 7
  · obtain ⟨rfl, h7⟩ := h
    rw [if_pos ⟨rfl, h7⟩]
    by_cases hkl : k = l
    · subst hkl; cases b <;> simp [hk, h7]
    · cases b
      · simp [hk, h7, hkl]
        intro _; omega
      · simp [hk, h7, hkl]; omega
  · rw [if_neg h, if_neg (by tauto)]

theorem Slice.pr_writePred (x : Slice) (d : Nat) (ls : List Nat) (f : Nat → Bool) (n l : Nat) (hls : ∀ k ∈ ls, k < 8)
    (hl : l < 8) :
    ((x.writePred d ls f).pr n).getLsbD l = if n = d ∧ n ≠ 7 ∧ l ∈ ls then f l else (x.pr n).getLsbD l := by
  unfold Slice.writePred
  induction ls generalizing x with
  | nil => simp
  | cons k t ih =>
    rw [List.foldl_cons, ih _ fun j hj => hls j (List.mem_cons_of_mem _ hj),
      Slice.pr_setPBit _ _ _ _ _ _ (hls k List.mem_cons_self) hl]
    by_cases hn : n = d
    · subst hn
      by_cases hk : l = k
      · subst hk; by_cases h7 : n = 7 <;> simp [h7]
      · simp [hk]
    · simp [hn]

theorem Slice.writePred_eq (x : Slice) (d : Nat) (ls : List Nat) (f : Nat → Bool) :
    ∃ p, x.writePred d ls f = { x with p := p } := by
  unfold Slice.writePred
  induction ls generalizing x with
  | nil => exact ⟨x.p, rfl⟩
  | cons k t ih =>
    obtain ⟨p, hp⟩ := ih (x.setPBit d k (f k))
    refine ⟨p, ?_⟩
    rw [List.foldl_cons, hp]
    unfold Slice.setPBit Slice.setP
    split <;> rfl

/-! ## Operand B -/

/-- Reading B changes no issuer. -/
theorem State.operandB_issuer {s s1 : State} {c t : Nat} {g : BitVec 4} {b : BitVec 6} {x : BitVec 1} {bv : Nat → Word}
    (h : s.operandB c t g b x = .ok (s1, bv)) : s1.issuer = s.issuer := by
  unfold State.operandB at h
  dsimp only at h
  have pq : ∀ {n : Nat} {r : State × List Word}, s.popQ c t n = .ok r → r.1.issuer = s.issuer := by
    intro n r hr
    unfold State.popQ at hr
    split at hr
    · cases hr
    · split at hr
      · cases hr
      · cases hr; rfl
  have pn : ∀ {n : Nat} {r : State × List Word}, s.popN c t n = .ok r → r.1.issuer = s.issuer := by
    intro n r hr
    unfold State.popN at hr
    dsimp only at hr
    split at hr
    · cases hr
    · split at hr
      · cases hr; rfl
      · split at hr
        · cases hr
        · cases hr; rfl
  have ln : ∀ {y : Slice} {r : Except Stop (State × List Word)} {q : State × (Nat → Word)} {k : State × List Word → State × (Nat → Word)},
      (y.laned t g r).map k = .ok q → ∃ p, r = .ok p ∧ q = k p := by
    intro y r q k hr
    unfold Slice.laned at hr
    split at hr
    · cases hr
    · cases r with
      | error e => cases hr
      | ok p => exact ⟨p, rfl, by cases hr; rfl⟩
  split at h
  · cases h; rfl
  · split at h
    · cases h; rfl
    · split at h
      · split at h
        · cases h; rfl
        · obtain ⟨p, hp, hq⟩ := ln h
          cases hq; exact pq hp
      · split at h
        · split at h
          · cases h; rfl
          · obtain ⟨p, hp, hq⟩ := ln h
            cases hq; exact pn hp
        · split at h
          · cases h; rfl
          · split at h <;> (cases h; rfl)

/-! ## Lane-wise forms -/

/-- Flags of the lanes ORed. -/
def orFlagsOf (ls : List Nat) (f : Nat → BitVec 5) : BitVec 5 := ls.foldl (fun m l => m ||| f l) 0

theorem lanewise_eq (s : State) (c t : Nat) (g : BitVec 4) (d a : Nat) (b : Nat → Word)
    (f : Word → Word → Word → Word → Word × BitVec 5) :
    lanewise s c t g d a b f =
      let x := s.slice c t
      let r := fun l => f x.fpctl (x.vr a l) (b l) (x.vr d l)
      s.setSlice c t ((x.writeLanes d (x.lanes g) fun l => (r l).1).orFlags (orFlagsOf (x.lanes g) fun l => (r l).2)) := rfl

/-- A form of A, B and the old D in a gang of one: every active lane of V[d] takes its result. -/
theorem vec3_solo {f : R3} {third : Bool} {s s1 : State} {c t : Nat} {op : Word → Word → Word → Word → Word × BitVec 5}
    {bv : Nat → Word} (hc : s.issuer.core = c) (hs : s.issuer.slots = [t]) (ok : vbOk f.b f.x = true)
    (held : (s.slice c t).pendingReg 9 0 = false)
    (ready : ∀ r ∈ (0, f.a.toNat) :: bSrc f.b f.x ++ (if third then [(0, f.d.toNat)] else []),
      (s.slice c t).pendingReg r.1 r.2 = false)
    (hb : (s.setSlice c t (s.slice c t).issued).operandB c t f.g f.b f.x = .ok (s1, bv)) :
    vec3 f third s op = .next (s1.setSlice c t
      (let x := s1.slice c t
       let r := fun l => op x.fpctl (x.vr f.a.toNat l) (bv l) (x.vr f.d.toNat l)
       ((x.writeLanes f.d.toNat (x.lanes f.g) fun l => (r l).1).orFlags
         (orFlagsOf (x.lanes f.g) fun l => (r l).2)).advance 4)) := by
  have hi := State.operandB_issuer hb
  unfold vec3
  rw [simt_solo (u := lanewise s1 c t f.g f.d.toNat f.a.toNat bv op) hc hs ok (by simp) ⟨held, by simp, ready⟩ (by simp)]
  · rw [if_pos rfl, lanewise_eq]; simp
  · simp only [hb]; rfl
  · rw [lanewise_eq, State.setSlice_issuer, hi, State.setSlice_issuer]

/-- A unary form in a gang of one. -/
theorem vec2_solo {f : R2} {s : State} {c t : Nat} {op : Word → Word → Word × BitVec 5}
    (hc : s.issuer.core = c) (hs : s.issuer.slots = [t]) (held : (s.slice c t).pendingReg 9 0 = false)
    (ready : (s.slice c t).pendingReg 0 f.a.toNat = false) :
    vec2 f s op = .next (s.setSlice c t
      (let x := (s.slice c t).issued
       let r := fun l => op x.fpctl (x.vr f.a.toNat l)
       ((x.writeLanes f.d.toNat (x.lanes f.g) fun l => (r l).1).orFlags
         (orFlagsOf (x.lanes f.g) fun l => (r l).2)).advance 4)) := by
  unfold vec2
  rw [simt_solo (u := lanewise (s.setSlice c t (s.slice c t).issued) c t f.g f.d.toNat f.a.toNat (fun _ => 0)
    fun k a _ _ => op k a) hc hs rfl (by simp) ⟨held, by simp, by simpa using ready⟩ (by simp)]
  · rw [if_pos rfl, lanewise_eq]; simp
  · rfl
  · rw [lanewise_eq]; rfl

/-- An immediate form in a gang of one. -/
theorem vecImm_solo {g : BitVec 4} {d a : Nat} {srcs : List (Nat × Nat)} {s : State} {c t : Nat} {op : Word → Word → Word}
    (hc : s.issuer.core = c) (hs : s.issuer.slots = [t]) (held : (s.slice c t).pendingReg 9 0 = false)
    (ready : ∀ r ∈ srcs, (s.slice c t).pendingReg r.1 r.2 = false) :
    vecImm g d a srcs s op = .next (s.setSlice c t
      (let x := (s.slice c t).issued
       ((x.writeLanes d (x.lanes g) fun l => op (x.vr a l) (x.vr d l)).orFlags 0).advance 4)) := by
  have fl : ∀ ls : List Nat, orFlagsOf ls (fun _ => 0#5) = 0#5 := by
    intro ls; unfold orFlagsOf; induction ls with
    | nil => rfl
    | cons a l ih => simp
  unfold vecImm
  rw [simt_solo (u := lanewise (s.setSlice c t (s.slice c t).issued) c t g d a (fun _ => 0)
    fun _ a _ d => (op a d, 0)) hc hs rfl (by simp) ⟨held, by simp, ready⟩ (by simp)]
  · rw [if_pos rfl, lanewise_eq]; simp [fl]
  · rfl
  · rw [lanewise_eq]; rfl

/-! ## Uniform forms -/

/-- A uniform instruction whose body replaces the slice, in a gang of one. -/
theorem uniformly_slice {h : Head} {g : BitVec 4} {s : State} {c t : Nat} {f : Slice → Slice}
    (hc : s.issuer.core = c) (hs : s.issuer.slots = [t]) (ok : h.ok = true)
    (priv : h.priv = true → (s.slice c t).system = true) (quiet : h.quiet (s.slice c t))
    (met : h.rdv = true → (s.slice c t).met = true) (adv : h.adv = true) :
    uniformly h g s (fun s core slot => .ok (s.setSlice core slot (f (s.slice core slot)))) =
      .next (s.setSlice c t (let x := (s.slice c t).issued; (if x.active g = 0 then x else f x).advance h.len)) := by
  by_cases ha : (s.slice c t).active g = 0
  · rw [uniformly_solo (u := s.setSlice c t (s.slice c t).issued) hc hs ok priv quiet met (by rw [if_pos ha]) (by simp)]
    have : (s.slice c t).issued.active g = 0#8 := ha
    simp [adv, this]
  · rw [uniformly_solo (u := s.setSlice c t (f (s.slice c t).issued)) hc hs ok priv quiet met
      (by rw [if_neg ha]; simp) (by simp)]
    have : ¬(s.slice c t).issued.active g = 0#8 := ha
    simp [adv, this]

theorem uni3_solo {f : R3} {s : State} {c t : Nat} {op : Word → Word → Word}
    (hc : s.issuer.core = c) (hs : s.issuer.slots = [t]) (held : (s.slice c t).pendingReg 9 0 = false)
    (ok : (sOk f.d && sOk f.a && sbOk f.b f.x) = true)
    (ready : ∀ r ∈ (1, f.a.toNat) :: sbSrc f.b f.x, (s.slice c t).pendingReg r.1 r.2 = false) :
    uni3 f s op = .next (s.setSlice c t
      (let x := (s.slice c t).issued
       (if x.active f.g = 0 then x else x.setS f.d.toNat (op (x.sr f.a.toNat) (x.uniform f.b f.x))).advance 4)) :=
  uniformly_slice (f := fun x => x.setS f.d.toNat (op (x.sr f.a.toNat) (x.uniform f.b f.x))) hc hs ok (by simp)
    ⟨held, by simp, ready⟩ (by simp) rfl

theorem uni2_solo {f : R2} {s : State} {c t : Nat} {op : Word → Word}
    (hc : s.issuer.core = c) (hs : s.issuer.slots = [t]) (held : (s.slice c t).pendingReg 9 0 = false)
    (ok : (sOk f.d && sOk f.a) = true) (ready : (s.slice c t).pendingReg 1 f.a.toNat = false) :
    uni2 f s op = .next (s.setSlice c t
      (let x := (s.slice c t).issued
       (if x.active f.g = 0 then x else x.setS f.d.toNat (op (x.sr f.a.toNat))).advance 4)) :=
  uniformly_slice (f := fun x => x.setS f.d.toNat (op (x.sr f.a.toNat))) hc hs ok (by simp)
    ⟨held, by simp, by simpa using ready⟩ (by simp) rfl

end Sys2Proof.Machine
end

