-- ==== Sys2Proof/Laws/PerInstr.lean ====
section
/-! SUPPORT. A family of laws over the instructions: the first word of a two-word encoding has a long major (02 R27), so a
fetch of an encoded instruction takes exactly its words. -/

namespace Sys2Proof.Laws

theorem fld_major4 (g : BitVec 4) (m a b c : BitVec 6) (d : BitVec 4) :
    fld (g ++ m ++ a ++ b ++ c ++ d) 22 6 = m := by
  apply BitVec.eq_of_getLsbD_eq
  intro i hi
  simp only [fld, BitVec.getLsbD_extractLsb', BitVec.getLsbD_append, hi, decide_true, Bool.true_and]
  rw [if_neg (by omega), if_neg (by omega), if_neg (by omega), if_neg (by omega), if_pos (by omega)]
  congr 1; omega

theorem fld_major5 (g : BitVec 4) (m a b c : BitVec 6) (x : BitVec 1) (d : BitVec 3) :
    fld (g ++ m ++ a ++ b ++ c ++ x ++ d) 22 6 = m := by
  apply BitVec.eq_of_getLsbD_eq
  intro i hi
  simp only [fld, BitVec.getLsbD_extractLsb', BitVec.getLsbD_append, hi, decide_true, Bool.true_and]
  rw [if_neg (by omega), if_neg (by omega), if_neg (by omega), if_neg (by omega), if_neg (by omega), if_pos (by omega)]
  congr 1; omega

theorem simtLen_long4 (g : BitVec 4) (m a b c : BitVec 6) (d : BitVec 4) (h : 0x30 ≤ m.toNat) :
    simtLen (g ++ m ++ a ++ b ++ c ++ d) = 8 := by
  have e := fld_major4 g m a b c d
  unfold simtLen
  rw [show (fld (g ++ m ++ a ++ b ++ c ++ d) 22 6).toNat = m.toNat from congrArg _ e, if_neg (by omega)]

theorem simtLen_long5 (g : BitVec 4) (m a b c : BitVec 6) (x : BitVec 1) (d : BitVec 3) (h : 0x30 ≤ m.toNat) :
    simtLen (g ++ m ++ a ++ b ++ c ++ x ++ d) = 8 := by
  have e := fld_major5 g m a b c x d
  unfold simtLen
  rw [show (fld (g ++ m ++ a ++ b ++ c ++ x ++ d) 22 6).toNat = m.toNat from congrArg _ e, if_neg (by omega)]

/-- An instruction of two words has a long major in its first word. -/
def LongMajor.Statement (i : Instr) : Prop := ∀ w w1, encode i = [w, w1] → simtLen w = 8

theorem LongMajor.iadd : ∀ a, LongMajor.Statement (.iadd a) := fun _ => nofun
theorem LongMajor.isub : ∀ a, LongMajor.Statement (.isub a) := fun _ => nofun
theorem LongMajor.imul : ∀ a, LongMajor.Statement (.imul a) := fun _ => nofun
theorem LongMajor.imulhs : ∀ a, LongMajor.Statement (.imulhs a) := fun _ => nofun
theorem LongMajor.imulhn : ∀ a, LongMajor.Statement (.imulhn a) := fun _ => nofun
theorem LongMajor.imins : ∀ a, LongMajor.Statement (.imins a) := fun _ => nofun
theorem LongMajor.imaxs : ∀ a, LongMajor.Statement (.imaxs a) := fun _ => nofun
theorem LongMajor.iminn : ∀ a, LongMajor.Statement (.iminn a) := fun _ => nofun
theorem LongMajor.imaxn : ∀ a, LongMajor.Statement (.imaxn a) := fun _ => nofun
theorem LongMajor.iabsd : ∀ a, LongMajor.Statement (.iabsd a) := fun _ => nofun
theorem LongMajor.iaddss : ∀ a, LongMajor.Statement (.iaddss a) := fun _ => nofun
theorem LongMajor.iaddsn : ∀ a, LongMajor.Statement (.iaddsn a) := fun _ => nofun
theorem LongMajor.isubss : ∀ a, LongMajor.Statement (.isubss a) := fun _ => nofun
theorem LongMajor.isubsn : ∀ a, LongMajor.Statement (.isubsn a) := fun _ => nofun
theorem LongMajor.imac : ∀ a, LongMajor.Statement (.imac a) := fun _ => nofun
theorem LongMajor.imach : ∀ a, LongMajor.Statement (.imach a) := fun _ => nofun
theorem LongMajor.and : ∀ a, LongMajor.Statement (.and a) := fun _ => nofun
theorem LongMajor.or : ∀ a, LongMajor.Statement (.or a) := fun _ => nofun
theorem LongMajor.xor : ∀ a, LongMajor.Statement (.xor a) := fun _ => nofun
theorem LongMajor.andn : ∀ a, LongMajor.Statement (.andn a) := fun _ => nofun
theorem LongMajor.orn : ∀ a, LongMajor.Statement (.orn a) := fun _ => nofun
theorem LongMajor.xnor : ∀ a, LongMajor.Statement (.xnor a) := fun _ => nofun
theorem LongMajor.shl : ∀ a, LongMajor.Statement (.shl a) := fun _ => nofun
theorem LongMajor.shr : ∀ a, LongMajor.Statement (.shr a) := fun _ => nofun
theorem LongMajor.sra : ∀ a, LongMajor.Statement (.sra a) := fun _ => nofun
theorem LongMajor.rol : ∀ a, LongMajor.Statement (.rol a) := fun _ => nofun
theorem LongMajor.ror : ∀ a, LongMajor.Statement (.ror a) := fun _ => nofun
theorem LongMajor.bfx : ∀ a, LongMajor.Statement (.bfx a) := fun _ => nofun
theorem LongMajor.bfi : ∀ a, LongMajor.Statement (.bfi a) := fun _ => nofun
theorem LongMajor.clz : ∀ a, LongMajor.Statement (.clz a) := fun _ => nofun
theorem LongMajor.popc : ∀ a, LongMajor.Statement (.popc a) := fun _ => nofun
theorem LongMajor.brev : ∀ a, LongMajor.Statement (.brev a) := fun _ => nofun
theorem LongMajor.iaddi : ∀ a, LongMajor.Statement (.iaddi a) := fun _ => nofun
theorem LongMajor.andi : ∀ a, LongMajor.Statement (.andi a) := fun _ => nofun
theorem LongMajor.ori : ∀ a, LongMajor.Statement (.ori a) := fun _ => nofun
theorem LongMajor.xori : ∀ a, LongMajor.Statement (.xori a) := fun _ => nofun
theorem LongMajor.shli : ∀ a, LongMajor.Statement (.shli a) := fun _ => nofun
theorem LongMajor.shri : ∀ a, LongMajor.Statement (.shri a) := fun _ => nofun
theorem LongMajor.srai : ∀ a, LongMajor.Statement (.srai a) := fun _ => nofun
theorem LongMajor.rori : ∀ a, LongMajor.Statement (.rori a) := fun _ => nofun
theorem LongMajor.movi : ∀ a, LongMajor.Statement (.movi a) := fun _ => nofun
theorem LongMajor.movhi : ∀ a, LongMajor.Statement (.movhi a) := fun _ => nofun
theorem LongMajor.smovi : ∀ a, LongMajor.Statement (.smovi a) := fun _ => nofun
theorem LongMajor.smovhi : ∀ a, LongMajor.Statement (.smovhi a) := fun _ => nofun
theorem LongMajor.sadd : ∀ a, LongMajor.Statement (.sadd a) := fun _ => nofun
theorem LongMajor.ssub : ∀ a, LongMajor.Statement (.ssub a) := fun _ => nofun
theorem LongMajor.smul : ∀ a, LongMajor.Statement (.smul a) := fun _ => nofun
theorem LongMajor.sand : ∀ a, LongMajor.Statement (.sand a) := fun _ => nofun
theorem LongMajor.sor : ∀ a, LongMajor.Statement (.sor a) := fun _ => nofun
theorem LongMajor.sxor : ∀ a, LongMajor.Statement (.sxor a) := fun _ => nofun
theorem LongMajor.sshl : ∀ a, LongMajor.Statement (.sshl a) := fun _ => nofun
theorem LongMajor.sshr : ∀ a, LongMajor.Statement (.sshr a) := fun _ => nofun
theorem LongMajor.ssra : ∀ a, LongMajor.Statement (.ssra a) := fun _ => nofun
theorem LongMajor.smins : ∀ a, LongMajor.Statement (.smins a) := fun _ => nofun
theorem LongMajor.smaxs : ∀ a, LongMajor.Statement (.smaxs a) := fun _ => nofun
theorem LongMajor.sminn : ∀ a, LongMajor.Statement (.sminn a) := fun _ => nofun
theorem LongMajor.smaxn : ∀ a, LongMajor.Statement (.smaxn a) := fun _ => nofun
theorem LongMajor.sclz : ∀ a, LongMajor.Statement (.sclz a) := fun _ => nofun
theorem LongMajor.spopc : ∀ a, LongMajor.Statement (.spopc a) := fun _ => nofun
theorem LongMajor.smov : ∀ a, LongMajor.Statement (.smov a) := fun _ => nofun
theorem LongMajor.mov : ∀ a, LongMajor.Statement (.mov a) := fun _ => nofun
theorem LongMajor.vbcast : ∀ a, LongMajor.Statement (.vbcast a) := fun _ => nofun
theorem LongMajor.vextr : ∀ a, LongMajor.Statement (.vextr a) := fun _ => nofun
theorem LongMajor.vinsr : ∀ a, LongMajor.Statement (.vinsr a) := fun _ => nofun
theorem LongMajor.movx : ∀ a, LongMajor.Statement (.movx a) := fun _ => nofun
theorem LongMajor.sel : ∀ a b c d e f, LongMajor.Statement (.sel a b c d e f) := fun _ _ _ _ _ _ => nofun
theorem LongMajor.srd : ∀ a b c, LongMajor.Statement (.srd a b c) := fun _ _ _ => nofun
theorem LongMajor.swr : ∀ a b c, LongMajor.Statement (.swr a b c) := fun _ _ _ => nofun
theorem LongMajor.fadd : ∀ a, LongMajor.Statement (.fadd a) := fun _ => nofun
theorem LongMajor.fsub : ∀ a, LongMajor.Statement (.fsub a) := fun _ => nofun
theorem LongMajor.fmul : ∀ a, LongMajor.Statement (.fmul a) := fun _ => nofun
theorem LongMajor.fmin : ∀ a, LongMajor.Statement (.fmin a) := fun _ => nofun
theorem LongMajor.fmax : ∀ a, LongMajor.Statement (.fmax a) := fun _ => nofun
theorem LongMajor.fcpsgn : ∀ a, LongMajor.Statement (.fcpsgn a) := fun _ => nofun
theorem LongMajor.ffma : ∀ a, LongMajor.Statement (.ffma a) := fun _ => nofun
theorem LongMajor.ffms : ∀ a, LongMajor.Statement (.ffms a) := fun _ => nofun
theorem LongMajor.fabs : ∀ a, LongMajor.Statement (.fabs a) := fun _ => nofun
theorem LongMajor.fneg : ∀ a, LongMajor.Statement (.fneg a) := fun _ => nofun
theorem LongMajor.frcp : ∀ a, LongMajor.Statement (.frcp a) := fun _ => nofun
theorem LongMajor.frsq : ∀ a, LongMajor.Statement (.frsq a) := fun _ => nofun
theorem LongMajor.fsqrt : ∀ a, LongMajor.Statement (.fsqrt a) := fun _ => nofun
theorem LongMajor.fexp2 : ∀ a, LongMajor.Statement (.fexp2 a) := fun _ => nofun
theorem LongMajor.flog2 : ∀ a, LongMajor.Statement (.flog2 a) := fun _ => nofun
theorem LongMajor.fsinpi : ∀ a, LongMajor.Statement (.fsinpi a) := fun _ => nofun
theorem LongMajor.fcospi : ∀ a, LongMajor.Statement (.fcospi a) := fun _ => nofun
theorem LongMajor.ftanh : ∀ a, LongMajor.Statement (.ftanh a) := fun _ => nofun
theorem LongMajor.ffract : ∀ a, LongMajor.Statement (.ffract a) := fun _ => nofun
theorem LongMajor.frnd : ∀ a, LongMajor.Statement (.frnd a) := fun _ => nofun
theorem LongMajor.fclass : ∀ a, LongMajor.Statement (.fclass a) := fun _ => nofun
theorem LongMajor.fdiv : ∀ a, LongMajor.Statement (.fdiv a) := fun _ => nofun
theorem LongMajor.fldexp : ∀ a, LongMajor.Statement (.fldexp a) := fun _ => nofun
theorem LongMajor.fsat : ∀ a, LongMajor.Statement (.fsat a) := fun _ => nofun
theorem LongMajor.hadd2 : ∀ a, LongMajor.Statement (.hadd2 a) := fun _ => nofun
theorem LongMajor.hmul2 : ∀ a, LongMajor.Statement (.hmul2 a) := fun _ => nofun
theorem LongMajor.hfma2 : ∀ a, LongMajor.Statement (.hfma2 a) := fun _ => nofun
theorem LongMajor.hmin2 : ∀ a, LongMajor.Statement (.hmin2 a) := fun _ => nofun
theorem LongMajor.hmax2 : ∀ a, LongMajor.Statement (.hmax2 a) := fun _ => nofun
theorem LongMajor.badd2 : ∀ a, LongMajor.Statement (.badd2 a) := fun _ => nofun
theorem LongMajor.bmul2 : ∀ a, LongMajor.Statement (.bmul2 a) := fun _ => nofun
theorem LongMajor.bfma2 : ∀ a, LongMajor.Statement (.bfma2 a) := fun _ => nofun
theorem LongMajor.cvtf : ∀ a b c d e f g, LongMajor.Statement (.cvtf a b c d e f g) := fun _ _ _ _ _ _ _ => nofun
theorem LongMajor.cvti : ∀ a b c d e f g h, LongMajor.Statement (.cvti a b c d e f g h) := fun _ _ _ _ _ _ _ _ => nofun
theorem LongMajor.prmt : ∀ a, LongMajor.Statement (.prmt a) := fun _ => nofun
theorem LongMajor.pk2h : ∀ a, LongMajor.Statement (.pk2h a) := fun _ => nofun
theorem LongMajor.pk2b : ∀ a, LongMajor.Statement (.pk2b a) := fun _ => nofun
theorem LongMajor.upk2h : ∀ a, LongMajor.Statement (.upk2h a) := fun _ => nofun
theorem LongMajor.upk2b : ∀ a, LongMajor.Statement (.upk2b a) := fun _ => nofun
theorem LongMajor.pk4q : ∀ a b c d e f, LongMajor.Statement (.pk4q a b c d e f) := fun _ _ _ _ _ _ => nofun
theorem LongMajor.upk4q : ∀ a b c d, LongMajor.Statement (.upk4q a b c d) := fun _ _ _ _ => nofun
theorem LongMajor.icmp : ∀ a b c d e f g, LongMajor.Statement (.icmp a b c d e f g) := fun _ _ _ _ _ _ _ => nofun
theorem LongMajor.fcmp : ∀ a b c d e f g, LongMajor.Statement (.fcmp a b c d e f g) := fun _ _ _ _ _ _ _ => nofun
theorem LongMajor.pand : ∀ a, LongMajor.Statement (.pand a) := fun _ => nofun
theorem LongMajor.por : ∀ a, LongMajor.Statement (.por a) := fun _ => nofun
theorem LongMajor.pxor : ∀ a, LongMajor.Statement (.pxor a) := fun _ => nofun
theorem LongMajor.pnot : ∀ a, LongMajor.Statement (.pnot a) := fun _ => nofun
theorem LongMajor.pmov : ∀ a, LongMajor.Statement (.pmov a) := fun _ => nofun
theorem LongMajor.ptos : ∀ a, LongMajor.Statement (.ptos a) := fun _ => nofun
theorem LongMajor.pfroms : ∀ a, LongMajor.Statement (.pfroms a) := fun _ => nofun
theorem LongMajor.vany : ∀ a b c d, LongMajor.Statement (.vany a b c d) := fun _ _ _ _ => nofun
theorem LongMajor.vall : ∀ a b c d, LongMajor.Statement (.vall a b c d) := fun _ _ _ _ => nofun
theorem LongMajor.ballot : ∀ a b c d, LongMajor.Statement (.ballot a b c d) := fun _ _ _ _ => nofun
theorem LongMajor.gwid : ∀ a b c, LongMajor.Statement (.gwid a b c) := fun _ _ _ => nofun
theorem LongMajor.gred : ∀ a b c d e, LongMajor.Statement (.gred a b c d e) := fun _ _ _ _ _ => nofun
theorem LongMajor.gmatch : ∀ a b c d, LongMajor.Statement (.gmatch a b c d) := fun _ _ _ _ => nofun
theorem LongMajor.gelect : ∀ a b c, LongMajor.Statement (.gelect a b c) := fun _ _ _ => nofun
theorem LongMajor.wsync : ∀ a, LongMajor.Statement (.wsync a) := fun _ => nofun
theorem LongMajor.shfli : ∀ a, LongMajor.Statement (.shfli a) := fun _ => nofun
theorem LongMajor.shflu : ∀ a, LongMajor.Statement (.shflu a) := fun _ => nofun
theorem LongMajor.shfld : ∀ a, LongMajor.Statement (.shfld a) := fun _ => nofun
theorem LongMajor.shflx : ∀ a, LongMajor.Statement (.shflx a) := fun _ => nofun
theorem LongMajor.segsc : ∀ a, LongMajor.Statement (.segsc a) := fun _ => nofun
theorem LongMajor.segscf : ∀ a, LongMajor.Statement (.segscf a) := fun _ => nofun
theorem LongMajor.gbcst : ∀ a b c d, LongMajor.Statement (.gbcst a b c d) := fun _ _ _ _ => nofun
theorem LongMajor.bra : ∀ a b, LongMajor.Statement (.bra a b) := fun _ _ => nofun
theorem LongMajor.call : ∀ a b, LongMajor.Statement (.call a b) := fun _ _ => nofun
theorem LongMajor.rcvp : ∀ a b, LongMajor.Statement (.rcvp a b) := fun _ _ => nofun
theorem LongMajor.jmpx : ∀ a b, LongMajor.Statement (.jmpx a b) := fun _ _ => nofun
theorem LongMajor.callx : ∀ a, LongMajor.Statement (.callx a) := fun _ => nofun
theorem LongMajor.ret : ∀ a b, LongMajor.Statement (.ret a b) := fun _ _ => nofun
theorem LongMajor.callq : ∀ a b c d, LongMajor.Statement (.callq a b c d) := fun _ _ _ _ => nofun
theorem LongMajor.retq : ∀ a, LongMajor.Statement (.retq a) := fun _ => nofun
theorem LongMajor.exit : ∀ a, LongMajor.Statement (.exit a) := fun _ => nofun
theorem LongMajor.yield : ∀ a, LongMajor.Statement (.yield a) := fun _ => nofun
theorem LongMajor.nop : ∀ a, LongMajor.Statement (.nop a) := fun _ => nofun
theorem LongMajor.rpt : ∀ a b c d e f, LongMajor.Statement (.rpt a b c d e f) := fun _ _ _ _ _ _ => nofun
theorem LongMajor.qwr : ∀ a, LongMajor.Statement (.qwr a) := fun _ => nofun
theorem LongMajor.qrd : ∀ a, LongMajor.Statement (.qrd a) := fun _ => nofun
theorem LongMajor.qtry : ∀ a, LongMajor.Statement (.qtry a) := fun _ => nofun
theorem LongMajor.qcnt : ∀ a, LongMajor.Statement (.qcnt a) := fun _ => nofun
theorem LongMajor.bararv : ∀ a b, LongMajor.Statement (.bararv a b) := fun _ _ => nofun
theorem LongMajor.barsyn : ∀ a b, LongMajor.Statement (.barsyn a b) := fun _ _ => nofun
theorem LongMajor.barinit : ∀ a b c, LongMajor.Statement (.barinit a b c) := fun _ _ _ => nofun
theorem LongMajor.barwt : ∀ a b, LongMajor.Statement (.barwt a b) := fun _ _ => nofun
theorem LongMajor.barqry : ∀ a b c, LongMajor.Statement (.barqry a b c) := fun _ _ _ => nofun
theorem LongMajor.tbarsyn : ∀ a b, LongMajor.Statement (.tbarsyn a b) := fun _ _ => nofun
theorem LongMajor.tbarinit : ∀ a b c, LongMajor.Statement (.tbarinit a b c) := fun _ _ _ => nofun
theorem LongMajor.ose : ∀ a, LongMajor.Statement (.ose a) := fun _ => nofun
theorem LongMajor.osen : ∀ a, LongMajor.Statement (.osen a) := fun _ => nofun
theorem LongMajor.osx : ∀ a b, LongMajor.Statement (.osx a b) := fun _ _ => nofun
theorem LongMajor.osini : ∀ a b c d, LongMajor.Statement (.osini a b c d) := fun _ _ _ _ => nofun
theorem LongMajor.osfree : ∀ a b, LongMajor.Statement (.osfree a b) := fun _ _ => nofun
theorem LongMajor.osqry : ∀ a, LongMajor.Statement (.osqry a) := fun _ => nofun
theorem LongMajor.ostk : ∀ a, LongMajor.Statement (.ostk a) := fun _ => nofun
theorem LongMajor.dqpsh : ∀ a, LongMajor.Statement (.dqpsh a) := fun _ => nofun
theorem LongMajor.dqpop : ∀ a b, LongMajor.Statement (.dqpop a b) := fun _ _ => nofun
theorem LongMajor.dqspl : ∀ a, LongMajor.Statement (.dqspl a) := fun _ => nofun
theorem LongMajor.dqstl : ∀ a, LongMajor.Statement (.dqstl a) := fun _ => nofun
theorem LongMajor.dqcnt : ∀ a b, LongMajor.Statement (.dqcnt a b) := fun _ _ => nofun
theorem LongMajor.dqclr : ∀ a, LongMajor.Statement (.dqclr a) := fun _ => nofun
theorem LongMajor.send : ∀ a b c d e, LongMajor.Statement (.send a b c d e) := fun _ _ _ _ _ => nofun
theorem LongMajor.sendh : ∀ a b c d e, LongMajor.Statement (.sendh a b c d e) := fun _ _ _ _ _ => nofun
theorem LongMajor.waitm : ∀ a b c d, LongMajor.Statement (.waitm a b c d) := fun _ _ _ _ => nofun
theorem LongMajor.recvm : ∀ a b c d e, LongMajor.Statement (.recvm a b c d e) := fun _ _ _ _ _ => nofun
theorem LongMajor.mcnt : ∀ a b c d e, LongMajor.Statement (.mcnt a b c d e) := fun _ _ _ _ _ => nofun
theorem LongMajor.hret : ∀ a, LongMajor.Statement (.hret a) := fun _ => nofun
theorem LongMajor.svreq : ∀ a b c d, LongMajor.Statement (.svreq a b c d) := fun _ _ _ _ => nofun
theorem LongMajor.waitc : ∀ a b c d, LongMajor.Statement (.waitc a b c d) := fun _ _ _ _ => nofun
theorem LongMajor.fence : ∀ a b c, LongMajor.Statement (.fence a b c) := fun _ _ _ => nofun
theorem LongMajor.ifence : ∀ a, LongMajor.Statement (.ifence a) := fun _ => nofun
theorem LongMajor.trap : ∀ a b, LongMajor.Statement (.trap a b) := fun _ _ => nofun
theorem LongMajor.brk : ∀ a b, LongMajor.Statement (.brk a b) := fun _ _ => nofun
theorem LongMajor.tret : ∀ a, LongMajor.Statement (.tret a) := fun _ => nofun
theorem LongMajor.eret : ∀ a, LongMajor.Statement (.eret a) := fun _ => nofun
theorem LongMajor.mramp : ∀ a b c, LongMajor.Statement (.mramp a b c) := fun _ _ _ => nofun
theorem LongMajor.haltg : ∀ a, LongMajor.Statement (.haltg a) := fun _ => nofun
theorem LongMajor.plarm : ∀ a, LongMajor.Statement (.plarm a) := fun _ => nofun
theorem LongMajor.plbit : ∀ a, LongMajor.Statement (.plbit a) := fun _ => nofun
theorem LongMajor.plcom : ∀ a, LongMajor.Statement (.plcom a) := fun _ => nofun
theorem LongMajor.plqry : ∀ a, LongMajor.Statement (.plqry a) := fun _ => nofun
theorem LongMajor.pldis : ∀ a, LongMajor.Statement (.pldis a) := fun _ => nofun
theorem LongMajor.ld : ∀ a, LongMajor.Statement (.ld a) :=
  fun _ => fun _ _ h => by cases h; exact simtLen_long5 _ _ _ _ _ _ _ (by decide)
theorem LongMajor.st : ∀ a, LongMajor.Statement (.st a) :=
  fun _ => fun _ _ h => by cases h; exact simtLen_long5 _ _ _ _ _ _ _ (by decide)
theorem LongMajor.sld : ∀ a, LongMajor.Statement (.sld a) :=
  fun _ => fun _ _ h => by cases h; exact simtLen_long5 _ _ _ _ _ _ _ (by decide)
theorem LongMajor.sst : ∀ a, LongMajor.Statement (.sst a) :=
  fun _ => fun _ _ h => by cases h; exact simtLen_long5 _ _ _ _ _ _ _ (by decide)
theorem LongMajor.aadd : ∀ a, LongMajor.Statement (.aadd a) :=
  fun _ => fun _ _ h => by cases h; exact simtLen_long5 _ _ _ _ _ _ _ (by decide)
theorem LongMajor.amins : ∀ a, LongMajor.Statement (.amins a) :=
  fun _ => fun _ _ h => by cases h; exact simtLen_long5 _ _ _ _ _ _ _ (by decide)
theorem LongMajor.amaxs : ∀ a, LongMajor.Statement (.amaxs a) :=
  fun _ => fun _ _ h => by cases h; exact simtLen_long5 _ _ _ _ _ _ _ (by decide)
theorem LongMajor.aminn : ∀ a, LongMajor.Statement (.aminn a) :=
  fun _ => fun _ _ h => by cases h; exact simtLen_long5 _ _ _ _ _ _ _ (by decide)
theorem LongMajor.amaxn : ∀ a, LongMajor.Statement (.amaxn a) :=
  fun _ => fun _ _ h => by cases h; exact simtLen_long5 _ _ _ _ _ _ _ (by decide)
theorem LongMajor.aand : ∀ a, LongMajor.Statement (.aand a) :=
  fun _ => fun _ _ h => by cases h; exact simtLen_long5 _ _ _ _ _ _ _ (by decide)
theorem LongMajor.aor : ∀ a, LongMajor.Statement (.aor a) :=
  fun _ => fun _ _ h => by cases h; exact simtLen_long5 _ _ _ _ _ _ _ (by decide)
theorem LongMajor.axor : ∀ a, LongMajor.Statement (.axor a) :=
  fun _ => fun _ _ h => by cases h; exact simtLen_long5 _ _ _ _ _ _ _ (by decide)
theorem LongMajor.axchg : ∀ a, LongMajor.Statement (.axchg a) :=
  fun _ => fun _ _ h => by cases h; exact simtLen_long5 _ _ _ _ _ _ _ (by decide)
theorem LongMajor.acas : ∀ a, LongMajor.Statement (.acas a) :=
  fun _ => fun _ _ h => by cases h; exact simtLen_long5 _ _ _ _ _ _ _ (by decide)
theorem LongMajor.afadd : ∀ a, LongMajor.Statement (.afadd a) :=
  fun _ => fun _ _ h => by cases h; exact simtLen_long5 _ _ _ _ _ _ _ (by decide)
theorem LongMajor.afmin : ∀ a, LongMajor.Statement (.afmin a) :=
  fun _ => fun _ _ h => by cases h; exact simtLen_long5 _ _ _ _ _ _ _ (by decide)
theorem LongMajor.afmax : ∀ a, LongMajor.Statement (.afmax a) :=
  fun _ => fun _ _ h => by cases h; exact simtLen_long5 _ _ _ _ _ _ _ (by decide)
theorem LongMajor.ahadd2 : ∀ a, LongMajor.Statement (.ahadd2 a) :=
  fun _ => fun _ _ h => by cases h; exact simtLen_long5 _ _ _ _ _ _ _ (by decide)
theorem LongMajor.ldr : ∀ a, LongMajor.Statement (.ldr a) :=
  fun _ => fun _ _ h => by cases h; exact simtLen_long5 _ _ _ _ _ _ _ (by decide)
theorem LongMajor.stc : ∀ a, LongMajor.Statement (.stc a) :=
  fun _ => fun _ _ h => by cases h; exact simtLen_long5 _ _ _ _ _ _ _ (by decide)
theorem LongMajor.pref : ∀ a, LongMajor.Statement (.pref a) :=
  fun _ => fun _ _ h => by cases h; exact simtLen_long5 _ _ _ _ _ _ _ (by decide)
theorem LongMajor.linv : ∀ a, LongMajor.Statement (.linv a) :=
  fun _ => fun _ _ h => by cases h; exact simtLen_long5 _ _ _ _ _ _ _ (by decide)
theorem LongMajor.lwb : ∀ a, LongMajor.Statement (.lwb a) :=
  fun _ => fun _ _ h => by cases h; exact simtLen_long5 _ _ _ _ _ _ _ (by decide)
theorem LongMajor.lcln : ∀ a, LongMajor.Statement (.lcln a) :=
  fun _ => fun _ _ h => by cases h; exact simtLen_long5 _ _ _ _ _ _ _ (by decide)
theorem LongMajor.icinv : ∀ a, LongMajor.Statement (.icinv a) :=
  fun _ => fun _ _ h => by cases h; exact simtLen_long5 _ _ _ _ _ _ _ (by decide)
theorem LongMajor.pclr : ∀ a, LongMajor.Statement (.pclr a) :=
  fun _ => fun _ _ h => by cases h; exact simtLen_long5 _ _ _ _ _ _ _ (by decide)
theorem LongMajor.femt : ∀ a, LongMajor.Statement (.femt a) :=
  fun _ => fun _ _ h => by cases h; exact simtLen_long5 _ _ _ _ _ _ _ (by decide)
theorem LongMajor.fful : ∀ a, LongMajor.Statement (.fful a) :=
  fun _ => fun _ _ h => by cases h; exact simtLen_long5 _ _ _ _ _ _ _ (by decide)
theorem LongMajor.tcopy : ∀ a b c d e, LongMajor.Statement (.tcopy a b c d e) :=
  fun _ _ _ _ _ => fun _ _ h => by cases h; exact simtLen_long4 _ _ _ _ _ _ (by decide)
theorem LongMajor.stbind : ∀ a b c d e, LongMajor.Statement (.stbind a b c d e) :=
  fun _ _ _ _ _ => fun _ _ h => by cases h; exact simtLen_long4 _ _ _ _ _ _ (by decide)
theorem LongMajor.stunb : ∀ a b, LongMajor.Statement (.stunb a b) :=
  fun _ _ => fun _ _ h => by cases h; exact simtLen_long4 _ _ _ _ _ _ (by decide)
theorem LongMajor.ststat : ∀ a b c, LongMajor.Statement (.ststat a b c) :=
  fun _ _ _ => fun _ _ h => by cases h; exact simtLen_long4 _ _ _ _ _ _ (by decide)
theorem LongMajor.mma : ∀ a, LongMajor.Statement (.mma a) :=
  fun _ => fun _ _ h => by cases h; exact simtLen_long4 _ _ _ _ _ _ (by decide)
theorem LongMajor.mmas : ∀ a, LongMajor.Statement (.mmas a) :=
  fun _ => fun _ _ h => by cases h; exact simtLen_long4 _ _ _ _ _ _ (by decide)
theorem LongMajor.malloc : ∀ a b c, LongMajor.Statement (.malloc a b c) :=
  fun _ _ _ => fun _ _ h => by cases h; exact simtLen_long4 _ _ _ _ _ _ (by decide)
theorem LongMajor.mfree : ∀ a b, LongMajor.Statement (.mfree a b) :=
  fun _ _ => fun _ _ h => by cases h; exact simtLen_long4 _ _ _ _ _ _ (by decide)
theorem LongMajor.mzero : ∀ a b, LongMajor.Statement (.mzero a b) :=
  fun _ _ => fun _ _ h => by cases h; exact simtLen_long4 _ _ _ _ _ _ (by decide)
theorem LongMajor.mld : ∀ a b c d, LongMajor.Statement (.mld a b c d) :=
  fun _ _ _ _ => fun _ _ h => by cases h; exact simtLen_long4 _ _ _ _ _ _ (by decide)
theorem LongMajor.mst : ∀ a b c d, LongMajor.Statement (.mst a b c d) :=
  fun _ _ _ _ => fun _ _ h => by cases h; exact simtLen_long4 _ _ _ _ _ _ (by decide)
theorem LongMajor.mrdv : ∀ a b c d, LongMajor.Statement (.mrdv a b c d) :=
  fun _ _ _ _ => fun _ _ h => by cases h; exact simtLen_long4 _ _ _ _ _ _ (by decide)
theorem LongMajor.mwrv : ∀ a b c d, LongMajor.Statement (.mwrv a b c d) :=
  fun _ _ _ _ => fun _ _ h => by cases h; exact simtLen_long4 _ _ _ _ _ _ (by decide)
theorem LongMajor.mcvts : ∀ a b c d e f g, LongMajor.Statement (.mcvts a b c d e f g) :=
  fun _ _ _ _ _ _ _ => fun _ _ h => by cases h; exact simtLen_long4 _ _ _ _ _ _ (by decide)
theorem LongMajor.mreq : ∀ a b c d e f g h i, LongMajor.Statement (.mreq a b c d e f g h i) :=
  fun _ _ _ _ _ _ _ _ _ => fun _ _ h => by cases h; exact simtLen_long4 _ _ _ _ _ _ (by decide)
theorem LongMajor.trq : ∀ a, LongMajor.Statement (.trq a) :=
  fun _ => fun _ _ h => by cases h; exact simtLen_long4 _ _ _ _ _ _ (by decide)
theorem LongMajor.trpoll : ∀ a b, LongMajor.Statement (.trpoll a b) :=
  fun _ _ => fun _ _ h => by cases h; exact simtLen_long4 _ _ _ _ _ _ (by decide)
theorem LongMajor.trkill : ∀ a b, LongMajor.Statement (.trkill a b) :=
  fun _ _ => fun _ _ h => by cases h; exact simtLen_long4 _ _ _ _ _ _ (by decide)
theorem LongMajor.trpin : ∀ a b c, LongMajor.Statement (.trpin a b c) :=
  fun _ _ _ => fun _ _ h => by cases h; exact simtLen_long4 _ _ _ _ _ _ (by decide)
theorem LongMajor.trunp : ∀ a b, LongMajor.Statement (.trunp a b) :=
  fun _ _ => fun _ _ h => by cases h; exact simtLen_long4 _ _ _ _ _ _ (by decide)
theorem LongMajor.trpub : ∀ a b c d e, LongMajor.Statement (.trpub a b c d e) :=
  fun _ _ _ _ _ => fun _ _ h => by cases h; exact simtLen_long4 _ _ _ _ _ _ (by decide)
theorem LongMajor.trload : ∀ a b c d e, LongMajor.Statement (.trload a b c d e) :=
  fun _ _ _ _ _ => fun _ _ h => by cases h; exact simtLen_long4 _ _ _ _ _ _ (by decide)
theorem LongMajor.lqpsh : ∀ a b c d e, LongMajor.Statement (.lqpsh a b c d e) :=
  fun _ _ _ _ _ => fun _ _ h => by cases h; exact simtLen_long4 _ _ _ _ _ _ (by decide)
theorem LongMajor.lqstat : ∀ a b c, LongMajor.Statement (.lqstat a b c) :=
  fun _ _ _ => fun _ _ h => by cases h; exact simtLen_long4 _ _ _ _ _ _ (by decide)
theorem LongMajor.tNfch : ∀ a, LongMajor.Statement (.tNfch a) := fun _ => nofun
theorem LongMajor.tNdec : ∀ a b c, LongMajor.Statement (.tNdec a b c) := fun _ _ _ => nofun
theorem LongMajor.tNdecX : ∀ a, LongMajor.Statement (.tNdecX a) := fun _ => nofun
theorem LongMajor.tNqbx : ∀ a b, LongMajor.Statement (.tNqbx a b) := fun _ _ => nofun
theorem LongMajor.tBox8 : ∀ a b, LongMajor.Statement (.tBox8 a b) := fun _ _ => nofun
theorem LongMajor.tSbox8 : ∀ a b, LongMajor.Statement (.tSbox8 a b) := fun _ _ => nofun
theorem LongMajor.tTri : ∀ a b c d, LongMajor.Statement (.tTri a b c d) := fun _ _ _ _ => nofun
theorem LongMajor.tSphd : ∀ a b c, LongMajor.Statement (.tSphd a b c) := fun _ _ _ => nofun
theorem LongMajor.tKcmp8 : ∀ a b c, LongMajor.Statement (.tKcmp8 a b c) := fun _ _ _ => nofun
theorem LongMajor.tVdist : ∀ a, LongMajor.Statement (.tVdist a) := fun _ => nofun
theorem LongMajor.tPushm : ∀ a, LongMajor.Statement (.tPushm a) := fun _ => nofun
theorem LongMajor.tPushmE : ∀ a b, LongMajor.Statement (.tPushmE a b) := fun _ _ => nofun
theorem LongMajor.tPop : ∀ a, LongMajor.Statement (.tPop a) := fun _ => nofun
theorem LongMajor.tStkq : ∀ a b, LongMajor.Statement (.tStkq a b) := fun _ _ => nofun
theorem LongMajor.tBrc : ∀ a b, LongMajor.Statement (.tBrc a b) := fun _ _ => nofun
theorem LongMajor.tJmp : ∀ a b, LongMajor.Statement (.tJmp a b) := fun _ _ => nofun
theorem LongMajor.tEnd : LongMajor.Statement (.tEnd) := nofun
theorem LongMajor.tEmit : ∀ a b c, LongMajor.Statement (.tEmit a b c) := fun _ _ _ => nofun
theorem LongMajor.tMigr : ∀ a, LongMajor.Statement (.tMigr a) := fun _ => nofun
theorem LongMajor.tYld : LongMajor.Statement (.tYld) := nofun
theorem LongMajor.tAdd : ∀ a, LongMajor.Statement (.tAdd a) := fun _ => nofun
theorem LongMajor.tAddImm : ∀ a, LongMajor.Statement (.tAddImm a) := fun _ => nofun
theorem LongMajor.tSub : ∀ a, LongMajor.Statement (.tSub a) := fun _ => nofun
theorem LongMajor.tSubImm : ∀ a, LongMajor.Statement (.tSubImm a) := fun _ => nofun
theorem LongMajor.tMul : ∀ a, LongMajor.Statement (.tMul a) := fun _ => nofun
theorem LongMajor.tMulImm : ∀ a, LongMajor.Statement (.tMulImm a) := fun _ => nofun
theorem LongMajor.tAnd : ∀ a, LongMajor.Statement (.tAnd a) := fun _ => nofun
theorem LongMajor.tAndImm : ∀ a, LongMajor.Statement (.tAndImm a) := fun _ => nofun
theorem LongMajor.tOr : ∀ a, LongMajor.Statement (.tOr a) := fun _ => nofun
theorem LongMajor.tOrImm : ∀ a, LongMajor.Statement (.tOrImm a) := fun _ => nofun
theorem LongMajor.tXor : ∀ a, LongMajor.Statement (.tXor a) := fun _ => nofun
theorem LongMajor.tXorImm : ∀ a, LongMajor.Statement (.tXorImm a) := fun _ => nofun
theorem LongMajor.tShl : ∀ a, LongMajor.Statement (.tShl a) := fun _ => nofun
theorem LongMajor.tShlImm : ∀ a, LongMajor.Statement (.tShlImm a) := fun _ => nofun
theorem LongMajor.tShr : ∀ a, LongMajor.Statement (.tShr a) := fun _ => nofun
theorem LongMajor.tShrImm : ∀ a, LongMajor.Statement (.tShrImm a) := fun _ => nofun
theorem LongMajor.tMin : ∀ a, LongMajor.Statement (.tMin a) := fun _ => nofun
theorem LongMajor.tMinImm : ∀ a, LongMajor.Statement (.tMinImm a) := fun _ => nofun
theorem LongMajor.tMax : ∀ a, LongMajor.Statement (.tMax a) := fun _ => nofun
theorem LongMajor.tMaxImm : ∀ a, LongMajor.Statement (.tMaxImm a) := fun _ => nofun
theorem LongMajor.tFadd : ∀ a, LongMajor.Statement (.tFadd a) := fun _ => nofun
theorem LongMajor.tFsub : ∀ a, LongMajor.Statement (.tFsub a) := fun _ => nofun
theorem LongMajor.tFmul : ∀ a, LongMajor.Statement (.tFmul a) := fun _ => nofun
theorem LongMajor.tFmin : ∀ a, LongMajor.Statement (.tFmin a) := fun _ => nofun
theorem LongMajor.tFmax : ∀ a, LongMajor.Statement (.tFmax a) := fun _ => nofun
theorem LongMajor.tFcmp : ∀ a b, LongMajor.Statement (.tFcmp a b) := fun _ _ => nofun
theorem LongMajor.tMovi : ∀ a b, LongMajor.Statement (.tMovi a b) := fun _ _ => nofun
theorem LongMajor.tMoviHi : ∀ a b, LongMajor.Statement (.tMoviHi a b) := fun _ _ => nofun
theorem LongMajor.tSel : ∀ a b c d, LongMajor.Statement (.tSel a b c d) := fun _ _ _ _ => nofun
theorem LongMajor.evLoadDataReturn : ∀ a, LongMajor.Statement (.evLoadDataReturn a) := fun _ => nofun
theorem LongMajor.evStoreAcknowledge : ∀ a, LongMajor.Statement (.evStoreAcknowledge a) := fun _ => nofun
theorem LongMajor.evUnitAnswerArrival : ∀ a, LongMajor.Statement (.evUnitAnswerArrival a) := fun _ => nofun
theorem LongMajor.evParkReevaluation : ∀ a b, LongMajor.Statement (.evParkReevaluation a b) := fun _ _ => nofun
theorem LongMajor.evHoldVisitLimit : ∀ a b, LongMajor.Statement (.evHoldVisitLimit a b) := fun _ _ => nofun
theorem LongMajor.evFairnessSwitch : ∀ a b, LongMajor.Statement (.evFairnessSwitch a b) := fun _ _ => nofun
theorem LongMajor.evSlotRelease : ∀ a b, LongMajor.Statement (.evSlotRelease a b) := fun _ _ => nofun
theorem LongMajor.evRetirementCounted : ∀ a b, LongMajor.Statement (.evRetirementCounted a b) := fun _ _ => nofun
theorem LongMajor.evTeamBarrierArrival : ∀ a, LongMajor.Statement (.evTeamBarrierArrival a) := fun _ => nofun
theorem LongMajor.evMessageArrival : ∀ a, LongMajor.Statement (.evMessageArrival a) := fun _ => nofun
theorem LongMajor.evMessageRetry : ∀ a, LongMajor.Statement (.evMessageRetry a) := fun _ => nofun
theorem LongMajor.evHandlerQueueArrival : ∀ a, LongMajor.Statement (.evHandlerQueueArrival a) := fun _ => nofun
theorem LongMajor.evHandlerStart : ∀ a, LongMajor.Statement (.evHandlerStart a) := fun _ => nofun
theorem LongMajor.evHandlerRunLimit : ∀ a b, LongMajor.Statement (.evHandlerRunLimit a b) := fun _ _ => nofun
theorem LongMajor.evLwinAccessAtHome : ∀ a, LongMajor.Statement (.evLwinAccessAtHome a) := fun _ => nofun
theorem LongMajor.evServiceRequestRetry : ∀ a, LongMajor.Statement (.evServiceRequestRetry a) := fun _ => nofun
theorem LongMajor.evTextureRequest : ∀ a, LongMajor.Statement (.evTextureRequest a) := fun _ => nofun
theorem LongMajor.evRasterRequest : ∀ a, LongMajor.Statement (.evRasterRequest a) := fun _ => nofun
theorem LongMajor.evBlockExpansionComplete : ∀ a, LongMajor.Statement (.evBlockExpansionComplete a) := fun _ => nofun
theorem LongMajor.evPoolWaitTimeout : ∀ a b, LongMajor.Statement (.evPoolWaitTimeout a b) := fun _ _ => nofun
theorem LongMajor.evGlobalRequestAtHome : ∀ a, LongMajor.Statement (.evGlobalRequestAtHome a) := fun _ => nofun
theorem LongMajor.evAtomicReserve : ∀ a, LongMajor.Statement (.evAtomicReserve a) := fun _ => nofun
theorem LongMajor.evAtomicGrant : ∀ a, LongMajor.Statement (.evAtomicGrant a) := fun _ => nofun
theorem LongMajor.evAtomicUnitRelease : ∀ a, LongMajor.Statement (.evAtomicUnitRelease a) := fun _ => nofun
theorem LongMajor.evSystemAtomicopCompletion : ∀ a b, LongMajor.Statement (.evSystemAtomicopCompletion a b) := fun _ _ => nofun
theorem LongMajor.evCopyRequestArrival : ∀ a, LongMajor.Statement (.evCopyRequestArrival a) := fun _ => nofun
theorem LongMajor.evCopyRequestRetry : ∀ a, LongMajor.Statement (.evCopyRequestRetry a) := fun _ => nofun
theorem LongMajor.evCopyRequestStart : ∀ a, LongMajor.Statement (.evCopyRequestStart a) := fun _ => nofun
theorem LongMajor.evCopyRequestEnd : ∀ a b, LongMajor.Statement (.evCopyRequestEnd a b) := fun _ _ => nofun
theorem LongMajor.evCopyPoolTimeout : ∀ a b, LongMajor.Statement (.evCopyPoolTimeout a b) := fun _ _ => nofun
theorem LongMajor.evStreamRefill : ∀ a b c, LongMajor.Statement (.evStreamRefill a b c) := fun _ _ _ => nofun
theorem LongMajor.evStreamBufferReturn : ∀ a, LongMajor.Statement (.evStreamBufferReturn a) := fun _ => nofun
theorem LongMajor.evOsecRequestAtHome : ∀ a, LongMajor.Statement (.evOsecRequestAtHome a) := fun _ => nofun
theorem LongMajor.evSectionOverrun : ∀ a b, LongMajor.Statement (.evSectionOverrun a b) := fun _ _ => nofun
theorem LongMajor.evHang : ∀ a, LongMajor.Statement (.evHang a) := fun _ => nofun
theorem LongMajor.evLaunchRecordSubmit : ∀ a b, LongMajor.Statement (.evLaunchRecordSubmit a b) := fun _ _ => nofun
theorem LongMajor.evRecordAdmission : ∀ a, LongMajor.Statement (.evRecordAdmission a) := fun _ => nofun
theorem LongMajor.evDependencyPoll : ∀ a, LongMajor.Statement (.evDependencyPoll a) := fun _ => nofun
theorem LongMajor.evLevelAging : ∀ a, LongMajor.Statement (.evLevelAging a) := fun _ => nofun
theorem LongMajor.evTeamPlacement : ∀ a b, LongMajor.Statement (.evTeamPlacement a b) := fun _ _ => nofun
theorem LongMajor.evDrainDelayExpiry : ∀ a b, LongMajor.Statement (.evDrainDelayExpiry a b) := fun _ _ => nofun
theorem LongMajor.evGridCompletion : ∀ a, LongMajor.Statement (.evGridCompletion a) := fun _ => nofun
theorem LongMajor.evPreemptionRequest : ∀ a b, LongMajor.Statement (.evPreemptionRequest a b) := fun _ _ => nofun
theorem LongMajor.evGroupSave : ∀ a, LongMajor.Statement (.evGroupSave a) := fun _ => nofun
theorem LongMajor.evGroupResume : ∀ a, LongMajor.Statement (.evGroupResume a) := fun _ => nofun
theorem LongMajor.evRepackTimeout : ∀ a b, LongMajor.Statement (.evRepackTimeout a b) := fun _ _ => nofun
theorem LongMajor.evRepackWarpStart : ∀ a, LongMajor.Statement (.evRepackWarpStart a) := fun _ => nofun
theorem LongMajor.evStealArrival : ∀ a, LongMajor.Statement (.evStealArrival a) := fun _ => nofun
theorem LongMajor.evMatrixCommandStart : ∀ a, LongMajor.Statement (.evMatrixCommandStart a) := fun _ => nofun
theorem LongMajor.evMatrixStepEnd : ∀ a, LongMajor.Statement (.evMatrixStepEnd a) := fun _ => nofun
theorem LongMajor.evMatrixCommandEnd : ∀ a, LongMajor.Statement (.evMatrixCommandEnd a) := fun _ => nofun
theorem LongMajor.evFillerEnd : ∀ a, LongMajor.Statement (.evFillerEnd a) := fun _ => nofun
theorem LongMajor.evRampHoldEnd : ∀ a, LongMajor.Statement (.evRampHoldEnd a) := fun _ => nofun
theorem LongMajor.evRemoteMmaArrival : ∀ a, LongMajor.Statement (.evRemoteMmaArrival a) := fun _ => nofun
theorem LongMajor.evTeamFragmentArrival : ∀ a, LongMajor.Statement (.evTeamFragmentArrival a) := fun _ => nofun
theorem LongMajor.evThreadSlotFill : ∀ a, LongMajor.Statement (.evThreadSlotFill a) := fun _ => nofun
theorem LongMajor.evNodeFetchComplete : ∀ a b, LongMajor.Statement (.evNodeFetchComplete a b) := fun _ _ => nofun
theorem LongMajor.evVectorReadComplete : ∀ a b, LongMajor.Statement (.evVectorReadComplete a b) := fun _ _ => nofun
theorem LongMajor.evStackReloadComplete : ∀ a b, LongMajor.Statement (.evStackReloadComplete a b) := fun _ _ => nofun
theorem LongMajor.evEmitAcknowledge : ∀ a b, LongMajor.Statement (.evEmitAcknowledge a b) := fun _ _ => nofun
theorem LongMajor.evInboundContextArrival : ∀ a, LongMajor.Statement (.evInboundContextArrival a) := fun _ => nofun
theorem LongMajor.evMigrationRetry : ∀ a, LongMajor.Statement (.evMigrationRetry a) := fun _ => nofun
theorem LongMajor.evMigrationRefusalLimit : ∀ a, LongMajor.Statement (.evMigrationRefusalLimit a) := fun _ => nofun
theorem LongMajor.evTraversalCompletion : ∀ a, LongMajor.Statement (.evTraversalCompletion a) := fun _ => nofun
theorem LongMajor.evKernelLoadRequest : ∀ a, LongMajor.Statement (.evKernelLoadRequest a) := fun _ => nofun
theorem LongMajor.evTableRequest : ∀ a, LongMajor.Statement (.evTableRequest a) := fun _ => nofun
theorem LongMajor.evPlarmReadComplete : ∀ a, LongMajor.Statement (.evPlarmReadComplete a) := fun _ => nofun
theorem LongMajor.evPlbitReadComplete : ∀ a, LongMajor.Statement (.evPlbitReadComplete a) := fun _ => nofun
theorem LongMajor.evPlcomArrival : ∀ a, LongMajor.Statement (.evPlcomArrival a) := fun _ => nofun
theorem LongMajor.evPlanWriteComplete : ∀ a, LongMajor.Statement (.evPlanWriteComplete a) := fun _ => nofun
theorem LongMajor.evDeadlineExpiry : ∀ a, LongMajor.Statement (.evDeadlineExpiry a) := fun _ => nofun
theorem LongMajor.evEqresRetry : ∀ a, LongMajor.Statement (.evEqresRetry a) := fun _ => nofun
theorem LongMajor.evEqresDecline : ∀ a, LongMajor.Statement (.evEqresDecline a) := fun _ => nofun
theorem LongMajor.evXlinvAsid : ∀ a, LongMajor.Statement (.evXlinvAsid a) := fun _ => nofun
theorem LongMajor.evXlinvPage : ∀ a b, LongMajor.Statement (.evXlinvPage a b) := fun _ _ => nofun
theorem LongMajor.evXlinvAll : LongMajor.Statement (.evXlinvAll) := nofun
theorem LongMajor.evHanglimWrite : ∀ a b, LongMajor.Statement (.evHanglimWrite a b) := fun _ _ => nofun
theorem LongMajor.evSectlimWrite : ∀ a b, LongMajor.Statement (.evSectlimWrite a b) := fun _ _ => nofun
theorem LongMajor.evMcapWrite : ∀ a b c d, LongMajor.Statement (.evMcapWrite a b c d) := fun _ _ _ _ => nofun
theorem LongMajor.evCycloRead : ∀ a b c, LongMajor.Statement (.evCycloRead a b c) := fun _ _ _ => nofun
theorem LongMajor.evTimeloRead : ∀ a b c, LongMajor.Statement (.evTimeloRead a b c) := fun _ _ _ => nofun
theorem LongMajor.evSystemRegisterWrite : ∀ a b, LongMajor.Statement (.evSystemRegisterWrite a b) := fun _ _ => nofun
theorem LongMajor.evUcClusterExtent : ∀ a b, LongMajor.Statement (.evUcClusterExtent a b) := fun _ _ => nofun
theorem LongMajor.evUcRawRegion : ∀ a b c d, LongMajor.Statement (.evUcRawRegion a b c d) := fun _ _ _ _ => nofun
theorem LongMajor.evUcPoolFail : ∀ a b, LongMajor.Statement (.evUcPoolFail a b) := fun _ _ => nofun
theorem LongMajor.evUcLaunchQueue : ∀ a b c, LongMajor.Statement (.evUcLaunchQueue a b c) := fun _ _ _ => nofun
theorem LongMajor.evLaunchQueueFlush : ∀ a, LongMajor.Statement (.evLaunchQueueFlush a) := fun _ => nofun
theorem LongMajor.evUcRangeDeque : ∀ a b, LongMajor.Statement (.evUcRangeDeque a b) := fun _ _ => nofun
theorem LongMajor.evUcStructure : ∀ a b, LongMajor.Statement (.evUcStructure a b) := fun _ _ => nofun
theorem LongMajor.evUcPlanSlot : ∀ a b, LongMajor.Statement (.evUcPlanSlot a b) := fun _ _ => nofun
theorem LongMajor.evUcProgramMemory : ∀ a b c d, LongMajor.Statement (.evUcProgramMemory a b c d) := fun _ _ _ _ => nofun
theorem LongMajor.evAttach : ∀ a b c, LongMajor.Statement (.evAttach a b c) := fun _ _ _ => nofun
theorem LongMajor.evHalt : ∀ a b, LongMajor.Statement (.evHalt a b) := fun _ _ => nofun
theorem LongMajor.evResume : ∀ a b, LongMajor.Statement (.evResume a b) := fun _ _ => nofun
theorem LongMajor.evStep : ∀ a b, LongMajor.Statement (.evStep a b) := fun _ _ => nofun
theorem LongMajor.evStepStallLimit : ∀ a, LongMajor.Statement (.evStepStallLimit a) := fun _ => nofun
theorem LongMajor.evRead : ∀ a b c d, LongMajor.Statement (.evRead a b c d) := fun _ _ _ _ => nofun
theorem LongMajor.evWrite : ∀ a b c d, LongMajor.Statement (.evWrite a b c d) := fun _ _ _ _ => nofun
theorem LongMajor.evWatch : ∀ a b c d e, LongMajor.Statement (.evWatch a b c d e) := fun _ _ _ _ _ => nofun
theorem LongMajor.evMem : ∀ a b c d e f, LongMajor.Statement (.evMem a b c d e f) := fun _ _ _ _ _ _ => nofun
theorem LongMajor.evClearReport : ∀ a, LongMajor.Statement (.evClearReport a) := fun _ => nofun
theorem LongMajor.evSensors : LongMajor.Statement (.evSensors) := nofun
theorem LongMajor.evLog : ∀ a b, LongMajor.Statement (.evLog a b) := fun _ _ => nofun
theorem LongMajor.evStage : ∀ a b, LongMajor.Statement (.evStage a b) := fun _ _ => nofun
theorem LongMajor.evCommit : LongMajor.Statement (.evCommit) := nofun
theorem LongMajor.evAttest : ∀ a, LongMajor.Statement (.evAttest a) := fun _ => nofun
theorem LongMajor.evLogFlashWrite : LongMajor.Statement (.evLogFlashWrite) := nofun
theorem LongMajor.evShock : ∀ a b, LongMajor.Statement (.evShock a b) := fun _ _ => nofun
theorem LongMajor.evBar2Access : ∀ a b c, LongMajor.Statement (.evBar2Access a b c) := fun _ _ _ => nofun
theorem LongMajor.evHostAtomicop : ∀ a, LongMajor.Statement (.evHostAtomicop a) := fun _ => nofun
theorem LongMajor.evDropsWrite : ∀ a b, LongMajor.Statement (.evDropsWrite a b) := fun _ _ => nofun
theorem LongMajor.evPeerctlWrite : ∀ a, LongMajor.Statement (.evPeerctlWrite a) := fun _ => nofun
theorem LongMajor.evDeviceReset : LongMajor.Statement (.evDeviceReset) := nofun
theorem LongMajor.evPowerLoss : LongMajor.Statement (.evPowerLoss) := nofun
theorem LongMajor.evContextTeardown : ∀ a, LongMajor.Statement (.evContextTeardown a) := fun _ => nofun
theorem LongMajor.evLinkTraining : ∀ a b c, LongMajor.Statement (.evLinkTraining a b c) := fun _ _ _ => nofun
theorem LongMajor.evPeerRequestArrival : ∀ a, LongMajor.Statement (.evPeerRequestArrival a) := fun _ => nofun
theorem LongMajor.evPeerAcknowledge : ∀ a, LongMajor.Statement (.evPeerAcknowledge a) := fun _ => nofun
theorem LongMajor.evLaneRepair : ∀ a b, LongMajor.Statement (.evLaneRepair a b) := fun _ _ => nofun
theorem LongMajor.evLaneRetrainComplete : ∀ a, LongMajor.Statement (.evLaneRetrainComplete a) := fun _ => nofun
theorem LongMajor.evPeerLoss : ∀ a, LongMajor.Statement (.evPeerLoss a) := fun _ => nofun
theorem LongMajor.evThrottleStep : ∀ a, LongMajor.Statement (.evThrottleStep a) := fun _ => nofun
theorem LongMajor.evThermalShutdown : LongMajor.Statement (.evThermalShutdown) := nofun
theorem LongMajor.evStackEntryReady : ∀ a b c, LongMajor.Statement (.evStackEntryReady a b c) := fun _ _ _ => nofun
theorem LongMajor.evEqheadWrite : ∀ a, LongMajor.Statement (.evEqheadWrite a) := fun _ => nofun
theorem LongMajor.evLinkFailure : ∀ a, LongMajor.Statement (.evLinkFailure a) := fun _ => nofun
theorem LongMajor.evPowerOn : LongMajor.Statement (.evPowerOn) := nofun
theorem LongMajor.evFlashCommitComplete : LongMajor.Statement (.evFlashCommitComplete) := nofun
theorem LongMajor.evIcinvCompletion : ∀ a, LongMajor.Statement (.evIcinvCompletion a) := fun _ => nofun
theorem LongMajor.evPlanRequestArrival : ∀ a, LongMajor.Statement (.evPlanRequestArrival a) := fun _ => nofun

end Sys2Proof.Laws
end

