-- ==== Sys2Proof/Laws/Units.lean ====
section
/-! SUPPORT. What the settling of atomic units, the finding of errors, a walk and a unit's read of a table leave alone: with no unit
held and no sector known bad, each is the identity. What a gang's arrival at a barrier does for a gang of one. -/

namespace Sys2Proof.Machine

theorem State.settle_of_idle {s : State} (h : s.units = []) (p : AUnit → Bool) : s.settle p = s := by
  simp [State.settle, h]

theorem State.settleRange_of_idle {s : State} (h : s.units = []) (key n : Nat) : s.settleRange key n = s := s.settle_of_idle h _

theorem State.settlePair_of_idle {s : State} (h : s.units = []) (d : Nat) : s.settlePair d = s := s.settle_of_idle h _

/-- An address below the peers' has no port to wait for. -/
theorem State.unitWaits_of_lt {s : State} {key : Nat} (h : key < peerBase 0) : s.unitWaits key = false := by
  simp [State.unitWaits, h]

/-- An address below the peers' takes no sequence number. -/
theorem State.reachHome_of_lt {s : State} {key : Nat} (h : key < peerBase 0) (n : Nat) : s.reachHome key n = s.settleRange key n := by
  simp [State.reachHome, h]

theorem State.reachHome_of_idle {s : State} {key : Nat} (h : key < peerBase 0) (n : Nat) (hu : s.units = []) :
    s.reachHome key n = s := by
  rw [State.reachHome_of_lt h, State.settleRange_of_idle hu]

theorem State.findErrors_nil (s : State) (asid : Nat) : s.findErrors asid [] = s := rfl

theorem State.findErrors_of_clean {s : State} (h : s.bad = []) (asid : Nat) (ks : List Nat) : s.findErrors asid ks = s := by
  induction ks with
  | nil => rfl
  | cons k ks ih => simpa [State.findErrors, h] using ih

theorem State.walkNow_of_idle {s : State} (hu : s.units = []) (hb : s.bad = []) (asid va : Nat) : s.walkNow asid va = s := by
  simp [State.walkNow, hu, hb]

theorem State.coreWalk_of_idle {s : State} (hu : s.units = []) (hb : s.bad = []) (core asid va : Nat) :
    s.coreWalk core asid va = s := by
  simp [State.coreWalk, State.walkNow_of_idle hu hb]

/-- With nothing to settle or to find, a core's translation is that of the state itself. -/
theorem State.translateCore_of_idle {s : State} (hu : s.units = []) (hb : s.bad = []) (core asid va : Nat) (acc : Access)
    (system : Bool) : s.translateCore core asid va acc system = s.translate core asid va acc system := by
  rw [State.translateCore, State.coreWalk_of_idle hu hb]

theorem State.translateNow_of_idle {s : State} (hu : s.units = []) (hb : s.bad = []) (asid va : Nat) (acc : Access) :
    s.translateNow asid va acc = (s, s.translateUnit asid va acc) := by
  rw [State.translateNow, State.walkNow_of_idle hu hb]

/-! ## A unit's reads of tables -/

theorem State.comeTo_of_idle {s : State} (hu : s.units = []) (hb : s.bad = []) (asid key n : Nat) : s.comeTo asid key n = s := by
  simp [State.comeTo, State.settleRange_of_idle hu, hb]

theorem State.reachCtx_of_idle {s : State} (hu : s.units = []) (hb : s.bad = []) (asid : Nat) : s.reachCtx asid = s :=
  State.comeTo_of_idle hu hb ..

theorem State.reachTarget_of_idle {s : State} (hu : s.units = []) (hb : s.bad = []) (asid t : Nat) : s.reachTarget asid t = s := by
  rw [State.reachTarget, State.reachCtx_of_idle hu hb, State.comeTo_of_idle hu hb]

theorem State.reachSave_of_idle {s : State} (hu : s.units = []) (hb : s.bad = []) (asid core : Nat) : s.reachSave asid core = s := by
  rw [State.reachSave, State.reachCtx_of_idle hu hb, State.comeTo_of_idle hu hb]

theorem State.reachCore_of_idle {s : State} (hu : s.units = []) (hb : s.bad = []) (asid core : Nat) : s.reachCore asid core = s := by
  simp [State.reachCore, State.reachSave_of_idle hu hb, State.comeTo_of_idle hu hb]

theorem State.reachHeads_of_idle {s : State} (hu : s.units = []) (hb : s.bad = []) : s.reachHeads = s := by
  simp [State.reachHeads, hu, hb]

theorem State.reachHandler_of_idle {s : State} (hu : s.units = []) (hb : s.bad = []) (asid kind : Nat) :
    s.reachHandler asid kind = s := by
  rw [State.reachHandler, State.reachCtx_of_idle hu hb, State.comeTo_of_idle hu hb]

/-! ## Arrivals at a barrier -/

/-- A member that is not in ARRV arrives and goes on. -/
theorem State.arriveEach_solo {s : State} {c n t : Nat} (h : s.inArrv c n t = false) (ret : Nat) :
    s.arriveEach c n ret [t] = (s.arriveOn c n ret t, []) := by
  simp [State.arriveEach, h]

/-- A member that is in ARRV waits for the end of the phase. -/
theorem State.arriveEach_again {s : State} {c n t : Nat} (h : s.inArrv c n t = true) (ret : Nat) :
    s.arriveEach c n ret [t] = (s, [t]) := by
  simp [State.arriveEach, h]

end Sys2Proof.Machine
end

