-- ==== Sys2Proof/Tests/Slice0.lean ====
section
/-! SUPPORT. Tests. `test_…` theorems evaluate decoding, the checks of WellFormed and single steps on values worked out from
the manual. `witness_…` theorems show that the hypotheses of the statements can be met together, clause by clause: each takes
the statement and applies it, on a concrete small state and concrete operands, to a proof of every one of its hypotheses. -/

namespace Sys2Proof.Tests

set_option Elab.async false

open Sys2Proof Sys2Proof.Machine Sys2Proof.Claim

/-! ## Small states -/

/-- A live slice of group 1 in context 1 with all eight lanes in one path. -/
def live : Slice := { phase := .live, asid := 1, group := 1, paths := [{ state := .run, mask := 0xFF, pc := 0x1000 }] }

/-- A group of one slice on core 0 with 4 KiB of LOCAL memory. -/
def grp : Group :=
  { asid := 1, grid := 0, team := 1, teamIx := 0, ix := 0, core := 0, slots := [0], localBase := 0, localLen := 0x4000,
    mclass := 0, barriers := 1, queues := 1, tiles := 2, teamSize := 1, level := 0 }

/-- Page tables of context 1: addresses below 512 MiB map to themselves, for every access in user mode (15 R396, R401, R402). -/
def pages : Memory := [(64, 1), (65, 0x20), (0x2000, 1), (0x2002, 1), (0x10000, 0x3F)]

/-- The slice `x` in slot 0 of core 0 issues by itself. -/
def one (x : Slice) : State :=
  { slices := [(0, x)], groups := [(1, grp)], teams := [(1, { cluster := 0, groups := [1], ret := 0, barriers := [0] })],
    issuer := { core := 0, slots := [0] }, nextId := 10, mem := pages }

theorem live_on : live.active 7 ≠ 0 := by decide +kernel

def st : State := one live
/-- The path's mask is empty: no lane is active under any guard. -/
def idle : State := one { live with paths := [{ state := .run, mask := 0 }] }

theorem solo {s : State} (h : s.issuer.core = 0 ∧ s.issuer.slots = [0] ∧ (s.slice 0 0).pending = []) :
    ∀ srcs, Solo s 0 0 srcs := fun _ =>
  ⟨h.1, h.2.1, by simp [Slice.pendingReg, h.2.2], fun _ _ => by simp [Slice.pendingReg, h.2.2]⟩

theorem acts {s : State} {g : BitVec 4} (h : s.issuer.core = 0 ∧ s.issuer.slots = [0] ∧ (s.slice 0 0).pending = [] ∧
    (s.slice 0 0).acquires = [] ∧ (s.slice 0 0).active g ≠ 0) : ∀ srcs, Acts s 0 0 g srcs := fun srcs =>
  ⟨solo ⟨h.1, h.2.1, h.2.2.1⟩ srcs, h.2.2.2.1, h.2.2.2.2⟩

theorem idles {s : State} {g : BitVec 4} (h : s.issuer.core = 0 ∧ s.issuer.slots = [0] ∧ (s.slice 0 0).pending = [] ∧
    (s.slice 0 0).acquires = [] ∧ (s.slice 0 0).active g = 0) : ∀ srcs, Idles s 0 0 g srcs := fun srcs =>
  ⟨solo ⟨h.1, h.2.1, h.2.2.1⟩ srcs, h.2.2.2.1, h.2.2.2.2⟩

theorem gang {s : State} (h : s.issuer.core = 0 ∧ s.issuer.slots = [0] ∧ (s.slice 0 0).pending = []) :
    ∀ srcs, Gang s srcs := fun _ =>
  ⟨by rw [h.2.1]; simp, fun t ht => by rw [h.2.1, List.mem_singleton] at ht; subst ht; rw [h.1]; simp [Slice.pendingReg, h.2.2],
   fun t ht _ _ => by rw [h.2.1, List.mem_singleton] at ht; subst ht; rw [h.1]; simp [Slice.pendingReg, h.2.2]⟩

theorem st_solo : ∀ srcs, Solo st 0 0 srcs := solo (by decide +kernel)
theorem st_gang : ∀ srcs, Gang st srcs := gang (by decide +kernel)
theorem st_acts : ∀ srcs, Acts st 0 0 7 srcs := acts (by decide +kernel)
theorem idle_idles : ∀ srcs, Idles idle 0 0 7 srcs := idles (by decide +kernel)
theorem idle_solo : ∀ srcs, Solo idle 0 0 srcs := fun srcs => (idle_idles srcs).solo

/-- The instruction answers a next state. -/
def Runs (i : Instr) (s : State) : Prop := ∃ u, exec i s = .next u
theorem runs {i : Instr} {s u : State} (h : exec i s = .next u) : Runs i s := ⟨u, h⟩

theorem of_ok {ε β : Type} {x : Except ε β} {b : β} (h : x.toOption = some b) : x = .ok b := by
  cases x with
  | error => cases h
  | ok => exact congrArg _ (Option.some.inj h)
theorem pair_ok {α β ε : Type} {x : α × Except ε β} {b : β} (h : x.2.toOption = some b) : x = (x.1, .ok b) :=
  Prod.ext rfl (of_ok h)

theorem unit_ok {ε : Type} {x : Except ε Unit} (h : x.toOption.isSome = true) : x = .ok () := by
  cases x with
  | error => cases h
  | ok => rfl

theorem res_eq {r : Resolved} (h : r.bad = []) : r = ⟨r.s, r.ok, []⟩ := by rw [← h]
theorem get_ok {ε β : Type} {x : Except ε β} (h : x.toOption.isSome = true) : x = .ok (x.toOption.get h) :=
  of_ok (Option.some_get h).symm

theorem get_ok2 {ε α β : Type} {x : Except ε (α × β)} (h : x.toOption.isSome = true) :
    x = .ok ((x.toOption.get h).1, (x.toOption.get h).2) := get_ok h

theorem ok_snd {ε α β : Type} {x : Except ε (α × β)} {b : β} (h : x.toOption.isSome = true) (hb : (x.toOption.get h).2 = b) :
    x = .ok ((x.toOption.get h).1, b) := by
  rw [← hb]; exact get_ok h

/-- Registers 1 and 2, code 48 and the guard PT. -/
def f3 : R3 := ⟨7, 0, 1, 2, 0⟩
def f2 : R2 := ⟨7, 0, 1⟩

/-! ## Witnesses: arithmetic, moves, predicates -/

theorem witness_LaneForms (H : IntegerLaneForms) (G : FloatLaneForms) :
    (∀ p ∈ intForms ++ logicForms, Runs (p.1 f3) st) ∧ Runs (.bfx f3) st ∧ (∀ p ∈ dForms, Runs (p.1 f3) st) ∧
    (∀ p ∈ floatForms, Runs (p.1 f3) st) ∧ ∀ p ∈ fusedForms, Runs (p.1 f3) st :=
  ⟨fun p hp => runs (H.1 p hp f3 st _ 0 0 _ (st_solo _) rfl rfl), runs (H.2.1 f3 st _ 0 0 _ (st_solo _) rfl rfl),
   fun p hp => runs (H.2.2.1 p hp f3 st _ 0 0 _ (st_solo _) rfl rfl),
   fun p hp => runs (G.1 p hp f3 st _ 0 0 _ (st_solo _) rfl rfl), fun p hp => runs (G.2 p hp f3 st _ 0 0 _ (st_solo _) rfl rfl)⟩

/-- B from a queue register, which pops. -/
theorem witness_LaneForm_queue (H : IntegerLaneForms) :
    Runs (.iadd ⟨7, 0, 1, 32, 1⟩) { st with cores := [(0, { queues := [(0, { used := true, owner := 1, entries := [[5]] })] })] } :=
  runs (H.1 (.iadd, fun a b => a + b) (by simp [intForms]) ⟨7, 0, 1, 32, 1⟩ _ _ 0 0 _ (solo (by decide +kernel) _) rfl rfl)

theorem witness_UnaryForms (H : IntegerLaneForms) (G : UnaryFloatForms) :
    (∀ p ∈ unaryInts, Runs (p.1 f2) st) ∧ (∀ p ∈ unaryFloats, Runs (p.1 f2) st) ∧ Runs (.cvtf 7 0 1 0 1 0 0) st ∧
    Runs (.cvti 7 0 1 1 0 0 0 5) st :=
  ⟨fun p hp => runs (H.2.2.2 p hp f2 st 0 0 (st_solo _)), fun p hp => runs (G.1 p hp f2 st 0 0 (st_solo _)),
   runs (G.2.1 0 1 0 0 f2 st 0 0 (st_solo _)), runs (G.2.2 1 0 0 0 5 f2 st 0 0 (st_solo _))⟩

theorem witness_ImmediateForms (H : ImmediateForms) :
    Runs (.iaddi ⟨7, 0, 1, 511⟩) st ∧ Runs (.rori ⟨7, 0, 1, 31⟩) st ∧ Runs (.movi ⟨7, 63, 0xFFFF⟩) st ∧
    Runs (.movhi ⟨7, 0, 1⟩) st ∧ Runs (.smovi ⟨7, 31, 1⟩) st ∧ Runs (.smovhi ⟨7, 31, 1⟩) st :=
  ⟨runs ((H.1 _).1 st 0 0 (st_solo _)), runs ((H.2.1 _).2.2.2 st 0 0 (st_solo _)), runs ((H.2.2 _).1 st 0 0 (st_solo _)),
   runs ((H.2.2 _).2.1 st 0 0 (st_solo _)), runs ((H.2.2 ⟨7, 31, 1⟩).2.2.1 rfl st 0 0 (st_solo _)),
   runs ((H.2.2 ⟨7, 31, 1⟩).2.2.2 rfl st 0 0 (st_solo _))⟩

theorem witness_UniformForms (H : UniformForms) :
    (∀ p ∈ uniformForms, Runs (p.1 ⟨7, 31, 1, 53, 1⟩) st) ∧ Runs (.sclz ⟨7, 31, 1⟩) st ∧ Runs (.spopc ⟨7, 31, 1⟩) st ∧
    Runs (.ptos ⟨7, 31, 7⟩) st ∧ Runs (.smov ⟨7, 31, 51, 1⟩) st ∧ Runs (.vextr ⟨7, 31, 63, 48, 1⟩) st :=
  ⟨fun p hp => runs (H.1 p hp _ rfl st 0 0 (st_solo _)), runs ((H.2.1 ⟨7, 31, 1⟩ rfl).1 st 0 0 (st_solo _)),
   runs ((H.2.1 ⟨7, 31, 1⟩ rfl).2 st 0 0 (st_solo _)), runs (H.2.2.1 ⟨7, 31, 7⟩ rfl st 0 0 (st_solo _)),
   runs (H.2.2.2.1 ⟨7, 31, 51, 1⟩ rfl st 0 0 (st_solo _)), runs (H.2.2.2.2 ⟨7, 31, 63, 48, 1⟩ rfl st 0 0 (st_solo _))⟩

theorem witness_MoveForms (H : MoveForms) :
    Runs (.mov ⟨7, 0, 50, 1⟩) st ∧ Runs (.vbcast f3) st ∧ Runs (.movx ⟨7, 0, 63, 49, 1⟩) st ∧ Runs (.sel 7 0 1 2 0 7) st ∧
    Runs (.vinsr ⟨7, 0, 31, 48, 1⟩) st :=
  ⟨runs (H.1 ⟨7, 0, 50, 1⟩ st _ 0 0 _ (st_solo _) rfl rfl), runs (H.2.1 f3 st _ 0 0 _ (st_solo _) rfl rfl),
   runs (H.2.2.1 ⟨7, 0, 63, 49, 1⟩ st _ 0 0 _ (st_solo _) rfl rfl (by decide +kernel)),
   runs (H.2.2.2.1 7 0 1 2 0 7 st _ 0 0 _ (st_solo _) rfl rfl), runs (H.2.2.2.2 ⟨7, 0, 31, 48, 1⟩ st 0 0 (st_solo _) rfl)⟩

theorem witness_PackForms (H : PackForms) :
    Runs (.upk2h ⟨7, 62, 1⟩) st ∧ Runs (.upk2b ⟨7, 62, 1⟩) st ∧ Runs (.upk4q 7 60 1 0) st ∧ Runs (.pk4q 7 0 56 5 1 2) st :=
  ⟨let ⟨_, h, _⟩ := (H.1 ⟨7, 62, 1⟩).1 st 0 0 (st_solo _) rfl; ⟨_, h⟩,
   let ⟨_, h, _⟩ := (H.1 ⟨7, 62, 1⟩).2 st 0 0 (st_solo _) rfl; ⟨_, h⟩,
   let ⟨_, h, _⟩ := H.2.1 7 60 1 0 st 0 0 (st_solo _) rfl; ⟨_, h⟩,
   let ⟨_, h, _⟩ := H.2.2 7 0 56 5 1 2 st 0 0 (st_solo _) (by decide +kernel); ⟨_, h⟩⟩

theorem witness_PredicateForms (H : Obligations.PredicateForms) :
    Runs (.icmp 7 7 0 1 2 0 3) st ∧ Runs (.fcmp 7 0 0 1 2 0 0) st ∧ Runs (.pand ⟨7, 7, 0, 7⟩) st ∧ Runs (.por ⟨7, 6, 0, 7⟩) st ∧
    Runs (.pxor ⟨7, 6, 0, 7⟩) st ∧ Runs (.pnot ⟨7, 6, 7⟩) st ∧ Runs (.pmov ⟨7, 6, 7⟩) st ∧ Runs (.pfroms ⟨7, 7, 31⟩) st :=
  ⟨let ⟨_, h, _⟩ := H.1 7 0 7 1 2 0 3 st _ 0 0 _ (st_solo _) rfl rfl; ⟨_, h⟩,
   let ⟨_, h, _⟩ := H.2.1 7 0 0 1 2 0 0 st _ 0 0 _ (st_solo _) rfl rfl; ⟨_, h⟩,
   let ⟨_, h, _⟩ := (H.2.2.1 ⟨7, 7, 0, 7⟩ (by decide) (by decide)).1 st 0 0 (st_solo _) (by decide); ⟨_, h⟩,
   let ⟨_, h, _⟩ := (H.2.2.1 ⟨7, 6, 0, 7⟩ (by decide) (by decide)).2.1 st 0 0 (st_solo _) (by decide); ⟨_, h⟩,
   let ⟨_, h, _⟩ := (H.2.2.1 ⟨7, 6, 0, 7⟩ (by decide) (by decide)).2.2 st 0 0 (st_solo _) (by decide); ⟨_, h⟩,
   let ⟨_, h, _⟩ := (H.2.2.2.1 ⟨7, 6, 7⟩ (by decide)).1 st 0 0 (st_solo _) (by decide); ⟨_, h⟩,
   let ⟨_, h, _⟩ := (H.2.2.2.1 ⟨7, 6, 7⟩ (by decide)).2 st 0 0 (st_solo _) (by decide); ⟨_, h⟩,
   let ⟨_, h, _⟩ := H.2.2.2.2 ⟨7, 7, 31⟩ (by decide) st 0 0 (st_solo _) (by decide); ⟨_, h⟩⟩

/-! ## Witnesses: gangs, flow, traps -/

/-- The slice has met its rendezvous. -/
def met : State := one { live with met := true }

theorem witness_VoteForms (H : VoteForms) :
    Runs (.vany 7 7 0 0) st ∧ Runs (.vall 7 7 0 1) met ∧ Runs (.ballot 7 30 7 0) st ∧ Runs (.gwid 7 31 0) st ∧
    Runs (.gred 7 0 1 10 0) st ∧ Runs (.gmatch 7 0 1 0) st ∧ Runs (.gelect 7 7 0) st ∧ Runs (.wsync 7) met :=
  have m1 : Met met 1 := fun _ => by decide +kernel
  have m0 : Met st 0 := fun h => absurd h (by decide)
  have mg : Gang met [] := gang (by decide +kernel) _
  ⟨runs ((H st 7 7 0 0 m0).1 (st_gang _) (by decide) (by decide)).1, runs ((H met 7 7 0 1 m1).1 mg (by decide) (by decide)).2,
   runs ((H st 7 30 7 0 m0).2.1 (st_gang _) (by decide) (by decide) (by decide) (by decide +kernel)),
   runs ((H st 7 31 0 0 m0).2.2.1 (st_gang _) (by decide) (by decide +kernel)),
   runs (((H st 7 0 1 0 m0).2.2.2.1 (st_gang _)).1 (0, 0) ((List.range 7).map fun l => (0, l + 1)) (by decide +kernel) 10),
   runs ((H st 7 0 1 0 m0).2.2.2.1 (st_gang _)).2, runs ((H st 7 7 0 0 m0).2.2.2.2.1 (st_gang _) (by decide)),
   runs ((H met 7 0 0 1 m1).2.2.2.2.2 mg m1)⟩

theorem witness_ShuffleForms (H : ShuffleForms) :
    (∀ p ∈ shuffles, Runs (p.1 f3) st) ∧ (∀ p ∈ scans, Runs (p.1 ⟨7, 0, 1, 7⟩) st) ∧ Runs (.gbcst 7 0 1 1) st :=
  ⟨fun p hp => runs (H.1 p hp f3 st _ _ (st_gang _) rfl rfl), fun p hp => runs (H.2.1 p hp _ st (st_gang _) (by decide)),
   runs (H.2.2 7 0 1 1 st (st_gang _))⟩

theorem witness_BranchForms (H : BranchForms) : ∀ b ∈ [Branch.bra 7 0x3FFFFF, .call 7 1, .jmpx 7 1, .callx 7 0 1, .ret 7 1],
    Runs b.instr st := by
  have h : ∀ b ∈ [Branch.bra 7 0x3FFFFF, .call 7 1, .jmpx 7 1, .callx 7 0 1, .ret 7 1],
      ∀ p ∈ st.countIssue.gangLanes b.guard, (b.target (st.countIssue.slice st.countIssue.issuer.core p.1) p.2).toNat % 4 = 0 := by
    simp only [List.forall_mem_cons]
    refine ⟨?_, ?_, ?_, ?_, ?_, by simp⟩ <;> decide +kernel
  exact fun b hb => runs (H b st (st_gang _) (h b hb))

theorem witness_UniformBranch (H : UniformBranchMovesPath) : Runs (.bra 7 1) st ∧ Runs (.bra 0 1) st :=
  ⟨runs (H 7 1 st 0 0 (st_solo _) (by decide) (by decide) (by decide) (by decide +kernel)),
   runs (H 0 1 st 0 0 (st_solo _) (by decide) (by decide) (by decide) (by decide +kernel))⟩

/-- Two IADD stand after the instruction at PC. -/
def rptSt : State :=
  { one { live with s := [(31, 0x00FFFFFF)] } with mem := mwriteBytes pages 0x1004 (wordsBytes [0x70400420, 0x70400420]) }

theorem witness_FlowForms (H : SimpleFlowForms) (G : ExitForms) (R : RepeatOpensFrame) :
    Runs (.nop 7) st ∧ Runs (.ifence 7) st ∧ Runs (.yield 7) st ∧ Runs (.rcvp 7 1) st ∧ Runs (.exit 7) st ∧
    Runs (.rpt 7 0 0 0 0 0) idle ∧ Runs (.rpt 7 1 3 3 3 31) rptSt :=
  ⟨runs (H 7 st (st_gang _)).1, runs (H 7 st (st_gang _)).2.1, runs (H 7 st (st_gang _)).2.2.1,
   runs ((H 7 st (st_gang _)).2.2.2 1 0 0 (st_solo _)),
   runs (G.2 7 st 0 0 (st_solo _) (by decide) rfl (by decide +kernel) (fun i h => by
    cases i with
    | zero => exact absurd rfl h
    | succ n => rfl)),
   runs ((R 7 0 0 0 0 0 idle 0 0 (idle_solo _)).1 (by decide +kernel)),
   runs ((R 7 1 3 3 3 31 rptSt 0 0 (solo (by decide +kernel) _)).2 _ _ (by decide +kernel) rfl (by decide +kernel)
    (pair_ok (b := [(0x70400420, 0), (0x70400420, 0)]) (by decide +kernel)))⟩

/-- System mode; a user handler. -/
def sysm : State := one { live with system := true }
def inh : State := one { live with t := { info := 2 ^ 16 } }
/-- A debugger is attached to context 1. -/
def dbg : State := { st with cores := [(0, { dbgctl := 2 ^ 16 + 1 })] }
/-- One allotted tile. -/
def tiled : State := { st with cores := [(0, { tiles := [(0, { used := true, owner := 1 })] })] }

theorem witness_SystemRegisters (H : SystemRegisterForms) (G : SystemRegisterFaults) :
    Runs (.srd 7 31 0x40) st ∧ Runs (.swr 7 31 0x10) st ∧ Runs (.swr 7 31 0x61) tiled ∧ Runs (.srd 7 31 0xFFF) st ∧
    Runs (.swr 7 31 0xFFF) st ∧ Runs (.srd 7 31 0xA0) st ∧ Runs (.swr 7 31 0xA0) st ∧ Runs (.srd 7 31 0x40) idle ∧
    Runs (.swr 7 31 0x10) idle ∧ Runs (.srd 7 31 0xA0) (one { live with system := true, paths := [] }) :=
  ⟨runs ((H 7 31 0x40 st 0 0 (st_solo _) (by decide) (by decide +kernel)).1 (by decide +kernel)),
   runs ((H 7 31 0x10 st 0 0 (st_solo _) (by decide) (by decide +kernel)).2.1 (by decide +kernel) (by decide) (by decide)),
   runs ((H 7 31 0x61 tiled 0 0 (solo (by decide +kernel) _) (by decide) (by decide +kernel)).2.2 _ (by decide) rfl),
   runs ((G 7 31 0xFFF st 0 0 (st_solo _) (by decide)).1 live_on rfl (fun h => by cases h)),
   runs ((G 7 31 0xFFF st 0 0 (st_solo _) (by decide)).2.1 live_on rfl (fun h => by cases h)),
   runs ((G 7 31 0xA0 st 0 0 (st_solo _) (by decide)).2.2.1 rfl (by decide +kernel)),
   runs ((G 7 31 0xA0 st 0 0 (st_solo _) (by decide)).2.2.2.1 rfl (by decide +kernel)),
   runs ((G 7 31 0x40 idle 0 0 (idle_solo _) (by decide)).2.2.2.2.1 (by decide +kernel) (fun h => absurd h (by decide))),
   runs ((G 7 31 0x10 idle 0 0 (idle_solo _) (by decide)).2.2.2.2.2 (by decide +kernel) (fun h => absurd h (by decide))),
   runs ((G 7 31 0xA0 _ 0 0 (solo (by decide +kernel) _) (by decide)).2.2.2.2.1 (by decide +kernel) fun _ => rfl)⟩

theorem witness_TrapForms (H : TrapForms) (R : ReturnForms) (D : HaltgForm) :
    Runs (.trap 7 63) st ∧ Runs (.brk 7 0) st ∧ Runs (.trap 7 0) idle ∧ Runs (.brk 7 0) idle ∧ Runs (.tret 7) inh ∧
    Runs (.tret 7) st ∧ Runs (.tret 7) idle ∧ Runs (.eret 7) sysm ∧ Runs (.eret 7) st ∧
    Runs (.eret 7) (one { live with system := true, paths := [] }) ∧ Runs (.haltg 7) st ∧ Runs (.haltg 7) dbg :=
  ⟨runs ((H 7 63 st 0 0 (st_solo _)).2 (by decide +kernel)).1, runs ((H 7 0 st 0 0 (st_solo _)).2 (by decide +kernel)).2,
   runs ((H 7 0 idle 0 0 (idle_solo _)).1 (by decide +kernel)).1, runs ((H 7 0 idle 0 0 (idle_solo _)).1 (by decide +kernel)).2,
   runs ((R 7 inh 0 0 (solo (by decide +kernel) _)).1 (by decide +kernel) (by decide +kernel)),
   runs ((R 7 st 0 0 (st_solo _)).2.1 (by decide +kernel) (by decide +kernel)),
   runs ((R 7 idle 0 0 (idle_solo _)).2.2.1 (by decide +kernel)),
   runs ((R 7 sysm 0 0 (solo (by decide +kernel) _)).2.2.2.1 (by decide +kernel) rfl),
   runs ((R 7 st 0 0 (st_solo _)).2.2.2.2.1 rfl),
   runs ((R 7 _ 0 0 (solo (by decide +kernel) _)).2.2.2.2.2 (by decide +kernel) rfl),
   runs ((D 7 st 0 0 (st_solo _)).1 (.inr (by decide +kernel))),
   runs ((D 7 dbg 0 0 (solo (by decide +kernel) _)).2 (by decide +kernel) (by decide +kernel))⟩

/-! ## Witnesses: queues, barriers, sections, deque, messages, plans -/

/-- `st` with core 0 as `k`. -/
def onCore (k : Core) : State := { st with cores := [(0, k)] }
/-- Q0 of the group holds `n` entries. -/
def queued (n : Nat) : State := onCore { queues := [(3, { used := true, owner := 1, entries := List.replicate n [5] })] }

/-- The same slice as a handler. -/
def hqueued : State := { queued 1 with slices := [(0, { live with handler := true })] }

theorem witness_QueueForms (H : QueueForms) (W : QueueWaits) :
    Runs (.qwr ⟨7, 0, 1⟩) (queued 7) ∧ Runs (.qrd ⟨7, 0, 0⟩) (queued 1) ∧ Runs (.qtry ⟨7, 0, 0, 7⟩) (queued 0) ∧
    Runs (.qtry ⟨7, 0, 0, 7⟩) (queued 1) ∧ Runs (.qcnt ⟨7, 31, 0⟩) (queued 8) ∧ Runs (.qwr ⟨7, 0, 1⟩) (queued 8) ∧
    Runs (.qrd ⟨7, 1, 0⟩) (queued 0) :=
  ⟨runs (H.1 ⟨7, 0, 1⟩ (queued 7) 0 0 3 (acts (by decide +kernel) _) (by decide) (by decide +kernel) (by decide +kernel)),
   runs (H.2.1 ⟨7, 0, 0⟩ (queued 1) 0 0 3 [5] [] (acts (by decide +kernel) _) (by decide) (by decide +kernel) (by decide +kernel)),
   runs ((H.2.2.1 ⟨7, 0, 0, 7⟩ (queued 0) 0 0 3 (acts (by decide +kernel) _) (by decide) (by decide) (by decide +kernel)).1
    (by decide +kernel)),
   runs ((H.2.2.1 ⟨7, 0, 0, 7⟩ (queued 1) 0 0 3 (acts (by decide +kernel) _) (by decide) (by decide) (by decide +kernel)).2 [5] []
    (by decide +kernel)),
   runs (H.2.2.2 ⟨7, 31, 0⟩ (queued 8) 0 0 3 (acts (by decide +kernel) _) (by decide) (by decide) (by decide +kernel)),
   runs ((W.1 ⟨7, 0, 1⟩ (queued 8) 0 0 3).1 (acts (by decide +kernel) _) (by decide) (by decide +kernel) (by decide +kernel)),
   runs ((W.1 ⟨7, 1, 0⟩ (queued 0) 0 0 3).2 (acts (by decide +kernel) _) (by decide) (by decide +kernel) (by decide +kernel))⟩

/-- A name that the group was not allotted, and a handler, in each form. -/
theorem witness_QueueMisuse (W : QueueWaits) :
    Runs (.qwr ⟨7, 7, 0⟩) (queued 1) ∧ Runs (.qrd ⟨7, 63, 7⟩) (queued 1) ∧ Runs (.qtry ⟨7, 63, 7, 7⟩) (queued 1) ∧
    Runs (.qcnt ⟨7, 31, 7⟩) (queued 1) ∧ Runs (.qwr ⟨7, 0, 63⟩) hqueued ∧ Runs (.qrd ⟨7, 0, 0⟩) hqueued ∧
    Runs (.qtry ⟨7, 0, 0, 0⟩) hqueued ∧ Runs (.qcnt ⟨7, 0, 0⟩) hqueued ∧ hqueued.queueOf 0 0 0 = none :=
  have A : ∀ srcs, Acts (queued 1) 0 0 7 srcs := acts (by decide +kernel)
  have B : ∀ srcs, Acts hqueued 0 0 7 srcs := acts (by decide +kernel)
  have M := W.2.2 (queued 1) 0 0 7
  have N := W.2.2 hqueued 0 0 7
  ⟨runs (M.1 7 0 (A _) (by decide +kernel)), runs (M.2.1 63 7 (A _) (by decide +kernel)),
   runs (M.2.2.1 63 7 7 (A _) (by decide +kernel) (by decide)), runs (M.2.2.2 31 7 (A _) (by decide +kernel) (by decide)),
   runs (N.1 0 63 (B _) (by decide +kernel)), runs (N.2.1 0 0 (B _) (by decide +kernel)),
   runs (N.2.2.1 0 0 0 (B _) (by decide +kernel) (by decide)), runs (N.2.2.2 0 0 (B _) (by decide +kernel) (by decide)),
   W.2.1 hqueued 0 0 0 rfl⟩

/-- The group's barrier 0, with the slice arrived or not, and S1 as given; its team's barrier 3. -/
def barred (arrived : List Nat) (s1 : Word) : State :=
  { one { live with s := [(1, s1)] } with
    cores := [(0, { barriers := [(2, { owner := 1, used := true, expect := 2, arrived := arrived })] })],
    clusters := [(0, { barriers := [(5, { owner := 1, name := 3, used := true, expect := 2 })] })] }

theorem witness_BarrierForms (H : BarrierForms) (F : BarrierFaults) :
    MovesOn (.bararv 7 0) idle 0 0 4 ∧ Runs (.bararv 7 0) (barred [] 0) ∧ Runs (.barsyn 7 0) (barred [] 0) ∧
    Runs (.bararv 7 0) (barred [0] 0) ∧ Runs (.barsyn 7 0) (barred [0] 0) ∧ Runs (.barwt 7 0) (barred [] 0) ∧ Runs (.barwt 7 0) (barred [0] 0) ∧ Runs (.barinit 7 0 1) (barred [] 120) ∧
    Runs (.barinit 7 0 1) (barred [] 0x80000001) ∧ Runs (.barqry 7 0 31) (barred [0] 0) ∧ Runs (.bararv 7 1) (barred [] 0) ∧
    Runs (.barinit 7 0 1) (barred [] 0) ∧ Runs (.barinit 7 0 1) (barred [] 121) ∧ Runs (.barinit 7 0 1) (barred [] 0x801) :=
  have A : ∀ ar v, ∀ srcs, Acts (barred ar v) 0 0 7 srcs := fun _ _ => acts ⟨rfl, rfl, rfl, rfl, live_on⟩
  have B : ∀ ar v, (begun (barred ar v) 0 0).barrierOf 0 0 (BitVec.toNat (0 : BitVec 8)) = some (2, 0) := fun _ _ => rfl
  ⟨(H.1 7 0 31 idle 0 0 (idle_idles _) (by decide)).1,
   runs ((H.2 7 0 _ 0 0 2 0 (A _ _ _) (B [] 0)).1 (by decide +kernel) rfl).1,
   runs ((H.2 7 0 _ 0 0 2 0 (A _ _ _) (B [] 0)).1 (by decide +kernel) rfl).2,
   runs ((H.2 7 0 _ 0 0 2 0 (A _ _ _) (B [0] 0)).2.1 (by decide +kernel) rfl).1,
   runs ((H.2 7 0 _ 0 0 2 0 (A _ _ _) (B [0] 0)).2.1 (by decide +kernel) rfl).2,
   runs ((H.2 7 0 _ 0 0 2 0 (A _ _ _) (B [] 0)).2.2.1 rfl), runs ((H.2 7 0 _ 0 0 2 0 (A _ _ _) (B [0] 0)).2.2.2.1 rfl),
   runs (((H.2 7 0 _ 0 0 2 0 (A _ _ _) (B [] 120)).2.2.2.2 1 (by decide)).1 (by decide +kernel) (by decide +kernel)
    (by decide +kernel) (by decide +kernel)),
   runs (((H.2 7 0 _ 0 0 2 0 (A _ _ _) (B [] 0x80000001)).2.2.2.2 1 (by decide)).1 (by decide +kernel) (by decide +kernel)
    (by decide +kernel) (by decide +kernel)),
   runs ((H.2 7 0 _ 0 0 2 0 (A _ _ _) (B [0] 0)).2.2.2.2 31 (by decide)).2,
   runs ((F 7 1 0 (barred [] 0) 0 0 (A _ _ _) (by decide)).1 (by decide +kernel)).1,
   runs ((F 7 0 1 (barred [] 0) 0 0 (A _ _ _) (by decide)).2 _ (B _ _) (by decide +kernel)),
   runs ((F 7 0 1 (barred [] 121) 0 0 (A _ _ _) (by decide)).2 _ (B _ _) (by decide +kernel)),
   runs ((F 7 0 1 (barred [] 0x801) 0 0 (A _ _ _) (by decide)).2 _ (B _ _) (by decide +kernel))⟩

theorem witness_TeamBarrierForms (H : TeamBarrierForms) :
    MovesOn (.tbarsyn 7 3) idle 0 0 4 ∧ Runs (.tbarsyn 7 3) (barred [] 0) ∧ Runs (.tbarinit 7 3 1) (barred [] 1920) :=
  ⟨(H 7 3 idle 0 0 (by decide)).1 (idle_idles _),
   runs (((H 7 3 (barred [] 0) 0 0 (by decide)).2 5 (by decide +kernel)).1 (acts (by decide +kernel) _) (by decide +kernel)),
   runs (((H 7 3 (barred [] 1920) 0 0 (by decide)).2 5 (by decide +kernel)).2 1 (by decide) (acts (by decide +kernel) _)
    (by decide +kernel) (by decide +kernel) (by decide +kernel))⟩

theorem free_of {s : State} (h : s.issuer.core = 0 ∧ s.issuer.slots = [0] ∧ (s.slice 0 0).acquires = []) : Free s := fun t ht => by
  rw [h.2.1, List.mem_singleton] at ht; subst ht; rw [h.1]; exact h.2.2

/-- One lane, lane 0, is active. -/
def lone : Slice := { live with paths := [{ state := .run, mask := 1, pc := 0x1000 }] }
def st1 : State := one lone
theorem st1_acts : ∀ srcs, Acts st1 0 0 7 srcs := acts (by decide +kernel)
theorem st1_gang : ∀ srcs, Gang st1 srcs := gang (by decide +kernel)

theorem witness_SectionForms (H : SectionForms) (D : SectionDuplicates) :
    Runs (.ose f3) idle ∧ Runs (.ose f3) st1 ∧ Runs (.osen ⟨7, 7, 1, 49, 1⟩) st ∧ Runs (.osini 7 0 1 0) st ∧
    Runs (.osini 7 0 1 0) idle ∧ Runs (.osx 7 1) idle ∧ Runs (.osx 7 1) st ∧ Runs (.osfree 7 1) st ∧ Runs (.ostk ⟨7, 0, 1⟩) st ∧
    Runs (.osqry ⟨7, 62, 1⟩) st ∧ Runs (.ose f3) st :=
  have F : Free st := free_of (by decide +kernel)
  have I : Free idle := free_of (by decide +kernel)
  have G : ∀ srcs, Gang idle srcs := gang (by decide +kernel)
  ⟨runs ((H.1 f3 idle (G _) I (by decide) rfl).1 (by decide +kernel)).1,
   runs ((H.1 f3 st1 (st1_gang _) (free_of (by decide +kernel)) (by decide) rfl).2 (by decide +kernel) (by decide +kernel)).1,
   runs ((H.1 ⟨7, 7, 1, 49, 1⟩ st (st_gang _) F (by decide) rfl).2 (by decide +kernel) (by decide +kernel)).2,
   runs (H.2.1 7 0 1 0 st (st_gang _) F rfl), runs (H.2.1 7 0 1 0 idle (G _) I rfl),
   runs ((H.2.2 7 1 idle (G _) I).1 (by decide +kernel)),
   runs ((H.2.2 7 1 st (st_gang _) F).2.1 (by decide +kernel) (of_ok (by decide +kernel))),
   runs (H.2.2 7 1 st (st_gang _) F).2.2.1, runs ((H.2.2 7 1 st (st_gang _) F).2.2.2 0).1,
   runs (((H.2.2 7 1 st (st_gang _) F).2.2.2 62).2 (by decide)),
   let ⟨_, _, h, _⟩ := D f3 st (st_gang _) F (by decide) rfl (by decide +kernel); runs h⟩

/-- Core 0's deque belongs to context 1; S1 holds `k`. -/
def dq (k : Word) (es : List (Nat × Nat × Nat)) : State :=
  { one { live with s := [(1, k)] } with cores := [(0, { deque := { owner := some 1, entries := es } })] }

theorem witness_DequeForms (H : DequeForms) (S : StealForm) :
    Runs (.dqpsh ⟨7, 1, 1, 53, 1⟩) (dq 1 (List.replicate 63 (0, 1, 0))) ∧ Runs (.dqpop 7 28) (dq 1 []) ∧
    Runs (.dqcnt 7 31) (dq 1 []) ∧ Runs (.dqclr 7) (dq 1 [(0, 1, 0)]) ∧ Runs (.dqspl ⟨7, 28, 1, 0⟩) (dq 1 []) ∧
    Runs (.dqspl ⟨7, 28, 1, 0⟩) (dq 2 [(0, 2, 0)]) ∧ Runs (.dqspl ⟨7, 28, 1, 0⟩) (dq 2 [(0, 3, 0)]) ∧
    Runs (.dqstl ⟨7, 28, 1, 0⟩) (dq 255 []) ∧ Runs (.dqstl ⟨7, 28, 1, 0⟩) (dq 0xFFFF []) ∧
    Runs (.dqstl ⟨7, 28, 1, 0⟩) (dq 256 []) :=
  have Q : ∀ k es, ∀ srcs, Solo (dq k es) 0 0 srcs := fun _ _ => solo ⟨rfl, rfl, rfl⟩
  have A : ∀ k es, ∀ srcs, Acts (dq k es) 0 0 7 srcs := fun _ _ => acts ⟨rfl, rfl, rfl, rfl, live_on⟩
  have N : ∀ k es, ((dq k es).slice 0 0).active 7 ≠ 0 := fun k es => (A k es []).on
  ⟨runs (H.1 ⟨7, 1, 1, 53, 1⟩ (dq 1 (List.replicate 63 (0, 1, 0))) 0 0 ⟨Q _ _ _, N _ _, rfl⟩ rfl (by decide +kernel)
    (by decide +kernel)),
   runs ((H.2.1 7 28 (dq 1 []) 0 0 ⟨Q _ _ _, N _ _, rfl⟩ (by decide)).1 rfl),
   runs (H.2.1 7 31 (dq 1 []) 0 0 ⟨Q _ _ _, N _ _, rfl⟩ (by decide)).2.1,
   runs (H.2.1 7 31 (dq 1 [(0, 1, 0)]) 0 0 ⟨Q _ _ _, N _ _, rfl⟩ (by decide)).2.2,
   runs ((H.2.2 ⟨7, 28, 1, 0⟩ (dq 1 []) 0 0 ⟨Q _ _ _, N _ _, rfl⟩ (by decide) rfl rfl (by decide +kernel)).1 rfl),
   runs ((H.2.2 ⟨7, 28, 1, 0⟩ (dq 2 [(0, 2, 0)]) 0 0 ⟨Q _ _ _, N _ _, rfl⟩ (by decide) rfl rfl (by decide +kernel)).2 0 2 0 [] rfl),
   runs ((H.2.2 ⟨7, 28, 1, 0⟩ (dq 2 [(0, 3, 0)]) 0 0 ⟨Q _ _ _, N _ _, rfl⟩ (by decide) rfl rfl (by decide +kernel)).2 0 3 0 [] rfl),
   runs ((S ⟨7, 28, 1, 0⟩ (dq 255 []) 0 0 (A _ _ _) (by decide) rfl rfl).1 (by decide +kernel)),
   runs ((S ⟨7, 28, 1, 0⟩ (dq 0xFFFF []) 0 0 (A _ _ _) (by decide) rfl rfl).1 (by decide +kernel)),
   runs ((S ⟨7, 28, 1, 0⟩ (dq 256 []) 0 0 (A _ _ _) (by decide) rfl rfl).2 (by decide +kernel) (by decide +kernel))⟩

/-- A message with TAG 0 waits in the mailbox; the slice is a handler or not. -/
def mailed (h : Bool) : State :=
  { one { live with handler := h } with cores := [(0, { mailbox := [⟨1, [0, 0]⟩] })] }

theorem witness_MessageForms (H : MessageForms) (W : MessageWaits) (S : ServiceRequestForm) :
    Runs (.send 7 1 0 48 1) st ∧ Runs (.sendh 7 0 0 48 1) st ∧ Runs (.waitm 7 1 48 1) (mailed false) ∧
    Runs (.mcnt 7 31 0 53 1) (mailed false) ∧ Runs (.recvm 7 0 0 48 1) (mailed false) ∧ Runs (.hret 7) (mailed true) ∧
    Runs (.waitm 7 1 48 1) st ∧ Runs (.recvm 7 0 0 52 1) (mailed true) ∧ Runs (.hret 7) st ∧
    Runs (.svreq 7 56 1 1) (one { live with s := [(1, 7)] }) ∧ Runs (.svreq 7 56 1 1) (one { live with s := [(1, 16)] }) :=
  have A : ∀ b, ∀ srcs, Acts (mailed b) 0 0 7 srcs := fun _ => acts ⟨rfl, rfl, rfl, rfl, live_on⟩
  ⟨runs (H.1 7 1 0 48 st 0 0 (st_acts _) rfl (by decide +kernel) (by decide +kernel) (fun _ => by decide +kernel) (by decide +kernel)).1,
   runs (H.1 7 0 0 48 st 0 0 (st_acts _) rfl (by decide +kernel) (by decide +kernel) (fun _ => by decide +kernel) (by decide +kernel)).2,
   runs ((H.2.1 7 1 48 (mailed false) 0 0 (A _ _) rfl (fun _ => rfl)).1 (by decide +kernel)),
   runs (((H.2.1 7 0 53 (mailed false) 0 0 (A _ _) rfl (fun h => absurd h (by decide))).2 31).1 (by decide)),
   runs (((H.2.1 7 0 48 (mailed false) 0 0 (A _ _) rfl (fun _ => rfl)).2 0).2 [] ⟨1, [0, 0]⟩ [] rfl rfl (by decide +kernel)),
   runs (H.2.2 7 (mailed true) 0 0 (A _ _) rfl),
   runs (W.1 7 1 0 48 st 0 0 (st_acts _) rfl (fun _ => rfl) (by decide +kernel)).1,
   runs (W.1 7 0 0 52 (mailed true) 0 0 (A _ _) rfl (fun h => absurd h (by decide)) (by decide +kernel)).2,
   runs (W.2 7 st 0 0 (st_acts _) rfl),
   runs (S 7 56 1 _ 0 0 (acts (by decide +kernel) _) rfl rfl (by decide +kernel)),
   runs (S 7 56 1 _ 0 0 (acts (by decide +kernel) _) rfl rfl (by decide +kernel))⟩

/-- An access of counter `c` has not completed. -/
def busy (c : Nat) : State := one { live with counted := [⟨c, 1, false⟩] }

theorem witness_FenceForms (H : Obligations.FenceForms) :
    Runs (.waitc 7 5 48 1) st ∧ Runs (.waitc 7 3 48 1) (busy 3) ∧ Runs (.mramp 7 52 1) st ∧ Runs (.fence 7 3 0) st ∧
    Runs (.fence 7 4 5) st ∧ Runs (.fence 7 1 1) (busy 3) ∧ Runs (.fence 7 2 4) (busy 3) ∧ Runs (.fence 7 1 1) (busy 0) :=
  have A : ∀ c, ∀ srcs, Acts (busy c) 0 0 7 srcs := fun _ => acts ⟨rfl, rfl, rfl, rfl, live_on⟩
  ⟨runs ((H.1 7 5 48 st 0 0 (st_acts _) rfl).1.trans (if_pos (by decide +kernel))),
   runs ((H.1 7 3 48 (busy 3) 0 0 (A _ _) rfl).1.trans (if_neg (by decide +kernel))),
   runs (H.1 7 0 52 st 0 0 (st_acts _) rfl).2, runs ((H.2 7 3 0 st 0 0 (st_acts _)).1 rfl),
   runs ((H.2 7 4 5 st 0 0 (st_acts _)).2.1 (by decide) (fun _ => by decide +kernel) (fun _ => by decide +kernel)),
   runs ((H.2 7 1 1 (busy 3) 0 0 (A _ _)).2.1 (by decide) (fun h => absurd rfl h) (fun _ => by decide +kernel)),
   runs ((H.2 7 2 4 (busy 3) 0 0 (A _ _)).2.2 (by decide) (.inl (by decide +kernel))),
   runs ((H.2 7 1 1 (busy 0) 0 0 (A _ _)).2.2 (by decide) (.inr (by decide +kernel)))⟩

/-- Plan slot 63 belongs to context 1; S1 names it; the record that S2 names ends at the end of LOCAL memory. -/
def planned (off : Word) : State :=
  { one { live with s := [(1, 63), (2, off)] } with plans := [(63, { assigned := true, asid := 1 })],
                                                    structs := [(0, { assigned := true, asid := 1 })] }

theorem witness_PlanForms (H : Obligations.PlanForms) :
    Runs (.plarm ⟨7, 0, 1, 2, 0⟩) (planned 0x3FE0) ∧ Runs (.plbit ⟨7, 0, 1, 2, 0⟩) (planned 0x3FF0) ∧
    Runs (.plcom ⟨7, 0, 1, 2, 0⟩) (planned 0x3FE0) ∧ Runs (.plqry ⟨7, 28, 1⟩) (planned 0) ∧ Runs (.pldis ⟨7, 31, 1⟩) (planned 0) :=
  have A : ∀ o, ∀ srcs, Acts (planned o) 0 0 7 srcs := fun _ => acts ⟨rfl, rfl, rfl, rfl, live_on⟩
  ⟨runs ((H.1 ⟨7, 0, 1, 2, 0⟩ (planned 0x3FE0) 0 0 (A _ _) rfl (by decide +kernel)).1 (by decide +kernel)
    (unit_ok (by decide +kernel))),
   runs ((H.1 ⟨7, 0, 1, 2, 0⟩ (planned 0x3FF0) 0 0 (A _ _) rfl (by decide +kernel)).2.1 (by decide +kernel)
    (unit_ok (by decide +kernel))),
   runs ((H.1 ⟨7, 0, 1, 2, 0⟩ (planned 0x3FE0) 0 0 (A _ _) rfl (by decide +kernel)).2.2 (by decide +kernel)
    (unit_ok (by decide +kernel))),
   runs ((H.2 ⟨7, 28, 1⟩ (planned 0) 0 0 (A _ _) rfl (by decide +kernel) (by decide +kernel) (by decide +kernel)).1 rfl),
   runs (H.2 ⟨7, 31, 1⟩ (planned 0) 0 0 (A _ _) rfl (by decide +kernel) (by decide +kernel) (by decide +kernel)).2⟩

/-! ## Witnesses: memory, caches, copies, streams -/

/-- A form of 4 bytes with address V1 plus an offset of 256 from S0 (LOCAL, CLUSTER) or S0:S1 (GLOBAL). -/
def memf (space ord : BitVec 3) : MemF := ⟨7, 0, 1, 0, 1, 2, 256, space, ord, 4, 0, 0⟩

/-- The same with its address in V0, and SCOPE 0 where ORD is 0: what the rules of LD, SLD and the atomics allow (07 R191 to R193). -/
def memw (space ord : BitVec 3) : MemF := { memf space ord with a := 0, scope := if ord = 0 then 0 else 4 }

/-- Every row but those of LDR and STC is legal in LOCAL, LWIN and CLUSTER, and each in GLOBAL (07 R191 to R193, R198). -/
theorem test_legal_rows : ([0, 1, 2, 3] : List (BitVec 3)).map (fun k => ((memTable (memw k 0)).filter (·.instr.wf)).length) =
    [18, 18, 18, 20] := by decide +kernel

/-- `Lands` without the state it leaves. -/
def landsB (p : MemRow) (m : MemF) (s : State) : Bool :=
  let u := begun s 0 0
  let r := u.resolve m.space.toNat p.kind.size p.kind.acc p.kind.noSys (u.targets m p.kind.scalar)
  p.ok && memBaseOk m && r.bad.isEmpty &&
    (u.memWaits m.g (p.kind.code m.space.toNat) m.wt (memReleases m (p.kind.form == .load)) m.scope.toNat).toOption.isSome &&
    (r.s.watch m.space.toNat p.kind.watch r.ok fun _ => max p.kind.size 1).toOption.isSome

/-- Where the lanes land. -/
def landed (p : MemRow) (m : MemF) (s : State) : Resolved :=
  (begun s 0 0).resolve m.space.toNat p.kind.size p.kind.acc p.kind.noSys ((begun s 0 0).targets m p.kind.scalar)

theorem lands {p : MemRow} {m : MemF} {s : State} (A : ∀ srcs, Acts s 0 0 m.g srcs) (h : landsB p m s = true) :
    Lands p m s 0 0 (landed p m s).s (landed p m s).ok := by
  simp only [landsB, Bool.and_eq_true, List.isEmpty_iff] at h
  exact ⟨A _, by simp [h.1.1.1], unit_ok h.1.2, by rw [← h.1.1.2]; rfl, unit_ok h.2⟩

theorem all_rows {m : MemF} {q : MemRow → Bool} (h : (memTable m).all q = true) : ∀ p ∈ memTable m, q p = true :=
  List.all_eq_true.1 h

theorem witness_MemoryIdle (H : MemoryIdle) : ∀ p ∈ memTable (memf 0 0), MovesOn p.instr idle 0 0 8 := fun p hp =>
  H _ p hp idle 0 0 (idle_idles _) (all_rows (m := memf 0 0) (q := fun p => p.ok && memBaseOk (memf 0 0)) (by decide +kernel) p hp)

theorem witness_LocalForms (H : Obligations.LocalForms) : ∀ p ∈ memTable (memw 0 0), p.instr.wf = true → Runs p.instr st1 :=
  fun p hp w => runs ((H _ p hp st1 _ 0 0 _ w
    (lands st1_acts (all_rows (m := memw 0 0) (q := (landsB · (memw 0 0) st1)) (by decide +kernel) p hp)) rfl).1 (by decide))

/-- The word that the lane accesses is empty. -/
def emptied : State := { st1 with emptyWords := [(localBase 0 + 256) / 4] }
theorem emptied_acts : ∀ srcs, Acts emptied 0 0 7 srcs := acts (by decide +kernel)

theorem witness_LocalForms_fullEmpty (H : Obligations.LocalForms) :
    Runs (.st (memw 0 5)) emptied ∧ Runs (.ld (memw 0 5)) st1 ∧ Runs (.ld (memw 0 6)) st1 ∧ Runs (.st (memw 0 6)) emptied :=
  ⟨runs ((H (memw 0 5) ((memTable (memw 0 5))[1]) (List.getElem_mem _) emptied _ 0 0 _ (by decide) (lands emptied_acts (by decide +kernel)) rfl).2.1
    rfl rfl),
   runs ((H (memw 0 5) ((memTable (memw 0 5))[0]) (List.getElem_mem _) st1 _ 0 0 _ (by decide) (lands st1_acts (by decide +kernel)) rfl).2.2.1
    rfl rfl (by decide +kernel)),
   runs ((H (memw 0 6) ((memTable (memw 0 6))[0]) (List.getElem_mem _) st1 _ 0 0 _ (by decide) (lands st1_acts (by decide +kernel)) rfl).2.2.2
    rfl (by decide +kernel) (by decide +kernel)),
   runs ((H (memw 0 6) ((memTable (memw 0 6))[1]) (List.getElem_mem _) emptied _ 0 0 _ (by decide) (lands emptied_acts (by decide +kernel)) rfl).2.2.2
    rfl (by decide +kernel) (by decide +kernel))⟩

theorem witness_LwinForms (H : LwinForms) : ∀ p ∈ memTable (memw 1 0), p.instr.wf = true → Runs p.instr st1 := fun p hp w =>
  runs (H _ p hp st1 _ 0 0 _ w
    (lands st1_acts (all_rows (m := memw 1 0) (q := (landsB · (memw 1 0) st1)) (by decide +kernel) p hp)) rfl)

/-- The first extent of the cluster is the context's. -/
def extent : State := { st1 with clusters := [(0, { extents := [(0, 1)] })] }

theorem witness_ClusterForms (H : ClusterForms) : ∀ p ∈ memTable (memw 2 0), p.instr.wf = true → Runs p.instr extent := fun p hp w => by
  have l := lands (m := memw 2 0) (acts (s := extent) (by decide +kernel))
    (all_rows (m := memw 2 0) (q := (landsB · (memw 2 0) extent)) (by decide +kernel) p hp)
  have h := all_rows (m := memw 2 0) (q := fun p =>
    let v := (landed p (memw 2 0) extent).s
    let a := p.access (memw 2 0) extent v 0 (landed p (memw 2 0) extent).ok
    let blocks := (a.lanes.map fun l => (l.pa - clusterBase 0) / 256).eraseDups
    !v.poolOlder 0 && (v.cluster 0).admits blocks && (v.touchBlocks 0 (p.kind.form != .load) blocks).isSome) (by decide +kernel) p hp
  simp only [Bool.and_eq_true, Bool.not_eq_true'] at h
  exact runs (H _ p hp extent _ _ 0 0 _ w l rfl (fun _ => h.1) (Option.some_get h.2).symm)

theorem witness_GlobalForms (H : Obligations.GlobalForms) : ∀ p ∈ memTable (memw 3 0), p.instr.wf = true → Runs p.instr st1 := fun p hp w => by
  have l := lands (m := memw 3 0) st1_acts (all_rows (m := memw 3 0) (q := (landsB · (memw 3 0) st1)) (by decide +kernel) p hp)
  have h := all_rows (m := memw 3 0) (q := fun p =>
    let r := landed p (memw 3 0) st1
    r.ok.all (fun q => decide (q.2 < 2 ^ 52)) && decide (r.s.entriesUsed 0 + r.ok.length ≤ 256) &&
      decide (r.s.entriesUsed 0 + (p.access (memw 3 0) st1 r.s 0 r.ok).touched.length ≤ 256) && !r.s.missOlder &&
      r.s.postRoom 0 r.ok.length) (by decide +kernel) p hp
  simp only [Bool.and_eq_true, List.all_eq_true, decide_eq_true_eq, Bool.not_eq_true'] at h
  let ⟨_, _, h⟩ := H _ p hp st1 _ 0 0 _ w l rfl h.1.1.1.1 h.1.1.1.2 h.1.1.2 h.1.2 h.2
  exact runs h

theorem witness_MemoryFaults (H : Obligations.MemoryFaults) :
    (∀ p ∈ memTable { memw 0 0 with off := 1 }, p.instr.wf = true → Runs p.instr st1) ∧ Runs (.ld { memw 0 0 with off := 0x4000 }) st1 := by
  refine ⟨fun p hp w => ?_, ?_⟩
  · have h := all_rows (m := { memw 0 0 with off := 1 }) (q := fun p => p.ok && ((begun st1 0 0).memWaits 7
      (p.kind.code 0) 0 (memReleases { memw 0 0 with off := 1 } (p.kind.form == .load)) 0).toOption.isSome &&
      decide (((begun st1 0 0).targets { memw 0 0 with off := 1 } p.kind.scalar).map (fun q => (q.slot, q.lane, q.a, q.hi, q.mask)) =
        [(0, 0, 1, false, 1)]) && decide (p.kind.size = 4)) (by decide +kernel) p hp
    simp only [Bool.and_eq_true, decide_eq_true_eq] at h
    obtain ⟨⟨⟨h1, h2⟩, h3⟩, h4⟩ := h
    cases ht : (begun st1 0 0).targets { memw 0 0 with off := 1 } p.kind.scalar with
    | nil => rw [ht] at h3; cases h3
    | cons q rest =>
      rw [ht] at h3
      simp only [List.map_cons, List.cons.injEq, Prod.mk.injEq, List.map_eq_nil_iff] at h3
      exact runs ((H _ p hp st1 0 0 w (st1_acts _) (by rw [h1]; rfl) (unit_ok h2)).2 q rest ht (fun z hz => by
        rw [ht, h3.2, List.mem_singleton] at hz
        rw [hz, h4, h3.1.2.2.1]; decide))
  · exact runs ((H _ ((memTable { memw 0 0 with off := 0x4000 })[0]) (List.getElem_mem _) st1 0 0 (by decide) (st1_acts _) (by decide +kernel)
      (unit_ok (by decide +kernel))).1 (⟨0, 0, 0x4000, false, 1⟩, .bad 5 0x4000) [] (by decide +kernel) 5 0x4000 rfl)

/-- No page is mapped. -/
def unmapped : State := { st1 with mem := [] }

theorem witness_CacheForms (H : CacheForms) :
    Runs (.pref (memf 3 0)) unmapped ∧ Runs (.pref (memf 3 0)) st1 ∧ Runs (.pref (memf 2 0)) extent ∧
    Runs (.icinv (memf 3 0)) st1 ∧ Runs (.linv (memf 3 0)) st1 ∧ Runs (.lwb (memf 2 0)) extent ∧ Runs (.lcln (memf 3 0)) st1 ∧
    Runs (.pclr (memf 3 2)) st1 :=
  have U := acts (s := unmapped) (g := 7) (by decide +kernel)
  have E := acts (s := extent) (g := 7) (by decide +kernel)
  ⟨runs ((((H (memf 3 0) unmapped _ 0 0 _ (U _) rfl).1 (unit_ok (by decide +kernel))).1 _ rfl).1 (by decide +kernel)),
   runs ((((H (memf 3 0) st1 _ 0 0 _ (st1_acts _) rfl).1 (unit_ok (by decide +kernel))).1 _ rfl).2.1
    (by decide +kernel) rfl (by decide +kernel)),
   runs ((((H (memf 2 0) extent _ 0 0 _ (E _) rfl).1 (unit_ok (by decide +kernel))).1 _ rfl).2.2 _
    (by decide +kernel) (by decide) (Option.some_get (by decide +kernel)).symm),
   runs (((H (memf 3 0) st1 _ 0 0 _ (st1_acts _) rfl).1 (unit_ok (by decide +kernel))).2 (res_eq (by decide +kernel))),
   let ⟨_, _, h⟩ := ((H (memf 3 0) st1 _ 0 0 _ (st1_acts _) rfl).2.1 (.linv, .linv 4) List.mem_cons_self
    (unit_ok (by decide +kernel)) (res_eq (by decide +kernel))).1 rfl (by decide +kernel) (by decide +kernel)
   runs h,
   runs (((H (memf 2 0) extent _ 0 0 _ (E _) rfl).2.1 (.lwb, .lwb) (.tail _ List.mem_cons_self) (unit_ok (by decide +kernel))
    (res_eq (by decide +kernel))).2 (by decide)),
   let ⟨_, _, h⟩ := ((H (memf 3 0) st1 _ 0 0 _ (st1_acts _) rfl).2.1 (.lcln, .lcln) (.tail _ (.tail _ List.mem_cons_self))
    (unit_ok (by decide +kernel)) (res_eq (by decide +kernel))).1 rfl (by decide +kernel) (by decide +kernel)
   runs h,
   let ⟨_, _, h⟩ := (H (memf 3 2) st1 _ 0 0 _ (st1_acts _) rfl).2.2 (unit_ok (by decide +kernel)) (by decide +kernel)
    (res_eq (by decide +kernel)) (unit_ok (by decide +kernel)) (by decide +kernel)
   runs h⟩

/-- V0 of the lane holds a count. -/
def counting (n : Word) : State := one { lone with v := [(0, n)] }

theorem witness_FullEmptyForms (H : FullEmptyForms) :
    Runs (.femt (memf 0 0)) (counting 2) ∧ Runs (.fful (memf 0 2)) (counting 0) ∧ Runs (.fful (memf 1 0)) (counting 2) :=
  ⟨runs ((H (memf 0 0) (counting 2) 0 0 (acts (by decide +kernel) _) rfl [localBase 0 + 256] (by decide +kernel)
    (by decide +kernel) (unit_ok (by decide +kernel)) (.femt, .femt) List.mem_cons_self (unit_ok (by decide +kernel))).1 rfl),
   runs ((H (memf 0 2) (counting 0) 0 0 (acts (by decide +kernel) _) rfl [] (by decide +kernel)
    (by decide +kernel) (unit_ok (by decide +kernel)) (.fful, .fful) (.tail _ List.mem_cons_self) (unit_ok (by decide +kernel))).1
    rfl),
   runs ((H (memf 1 0) (counting 2) 0 0 (acts (by decide +kernel) _) rfl [localBase 0 + 256] (by decide +kernel)
    (by decide +kernel) (unit_ok (by decide +kernel)) (.fful, .fful) (.tail _ List.mem_cons_self) (unit_ok (by decide +kernel))).2
    (by decide))⟩

/-- The core's stream buffers are all in use; port 0 is bound. -/
def full : State := { st with cores := [(0, { streamUsed := 64 })] }
def bound : State := { one { live with ports := [(0, { bound := true })] } with cores := [(0, { streamUsed := 64 })] }

theorem witness_CopyAndStreamForms (H : CopyForm) (S : StreamForms) :
    Runs (.tcopy 7 1 2 1 2) st ∧ Runs (.stbind 7 7 31 0 0) full ∧ Runs (.stbind 7 7 31 0 0) bound ∧ Runs (.stbind 7 0 1 3 3) st ∧
    Runs (.stunb 7 0) st ∧ Runs (.stunb 7 0) bound ∧ Runs (.ststat 7 31 3) st :=
  ⟨runs (H 7 1 2 1 2 st 0 0 _ (st_acts _) rfl (get_ok (by decide +kernel)) (unit_ok (by decide +kernel)) (by decide +kernel)
    (fun _ => by decide +kernel) (by decide +kernel)),
   runs ((S.1 7 7 31 0 0 full 0 0 _ (acts (by decide +kernel) _) (by decide) (by decide) (get_ok (by decide +kernel))
    (unit_ok (by decide +kernel)) (by decide +kernel)).1 (by decide +kernel)),
   runs ((S.1 7 7 31 0 0 bound 0 0 _ (acts (by decide +kernel) _) (by decide) (by decide) (get_ok (by decide +kernel))
    (unit_ok (by decide +kernel)) (by decide +kernel)).2 (by decide +kernel)),
   runs ((S.1 7 0 1 3 3 st 0 0 _ (st_acts _) (by decide) (by decide) (get_ok (by decide +kernel)) (unit_ok (by decide +kernel))
    (by decide +kernel)).2 (by decide +kernel)),
   runs ((S.2 7 0 st 0 0 (st_acts _)).1 rfl),
   runs ((S.2 7 0 bound 0 0 (acts (by decide +kernel) _)).2.1 rfl (by decide +kernel)),
   runs ((S.2 7 3 st 0 0 (st_acts _)).2.2 31 (by decide))⟩

/-! ## Witnesses: the matrix unit -/

/-- Eight slices of one warp, with mask `m`, in a group of index `ix` of a team of two; tile 0 is allocated. -/
def warp (m : Pred) (ix : Nat) : State :=
  { slices := (List.range 8).map fun i => (i, { live with ix := i, width := 8, met := true, s := [(1, 0)],
                                                          paths := [{ state := .run, mask := m }] }),
    groups := [(1, { grp with slots := List.range 8, ix := ix, teamSize := 2 }),
               (2, { grp with core := 1, slots := [], ix := 1 - ix, teamSize := 2 })],
    cores := [(0, { tiles := [(0, { used := true, owner := 1, alloc := true })] })],
    issuer := { slots := List.range 8 } }

def mmaf (csrc : BitVec 2) (mt : BitVec 6) (team : BitVec 1) (spn : BitVec 2) : MmaF := ⟨7, 0, 0, 16, csrc, 0, 0, mt, 0, spn, team⟩

theorem witness_MatrixMultiplyForms (H : MatrixMultiplyForms) :
    Runs (.mma (mmaf 0 0 0 0)) (warp 0 0) ∧ Runs (.mma (mmaf 2 0 0 0)) (warp 1 0) ∧ Runs (.mmas (mmaf 0 48 0 3)) (warp 1 0) ∧
    Runs (.mma (mmaf 0 0 1 0)) (warp 1 1) ∧ Runs (.mma (mmaf 0 0 1 0)) (warp 1 0) := by
  have y : ∀ i ∈ [0, 1], (warp 1 i).countIssue.group? (warp 1 i).countIssue.gangGroup =
    some { grp with slots := List.range 8, ix := i, teamSize := 2 } := by decide +kernel
  have ma := H (.mma, false) List.mem_cons_self
  have G : ∀ f ∈ [mmaf 0 0 0 0, mmaf 2 0 0 0, mmaf 0 0 1 0], ∀ m ∈ ([0, 1] : List Pred), ∀ i ∈ [0, 1], Gang (warp m i)
      ((groupRegs (matGroups f.a.toNat f.b.toNat f.sc.toNat f.mt.toNat f.etype.toNat false f.spn.toNat)).map fun r => (0, r)) :=
    fun f hf m hm i hi => ⟨by revert f m i; decide +kernel, by revert f m i; decide +kernel, by revert f m i; decide +kernel⟩
  refine ⟨?_, ?_, ?_, ?_, ?_⟩
  · exact runs ((ma (mmaf 0 0 0 0) (warp 0 0) (G _ (by simp) _ (by simp) _ (by simp)) (by decide) (by decide +kernel)
      (fun _ _ => by decide +kernel) (by decide +kernel) (by decide +kernel)).1 (by decide +kernel))
  · exact runs (((ma (mmaf 2 0 0 0) (warp 1 0) (G _ (by simp) _ (by simp) _ (by simp)) (by decide) (by decide +kernel)
      (fun _ _ => by decide +kernel) (by decide +kernel) (by decide +kernel)).2 _ 0 0 (by decide +kernel) (y 0 (by simp))
      (by decide +kernel) (by decide +kernel) (by decide +kernel)).1 rfl)
  · exact runs (((H (.mmas, true) (.tail _ List.mem_cons_self) (mmaf 0 48 0 3) (warp 1 0)
      ⟨by decide +kernel, by decide +kernel, by decide +kernel⟩ (by decide) (by decide +kernel)
      (fun _ _ => by decide +kernel) (by decide +kernel) (by decide +kernel)).2 _ 0 0 (by decide +kernel) (y 0 (by simp))
      (by decide +kernel) (by decide +kernel) (by decide +kernel)).1 rfl)
  · exact runs ((((ma (mmaf 0 0 1 0) (warp 1 1) (G _ (by simp) _ (by simp) _ (by simp)) (by decide) (by decide +kernel)
      (fun _ _ => by decide +kernel) (by decide +kernel) (by decide +kernel)).2 _ 0 0 (by decide +kernel) (y 1 (by simp))
      (by decide +kernel) (by decide +kernel) (by decide +kernel)).2 rfl rfl).1 rfl)
  · exact runs ((((ma (mmaf 0 0 1 0) (warp 1 0) (G _ (by simp) _ (by simp) _ (by simp)) (by decide) (by decide +kernel)
      (fun _ _ => by decide +kernel) (by decide +kernel) (by decide +kernel)).2 _ 0 0 (by decide +kernel) (y 0 (by simp))
      (by decide +kernel) (by decide +kernel) (by decide +kernel)).2 rfl rfl).2 2
      { grp with core := 1, slots := [], ix := 1, teamSize := 2 } rfl (by decide +kernel))

theorem warp_free {m : Pred} : Free (warp m 0) := fun t ht => by
  have : t ∈ List.range 8 := ht
  fin_cases this <;> rfl

theorem witness_MatrixRequestForm (H : MatrixRequestForm) :
    Runs (.mreq 7 15 0 16 0 0 2 0 1) (warp 0 0) ∧ Runs (.mreq 7 15 0 16 0 0 2 0 1) (warp 1 0) :=
  ⟨runs ((H 7 15 0 16 0 0 2 0 1 (warp 0 0) ⟨by decide +kernel, by decide +kernel, by decide +kernel⟩
    warp_free (by decide) (by decide +kernel) (by decide) (by decide +kernel)).1 (by decide +kernel)),
   runs ((H 7 15 0 16 0 0 2 0 1 (warp 1 0) ⟨by decide +kernel, by decide +kernel, by decide +kernel⟩
    warp_free (by decide) (by decide +kernel) (by decide) (by decide +kernel)).2 (by decide +kernel)
    (by decide +kernel) (by decide +kernel) (by decide +kernel))⟩

/-- One allotted tile, allocated or not; S1 as given. -/
def tile (a : Bool) (s1 : Word) : State :=
  { one { live with s := [(1, s1)] } with cores := [(0, { tiles := [(0, { used := true, owner := 1, alloc := a })] })] }

theorem witness_TileForms (H : TileForms) (F : TileFaults) :
    Runs (.malloc 7 7 1) (tile false 0) ∧ Runs (.malloc 7 7 1) (tile true 1) ∧ Runs (.malloc 7 7 1) (tile false 1) ∧
    Runs (.mfree 7 1) (tile true 1) ∧ Runs (.mzero 7 0) (tile true 0) ∧ Runs (.mld 7 1 0 0x2000) (tile true 0) ∧
    Runs (.mst 7 1 0 0x2000) (tile true 0) ∧ Runs (.mrdv 7 56 0 3) (tile true 0) ∧ Runs (.mcvts 7 56 0 3 2 5 1) (tile true 0) ∧
    Runs (.mwrv 7 56 0 3) (tile true 0) ∧ Runs (.mzero 7 15) (tile true 0) ∧ Runs (.mrdv 7 56 15 0) (tile true 0) ∧
    Runs (.mld 7 1 15 0) (tile true 0) ∧ Runs (.mst 7 1 0 0) (tile false 0) :=
  have A : ∀ a v, ∀ srcs, Acts (tile a v) 0 0 7 srcs := fun _ _ => acts ⟨rfl, rfl, rfl, rfl, live_on⟩
  have M := fun (a : Bool) (v : Word) => H.1 7 7 1 (tile a v) 0 0 grp (A _ _ _) (by decide) rfl
  have T := H.2 7 0 (tile true 0) 0 0 0 grp (A _ _ _) (by decide) rfl rfl (by decide +kernel) (by decide +kernel)
  have N := fun (a : Bool) (t : BitVec 6) => F 7 t (tile a 0) 0 0 56 3 (A _ _ []).solo live_on rfl
  ⟨runs (((M false 0).1 (by decide) rfl (by decide +kernel)).1 (by decide +kernel)),
   runs (((M true 1).1 (by decide) rfl (by decide +kernel)).2.1 (by decide +kernel) (by decide +kernel)),
   runs (((M false 1).1 (by decide) rfl (by decide +kernel)).2.2 (by decide +kernel) (by decide +kernel) (by decide +kernel)),
   runs ((M true 1).2 (by decide +kernel)), runs T.1,
   runs ((T.2.1 1 0x2000 0x2000 (by decide) rfl (by decide +kernel) (by decide) (by decide +kernel)).1 (by decide +kernel)),
   runs ((T.2.1 1 0x2000 0x2000 (by decide) rfl (by decide +kernel) (by decide) (by decide +kernel)).2 (by decide +kernel)),
   runs (T.2.2 56 3 0 0 0 rfl).1, runs (T.2.2 56 3 2 5 1 rfl).2.1, runs ((T.2.2 56 3 0 0 0 rfl).2.2 (by decide +kernel)),
   runs (N true 15 (by decide) (by decide +kernel)).1, runs ((N true 15 (by decide) (by decide +kernel)).2.1 rfl),
   runs ((N true 15 (by decide) (by decide +kernel)).2.2 rfl 1 0 (by decide) rfl).1,
   runs ((N false 0 (by decide) (by decide +kernel)).2.2 rfl 1 0 (by decide) rfl).2⟩

/-! ## Witnesses: traversal requests, launches, traversal threads -/

/-- A slice whose S registers are as given, on a core with kernel 0 of context 1, in a device with structure 0 and launch
queue 0 of context 1. -/
def served (ss : Tab Word) : State :=
  { one { live with s := ss } with cores := [(0, { rake := { kernels := [(1, 0, 0, 8)] } })],
                                   structs := [(0, { assigned := true, asid := 1 })],
                                   queues := [(0, { enable := true, asid := some 1, devq := true, depth := 8 })] }
theorem served_acts (ss : Tab Word) : ∀ srcs, Acts (served ss) 0 0 7 srcs := acts ⟨rfl, rfl, rfl, rfl, live_on⟩

theorem witness_TraversalRequestForm (H : TraversalRequestForm) :
    Runs (.trq ⟨7, 56, 52, 30, 0, 0, 1, 1, 0, 0, 6, 9, 0⟩) (served []) ∧
    Runs (.trq ⟨7, 31, 0, 0, 0, 0, 0, 0, 1, 31, 0, 0, 1⟩) (served []) :=
  ⟨runs (H _ (served []) 0 0 (served_acts _ _) rfl (by decide +kernel) (by decide +kernel) (by decide +kernel) (by decide +kernel)
    (fun _ => by decide +kernel) (by decide +kernel)),
   runs (H _ (served []) 0 0 (served_acts _ _) rfl (by decide +kernel) (by decide +kernel) (by decide +kernel) (by decide +kernel)
    (fun h => absurd h (by decide)) (by decide +kernel))⟩

theorem witness_TraversalControlForms (H : TraversalControlForms) :
    Runs (.trpoll 7 31) st ∧ Runs (.trkill 7 1) st ∧ Runs (.trpin 7 28 1) (served []) ∧ Runs (.trpub 7 30 1 2 1) (served []) ∧
    Runs (.trunp 7 1) (served [(1, 0x300)]) ∧ Runs (.trload 7 31 2 1 4) (served [(4, 0x08000000)]) :=
  ⟨runs ((H.1 7 31 1 st 0 0 (st_solo _) live_on).1 (by decide)), runs (H.1 7 31 1 st 0 0 (st_solo _) live_on).2,
   runs (((H.2.1 7 28 1 2 0 (served []) 0 0 (served_acts _ _) rfl).1 (by decide +kernel) (by decide +kernel)).1 rfl),
   runs (((H.2.1 7 30 1 2 1 (served []) 0 0 (served_acts _ _) rfl).1 (by decide +kernel) (by decide +kernel)).2 rfl rfl
    (by decide +kernel) (.inl (by decide +kernel))),
   runs ((H.2.1 7 0 1 2 0 (served [(1, 0x300)]) 0 0 (served_acts _ _) rfl).2 (by decide +kernel) (by decide +kernel)),
   ⟨_, by
    apply H.2.2 7 31 2 1 4 (served [(4, 0x08000000)]) 0 0 (served_acts _ _) rfl
    all_goals decide +kernel⟩⟩

/-- Target 0 of the context is set. -/
def targeted : State := { st with mem := (0, 4) :: pages }
def warped : State := one { live with repacked := true }

theorem witness_LaunchAndRepackForms (H : LaunchQueueForms) (R : RepackForms) :
    Runs (.lqpsh 7 31 1 2 1) (served [(2, 0x3FC0)]) ∧ Runs (.lqstat 7 31 1) (served [(1, 127)]) ∧ Runs (.callq 7 56 0 0) st ∧
    Runs (.callq 7 56 0 0) targeted ∧ Runs (.retq 7) warped ∧ Runs (.retq 7) st :=
  ⟨runs ((H 7 31 1 2 1 (served [(2, 0x3FC0)]) 0 0 (served_acts _ _) rfl).1 _ (get_ok (by decide +kernel))
    (unit_ok (by decide +kernel)) (fun _ => by decide +kernel)),
   runs ((H 7 31 1 2 1 (served [(1, 127)]) 0 0 (served_acts _ _) rfl).2 (by decide +kernel)),
   runs (R.1 7 56 0 0 st _ 0 0 _ _ (st_acts _) rfl rfl rfl (by decide +kernel) (Option.some_get (by decide +kernel)).symm
    (by decide +kernel)),
   runs (R.1 7 56 0 0 targeted _ 0 0 _ _ (acts (by decide +kernel) _) rfl rfl rfl (by decide +kernel)
    (Option.some_get (by decide +kernel)).symm (by decide +kernel)),
   runs ((R.2 7 warped 0 0 (solo (by decide +kernel) _) live_on).1 rfl), runs ((R.2 7 st 0 0 (st_solo _) live_on).2 rfl)⟩

/-- Thread 0 of core 0's rake runs, in context 1 with a kernel of eight words. -/
def trav (t : Thread) : State :=
  { cores := [(0, { rake := { threads := [(0, t)], kernels := [(1, 0, 0, 8)] } })], groups := [(1, grp)], mem := pages }
def thr : Thread := { used := true, asid := 1 }
def tst : State := trav thr

theorem witness_TraversalArithmetic (H : TraversalIntegerForms) (F : TraversalFloatForms) :
    (∀ p ∈ travInts, Runs (p.1 ⟨29, 1, 2⟩) tst ∧ Runs (p.1 ⟨30, 1, 2⟩) tst ∧ Runs (p.2.1 ⟨29, 1, 1⟩) tst) ∧
    (∀ p ∈ travFloats, Runs (p.1 ⟨29, 1, 2⟩) tst ∧ Runs (p.1 ⟨31, 1, 2⟩) tst) ∧ Runs (.tFcmp 0 1) tst ∧ Runs (.tMovi 29 0x8000) tst ∧
    Runs (.tMoviHi 29 1) tst ∧ Runs (.tSel 29 0 1 10) tst :=
  ⟨fun p hp => ⟨runs (((H p hp tst).1 ⟨29, 1, 2⟩).1 (by decide)), runs (((H p hp tst).1 ⟨30, 1, 2⟩).2 (by decide)),
    runs (((H p hp tst).2 ⟨29, 1, 1⟩).1 (by decide))⟩,
   fun p hp => ⟨runs (((F tst).1 p hp ⟨29, 1, 2⟩).1 (by decide)), runs (((F tst).1 p hp ⟨31, 1, 2⟩).2 (by decide))⟩,
   runs ((F tst).2.1 0 1), runs (((F tst).2.2 29 (by decide)).1 0x8000).1, runs (((F tst).2.2 29 (by decide)).1 1).2,
   runs (((F tst).2.2 29 (by decide)).2 0 1 10)⟩

theorem witness_TraversalFlow (H : TraversalFlowForms) (R : TraversalPcRange) (E : TraversalEmitMigrate) :
    Runs (.tJmp 31 0) (trav { thr with w := [(0, 0x800)] }) ∧ Runs (.tJmp 29 0) (trav { thr with w := [(0, 0x7FF)] }) ∧
    Runs (.tBrc 0 7) tst ∧ Runs (.tBrc 0 8) tst ∧ Runs (.tBrc 0 0x7FF) tst ∧ Runs (.tEmit 31 28 0) tst ∧
    Runs (.tMigr 0) (trav { thr with w := [(0, 0x800)] }) ∧ Runs (.tMigr 0) tst ∧
    Runs (.tMigr 0) (trav { thr with w := [(0, 1)], emits := 1 }) ∧ Runs (.tMigr 0) (trav { thr with w := [(0, 0x7FF)] }) :=
  ⟨runs (((H (trav { thr with w := [(0, 0x800)] })).2.1 31 0 (.inr rfl)).1 (by decide)),
   runs (((H (trav { thr with w := [(0, 0x7FF)] })).2.1 29 0 (.inl (by decide))).2 (by decide)),
   let ⟨_, h, _⟩ := (R tst 0 7).1 (by decide +kernel)
   runs h, runs ((R tst 0 8).2 (by decide +kernel)), runs ((R tst 0 0x7FF).2 (by decide +kernel)),
   runs ((E tst).1 31 28 0 _ _ (by decide) (by decide) (by decide) (by decide +kernel) (by decide +kernel) (get_ok2 (by decide +kernel))),
   runs (((E (trav { thr with w := [(0, 0x800)] })).2 0).1 (by decide)),
   runs (((E tst).2 0).2.1 (by decide) rfl rfl),
   runs (((E (trav { thr with w := [(0, 1)], emits := 1 })).2 0).2.2.1 (by decide) (.inl (by decide)) (by decide)),
   runs (((E (trav { thr with w := [(0, 0x7FF)] })).2 0).2.2.2 (by decide) (.inl (by decide)) _ (get_ok (by decide +kernel)) rfl)⟩

theorem witness_NodeFetchForm (H : NodeFetchForm) :
    Runs (.tNfch 0) (trav { thr with w := [(1, 0x00100000)] }) ∧ Runs (.tNfch 0) (trav { thr with w := [(0, 64)] }) ∧
    Runs (.tNfch 30) tst ∧ Runs (.tNfch 0) (trav { thr with w := [(1, 0x80000000)] }) ∧
    Runs (.tNfch 0) (trav { thr with w := [(0, 0x40000), (1, 0x80000000), (31, 0x2000)], emits := 1 }) :=
  ⟨runs ((H (trav { thr with w := [(1, 0x00100000)] }) 0 (by decide)).1 (by decide +kernel)),
   runs ((H (trav { thr with w := [(0, 64)] }) 0 (by decide)).2.1 (by decide +kernel)),
   runs (((H tst 30 (by decide)).2.2 (by decide +kernel) (by decide +kernel) _).1 (ok_snd (by decide +kernel) (by decide +kernel)) (by decide +kernel)),
   runs (((H (trav { thr with w := [(1, 0x80000000)] }) 0 (by decide)).2.2 (by decide +kernel) (by decide +kernel) _).1
    (ok_snd (by decide +kernel) (by decide +kernel)) (by decide +kernel)),
   runs (((H (trav { thr with w := [(0, 0x40000), (1, 0x80000000), (31, 0x2000)], emits := 1 }) 0 (by decide)).2.2
    (by decide +kernel) (by decide +kernel) _).2 1 0 (ok_snd (by decide +kernel) (by decide +kernel)) (by decide +kernel))⟩

/-- The node buffer holds a node with the given first word, and the ray from the origin along z in W0 to W7. -/
def noded (w0 : Word) (rest : List Word) (w : Tab Word) : State :=
  trav { thr with node := some ((w0 :: rest ++ List.replicate 31 0).take 32), w := w }
/-- A triangle with corners (−1, −1, 1), (1, −1, 1) and (0, 1, 1) in slot 0. -/
def triangle : List Word :=
  [0xBF800000, 0xBF800000, 0x3F800000, 0x3F800000, 0xBF800000, 0x3F800000, 0, 0x3F800000, 0x3F800000]
def ray : Tab Word := [(5, 0x3F800000), (7, 0x7F800000), (8, 0x7F800000)]

theorem witness_NodeForms (H : NodeForms) :
    Runs (.tNdec 29 0 31) (noded 1 [] []) ∧ Runs (.tNdecX ⟨29, 0, 1⟩) (noded 1 [] []) ∧ Runs (.tNqbx 24 7) (noded 1 [] []) ∧
    Runs (.tBox8 29 24) (noded 1 [] []) ∧ Runs (.tSbox8 29 28) (noded 1 [] []) ∧ Runs (.tTri 25 22 0 3) (noded 2 [] []) ∧
    Runs (.tTri 8 0 20 0) (noded 0x12 triangle ray) ∧ Runs (.tSphd 28 0 0) (noded 2 [] []) ∧
    Runs (.tSphd 28 0 0) (noded 0x12 triangle ray) ∧ Runs (.tKcmp8 28 0 0) (noded 0x14 [] []) ∧
    Runs (.tVdist ⟨29, 2, 0⟩) (noded 5 [] [(0, 8)]) ∧ Runs (.tNdec 23 0 0) tst ∧ Runs (.tKcmp8 23 22 0) tst :=
  ⟨runs (((H (noded 1 [] [])).1 _ rfl).1 29 0 31 (by decide)), runs (((H (noded 1 [] [])).1 _ rfl).2.1 ⟨29, 0, 1⟩ (by decide)),
   runs (((H (noded 1 [] [])).1 _ rfl).2.2.1 24 7 (by decide) (by decide +kernel)),
   runs ((((H (noded 1 [] [])).1 _ rfl).2.2.2.1 29 24 (by decide) (by decide +kernel)).1 (by decide)),
   runs ((((H (noded 1 [] [])).1 _ rfl).2.2.2.1 29 28 (by decide) (by decide +kernel)).2 (by decide)),
   runs ((((H (noded 2 [] [])).1 _ rfl).2.2.2.2.1 25 22 0 3 (by decide) (by decide) (by decide +kernel)).1 (by decide +kernel)),
   runs ((((H (noded 0x12 triangle ray)).1 _ rfl).2.2.2.2.1 8 0 20 0 (by decide) (by decide) (by decide +kernel)).2 _ _ _
    (show _ = some (_, _, _) from (Option.some_get (by decide +kernel)).symm)),
   runs ((((H (noded 2 [] [])).1 _ rfl).2.2.2.2.2.1 28 0 0 (by decide) (by decide) (by decide +kernel)).1 (by decide +kernel)),
   runs ((((H (noded 0x12 triangle ray)).1 _ rfl).2.2.2.2.2.1 28 0 0 (by decide) (by decide) (by decide +kernel)).2
    (by decide +kernel)),
   runs (((H (noded 0x14 [] [])).1 _ rfl).2.2.2.2.2.2.1 28 0 0 (by decide) (by decide +kernel)),
   runs (((H (noded 5 [] [(0, 8)])).1 _ rfl).2.2.2.2.2.2.2 ⟨29, 2, 0⟩ (by decide) (by decide) (by decide +kernel)
    (by decide +kernel) (by decide +kernel) (by decide +kernel) (by decide +kernel)),
   runs ((H tst).2 rfl 23 0 0 0 (by decide) (by decide)).1,
   runs (((H tst).2 rfl 23 22 0 0 (by decide) (by decide)).2.2.2.2.2 0).2.2⟩

/-- A thread with stack entries. -/
def stacked (es : List Nat) (w : Tab Word) : State := trav { thr with stack := es.map (·, true), w := w }
/-- The last test hit slots 6, 1 and 4. -/
def tested : State :=
  trav { thr with node := some (1 :: List.replicate 31 0), w := [(0, 0xFF)],
                  test := some [(false, 0), (true, 0x40000000), (false, 0), (false, 0), (true, 0x40400000), (false, 0), (true, 0),
                                (false, 0)] }

theorem witness_StackForms (H : Obligations.StackForms) :
    Runs (.tPushm 0) tested ∧ Runs (.tPushm 0) tst ∧ Runs (.tPushmE 30 0) (stacked (List.replicate 7 0) []) ∧ Runs (.tPop 27) tst ∧
    Runs (.tPop 27) (stacked [] [(30, 0x00100000)]) ∧ Runs (.tPop 27) (stacked [0] [(31, 0x4000)]) ∧ Runs (.tStkq 29 0) tst ∧
    Runs (.tStkq 29 1) (stacked [0] []) ∧ Runs (.tStkq 29 1) tst ∧ Runs (.tStkq 29 1) (stacked [] [(30, 0x00100000)]) ∧
    Runs (.tStkq 29 2) (stacked [0] []) :=
  ⟨runs ((H tested).1 0 _ _ _ _ rfl rfl (get_ok (by decide +kernel))), runs ((H tst).2.1 0 (.inl rfl)),
   runs ((H (stacked (List.replicate 7 0) [])).2.2.1 30 0 (by decide) (by decide +kernel) (by decide +kernel) (by decide)),
   runs (((H tst).2.2.2 27).1 (by decide) |>.1 rfl rfl),
   runs (((H (stacked [] [(30, 0x00100000)])).2.2.2 27).1 (by decide) |>.2.1 rfl (by decide)),
   runs (((H (stacked [0] [(31, 0x4000)])).2.2.2 27).1 (by decide) |>.2.2 _ _ rfl (by decide)),
   runs (((H tst).2.2.2 29).2 (by decide)).1, runs ((((H (stacked [0] [])).2.2.2 29).2 (by decide)).2.1 _ _ rfl),
   runs ((((H tst).2.2.2 29).2 (by decide)).2.2.1 rfl rfl),
   runs ((((H (stacked [] [(30, 0x00100000)])).2.2.2 29).2 (by decide)).2.2.2.1 rfl (by decide)),
   runs (((H (stacked [0] [])).2.2.2 29).2 (by decide)).2.2.2.2⟩

/-! ## Witnesses: device steps -/

/-- An operation of the slice in slot 0 of core 0. -/
def op0 : Op := { id := 5, core := 0, asid := 1, pc := 0, members := [0] }
/-- `s` with one operation, or one message from core 0, under way. -/
def withOp (s : State) (o : Op) : State := { s with ops := [o] }
def msg0 (dst : Nat) (p : Pkt) : Flight := { id := 6, src := 0, dst := dst, asid := 1, op := some 5, pkt := p }
def carry (s : State) (f : Flight) : State := { s with flights := [f] }
theorem due {s : State} {f : Flight} (h : s.flight? f.id = some f ∧ s.first f = true) : Due s f := ⟨h.1, h.2⟩

theorem witness_AnswerEvents (H : AnswerEvents) :
    Runs (.evLoadDataReturn 5) (withOp st { op0 with code := some 1 }) ∧ Runs (.evLoadDataReturn 5) (withOp st op0) ∧
    Runs (.evStoreAcknowledge 5) (withOp st { op0 with code := some 2 }) ∧
    Runs (.evUnitAnswerArrival 5) (withOp st { op0 with osec := 1 }) ∧ Runs (.evUnitAnswerArrival 5) (withOp st { op0 with osec := 5 }) ∧
    Runs (.evUnitAnswerArrival 5) (withOp st { op0 with dest := .s 0 1 }) ∧
    Runs (.evIcinvCompletion 5) (withOp st { op0 with await := 8 }) :=
  ⟨runs ((H _ { op0 with code := some 1 } ⟨rfl, rfl⟩).1 rfl), runs ((H _ op0 ⟨rfl, rfl⟩).1 rfl),
   runs ((H _ { op0 with code := some 2 } ⟨rfl, rfl⟩).2.1 (.inl rfl)),
   runs (((H _ { op0 with osec := 1 } ⟨rfl, rfl⟩).2.2.1 (by decide +kernel)).1 (by decide) (by decide)),
   runs (((H _ { op0 with osec := 5 } ⟨rfl, rfl⟩).2.2.1 (by decide +kernel)).1 (by decide) (by decide)),
   runs (((H _ { op0 with dest := .s 0 1 } ⟨rfl, rfl⟩).2.2.1 (by decide +kernel)).2 ⟨0, 1, rfl⟩ rfl rfl (by decide +kernel)),
   runs ((H _ { op0 with await := 8 } ⟨rfl, rfl⟩).2.2.2 rfl rfl)⟩

/-- One lane's access of 4 bytes. -/
def acc0 (form : AccForm) (pa : Nat) : Acc := { form := form, size := 4, lanes := [⟨0, 0, 0, pa, false, 0, 0⟩] }
/-- A held atomic unit. -/
def unit0 (applied : Bool) : AUnit :=
  { key := 0x800, holder := msg0 (nodeHome 0) (.reserve (acc0 (.atomic .add) 0x4000)), applied := applied, queue := [] }

theorem witness_MemoryEvents (H : MemoryEvents) :
    Runs (.evLwinAccessAtHome 6) (carry (withOp st op0) (msg0 0 (.lwin (acc0 .load (localBase 0))))) ∧
    Runs (.evGlobalRequestAtHome 6) (carry (withOp st op0) (msg0 (nodeHome 0) (.global (acc0 .load 0x4000) []))) ∧
    Runs (.evAtomicReserve 6) (carry (withOp st op0) (msg0 (nodeHome 0) (.reserve (acc0 (.atomic .add) 0x4000)))) ∧
    Runs (.evSystemAtomicopCompletion 6 true) (carry (withOp st op0) (msg0 nodeHost (.sysAtomic (acc0 (.atomic .add) hostBase)))) ∧
    Runs (.evBlockExpansionComplete 6) (carry (withOp extent op0) (msg0 (nodeCluster 0) (.cluster (acc0 .load (clusterBase 0))))) ∧
    Runs (.evAtomicGrant 0x800) { withOp st op0 with units := [unit0 false] } ∧
    Runs (.evAtomicUnitRelease 0x800) { withOp st op0 with units := [unit0 true] } :=
  ⟨runs ((H.1 _ (msg0 0 (.lwin (acc0 .load (localBase 0)))) _ (due (by decide +kernel))).1 rfl),
   runs ((H.1 _ (msg0 (nodeHome 0) (.global (acc0 .load 0x4000) [])) _ (due (by decide +kernel))).2.1 [] (by decide +kernel)
    (by decide +kernel) (by decide +kernel) rfl),
   runs ((H.1 _ (msg0 (nodeHome 0) (.reserve (acc0 (.atomic .add) 0x4000))) _ (due (by decide +kernel))).2.2.1 (by decide +kernel)
    (by decide +kernel) rfl),
   runs ((H.1 _ (msg0 nodeHost (.sysAtomic (acc0 (.atomic .add) hostBase))) _ (due (by decide +kernel))).2.2.2 5 _ [] true rfl rfl
    rfl),
   runs (H.2.1 _ (msg0 (nodeCluster 0) (.cluster (acc0 .load (clusterBase 0)))) _ op0 rfl rfl rfl rfl (by decide +kernel)),
   runs ((H.2.2 { withOp st op0 with units := [unit0 false] } (unit0 false) rfl).1 _ rfl rfl),
   runs ((H.2.2 { withOp st op0 with units := [unit0 true] } (unit0 true) rfl).2 rfl)⟩

/-- The slice is parked; TIME is `t`. -/
def parked (p : Park) (t : BitVec 64) : State := { one { live with park := some p, woken := true } with time := t }

theorem witness_PoolTimeoutEvent (H : PoolTimeoutEvent) :
    Runs (.evPoolWaitTimeout 0 0) (parked (.pool 0 1 0 1) 100001) ∧ Runs (.evPoolWaitTimeout 0 0) (parked (.pool 0 1 0 1) 100000) :=
  ⟨runs ((H (parked (.pool 0 1 0 1) 100001) 0 0 0 1 0 1 rfl rfl rfl).1 (by decide +kernel)),
   runs ((H (parked (.pool 0 1 0 1) 100000) 0 0 0 1 0 1 rfl rfl rfl).2 (by decide +kernel))⟩

def m0 (asid : Nat) : Msg := ⟨asid, List.replicate 8 0⟩
/-- A message for core 0's mailbox, or handler queue, which hold `n` messages; one was refused before, or none. -/
def mail (n : Nat) (refused : List Nat) (asid : Nat) (h : Bool) : State :=
  carry { st with cores := [(0, { mailbox := List.replicate n (m0 1), handlerQ := List.replicate n (m0 1), mailRefused := refused,
                                  handlerRefused := refused })] } (msg0 0 (.msg (m0 asid) h false))

theorem witness_MessageEvents (H : MessageEvents) :
    Runs (.evMessageArrival 6) (mail 63 [] 1 false) ∧ Runs (.evHandlerQueueArrival 6) (mail 15 [] 1 true) ∧
    Runs (.evMessageArrival 6) (mail 64 [] 1 false) ∧ Runs (.evHandlerQueueArrival 6) (mail 0 [9] 1 true) ∧
    Runs (.evMessageArrival 6) (mail 0 [] 2 false) ∧ Runs (.evMessageRetry 6) (mail 63 [6] 1 false) :=
  ⟨runs (((H (mail 63 [] 1 false) (msg0 0 (.msg (m0 1) false false)) _ _ _ rfl).1 (due (by decide +kernel))).1 rfl
    (by decide +kernel) (by decide +kernel)),
   runs (((H (mail 15 [] 1 true) (msg0 0 (.msg (m0 1) true false)) _ _ _ rfl).1 (due (by decide +kernel))).1 rfl
    (by decide +kernel) (by decide +kernel)),
   runs (((H (mail 64 [] 1 false) (msg0 0 (.msg (m0 1) false false)) _ _ _ rfl).1 (due (by decide +kernel))).2.1 (by decide +kernel)
    (by decide +kernel) (.inr (by decide +kernel))),
   runs (((H (mail 0 [9] 1 true) (msg0 0 (.msg (m0 1) true false)) _ _ _ rfl).1 (due (by decide +kernel))).2.1 (by decide +kernel)
    (by decide +kernel) (.inl (by decide +kernel))),
   runs (((H (mail 0 [] 2 false) (msg0 0 (.msg (m0 2) false false)) _ _ _ rfl).1 (due (by decide +kernel))).2.2 (by decide +kernel)
    (by decide +kernel)),
   runs ((H (mail 63 [6] 1 false) (msg0 0 (.msg (m0 1) false false)) _ _ _ rfl).2 rfl [] rfl (by decide +kernel) (by decide +kernel))⟩

/-- A message waits for a handler, whose entry is `e`; the handler slots 120 to 126 are taken. -/
def handling (e : Memory) : State :=
  { st with mem := e ++ pages, cores := [(0, { handlerQ := [m0 1] })],
            slices := (List.range 7).map fun i => (120 + i, { live with handler := true }) }

/-- A handler waits to start, and a saved group holds the context's state of the core, with the saved slices `xs`. -/
def keeping (xs : Tab Slice) : State :=
  { handling [(0, 4)] with groups := [(2, { grp with saved := true, savedCore := true, savedSlices := xs })] }

theorem witness_HandlerEvents (H : HandlerEvents) :
    Runs (.evHandlerStart 0) (handling []) ∧ Runs (.evHandlerStart 0) (handling [(0, 4)]) ∧
    Runs (.evHandlerStart 0) (keeping []) ∧ Runs (.evHandlerStart 0) (keeping [(120, live)]) ∧
    Runs (.evHandlerRunLimit 0 0) { one { live with handler := true } with cycle := 65536 } :=
  ⟨runs ((H.1 (handling []) 0 (m0 1) [] rfl (by decide +kernel)).1 (by decide +kernel)),
   runs ((H.1 (handling [(0, 4)]) 0 (m0 1) [] rfl (by decide +kernel)).2 127 (by decide +kernel) (by decide) (by decide) (by decide +kernel)
    (fun j h1 h2 => by interval_cases j <;> decide +kernel)),
   runs ((H.2.1 (keeping []) 0 (m0 1) [] rfl (by decide +kernel) (by decide +kernel) (by decide +kernel)).1 (by decide +kernel)),
   runs ((H.2.1 (keeping [(120, live)]) 0 (m0 1) [] rfl (by decide +kernel) (by decide +kernel) (by decide +kernel)).2
    (by decide +kernel)),
   runs (H.2.2 { one { live with handler := true } with cycle := 65536 } 0 0 (by decide +kernel) rfl)⟩

/-- A second path runs elsewhere. -/
def forked : Slice :=
  { live with paths := [{ state := .run, mask := 1, pc := 0x1000 }, { state := .run, mask := 2, pc := 0x2000 }], fair := 512 }

theorem witness_PathEvents (H : PathEvents) :
    Runs (.evParkReevaluation 0 0) (parked .rendezvous 0) ∧
    Runs (.evHoldVisitLimit 0 0) (one { live with hold := some ⟨0x1000, 0, 1, 512⟩ }) ∧ Runs (.evFairnessSwitch 0 0) (one forked) :=
  ⟨runs ((H (parked .rendezvous 0) 0 0).1 rfl rfl (by decide +kernel) rfl),
   runs ((H (one { live with hold := some ⟨0x1000, 0, 1, 512⟩ }) 0 0).2.1 _ rfl rfl (by decide +kernel) (by decide)),
   runs ((H (one forked) 0 0).2.2 rfl rfl (by decide +kernel))⟩

theorem witness_RetirementEvents (H : RetirementEvents) :
    Runs (.evSlotRelease 0 0) (one { live with phase := .retired, retCounted := true }) ∧
    Runs (.evRetirementCounted 0 0) (one { live with phase := .retired }) :=
  ⟨runs ((H (one { live with phase := .retired, retCounted := true }) 0 0 rfl).1 rfl (.inr rfl)),
   runs ((H (one { live with phase := .retired }) 0 0 rfl).2 grp { cluster := 0, groups := [1], ret := 0, barriers := [0] } rfl rfl
    (by decide +kernel) (by decide +kernel) rfl rfl (by decide +kernel))⟩

/-- The slice holds section 0 since cycle 0, with a limit of one cycle. -/
def holding : State :=
  { st with ctxs := [(1, { sectlim := 1 })], cycle := 2,
            sections := [(0, { used := true, holder := some ⟨0, 0, 0, 1, 1, 0⟩ })] }
/-- Every slice of the context waits at a barrier. -/
def hung : State := { one { live with park := some (.barrier 0 2 false true) } with ctxs := [(1, { hang := 5, hanglim := 5 })] }

theorem witness_SynchronisationEvents (H : Obligations.SynchronisationEvents) :
    Runs (.evTeamBarrierArrival 6) (carry (barred [] 0) (msg0 (nodeTeam 0) (.teamArrive (some 1) 0 5 false (some 1)))) ∧
    Runs (.evTeamBarrierArrival 6) (carry (barred [] 0) (msg0 (nodeTeam 0) (.teamArrive (some 2) 0 5 false (some 1)))) ∧
    Runs (.evTeamBarrierArrival 6) (carry { barred [] 0 with slices := [(0, { live with park := some (.answer 6) })] }
      (msg0 (nodeTeam 0) (.teamArrive (some 1) 0 5 true none))) ∧
    Runs (.evOsecRequestAtHome 6) (carry (withOp st { op0 with osec := 1 }) (msg0 (nodeOsec 0) (.osec 0 0 [(0, 0, 0)]))) ∧
    Runs (.evStealArrival 6) (carry (withOp (dq 0 [(0, 3, 0)]) op0) (msg0 0 (.steal 0 0 0 false))) ∧
    Runs (.evStealArrival 6) (carry (withOp (dq 0 [(7, 1, 0)]) op0) (msg0 0 (.steal 0 0 0 true))) ∧
    Runs (.evStealArrival 6) (carry (withOp (dq 0 []) op0) (msg0 0 (.steal 0 0 0 false))) ∧
    Runs (.evStealArrival 6) (carry (withOp st op0) (msg0 0 (.steal 0 0 0 false))) ∧
    Runs (.evSectionOverrun 0 0) holding ∧ Runs (.evHang 1) hung :=
  have S := fun (s : State) (r : Bool) (h : (carry s (msg0 0 (.steal 0 0 0 r))).flight? 6 = some (msg0 0 (.steal 0 0 0 r)) ∧
      (carry s (msg0 0 (.steal 0 0 0 r))).first (msg0 0 (.steal 0 0 0 r)) = true) =>
    (H.1 _ (msg0 0 (.steal 0 0 0 r)) (due h)).2.2.2 0 0 0 r op0 rfl rfl
  ⟨runs (((H.1 _ (msg0 (nodeTeam 0) (.teamArrive (some 1) 0 5 false (some 1))) (due (by decide +kernel))).1 _ 0 5 false 1 rfl).2 rfl
    rfl),
   runs (((H.1 _ (msg0 (nodeTeam 0) (.teamArrive (some 2) 0 5 false (some 1))) (due (by decide +kernel))).1 _ 0 5 false 1 rfl).1
    (.inr (by decide +kernel))),
   runs ((H.1 _ (msg0 (nodeTeam 0) (.teamArrive (some 1) 0 5 true none)) (due (by decide +kernel))).2.1 _ 0 5 true rfl rfl rfl rfl rfl rfl
    (by decide +kernel)),
   runs ((H.1 _ (msg0 (nodeOsec 0) (.osec 0 0 [(0, 0, 0)])) (due (by decide +kernel))).2.2.1 0 0 _ rfl),
   runs ((S _ false (by decide +kernel) rfl rfl).1 1 2 0 [(0, 1, 0)] rfl rfl),
   runs ((S _ true (by decide +kernel) rfl rfl).1 7 1 0 [] rfl rfl),
   runs ((S _ false (by decide +kernel) rfl rfl).2 (.inr rfl) rfl),
   runs ((S _ false (by decide +kernel) rfl rfl).2 (.inl (by decide +kernel)) rfl),
   runs (H.2.1 holding _ 0 0 rfl rfl (Option.some_get (by decide +kernel)).symm),
   runs (H.2.2 hung 1 (by decide) (by decide) (by decide +kernel) (by decide +kernel))⟩

/-- A copy request, and cluster 0's first engine in a state. -/
def creq : CopyReq := { seq := 5, op := 5, core := 0, slot := 0, asid := 1, tag := 0, desc := List.replicate 32 0, handler := false,
                        base := 0, len := 0x4000 }
def engine (e : Engine) : State := { withOp st op0 with clusters := [(0, { engine0 := e })] }

theorem witness_CopyEvents (H : CopyEvents) :
    Runs (.evCopyRequestArrival 6) (carry (engine { queue := List.replicate 15 creq }) (msg0 (nodeEngine 0) (.copy creq none))) ∧
    Runs (.evCopyRequestArrival 6) (carry (engine { queue := List.replicate 16 creq }) (msg0 (nodeEngine 0) (.copy creq none))) ∧
    Runs (.evCopyRequestRetry 6) { carry (engine { refused := [6] }) (msg0 (nodeEngine 0) (.copy creq (some 1))) with cycle := 65 } ∧
    Runs (.evCopyRequestRetry 6) { carry (engine { refused := [9, 6] }) (msg0 (nodeEngine 0) (.copy creq (some 1))) with cycle := 65 } ∧
    Runs (.evCopyRequestStart 0) (engine { queue := [creq], active := List.replicate 3 creq }) ∧
    Runs (.evCopyRequestEnd 0 0) (engine { active := [{ creq with ended := true }] }) ∧
    Runs (.evCopyRequestEnd 0 0) (engine { active := [creq] }) ∧
    Runs (.evCopyPoolTimeout 0 0) { engine { active := [{ creq with wait := .pool 1 }] } with time := 100001 } :=
  ⟨runs (((H.1 (carry (engine { queue := List.replicate 15 creq }) _) (msg0 (nodeEngine 0) (.copy creq none)) creq rfl).1 rfl
    (by decide +kernel)).1 rfl (by decide +kernel)),
   runs (((H.1 (carry (engine { queue := List.replicate 16 creq }) _) (msg0 (nodeEngine 0) (.copy creq none)) creq rfl).1 rfl
    (by decide +kernel)).2 (.inr (by decide +kernel))),
   runs (((H.1 { carry (engine { refused := [6] }) _ with cycle := 65 } (msg0 (nodeEngine 0) (.copy creq (some 1))) creq rfl).2 1 rfl
    (by decide +kernel)).1 rfl (by decide +kernel)),
   runs (((H.1 { carry (engine { refused := [9, 6] }) _ with cycle := 65 } (msg0 (nodeEngine 0) (.copy creq (some 1))) creq rfl).2 1
    rfl (by decide +kernel)).2 (.inl (by decide +kernel))),
   runs ((H.2 (engine { queue := [creq], active := List.replicate 3 creq }) 0).1 creq [] rfl (by decide +kernel) (by decide +kernel)),
   runs (((H.2 (engine { active := [{ creq with ended := true }] }) 0).2 0 _ rfl).1 rfl),
   runs (((H.2 (engine { active := [creq] }) 0).2 0 _ rfl).2.1 rfl (fun _ h => by cases h) (by decide +kernel)),
   runs (((H.2 { engine { active := [{ creq with wait := .pool 1 }] } with time := 100001 } 0).2 0 _ rfl).2.2 1 rfl
    (by decide +kernel))⟩

theorem witness_StreamEvents (H : StreamEvents) :
    Runs (.evStreamRefill 0 0 0) (one { live with ports := [(0, { bound := true, pattern := List.replicate 32 0 })] }) ∧
    Runs (.evStreamBufferReturn 5) (withOp bound { op0 with code := some 4, left := 1, osec := 9 }) :=
  ⟨runs (H.1 (one { live with ports := [(0, { bound := true, pattern := List.replicate 32 0 })] }) 0 0 0 rfl rfl (by decide +kernel)
    (by decide +kernel) (by decide)),
   runs (H.2 _ { op0 with code := some 4, left := 1, osec := 9 } rfl rfl rfl rfl rfl)⟩

/-- A record: entry 0x1000, one team of one group of one warp of one slice; the dependency's address. -/
def words0 (dep : Word) : List Word := [0x1000, 0, 1, 0x101, 0, 0, 0, 0, dep, 0, 0, 0, 0, 0, 0, 0]
/-- Launch queue 0 of context 1 as given; the context's save block of core 0 exists. -/
def launching (q : LaunchQ) : State :=
  { st with mem := (0, 1) :: pages, queues := [(0, { q with enable := true, asid := some 1, devq := true, depth := 8 })] }

theorem witness_LaunchEvents (H : Obligations.LaunchEvents) :
    Runs (.evLaunchRecordSubmit 127 [0]) st ∧ Runs (.evLaunchRecordSubmit 0 (words0 0)) st ∧
    Runs (.evRecordAdmission 6) (carry (launching {}) (msg0 nodeLaunch (.launch 0 (words0 0) none))) ∧
    Runs (.evRecordAdmission 6) (carry st (msg0 nodeLaunch (.launch 0 (words0 0) none))) ∧
    Runs (.evRecordAdmission 6) (carry (withOp (launching {}) op0) (msg0 nodeLaunch (.launch 0 (words0 0) (some (0, 0))))) ∧
    Runs (.evDependencyPoll 0) (launching { records := [{ words := words0 0x4000, checked := true }] }) ∧
    Runs (.evLevelAging 0) { launching { since := some 0, eff := 62 } with cycle := 0x100000 } ∧
    Runs (.evTeamPlacement 0 [0]) (launching { since := some 0, records := [{ words := words0 0 }] }) ∧
    Runs (.evDrainDelayExpiry 0 15) (launching { since := some 0 }) ∧
    Runs (.evDrainDelayExpiry 0 15) { launching { since := some 0 } with clusters := [(15, { drain := some (1, 0) })] } ∧
    Runs (.evGridCompletion 3) { st with grids := [(3, ⟨0, 1, words0 0, 0, true, false⟩)] } :=
  ⟨runs (H.1 st 127 [0] (by decide) (by decide) (by decide)), runs (H.1 st 0 (words0 0) (by decide) (by decide) (by decide)),
   runs ((H.2.1 (carry (launching {}) _) (msg0 nodeLaunch (.launch 0 (words0 0) none)) 0 (words0 0) (due (by decide +kernel))).1 rfl rfl),
   runs ((H.2.1 (carry st _) (msg0 nodeLaunch (.launch 0 (words0 0) none)) 0 (words0 0) (due (by decide +kernel))).2.1 rfl rfl),
   runs ((H.2.1 (carry (withOp (launching {}) op0) _) (msg0 nodeLaunch (.launch 0 (words0 0) (some (0, 0)))) 0 (words0 0)
    (due (by decide +kernel))).2.2 0 0 rfl rfl rfl),
   runs (H.2.2.1 (launching { records := [{ words := words0 0x4000, checked := true }] }) _ 0 1 0x4000 _ [] rfl rfl rfl rfl
    (by decide +kernel) (pair_ok (by decide +kernel)) (by decide +kernel) (by decide +kernel) (by decide +kernel)),
   runs (H.2.2.2.1 { launching { since := some 0, eff := 62 } with cycle := 0x100000 } 0 (by decide) (by decide +kernel)
    (by decide +kernel)),
   runs (H.2.2.2.2.1 (launching { since := some 0, records := [{ words := words0 0 }] }) 0 1 [0] _ [] rfl rfl (by decide +kernel)
    (by decide +kernel) rfl (by decide +kernel) (by decide) (by decide +kernel) (by decide +kernel)),
   runs ((H.2.2.2.2.2.1 (launching { since := some 0 }) 0 15 0 rfl (by decide +kernel) (by decide) (by decide +kernel)).1
    (fun _ _ h => by cases h)),
   runs ((H.2.2.2.2.2.1 { launching { since := some 0 } with clusters := [(15, { drain := some (1, 0) })] } 0 15 0 rfl
    (by decide +kernel) (by decide) (by decide +kernel)).2 1 0 rfl (by decide +kernel)),
   runs (H.2.2.2.2.2.2 { st with grids := [(3, ⟨0, 1, words0 0, 0, true, false⟩)] } 3 _ rfl rfl rfl (by decide +kernel))⟩

/-- Group 1 as given, with its slice halted or absent. -/
def grouped (g : Group) (ss : Tab Slice) : State :=
  { launching { since := some 0, eff := 1 } with slices := ss, groups := [(1, g)] }
/-- A repack queue of context 1 with one record. -/
def repacking (q : RepackQ) : State := { targeted with cores := [(0, { repack := [(31, q)] })] }

theorem witness_PreemptionEvents (H : Obligations.PreemptionEvents) :
    Runs (.evPreemptionRequest 0 1) (grouped grp [(0, live)]) ∧
    Runs (.evGroupSave 1) (grouped { grp with halt := 2 } [(0, { live with halted := true })]) ∧
    Runs (.evGroupResume 1) { grouped { grp with saved := true } [] with queues := [] } ∧
    Runs (.evRepackTimeout 0 31) (repacking { key := some (1, 0), records := [([], 0)] }) ∧
    Runs (.evRepackWarpStart 0) (repacking { key := some (1, 0), records := [([], 0)], due := true }) :=
  ⟨runs (H.1 (grouped grp [(0, live)]) 0 1 grp rfl (by decide) (by decide +kernel) (by decide +kernel)),
   runs (H.2.1 (grouped { grp with halt := 2 } [(0, { live with halted := true })]) 1 _ rfl rfl rfl rfl rfl (by decide +kernel)
    (fun t ht => by
      have h : t ∈ [0] := by revert t; decide +kernel
      rw [List.mem_singleton] at h; subst h
      exact ⟨by decide +kernel, fun i h => by cases h⟩) (by decide +kernel) (by decide +kernel)),
   runs (H.2.2.1 { grouped { grp with saved := true } [] with queues := [] } 1 _ rfl (by decide +kernel) (by decide +kernel)
    (by decide +kernel)),
   runs (H.2.2.2.1 (repacking { key := some (1, 0), records := [([], 0)] }) 0 31 1 0 ([], 0) [] rfl rfl (by decide +kernel)),
   runs (H.2.2.2.2 (repacking { key := some (1, 0), records := [([], 0)], due := true }) 0 31 1 0
    { key := some (1, 0), records := [([], 0)], due := true } _ (by decide +kernel) rfl
    (Option.some_get (by decide +kernel)).symm (by decide +kernel) (by decide +kernel) (by decide +kernel))⟩

def cmd0 (k : MKind) : MCmd := { kind := k, group := 1, cls := 0, d := 0 }
/-- Core 0's matrix unit, whose tile 0 the group owns, in cycle `n`. -/
def matrix (u : MUnit) (n : BitVec 64) : State :=
  { st with cycle := n, cores := [(0, { mat := u, tiles := [(0, { used := true, owner := 1, alloc := true })] })] }

theorem witness_MatrixEvents (H : Obligations.MatrixEvents) :
    Runs (.evMatrixCommandStart 0) (matrix { q0 := [cmd0 .mma] } 256) ∧ Runs (.evMatrixCommandStart 0) (matrix { q0 := [cmd0 .mma] } 255) ∧
    Runs (.evMatrixCommandStart 0) (matrix { q0 := [cmd0 (.zero [0])] } 256) ∧
    Runs (.evMatrixCommandStart 0) (matrix { q0 := [cmd0 .mma], served := [0] } 256) ∧
    Runs (.evMatrixStepEnd 0) (matrix { running := some (cmd0 (.mld 0), 0) } 0) ∧
    Runs (.evMatrixStepEnd 0) (matrix { running := some (cmd0 .mma, 0) } 1) ∧
    Runs (.evMatrixCommandEnd 0) (matrix { running := some ({ cmd0 .mma with step := (cmd0 .mma).steps - 1 }, 0) } 1) ∧
    Runs (.evMatrixCommandEnd 0) (matrix { running := some (cmd0 (.zero [0]), 0) } 1) ∧
    Runs (.evFillerEnd 0) (matrix { filler := some 0 } 1) ∧ Runs (.evRampHoldEnd 0) (matrix { holdEnd := some 0 } 1) ∧
    Runs (.evMcapWrite 0 0 true 1) (matrix {} 0) ∧
    Runs (.evTeamFragmentArrival 6) (carry (matrix {} 0) (msg0 0 (.afrag 1 0 []))) ∧
    Runs (.evTeamFragmentArrival 6) (carry (matrix {} 0) (msg0 0 (.afrag 2 0 []))) ∧
    Runs (.evRemoteMmaArrival 6) (carry (withOp (matrix {} 0) op0) (msg0 0 (.mreq (cmd0 .mma) 7 0 [0]))) ∧
    Runs (.evRemoteMmaArrival 6) (carry (withOp (matrix { owner := some 1, mcap := 7 } 0) op0) (msg0 0 (.mreq (cmd0 .mma) 7 0 [0]))) ∧
    Runs (.evRemoteMmaArrival 6) (carry (withOp (matrix { owner := some 1, mcap := 7, refused := [(9, 0)] } 0) op0)
      (msg0 0 (.mreq (cmd0 .mma) 7 0 [0]))) :=
  have R := fun (u : MUnit) => H.2 (carry (withOp (matrix u 0) op0) (msg0 0 (.mreq (cmd0 .mma) 7 0 [0])))
    (msg0 0 (.mreq (cmd0 .mma) 7 0 [0]))
  ⟨runs ((H.1 (matrix { q0 := [cmd0 .mma] } 256) 0).1 _ rfl rfl |>.1 rfl rfl (by decide +kernel)
    (by decide +kernel)),
   runs ((H.1 (matrix { q0 := [cmd0 .mma] } 255) 0).1 _ rfl rfl |>.2 rfl (.inr (.inr (by decide +kernel)))),
   runs ((H.1 (matrix { q0 := [cmd0 (.zero [0])] } 256) 0).1 _ rfl rfl |>.2 rfl (.inl rfl)),
   runs ((H.1 (matrix { q0 := [cmd0 .mma], served := [0] } 256) 0).1 _ rfl rfl |>.2 rfl (.inr (.inl (by decide +kernel)))),
   runs ((H.1 (matrix { running := some (cmd0 (.mld 0), 0) } 0) 0).2.1 _ _ rfl ⟨0, .inl rfl⟩ (by decide)),
   runs ((H.1 (matrix { running := some (cmd0 .mma, 0) } 1) 0).2.2.1 _ _ rfl (by decide +kernel) |>.1 rfl (by decide +kernel)),
   runs ((H.1 (matrix { running := some ({ cmd0 .mma with step := (cmd0 .mma).steps - 1 }, 0) } 1) 0).2.2.1 _ _ rfl (by decide +kernel)
    |>.2.1 rfl (by decide +kernel)),
   runs ((H.1 (matrix { running := some (cmd0 (.zero [0]), 0) } 1) 0).2.2.1 _ _ rfl (by decide +kernel) |>.2.2 rfl),
   runs ((H.1 (matrix { filler := some 0 } 1) 0).2.2.2.1 _ rfl (by decide +kernel)),
   runs ((H.1 (matrix { holdEnd := some 0 } 1) 0).2.2.2.2.1 _ rfl (by decide +kernel)),
   runs ((H.1 (matrix {} 0) 0).2.2.2.2.2 0 true 1 _ rfl rfl),
   runs ((H.2 (carry (matrix {} 0) _) (msg0 0 (.afrag 1 0 [])) (due (by decide +kernel))).1 1 0 [] rfl |>.1
    (fun x h => by cases h; rfl) rfl),
   runs ((H.2 (carry (matrix {} 0) _) (msg0 0 (.afrag 2 0 [])) (due (by decide +kernel))).1 2 0 [] rfl |>.2 rfl (by decide +kernel)),
   runs ((R {} (due (by decide +kernel))).2 _ 7 0 [0] rfl (by decide +kernel) |>.1 op0 rfl rfl (by decide +kernel)),
   runs (((R { owner := some 1, mcap := 7 } (due (by decide +kernel))).2 _ 7 0 [0] rfl (by decide +kernel) |>.2 1 grp 0
    (by decide +kernel) rfl (by decide) (by decide +kernel)).1 (by decide +kernel)),
   runs (((R { owner := some 1, mcap := 7, refused := [(9, 0)] } (due (by decide +kernel))).2 _ 7 0 [0] rfl (by decide +kernel) |>.2 1
    grp 0 (by decide +kernel) rfl (by decide) (by decide +kernel)).2 (by decide +kernel) (by decide +kernel))⟩

/-- A thread that waits. -/
def waiting (w : TWait) (t : Thread := thr) : State := trav { t with wait := w }

theorem witness_ThreadWaitEvents (H : ThreadWaitEvents) :
    Runs (.evNodeFetchComplete 0 0) (waiting (.node true 0)) ∧ Runs (.evNodeFetchComplete 0 0) (waiting (.node false 0x4000)) ∧
    Runs (.evVectorReadComplete 0 0) (waiting (.vector 0 2 1) { thr with w := [(1, 8)] }) ∧
    Runs (.evStackReloadComplete 0 0) (waiting (.reload 0 false) { thr with w := [(30, 0x00100000)] }) ∧
    Runs (.evStackReloadComplete 0 0) (waiting (.reload 0 true) { thr with w := [(30, 0x00100000)] }) ∧
    Runs (.evStackReloadComplete 0 0) (waiting .restore { thr with w := [(30, 4)], inPlace := true }) ∧
    Runs (.evStackEntryReady 0 0 0) (trav { thr with stack := [(2 ^ 45, false)] }) ∧
    Runs (.evStackEntryReady 0 0 0) (trav { thr with stack := [(0x80, false)] }) ∧ Runs (.evEmitAcknowledge 0 0) tst ∧
    Runs (.evEmitAcknowledge 0 0) (waiting (.migrating false 1 0 false none)) ∧
    Runs (.evEmitAcknowledge 0 0) (carry (trav { thr with emits := 2 }) { msg0 (nodeHome 0) (.tstore 0 0x4000 [1]) with src := nodeRake 0 }) ∧
    Runs (.evEmitAcknowledge 0 0) (carry (trav { thr with emits := 1 }) { msg0 (nodeHome 0) (.tstore 0 0x4000 [1]) with src := nodeRake 0 }) :=
  ⟨runs ((H (waiting (.node true 0)) 0 0).1 0 rfl (by decide +kernel)),
   runs ((H (waiting (.node false 0x4000)) 0 0).2.1 0x4000 _ _ rfl (get_ok2 (by decide +kernel))),
   runs ((H (waiting (.vector 0 2 1) { thr with w := [(1, 8)] }) 0 0).2.2.1 0 2 1 _ _ _ _ rfl (get_ok2 (by decide +kernel))
    (get_ok (by decide +kernel))),
   runs ((H (waiting (.reload 0 false) { thr with w := [(30, 0x00100000)] }) 0 0).2.2.2.1 0 _ _ rfl (get_ok2 (by decide +kernel))),
   runs ((H (waiting (.reload 0 true) { thr with w := [(30, 0x00100000)] }) 0 0).2.2.2.2.1 0 _ _ rfl (get_ok2 (by decide +kernel))),
   runs ((H (waiting .restore { thr with w := [(30, 4)], inPlace := true }) 0 0).2.2.2.2.2.1 _ _ rfl rfl (get_ok2 (by decide +kernel))),
   runs ((H (trav { thr with stack := [(2 ^ 45, false)] }) 0 0).2.2.2.2.2.2.1 0 (2 ^ 45) (by decide +kernel)
    (by decide +kernel)),
   runs ((H (trav { thr with stack := [(0x80, false)] }) 0 0).2.2.2.2.2.2.2.1 0 0x80 _ 0x4000 rfl (by decide +kernel)
    (pair_ok (by decide +kernel)) (by decide)),
   runs (((H tst 0 0).2.2.2.2.2.2.2.2.1 rfl).2 rfl |>.1 (fun a h d o e => by cases e)),
   runs (((H (waiting (.migrating false 1 0 false none)) 0 0).2.2.2.2.2.2.2.2.1 rfl).2 rfl |>.2 false 1 0 none _ rfl
    (get_ok (by decide +kernel))),
   runs (((H (carry (trav { thr with emits := 2 }) _) 0 0).2.2.2.2.2.2.2.2.2 { msg0 (nodeHome 0) (.tstore 0 0x4000 [1]) with
    src := nodeRake 0 } 0x4000 [1] rfl (by decide +kernel)).1 (by decide +kernel)),
   runs (((H (carry (trav { thr with emits := 1 }) _) 0 0).2.2.2.2.2.2.2.2.2 { msg0 (nodeHome 0) (.tstore 0 0x4000 [1]) with
    src := nodeRake 0 } 0x4000 [1] rfl (by decide +kernel)).2 (by decide +kernel) |>.1 (fun a h d o e => by
      have : ((((carry (trav { thr with emits := 1 }) { msg0 (nodeHome 0) (.tstore 0 0x4000 [1]) with src := nodeRake 0 }).dropFlight 6
        |>.threadStore 1 0x4000 [1]).modThread 0 0 fun t => { t with emits := t.emits - 1 }).thread 0 0).wait = .ready := by
          decide +kernel
      cases this.symm.trans e))⟩

/-- A rake with kernel 0 of context 1 in a region of eight words. -/
def raked (r : Rake) : State :=
  { st with cores := [(0, { rake := { r with kernels := [(1, 0, 0, 8)], regions := [(0, 1, 0, 8)] } })] }
def inb : Inbound := ⟨1, List.replicate 32 0, false⟩
/-- Rake 1's thread 0 waits with a refused context since cycle 0. -/
def refusedBy (s : State) (n : BitVec 64) : State :=
  { s with cycle := n, cores := s.cores ++ [(1, { rake := { threads := [(0, { thr with wait := .migrating false 0 0 true (some (0, 0)) })] } })] }
def rakeMsg (p : Pkt) : Flight := { msg0 (nodeRake 0) p with src := nodeRake 1 }
/-- A rake with a request, and a port to peer 7 that is up, its state as given. -/
def withPeer (p : Peer) : State :=
  { raked { reqs := [(0, { used := true, asid := 1, n := 1 })] } with
    links := if p.path then [(3, { state := 2, far := [7] })] else [], peers := [(7, p)] }
/-- A context and a completion from peer 7, and a context for it. -/
def peerCtx : Flight := { rakeMsg (.inbound inb 0) with src := nodePeer 7 }
def peerDoneMsg : Flight := { rakeMsg (.tdone ⟨0, List.replicate 7 0, 0⟩) with src := nodePeer 7 }
def ctxOut : Flight := { rakeMsg (.inbound inb 0) with dst := nodePeer 7 }

theorem witness_RakeEvents (H : RakeEvents) :
    Runs (.evThreadSlotFill 0) (raked { inbound := [inb], threads := (List.range 31).map fun i => (i, { thr with used := true }) }) ∧
    Runs (.evThreadSlotFill 0) (raked { order := [0], reqs := [(0, { used := true, asid := 1, w := List.replicate 32 0 })] }) ∧
    Runs (.evInboundContextArrival 6) (carry (raked {}) (rakeMsg (.inbound inb 0))) ∧
    Runs (.evInboundContextArrival 6) (carry (withPeer { path := true }) peerCtx) ∧ Runs (.evInboundContextArrival 6) (carry (raked {}) peerCtx) ∧
    Runs (.evInboundContextArrival 6) (carry (withPeer { held := true }) ctxOut) ∧
    Runs (.evInboundContextArrival 6) (carry (withPeer {}) ctxOut) ∧ Runs (.evInboundContextArrival 6) (carry (withPeer { path := true }) ctxOut) ∧
    Runs (.evInboundContextArrival 6) (carry (raked { inbound := List.replicate 15 inb }) (rakeMsg (.inbound inb 0))) ∧
    Runs (.evMigrationRetry 6) (refusedBy (carry (raked { refused := [6] }) (rakeMsg (.inbound inb 0))) 64) ∧
    Runs (.evMigrationRefusalLimit 6) (refusedBy (carry (raked {}) (rakeMsg (.inbound inb 0))) 2048) ∧
    Runs (.evTraversalCompletion 6) (carry (raked { reqs := [(0, { used := true, asid := 1, n := 1 })] })
      (rakeMsg (.tdone ⟨0, List.replicate 7 0, 0⟩))) ∧
    Runs (.evTraversalCompletion 6) (carry (withPeer { path := true }) peerDoneMsg) ∧
    Runs (.evTraversalCompletion 6) (carry (raked { reqs := [(0, { used := true, asid := 1, n := 1 })] }) peerDoneMsg) ∧
    Runs (.evKernelLoadRequest 6) (carry (withOp (raked {}) op0) (rakeMsg (.kload 0 0 0 1 8 0x4000 0))) ∧
    Runs (.evKernelLoadRequest 6) (carry (withOp (raked { threads := [(0, thr)] }) op0) (rakeMsg (.kload 0 0 0 0 8 0x4000 0))) ∧
    Runs (.evKernelLoadRequest 6) (carry (withOp (raked {}) op0) (rakeMsg (.kload 0 0 1 0 8 0x4000 0))) :=
  ⟨runs ((H.1 (raked { inbound := [inb], threads := (List.range 31).map fun i => (i, { thr with used := true }) }) 0 31 (by decide)
    (by decide +kernel) (by decide +kernel)).1 inb (by decide +kernel) (.inl (by decide +kernel))),
   runs ((H.1 (raked { order := [0], reqs := [(0, { used := true, asid := 1, w := List.replicate 32 0 })] }) 0 0 (by decide)
    (by decide +kernel) (by decide +kernel)).2 0 (by decide +kernel) (.inl (by decide +kernel))),
   runs ((H.2.1 (carry (raked {}) _) (rakeMsg (.inbound inb 0)) inb 0 (due (by decide +kernel)) rfl).1 (by decide +kernel) rfl |>.1 rfl
    (fun h => absurd h (by decide))),
   runs ((H.2.1 (carry (withPeer { path := true }) _) peerCtx inb 0 (due (by decide +kernel)) rfl).1 (by decide +kernel) rfl |>.1 rfl
    (fun _ => by decide +kernel)),
   runs ((H.2.1 (carry (raked {}) _) peerCtx inb 0 (due (by decide +kernel)) rfl).1 (by decide +kernel) rfl |>.2.1 rfl rfl rfl),
   runs ((H.2.1 (carry (withPeer { held := true }) _) ctxOut inb 0 (due (by decide +kernel)) rfl).1 (by decide +kernel) rfl |>.2.2 rfl |>.1
    (.inl rfl)),
   runs ((H.2.1 (carry (withPeer {}) _) ctxOut inb 0 (due (by decide +kernel)) rfl).1 (by decide +kernel) rfl |>.2.2 rfl |>.2.1 rfl rfl),
   runs ((H.2.1 (carry (withPeer { path := true }) _) ctxOut inb 0 (due (by decide +kernel)) rfl).1 (by decide +kernel) rfl |>.2.2 rfl
    |>.2.2 rfl rfl (by decide +kernel)),
   runs ((H.2.1 (carry (raked { inbound := List.replicate 15 inb }) _) (rakeMsg (.inbound inb 0)) inb 0 (due (by decide +kernel)) rfl).2.1
    (by decide) (fun h => absurd h (by decide)) (by decide +kernel) (by decide +kernel) (by decide +kernel) |>.1 rfl rfl),
   runs ((H.2.1 (refusedBy (carry (raked { refused := [6] }) _) 64) (rakeMsg (.inbound inb 0)) inb 0 (due (by decide +kernel)) rfl).2.1
    (by decide) (fun h => absurd h (by decide)) (by decide +kernel) (by decide +kernel) (by decide +kernel) |>.2 rfl (fun _ => by decide +kernel)
    (fun since h => by cases h; decide +kernel)),
   runs ((H.2.1 (refusedBy (carry (raked {}) _) 2048) (rakeMsg (.inbound inb 0)) inb 0 (due (by decide +kernel)) rfl).2.2 (0, 0)
    (by decide +kernel) (by decide +kernel)),
   runs (H.2.2.1 (carry (raked { reqs := [(0, { used := true, asid := 1, n := 1 })] }) _) _ (rakeMsg (.tdone ⟨0, List.replicate 7 0, 0⟩))
    _ (due (by decide +kernel)) rfl (.inr (by decide)) rfl rfl rfl |>.1 (.inr (by decide)) (Option.some_get (by decide +kernel)).symm),
   runs (H.2.2.1 (carry (withPeer { path := true }) _) _ (peerDoneMsg) _ (due (by decide +kernel)) rfl (.inr (by decide)) rfl rfl rfl
    |>.2 7 rfl (by decide) |>.1 rfl (Option.some_get (by decide +kernel)).symm),
   runs (H.2.2.1 (carry (raked { reqs := [(0, { used := true, asid := 1, n := 1 })] }) _) {} (peerDoneMsg) _ (due (by decide +kernel)) rfl
    (.inr (by decide)) rfl rfl rfl |>.2 7 rfl (by decide) |>.2 rfl),
   runs ((H.2.2.2 (carry (withOp (raked {}) op0) _) (rakeMsg (.kload 0 0 0 1 8 0x4000 0)) 0 0 0 1 8 0x4000 0 (due (by decide +kernel))
    rfl rfl (0, 1, 0, 8) rfl).1 (by decide)),
   runs ((H.2.2.2 (carry (withOp (raked { threads := [(0, thr)] }) op0) _) (rakeMsg (.kload 0 0 0 0 8 0x4000 0)) 0 0 0 0 8 0x4000 0
    (due (by decide +kernel)) rfl rfl (0, 1, 0, 8) rfl).2.1 (by decide) (by decide +kernel)),
   runs ((H.2.2.2 (carry (withOp (raked {}) op0) _) (rakeMsg (.kload 0 0 1 0 8 0x4000 0)) 0 0 1 0 8 0x4000 0 (due (by decide +kernel))
    rfl rfl (0, 1, 0, 8) rfl).2.2 (by decide) (by decide +kernel) _ _ (get_ok2 (by decide +kernel)))⟩

/-- Plan slot 63 of context 1 is armed until TIME 5; a record of one block at 0x4000. -/
def armed : State :=
  { withOp st op0 with plans := [(63, { assigned := true, asid := 1, state := 1, deadline := 5 })],
                       structs := [(0, { assigned := true, asid := 1 })] }
def rec8 : List Byte := natBytes 8 0x4000
def bitRec : List Byte := rec8 ++ natBytes 8 64
def comRec : List Byte := rec8 ++ natBytes 4 64 ++ natBytes 4 0x100 ++ natBytes 8 0
def oldRec : List Byte := rec8 ++ natBytes 4 64 ++ natBytes 4 0 ++ natBytes 8 0
/-- Armed in the tick of its deadline; a structure invalidated after version 0. -/
def armedLate : State := { armed with plans := [(63, { assigned := true, asid := 1, state := 1, deadline := 5, armed := 5 })], time := 5 }
def armedOld : State := { armed with structs := [(0, { assigned := true, asid := 1, lastinv := 1 })] }
def armRec : List Byte := natBytes 16 0 ++ rec8 ++ natBytes 8 64

/-- Slot 3 of structure 0 in a state, with the pins given, one of them by request entry 0 of core 0. -/
def pinned (state pins : Nat) : State :=
  { armed with structs := [(0, { assigned := true, asid := 1, cur := some 3, slots := [(3, { state := state, pins := pins, qpins := 1 })] })],
               cores := [(0, { rake := { reqs := [(0, { used := true, asid := 1, pin := some (0, 3) })] } })] }

theorem witness_LanePins :
    (pinned 1 2).ownsStruct 1 0 = true ∧ ((pinned 1 2).struct 0).cur = some 3 ∧ (armed.struct 0).cur = none ∧
    (tget {} (armed.rake 0).reqs 0).pin = none ∧ (tget {} ((pinned 2 2).rake 0).reqs 0).pin = some (0, 3) ∧
    1 < (((pinned 2 2).struct 0).slot 3).pins ∧ (((pinned 1 1).struct 0).slot 3).state ≠ 2 ∧
    (((pinned 2 1).struct 0).slot 3).state = 2 ∧ (((pinned 2 1).struct 0).slot 3).pins = 1 := by decide +kernel

/-- 14 R378: the last pin of an OLD slot frees it and tells the core of its builder. -/
theorem test_last_lane_pin :
    let u := (pinned 2 1).freeEntry 0 0
    (((u.struct 0).slot 3).state, u.flights.map fun f => (f.src, f.dst)) = (0, [(nodeTable, 0)]) := by decide +kernel

theorem witness_PlanEvents (H : PlanEvents) :
    Runs (.evTableRequest 6) (carry armed (msg0 nodeTable (.table (.pin 0 5 0 0)))) ∧
    Runs (.evTableRequest 6) (carry armed (msg0 nodeTable (.table (.unpin 0 0)))) ∧
    Runs (.evTableRequest 6) (carry armed (msg0 nodeTable (.table (.publish 0 5 0 0 0 0 true)))) ∧
    Runs (.evTableRequest 6) (carry armed (msg0 nodeTable (.table (.pinLanes 0 0 0 [0])))) ∧
    Runs (.evPlanRequestArrival 6) (carry armed (msg0 nodePlan (.plan 63 (.qry 5 0 0)))) ∧
    Runs (.evPlcomArrival 6) (carry armed (msg0 nodePlan (.plan 63 (.com 5 0 0 [])))) ∧
    Runs (.evPlcomArrival 6) (carry armedLate (msg0 nodePlan (.plan 63 (.com 5 0 0 comRec)))) ∧
    Runs (.evPlcomArrival 6) (carry armedOld (msg0 nodePlan (.plan 63 (.com 5 0 0 oldRec)))) ∧
    Runs (.evPlcomArrival 6) (carry armed (msg0 nodePlan (.plan 63 (.com 5 0 0 comRec)))) ∧
    Runs (.evPlarmReadComplete 6) (carry armed (msg0 nodePlan (.planData 63 (.arm 5 0 0 armRec) 0))) ∧
    Runs (.evPlbitReadComplete 6) (carry armed (msg0 nodePlan (.planData 63 (.bit 5 0 0 bitRec) 0))) ∧
    Runs (.evPlanWriteComplete 63) (carry armed (msg0 nodePlan (.planData 63 (.com 5 0 0 comRec) 0))) ∧
    Runs (.evDeadlineExpiry 63) { armed with time := 5 } ∧ Runs (.evDeadlineExpiry 63) { armed with time := 4 } :=
  have D := fun p (h : (carry armed (msg0 nodePlan p)).first (msg0 nodePlan p) = true) =>
    H.1 (carry armed (msg0 nodePlan p)) (msg0 nodePlan p) ⟨rfl, h⟩
  have R := fun r o b => H.2.1 (carry armed (msg0 nodePlan (.planData 63 r o))) (msg0 nodePlan (.planData 63 r o)) 63 5 0 0 o b rfl rfl
  have rd : ∀ (r : PlanReq), ((carry armed (msg0 nodePlan (.planData 63 r 0))).expireDue 63).unitRead 1 0x4000 1 [] =
      .data (carry armed (msg0 nodePlan (.planData 63 r 0))) (List.replicate 64 0) →
    ((carry armed (msg0 nodePlan (.planData 63 r 0))).expireDue 63).unitRead 1 0x4000 1 [] =
      .data (carry armed (msg0 nodePlan (.planData 63 r 0))) (List.replicate 64 0) := fun _ h => h
  ⟨runs ((H.1 (carry armed _) (msg0 nodeTable (.table (.pin 0 5 0 0))) (due (by decide +kernel))).1 0 5 0 0 rfl),
   runs ((H.1 (carry armed _) (msg0 nodeTable (.table (.unpin 0 0))) (due (by decide +kernel))).2.1 0 0 rfl (by decide +kernel)),
   runs ((H.1 (carry armed _) (msg0 nodeTable (.table (.publish 0 5 0 0 0 0 true))) (due (by decide +kernel))).2.2.1 0 5 0 0 0 0 true
    rfl),
   runs ((H.1 (carry armed _) (msg0 nodeTable (.table (.pinLanes 0 0 0 [0]))) (due (by decide +kernel))).2.2.2.1 0 0 0 [0] rfl),
   runs ((D _ (by decide +kernel)).2.2.2.2.1 63 5 0 0 (.inl rfl) rfl _ rfl),
   runs (((D _ (by decide +kernel)).2.2.2.2.2 63 5 0 0 [] rfl).1 (by decide +kernel)),
   runs (((H.1 (carry armedLate _) (msg0 nodePlan (.plan 63 (.com 5 0 0 comRec))) (due (by decide +kernel))).2.2.2.2.2 63 5 0 0 comRec
    rfl).2.1 (by decide +kernel) (by decide +kernel) (by decide +kernel) (by decide +kernel)),
   runs (((H.1 (carry armedOld _) (msg0 nodePlan (.plan 63 (.com 5 0 0 oldRec))) (due (by decide +kernel))).2.2.2.2.2 63 5 0 0 oldRec
    rfl).2.2.1 (by decide +kernel) (by decide +kernel) (by decide +kernel) (by decide +kernel) (by decide +kernel) (by decide +kernel)),
   runs (((D _ (by decide +kernel)).2.2.2.2.2 63 5 0 0 comRec rfl).2.2.2 (by decide +kernel) (by decide +kernel) (by decide +kernel)
    (by decide +kernel) (.inl (by decide +kernel))),
   runs ((R (.arm 5 0 0 armRec) 0 armRec).1 rfl _ _ (rd _ (by decide +kernel))),
   runs ((R (.bit 5 0 0 bitRec) 0 bitRec).2.1 rfl _ _ (rd _ (by decide +kernel))),
   runs ((R (.com 5 0 0 comRec) 0 comRec).2.2 rfl _ _ (rd _ (by decide +kernel))),
   runs ((H.2.2 { armed with time := 5 } 63).1 rfl (by decide +kernel) (by decide +kernel)),
   runs ((H.2.2 { armed with time := 4 } 63).2 (.inr (.inl (by decide +kernel))))⟩

theorem pair_some {α β ε : Type} {x : α × Option (Except ε β)} {b : β} (h : x.2.bind (·.toOption) = some b) :
    x = (x.1, some (.ok b)) := by
  obtain ⟨a, y⟩ := x
  cases y with
  | none => cases h
  | some y => exact congrArg (fun z => (a, some z)) (of_ok h)

/-- A texture's descriptor at address 0x4000: one texel of format 0 at 0x8000. -/
def texDesc : Memory := [(0x4001, 0x80)]
def texState : State := { st with mem := pages ++ texDesc }
def texReq (ws : List Word) : Flight := msg0 (nodeTexture 0) (.service 0 false ws 0)
/-- A request of the rasteriser, new or refused before. -/
def raster (refused : Nat) : Flight := msg0 (nodeRaster 7) (.service 0 true [] refused)
def texWords : List Word := [0x01000000, 0x4000, 0, 0, 0, 0, 0, 0]

theorem witness_ServiceEvents (H : ServiceEvents) :
    Runs (.evRasterRequest 6) (carry st (raster 0)) ∧ Runs (.evServiceRequestRetry 6) (carry st (raster 5)) ∧
    Runs (.evTextureRequest 6) (carry st (texReq [2])) ∧ Runs (.evTextureRequest 6) (carry texState (texReq texWords)) ∧
    Runs (.evServiceRequestRetry 6) (carry st { texReq [2] with pkt := .service 0 false [2] 5 }) :=
  ⟨runs (((H (carry st (raster 0)) (raster 0) 0 [] rfl).1 (by decide +kernel)).1 rfl),
   runs (((H (carry st (raster 5)) (raster 5) 0 [] rfl).2 5 (by decide) (by decide +kernel)).1 rfl),
   runs (((H (carry st _) (texReq [2]) 0 [2] rfl).1 (by decide +kernel)).2 _ rfl (.inl ⟨by decide +kernel, rfl⟩)),
   runs (((H (carry texState _) (texReq texWords) 0 texWords rfl).1 (by decide +kernel)).2 _ rfl (.inr
    ⟨_, 0x8000, ⟨0x8000, 1, 1, 0, false⟩, _, [(16384, 0), (16384, 0), (16384, 0), (16384, 0)], by decide +kernel,
     pair_some (by decide +kernel), by decide +kernel, pair_some (by decide +kernel), rfl⟩)),
   runs (((H (carry st _) { texReq [2] with pkt := .service 0 false [2] 5 } 0 [2] rfl).2 5 (by decide) (by decide +kernel)).2 _ rfl
    (.inl ⟨by decide +kernel, rfl⟩))⟩

/-! ### System, debugger, host, links -/

/-- A slice, or a copy request, waits on REPLAY record 0. -/
def replaying (w : Waiter) : State :=
  { engine { active := [{ creq with wait := .replay 0 }] } with
    slices := [(0, { live with park := some (.replay 0) })], replays := [{ idx := 0, who := w, asid := 1, code := 6, addr := 0 }] }

/-- The slice that waits is saved with its group. -/
def away : State :=
  { replaying (.slice 0 0) with
    slices := [], groups := [(1, { grp with saved := true, savedSlices := [(0, { live with park := some (.replay 0) })] })] }

theorem witness_SystemEvents (H : SystemEvents) :
    Runs (.evEqresRetry 0) (replaying (.slice 0 0)) ∧ Runs (.evEqresDecline 0) (replaying (.slice 0 0)) ∧
    Runs (.evEqresDecline 0) away ∧
    Runs (.evEqresRetry 0) (replaying (.copy 0 5)) ∧ Runs (.evEqresDecline 0) (replaying (.copy 0 5)) ∧
    Runs (.evCycloRead 0 0 31) st ∧ Runs (.evTimeloRead 0 0 31) st :=
  ⟨runs (((H (replaying (.slice 0 0))).1 0 _ rfl).1 0 0 rfl),
   runs ((((H (replaying (.slice 0 0))).1 0 _ rfl).2.1 0 0 rfl).1 (by decide +kernel)),
   runs ((((H away).1 0 _ rfl).2.1 0 0 rfl).2 (by decide +kernel)),
   runs (((H (replaying (.copy 0 5))).1 0 _ rfl).2.2 0 5 rfl).1, runs (((H (replaying (.copy 0 5))).1 0 _ rfl).2.2 0 5 rfl).2,
   runs ((H st).2.2.2.2.2.2.2 0 0 31 rfl (by decide)).1, runs ((H st).2.2.2.2.2.2.2 0 0 31 rfl (by decide)).2⟩

theorem witness_UnitControlEvents (H : UnitControlEvents) :
    Runs (.evUcClusterExtent 0xFFFF 1) st ∧ Runs (.evUcProgramMemory 0 0 0 1) st ∧ Runs (.evLaunchQueueFlush 127) st :=
  ⟨runs (H st 0xFFFF 1 0 0 (by decide)).1, runs (H st 0 0 0 1 (by decide)).2.2.2.2.2.2.2.1,
   runs ((H st 127 0 0 0 (by decide)).2.2.2.2.2.2.2.2 (by decide))⟩

/-- A slice is halted by the debugger, which is attached; group 1 is too. -/
def debugged : State :=
  { dbg with slices := [(0, { live with halted := true })], groups := [(1, { grp with halt := 1 })] }

theorem witness_DebugEvents (H : Obligations.DebugEvents) :
    Runs (.evStepStallLimit 0) { st with cores := [(0, { stepping := some (0, 0) })], time := 1000 } ∧
    Runs (.evClearReport 0) { st with cores := [(0, { reportsWaiting := [[1]] })] } ∧ Runs (.evClearReport 255) st ∧
    Runs (.evAttach 255 1 true) st ∧ Runs (.evHalt 0 128) st ∧ Runs (.evStep 0 1) st ∧ Runs (.evHalt 0 0) dbg ∧ Runs (.evHalt 0 0) st ∧
    Runs (.evResume 0 0) debugged ∧ Runs (.evStep 0 0) debugged ∧ Runs (.evRead 0 0 0xC00 4) st ∧ Runs (.evRead 0 0 0xB00 256) debugged ∧
    Runs (.evWrite 0 0 0xBFC [5]) debugged ∧ Runs (.evWrite 0 0 0xBFE [5]) st ∧ Runs (.evWatch 0 3 0 0 0x18F) st ∧ Runs (.evMem 0 0 0 257 false []) dbg ∧
    Runs (.evMem 0 0 0x3F00 256 false []) dbg ∧ Runs (.evMem 0 0 0 1 true [7]) dbg :=
  have M := fun s => (H s 0 (by decide)).2.2.2
  ⟨runs ((H { st with cores := [(0, { stepping := some (0, 0) })], time := 1000 } 0 (by decide)).1 0 0 rfl (by decide +kernel)),
   runs ((H { st with cores := [(0, { reportsWaiting := [[1]] })] } 0 (by decide)).2.1 _ _ rfl),
   runs ((H st 255 (by decide)).2.2.1 rfl), runs (((H st 255 (by decide)).2.2.2 rfl rfl).1 1 true),
   runs ((((M st) rfl rfl).2.1 128).1 (.inl (by decide))).1, runs ((((M st) rfl rfl).2.1 1).1 (.inr (by decide +kernel))).2.2,
   runs ((((M dbg) rfl rfl).2.1 0).2 (by decide) rfl |>.1 rfl (by decide +kernel)),
   runs ((((M st) rfl rfl).2.1 0).2 (by decide) rfl |>.2.1 rfl (by decide +kernel)),
   runs ((((M debugged) rfl rfl).2.1 0).2 (by decide) rfl |>.2.2 (by decide +kernel)).1,
   runs ((((M debugged) rfl rfl).2.1 0).2 (by decide) rfl |>.2.2 (by decide +kernel)).2,
   runs ((((M st) rfl rfl).2.2.1 0 0xC00 4).1 (by decide +kernel)),
   runs ((((M debugged) rfl rfl).2.2.1 0 0xB00 256).2 (by decide +kernel) rfl),
   runs ((((M debugged) rfl rfl).2.2.2.1 0 0xBFC [5]).2 (by decide +kernel) rfl),
   runs ((((M st) rfl rfl).2.2.2.1 0 0xBFE [5]).1 (by decide +kernel)),
   runs (((M st) rfl rfl).2.2.2.2.1 3 0 0 0x18F (by decide) (by decide +kernel)),
   runs ((((M dbg) rfl rfl).2.2.2.2.2 0 0 257 false []).1 (.inr (.inl (by decide)))),
   runs ((((M dbg) rfl rfl).2.2.2.2.2 0 0x3F00 256 false []).2 rfl (by decide) (by decide +kernel) (by decide +kernel)),
   runs ((((M dbg) rfl rfl).2.2.2.2.2 0 0 1 true [7]).2 rfl (by decide) (by decide +kernel) (by decide +kernel))⟩

/-- The device's own state, otherwise as after reset. -/
def managed (m : Mgmt) : State := { mgmt := m }

theorem witness_ManagementEvents (H : ManagementEvents) :
    Runs (.evBar2Access 0xFFFFFFF true [1]) (managed { bar2base := dramSize }) ∧ Runs (.evBar2Access 0 true (List.replicate 65 1)) st ∧
    Runs (.evBar2Access 0 false [0]) st ∧ Runs (.evHostAtomicop 0xFFFFFFF) st ∧ Runs (.evDropsWrite 127 0) st ∧
    Runs (.evLog 0 101) st ∧ Runs (.evLog 8092 100) st ∧ Runs (.evStage (dramSize - 1) 1) st ∧ Runs .evCommit st ∧
    Runs (.evStage 0 0) (managed { committing := some [] }) ∧ Runs .evFlashCommitComplete (managed { committing := some [1] }) ∧
    Runs (.evAttest (List.replicate 32 0)) st ∧ Runs (.evShock 2 1) st ∧ Runs (.evShock 0 0) st :=
  have B := fun s (h : s.mgmt.power = true) => (H s h).1
  ⟨runs ((B (managed { bar2base := dramSize }) rfl 0xFFFFFFF true [1] (by decide) (by decide)).1 (by decide)),
   runs (((B st rfl 0 true (List.replicate 65 1) (by decide) (by decide)).2 (by decide)).1 rfl),
   runs (((B st rfl 0 false [0] (by decide) (by decide)).2 (by decide)).2 rfl),
   runs ((H st rfl).2.1 0xFFFFFFF (by decide)), runs ((H st rfl).2.2.1 127 (by decide)),
   runs (((H st rfl).2.2.2.2.1 0 101).1 (.inl (by decide))), runs (((H st rfl).2.2.2.2.1 8092 100).2 (by decide) (by decide)),
   runs ((H st rfl).2.2.2.2.2.1 (dramSize - 1) 1 rfl (by decide) (by decide) (by decide +kernel)),
   runs ((H st rfl).2.2.2.2.2.2.1 rfl),
   runs (((H (managed { committing := some [] }) rfl).2.2.2.2.2.2.2.1 [] rfl).1 0 0),
   runs ((H (managed { committing := some [1] }) rfl).2.2.2.2.2.2.2.1 [1] rfl).2.2,
   runs ((H st rfl).2.2.2.2.2.2.2.2.1 (List.replicate 32 0) (by decide)),
   runs (((H st rfl).2.2.2.2.2.2.2.2.2.2 2 1 (by decide)).1 (by decide)),
   runs (((H st rfl).2.2.2.2.2.2.2.2.2.2 0 0 (by decide)).2 (by decide))⟩

/-- A rail is over its limit. -/
def hot : State := { managed { rails := [0xFFFF], overRail := some 0 } with time := 100000 }

/-- Slot 63 of context 1 is COMMITTING, the translation of its read asks the run-time, and a shutdown was decided at TIME 0. -/
def committing0 : State :=
  { managed { closing := some (0, []) } with
    plans := [(63, { assigned := true, asid := 1, state := 2 })],
    flights := [{ id := 6, src := nodePlan, dst := nodePlan, asid := 1,
                  pkt := .planData 63 (.com 0 0 0 (natBytes 8 0x4000 ++ natBytes 8 64 ++ natBytes 8 0)) 0 }] }

theorem witness_PowerEvents (H : PowerEvents) :
    Runs .evDeviceReset st ∧ Runs .evPowerOn (managed { power := false }) ∧
    Runs (.evContextTeardown 1) committing0 ∧ Runs (.evContextTeardown 1) st ∧
    Runs .evThermalShutdown (managed { sensors := [(63, 840)] }) ∧ Runs .evThermalShutdown { committing0 with time := 49 } ∧
    Runs .evThermalShutdown { committing0 with time := 50 } ∧
    Runs (.evThrottleStep false) { managed { sensors := [(0, 760)] } with time := 100000 } ∧
    Runs (.evThrottleStep false) hot ∧ Runs (.evThrottleStep true) { managed { sensors := [(0, 735)], clock := 1000 } with time := 100000 } :=
  ⟨runs ((H.1 st).1 rfl rfl), runs ((H.1 (managed { power := false })).2.1 rfl),
   runs ((((H.1 committing0).2.2.2) 1).1 (by decide +kernel)), runs ((((H.1 st).2.2.2) 1).2 (by decide +kernel)),
   runs ((H.2 (managed { sensors := [(63, 840)] }) rfl rfl).1 (.inl (by decide +kernel)) |>.1 (by decide +kernel)),
   runs ((H.2 { committing0 with time := 49 } rfl rfl).1 (.inr (by decide)) |>.2.1 (by decide +kernel) (by decide +kernel)),
   runs ((H.2 { committing0 with time := 50 } rfl rfl).1 (.inr (by decide)) |>.2.2 (by decide +kernel) (by decide +kernel)),
   runs (((H.2 { managed { sensors := [(0, 760)] } with time := 100000 } rfl rfl).2 (by decide +kernel) rfl rfl (by decide +kernel)).1
    (by decide +kernel) |>.1 (by decide +kernel)),
   runs (((H.2 hot rfl rfl).2 (by decide +kernel) rfl rfl (by decide +kernel)).1 (by decide +kernel) |>.2 0 (by decide +kernel)
    (by decide +kernel)),
   runs (((H.2 { managed { sensors := [(0, 735)], clock := 1000 } with time := 100000 } rfl rfl).2 (by decide +kernel)
    rfl rfl (by decide +kernel)).2 (by decide +kernel) rfl (by decide +kernel))⟩

/-- Port 3 and the peer 7 as given. -/
def linked (l : LinkPort) (p : Peer) : State := { withOp st op0 with links := [(3, l)], peers := [(7, p)] }
def peerMsg (p : Pkt) : Flight := msg0 (nodePeer 7) p

theorem witness_LinkEvents (H : Obligations.LinkEvents) :
    Runs (.evLinkTraining 3 7 1) st ∧ Runs (.evLinkTraining 3 6 1) (linked { state := 2, far := [7] } {}) ∧
    Runs (.evLinkTraining 3 0 1) st ∧ Runs (.evLaneRepair 3 4) (linked { state := 2, spare := true } {}) ∧
    Runs (.evLaneRepair 3 4) (linked { state := 2 } {}) ∧ Runs (.evLaneRetrainComplete 3) (linked { state := 1 } {}) ∧
    Runs (.evLinkFailure 3) (linked { state := 2 } {}) ∧ Runs (.evPeerLoss 7) (linked { state := 0, far := [7] } { path := true }) ∧
    Runs (.evPeerLoss 7) (linked { state := 0, far := [7] } { path := true, held := true }) ∧
    Runs (.evPeerLoss 7) (linked { state := 0, far := [7] } { path := true }) :=
  ⟨runs ((H.1 st 3 7 1 0 (by decide)).1 (by decide) (by decide +kernel) |>.1 rfl (by decide) rfl),
   runs ((H.1 (linked { state := 2, far := [7] } {}) 3 6 1 0 (by decide)).1 (by decide) (by decide +kernel) |>.2.1 rfl rfl (by decide)
    rfl),
   runs ((H.1 st 3 0 1 0 (by decide)).1 (by decide) (by decide +kernel) |>.2.2 rfl (.inl rfl)),
   runs ((H.1 (linked { state := 2, spare := true } {}) 3 0 0 4 (by decide)).2.1 (by decide) (by decide) rfl),
   runs ((H.1 (linked { state := 2 } {}) 3 0 0 4 (by decide)).2.2.1 (by decide) (by decide) rfl),
   runs ((H.1 (linked { state := 1 } {}) 3 0 0 0 (by decide)).2.2.2.1 rfl),
   runs ((H.1 (linked { state := 2 } {}) 3 0 0 0 (by decide)).2.2.2.2 (by decide)),
   let ⟨_, h, _⟩ := (H.2.2.2.1 (linked { state := 0, far := [7] } { path := true }) 7 (by decide) rfl (by decide +kernel)).1
   runs h,
   runs ((H.2.2.2.1 (linked { state := 0, far := [7] } { path := true, held := true }) 7 (by decide) rfl (by decide +kernel)).2.1 rfl),
   runs ((H.2.2.2.1 (linked { state := 0, far := [7] } { path := true }) 7 (by decide) rfl (by decide +kernel)).2.2 rfl)⟩

/-- The path to peer 7 is up. -/
def peered (p : Peer) : State := linked { state := 2, far := [7] } { p with path := true }
def asked (s : State) (p : Pkt) : State := carry s (peerMsg p)
/-- A request that peer 7 has sent, with a sequence number. -/
def fromPeer (seq : Nat) : Flight := { peerMsg (.peerIn seq (acc0 .store 0x4000)) with src := nodePeer 7, dst := nodeHome 0, op := none }

theorem witness_LinkEvents_requests (H : Obligations.LinkEvents) :
    Runs (.evPeerRequestArrival 6) (asked (linked {} {}) (.global (acc0 .load (peerBase 7)) [])) ∧
    Runs (.evPeerRequestArrival 6) (asked (peered {}) (.global (acc0 .load (peerBase 7)) [])) ∧
    Runs (.evPeerRequestArrival 6) (asked (peered {}) (.global (acc0 .stc (peerBase 7)) [])) ∧
    Runs (.evPeerRequestArrival 6) (asked (peered {}) (.reserve (acc0 (.atomic .add) (peerBase 7)))) ∧
    Runs (.evPeerAcknowledge 6) (asked (peered { unacked := [(6, 0)] }) (.global (acc0 .load (peerBase 7)) [])) ∧
    Runs (.evPeerRequestArrival 6) (carry (peered { recvSeq := 0xFFFFFFFF }) (fromPeer 0xFFFFFFFF)) ∧
    Runs (.evPeerRequestArrival 6) (carry (peered { recvSeq := 0 }) (fromPeer 0xFFFFFFFF)) ∧
    Runs (.evTraversalCompletion 6) (asked (peered { held := true }) (.tdone ⟨0, [], 0⟩)) ∧
    Runs (.evTraversalCompletion 6) (asked (linked {} {}) (.tdone ⟨0, [], 0⟩)) ∧
    Runs (.evTraversalCompletion 6) (asked (peered { unacked := (List.range 4095).map fun i => (i + 7, i) }) (.tdone ⟨0, [], 0⟩)) :=
  ⟨runs ((H.2.1 (asked (linked {} {}) _) (peerMsg (.global (acc0 .load (peerBase 7)) [])) 7 rfl rfl (by decide)
    (.inl (by decide))).1 (by decide +kernel) rfl |>.1 rfl),
   runs ((H.2.1 (asked (peered {}) _) (peerMsg (.global (acc0 .load (peerBase 7)) [])) 7 rfl rfl (by decide)
    (.inl (by decide))).1 (by decide +kernel) rfl |>.2 rfl rfl (by decide +kernel) |>.1 _ [] rfl (by decide)),
   runs ((H.2.1 (asked (peered {}) _) (peerMsg (.global (acc0 .stc (peerBase 7)) [])) 7 rfl rfl (by decide)
    (.inl (by decide))).1 (by decide +kernel) rfl |>.2 rfl rfl (by decide +kernel) |>.2.1 _ [] rfl rfl),
   runs ((H.2.1 (asked (peered {}) _) (peerMsg (.reserve (acc0 (.atomic .add) (peerBase 7)))) 7 rfl
    rfl (by decide) (.inl (by decide))).1 (by decide +kernel) rfl |>.2 rfl rfl (by decide +kernel) |>.2.2 _ rfl),
   runs ((H.2.1 (asked (peered { unacked := [(6, 0)] }) _) (peerMsg (.global (acc0 .load (peerBase 7)) [])) 7 rfl rfl (by decide)
    (.inl (by decide))).2 rfl rfl rfl),
   runs ((H.2.2.1 (carry (peered { recvSeq := 0xFFFFFFFF }) _) (fromPeer 0xFFFFFFFF) 7 0xFFFFFFFF (acc0 .store 0x4000) rfl rfl
    (by decide) rfl rfl).1 (by decide +kernel) (by decide) (by decide)),
   runs ((H.2.2.1 (carry (peered { recvSeq := 0 }) _) (fromPeer 0xFFFFFFFF) 7 0xFFFFFFFF (acc0 .store 0x4000) rfl rfl
    (by decide) rfl rfl).2 (by decide +kernel) (by decide +kernel)),
   runs ((H.2.2.2.2.1 (asked (peered { held := true }) _) (peerMsg (.tdone ⟨0, [], 0⟩)) ⟨0, [], 0⟩ 7 rfl rfl (by decide) rfl).1 (.inl rfl)),
   runs ((H.2.2.2.2.1 (asked (linked {} {}) _) (peerMsg (.tdone ⟨0, [], 0⟩)) ⟨0, [], 0⟩ 7 rfl rfl (by decide) rfl).2 (by decide +kernel)
    rfl |>.1 rfl),
   runs ((H.2.2.2.2.1 (asked (peered { unacked := (List.range 4095).map fun i => (i + 7, i) }) _) (peerMsg (.tdone ⟨0, [], 0⟩)) ⟨0, [], 0⟩
    7 rfl rfl (by decide) rfl).2 (by decide +kernel) rfl |>.2 rfl rfl (by decide +kernel))⟩

/-! ## Witnesses: operand checks, NOP, RETQ, frames, traps, steps -/

theorem witness_PredicateFields (H : Obligations.PredicateFields) :
    Runs (.pand ⟨7, 8, 0, 0⟩) st ∧ Runs (.stbind 7 63 0 2 0) st ∧ Runs (.pand ⟨7, 7, 0, 7⟩) st :=
  have ⟨h1, _⟩ := H.1 st 7 8 0 0 (by decide)
  have ⟨_, _, _, _, _, _, _, _, _, _, _, _, _, h2⟩ := H.1 st 7 63 0 0 (by decide)
  ⟨runs (h1 0).1, runs (h2 2 0), runs (H.2.2 7 0 7 st 0 0 (st_solo _) (by decide) (by decide)).1⟩

theorem witness_NopForm (H : Obligations.NopForm) :
    Runs (.nop 7) st ∧ (∃ u, exec (.nop 7) st = .next u ∧ OnlySlice st u 0 0) ∧
    st.decoded 0x79000001 0 = .done (st.gangTrap 4 { code := 0x01 }) :=
  ⟨runs (H.2.1 7 st (st_gang _)), (H.2.2.1 7 st 0 0 (st_solo _) (by decide) rfl (by decide)).imp fun _ h => ⟨h.1, h.2.1⟩,
   H.2.2.2 st 0x79000001 0 (by decide) (by decide)⟩

theorem warped_acts : ∀ srcs, Acts warped 0 0 7 srcs := acts (by decide +kernel)
theorem st_off : st.slice 0 0 = live ∧ (st.slice 0 0).active 15 = 0 := by decide +kernel

theorem witness_RetqForm (H : Obligations.RetqForm) :
    (∀ i, decodeSimt 0x78C0000C 0 ≠ .ok i) ∧ exec (.retq 7) warped = exec (.exit 7) warped ∧ Runs (.retq 7) st ∧
    exec (.retq 7) idle = exec (.exit 7) idle ∧ Runs (.retq 0) st :=
  ⟨H.2.1 0x78C0000C 0 (by decide) (by decide) (by decide),
   (H.2.2 7 warped).1 (gang (by decide +kernel) _) (by decide +kernel),
   runs (((H.2.2 7 st).2 0 0 (st_solo _)).1 live_on rfl), ((H.2.2 7 idle).2 0 0 (idle_solo _)).2.1 (by decide +kernel),
   runs (((H.2.2 0 st).2 0 0 (st_solo _)).2.2 (by decide +kernel) (by decide) rfl (by decide))⟩

theorem witness_VectorFormsFrame (H : Obligations.VectorFormsFrame) :
    ∀ p ∈ regForms, Runs (p.1 ⟨7, 0, 1, 31, 1⟩) st ∧ Runs (p.1 ⟨7, 63, 63, 48, 1⟩) st ∧ Runs (p.1 ⟨7, 0, 1, 63, 0⟩) st := fun p hp =>
  ⟨let ⟨_, h, _⟩ := H p hp ⟨7, 0, 1, 31, 1⟩ st 0 0 (st_solo _) (by decide) (by decide) (by decide); runs h,
   let ⟨_, h, _⟩ := H p hp ⟨7, 63, 63, 48, 1⟩ st 0 0 (st_solo _) (by decide) (by decide) (by decide); runs h,
   let ⟨_, h, _⟩ := H p hp ⟨7, 0, 1, 63, 0⟩ st 0 0 (st_solo _) (by decide) (by decide) (by decide); runs h⟩

theorem witness_UniformFormsFrame (H : Obligations.UniformFormsFrame) : ∀ p ∈ uniformForms, Runs (p.1 ⟨7, 0, 31, 31, 0⟩) st := fun p hp =>
  let ⟨_, h, _⟩ := H p hp ⟨7, 0, 31, 31, 0⟩ st 0 0 (st_solo _) (by decide) (by decide)
  runs h

theorem witness_LocalFormsFrame (H : Obligations.LocalFormsFrame) :
    (∀ p ∈ memTable (memw 0 0), p.instr.wf = true → Runs p.instr st1) ∧ Runs (.ld (memw 0 5)) st1 ∧ Runs (.st (memw 0 6)) emptied :=
  ⟨fun p hp w =>
    let ⟨_, h, _⟩ := H _ p hp st1 _ 0 0 _ w (lands st1_acts (all_rows (m := memw 0 0) (q := (landsB · (memw 0 0) st1))
      (by decide +kernel) p hp)) rfl (fun h => by cases h) (fun h => by cases h)
    runs h,
   let ⟨_, h, _⟩ := H (memw 0 5) ((memTable (memw 0 5))[0]) (List.getElem_mem _) st1 _ 0 0 _ (by decide)
     (lands st1_acts (by decide +kernel)) rfl (fun _ _ => by decide +kernel) (fun h => by cases h)
   runs h,
   let ⟨_, h, _⟩ := H (memw 0 6) ((memTable (memw 0 6))[1]) (List.getElem_mem _) emptied _ 0 0 _ (by decide)
     (lands emptied_acts (by decide +kernel)) rfl (fun h => by cases h) (fun _ => by decide +kernel)
   runs h⟩

/-- The slice has a handler for its traps. -/
def caught : State := one { live with trapvec := 0x2000 }
/-- A fault of the lowest lane at its own instruction. -/
def fault0 (code : Nat) : FaultRec := { code := code, lanes := [(0, 1)] }

/-- A handler slice in system mode. -/
def failing : State := one { live with system := true, handler := true }

theorem witness_TrapEntry (H : Obligations.TrapEntry) :
    ((caught.trapSlice 0 0 (fault0 5) 0x1000 1 1 0).slice 0 0).path.pc = 0x2000 ∧
    ((st.trapSlice 0 0 (fault0 5) 0x1000 1 1 0).slice 0 0).system = true ∧
    ((caught.trapSlice 0 0 { code := 0x11, addr := 63 } 0x1000 1 1 0).slice 0 0).system = true ∧
    (∃ n, (sysm.trapSlice 0 0 (fault0 5) 0x1000 1 1 0).groups = (n : State).groups) ∧
    (∃ n, (failing.trapSlice 0 0 (fault0 5) 0x1000 1 1 0).groups = (n : State).groups) ∧
    dbg.trap 0 [0] (fault0 0x12) 0x1000 0x1004 =
      (dbg.report 0 0 0x12 0x1000 1 (dbg.ixMask 0 [0]) 0).haltGroup 0 0 1 ∧
    (∃ n f, st.trap 0 [0] (fault0 5) 0x1000 0x1004 = (n : State).trapSlice 0 0 f 0x1000 1 (st.ixMask 0 [0]) 10) :=
  ⟨((H.1 caught 0 0 (fault0 5) 0x1000 1 1 0 (by decide) (by decide)).1 rfl (by decide) (by decide) (by decide)
    (by decide)).2.2.2.1,
   ((H.1 st 0 0 (fault0 5) 0x1000 1 1 0 (by decide) (by decide)).2.1 rfl (.inr (.inl rfl))).2.2.1,
   ((H.1 caught 0 0 { code := 0x11, addr := 63 } 0x1000 1 1 0 (by decide) (by decide)).2.1 rfl
     (.inr (.inr (by decide)))).2.2.1,
   let ⟨_, _, h, _⟩ := (H.1 sysm 0 0 (fault0 5) 0x1000 1 1 0 (by decide) (by decide)).2.2 rfl
   ⟨_, congrArg _ (h rfl)⟩,
   let ⟨_, _, _, h⟩ := (H.1 failing 0 0 (fault0 5) 0x1000 1 1 0 (by decide) (by decide)).2.2 rfl
   ⟨_, congrArg _ (h rfl)⟩,
   (H.2 dbg 0 0 (fault0 0x12) 0x1000 0x1004 rfl).1 (.inl rfl) (by decide +kernel),
   ⟨_, _, (H.2 st 0 0 (fault0 5) 0x1000 0x1004 rfl).2 (.inl (by decide)) rfl⟩⟩

/-- The slice in slot 0 is the next visited; IADD V0, V1, V2 at its PC, then LQPSH. -/
def visited (pc : Addr) : State :=
  { one { live with paths := [{ state := .run, mask := 0xFF, pc := pc }] } with
    mem := [(64, 1), (65, 0x20), (0x1000, 0x20), (0x1001, 0x04), (0x1002, 0x40), (0x1003, 0x70),
            (0x1004, 0x50), (0x1005, 0x10), (0x1006, 0x43), (0x1007, 0x7F), (0x1009, 0x80),
            (0x2000, 1), (0x2002, 1), (0x10000, 0x3F)] }

theorem visits {pc : Addr} (h : ((visited pc).slice 0 0).settle = (visited pc).slice 0 0)
    (h2 : (visited pc).warpSlots 0 0 = [0] ∧ (visited pc).overrunDue 0 0 = none ∧ (visited pc).runLimitDue 0 0 = false) :
    Visits (visited pc) 0 0 :=
  ⟨rfl, rfl, rfl, h2.1, show (0 : Nat) ≠ 0 + 1 by decide, h, rfl, rfl, rfl, h2.2.1, h2.2.2, rfl, fun h => by cases h⟩

/-- A rake whose next thread is at an NFCH. -/
def raking (ts : List Turn) : State :=
  { cores := [(0, { rake := { threads := [(0, thr)], kernels := [(1, 0, 0, 8)], regions := [(0, 1, 0, 8)],
                              program := [(0, 0x04120000)] } })], groups := [(1, grp)], agenda := ts }

theorem witness_StepRunsInstruction (H : Obligations.StepRunsInstruction) :
    (∃ u v, step (visited 0x1000) = Meaning.andThen (exec (.iadd ⟨7, 0, 1, 2, 0⟩) u) v) ∧
    (∃ u v, step (visited 0x1004) = Meaning.andThen (exec (.lqpsh 7 3 4 5 1) u) v) ∧
    ((visited 0x1000).fetchWord 0 1 false 0x1000).2.toOption = some 0x70400420 ∧
    (∃ u v, step (raking [.rake 0]) = Meaning.andThen (exec (.tNfch 18) u) v) ∧
    (∃ u v, step (raking [.event .evSensors]) = Meaning.andThen (exec .evSensors u) v) :=
  ⟨⟨_, _, H.1 (visited 0x1000) _ _ 0 0x70400420 0 _ rfl rfl rfl (visits (by decide +kernel) (by decide +kernel))
    (by decide +kernel) (pair_ok (by decide +kernel)) ⟨rfl, rfl⟩ (of_ok (by decide +kernel))⟩,
   ⟨_, _, H.1 (visited 0x1004) _ _ 0 0x7F431050 0x00008000 _ rfl rfl rfl (visits (by decide +kernel) (by decide +kernel))
    (by decide +kernel) (pair_ok (by decide +kernel)) ⟨by decide +kernel, pair_ok (by decide +kernel)⟩ (of_ok (by decide +kernel))⟩,
   by
    rw [H.2.1 (visited 0x1000) _ 0 1 0x1000 false 0x1000 (pair_ok (by decide +kernel)) (by decide) (by decide +kernel)
      (by decide +kernel) (by decide +kernel)]
    decide +kernel,
   ⟨_, _, H.2.2.1 (raking [.rake 0]) _ 0 _ [] rfl rfl (show _ = (_, some _) from
     Prod.ext rfl (by decide +kernel : ((raking []).rakeIssue 0).2 = some (.tNfch 18)))⟩,
   ⟨_, _, H.2.2.2 (raking [.event .evSensors]) .evSensors [] rfl (by decide +kernel)⟩⟩

/-- The meaning answers a next state. -/
def isNext (m : Meaning) : Bool := match m with | .next _ => true | _ => false
theorem next_of {m : Meaning} {P : State → Prop} (h : isNext m = true) (k : ∀ u, m = .next u → P u) : ∃ u, m = .next u ∧ P u := by
  cases m with
  | next u => exact ⟨u, rfl, k u rfl⟩
  | fault => cases h
  | refused => cases h

/-- IADD at 0x1000 in the slice that datapath `dp` of core 0 visits in the first cycle, or nothing elsewhere. -/
def turning (core dp : Nat) : State := { visited 0x1000 with visitCore := core, visitDp := dp }

theorem witness_StepKeepsPlaced (H : Obligations.StepKeepsPlaced) :
    (∃ u, step State.reset = .next u ∧ Placed u) ∧ (∃ u, step (turning 0 0) = .next u ∧ u.visitDp = 1) ∧
    (∃ u, step (turning 0 7) = .next u ∧ u.visitCore = 1) ∧ ∃ u, step (turning 255 7) = .next u ∧ u.visitCore = 0 :=
  ⟨next_of (by decide +kernel) fun u h => H.1 State.reset u ⟨by decide, by decide⟩ h,
   next_of (by decide +kernel) fun u h => ((H.2 (turning 0 0) u rfl rfl h).1 (show 0 < 7 by decide)).2,
   next_of (by decide +kernel) fun u h => ((H.2 (turning 0 7) u rfl rfl h).2.1 (Nat.le_refl 7) (show 0 < 255 by decide)).1,
   next_of (by decide +kernel) fun u h => ((H.2 (turning 255 7) u rfl rfl h).2.2 (Nat.le_refl 7) (Nat.le_refl 255)).1⟩

/-- The invariants hold of the state after reset, and so of the state after the first visit. -/
theorem witness_StepKeepsForm (H : Obligations.StepKeepsForm) (R : Obligations.ResetValues) : ∃ u, step State.reset = .next u ∧ InForm u :=
  next_of (by decide +kernel) fun u h => H State.reset u R.2.2 h

/-- A visit without main power, or in recovery, is a step that leaves the slices. -/
theorem witness_RecoveryAccepts (H : Obligations.RecoveryAccepts) :
    (step (managed { power := false }) = .next (managed { power := false }) ∧
      managed { power := false } = { managed { power := false } with agenda := [] }) ∧
    ∃ u, step (managed { power := true, recovery := true }) = .next u ∧ u.slices = [] :=
  have h1 : step (managed { power := false }) = .next (managed { power := false }) := rfl
  ⟨⟨h1, (H _ _ h1).1 rfl (fun _ h => by cases h)⟩,
   _, rfl, ((H (managed { power := true, recovery := true }) _ rfl).2 rfl rfl (fun _ _ h => by cases h)
     (fun _ _ _ h => by cases h)).2.1⟩

theorem witness_EncodeDecode (H : Obligations.SimtEncodeDecode) (T : Obligations.TraversalEncodeDecode)
    (D : Obligations.DecodedIsEncoding) :
    decodeBytes ((encode (.iadd f3)).flatMap wordBytes ++ [5]) = .ok (.iadd f3, [5]) ∧
    (∃ w, encode (.tNfch 18) = [w] ∧ decodeTrav w = .ok (.tNfch 18)) ∧ encode (.iadd ⟨7, 0, 1, 2, 0⟩) = [0x70400420#32] ∧
    encode (.lqpsh 7 3 4 5 1) = [0x7F431050#32, 0x00008000#32] ∧ encode (.tNfch 18) = [0x04120000#32] :=
  ⟨H (.iadd f3) [5] (by decide) rfl (by decide), T (.tNfch 18) rfl rfl,
   (D.1 0x70400420 0 _ (of_ok (by decide +kernel))).2, (D.1 0x7F431050 0x00008000 _ (of_ok (by decide +kernel))).2,
   (D.2 0x04120000 _ (of_ok (by decide +kernel))).2⟩

/-! ## Every encoded form: a word put together from 02 Tables 02-2 to 02-6, 12 Table 12-3, 13 Tables 13-3 and 13-8 with a
distinct value in each field, and the instruction it stands for -/

theorem test_simt_words1 : ∀ p ∈ (
  [(0x70452B38, 0, .iadd ⟨7, 5, 10, 51, 1⟩), (0x70452B39, 0, .isub ⟨7, 5, 10, 51, 1⟩), (0x70452B3A, 0, .imul ⟨7, 5, 10, 51, 1⟩),
   (0x70452B3B, 0, .imulhs ⟨7, 5, 10, 51, 1⟩), (0x70452B3C, 0, .imulhn ⟨7, 5, 10, 51, 1⟩), (0x70452B3D, 0, .imins ⟨7, 5, 10, 51, 1⟩),
   (0x70452B3E, 0, .imaxs ⟨7, 5, 10, 51, 1⟩), (0x70452B3F, 0, .iminn ⟨7, 5, 10, 51, 1⟩), (0x70852B38, 0, .imaxn ⟨7, 5, 10, 51, 1⟩),
   (0x70852B39, 0, .iabsd ⟨7, 5, 10, 51, 1⟩), (0x70852B3A, 0, .iaddss ⟨7, 5, 10, 51, 1⟩), (0x70852B3B, 0, .iaddsn ⟨7, 5, 10, 51, 1⟩),
   (0x70852B3C, 0, .isubss ⟨7, 5, 10, 51, 1⟩), (0x70852B3D, 0, .isubsn ⟨7, 5, 10, 51, 1⟩), (0x70852B3E, 0, .imac ⟨7, 5, 10, 51, 1⟩),
   (0x70852B3F, 0, .imach ⟨7, 5, 10, 51, 1⟩), (0x70C52B38, 0, .and ⟨7, 5, 10, 51, 1⟩), (0x70C52B39, 0, .or ⟨7, 5, 10, 51, 1⟩),
   (0x70C52B3A, 0, .xor ⟨7, 5, 10, 51, 1⟩), (0x70C52B3B, 0, .andn ⟨7, 5, 10, 51, 1⟩), (0x70C52B3C, 0, .orn ⟨7, 5, 10, 51, 1⟩),
   (0x70C52B3D, 0, .xnor ⟨7, 5, 10, 51, 1⟩), (0x70C52B3E, 0, .shl ⟨7, 5, 10, 51, 1⟩), (0x70C52B3F, 0, .shr ⟨7, 5, 10, 51, 1⟩),
   (0x71052B38, 0, .sra ⟨7, 5, 10, 51, 1⟩), (0x71052B39, 0, .rol ⟨7, 5, 10, 51, 1⟩), (0x71052B3A, 0, .ror ⟨7, 5, 10, 51, 1⟩),
   (0x71052B3B, 0, .bfx ⟨7, 5, 10, 51, 1⟩), (0x71052B3C, 0, .bfi ⟨7, 5, 10, 51, 1⟩), (0x71052805, 0, .clz ⟨7, 5, 10⟩)]
  : List (Word × Word × Instr)), decodeSimt p.1 p.2.1 = .ok p.2.2 := by decide +kernel

theorem test_simt_words2 : ∀ p ∈ (
  [(0x71052806, 0, .popc ⟨7, 5, 10⟩), (0x71052807, 0, .brev ⟨7, 5, 10⟩), (0x71452955, 0, .iaddi ⟨7, 5, 10, 0x155⟩),
   (0x71852955, 0, .andi ⟨7, 5, 10, 0x155⟩), (0x71C52955, 0, .ori ⟨7, 5, 10, 0x155⟩), (0x72052955, 0, .xori ⟨7, 5, 10, 0x155⟩),
   (0x72452815, 0, .shli ⟨7, 5, 10, 21⟩), (0x72452915, 0, .shri ⟨7, 5, 10, 21⟩), (0x72452A15, 0, .srai ⟨7, 5, 10, 21⟩),
   (0x72452B15, 0, .rori ⟨7, 5, 10, 21⟩), (0x72859234, 0, .movi ⟨7, 5, 0x9234⟩), (0x72C59234, 0, .movhi ⟨7, 5, 0x9234⟩),
   (0x73059234, 0, .smovi ⟨7, 5, 0x9234⟩), (0x73459234, 0, .smovhi ⟨7, 5, 0x9234⟩), (0x73852B38, 0, .sadd ⟨7, 5, 10, 51, 1⟩),
   (0x73852B39, 0, .ssub ⟨7, 5, 10, 51, 1⟩), (0x73852B3A, 0, .smul ⟨7, 5, 10, 51, 1⟩), (0x73852B3B, 0, .sand ⟨7, 5, 10, 51, 1⟩),
   (0x73852B3C, 0, .sor ⟨7, 5, 10, 51, 1⟩), (0x73852B3D, 0, .sxor ⟨7, 5, 10, 51, 1⟩), (0x73852B3E, 0, .sshl ⟨7, 5, 10, 51, 1⟩),
   (0x73852B3F, 0, .sshr ⟨7, 5, 10, 51, 1⟩), (0x73C52B38, 0, .ssra ⟨7, 5, 10, 51, 1⟩), (0x73C52B39, 0, .smins ⟨7, 5, 10, 51, 1⟩),
   (0x73C52B3A, 0, .smaxs ⟨7, 5, 10, 51, 1⟩), (0x73C52B3B, 0, .sminn ⟨7, 5, 10, 51, 1⟩), (0x73C52B3C, 0, .smaxn ⟨7, 5, 10, 51, 1⟩),
   (0x73C52805, 0, .sclz ⟨7, 5, 10⟩), (0x73C52806, 0, .spopc ⟨7, 5, 10⟩), (0x73C5033F, 0, .smov ⟨7, 5, 51, 1⟩)]
  : List (Word × Word × Instr)), decodeSimt p.1 p.2.1 = .ok p.2.2 := by decide +kernel

theorem test_simt_words3 : ∀ p ∈ (
  [(0x74050338, 0, .mov ⟨7, 5, 51, 1⟩), (0x74052B39, 0, .vbcast ⟨7, 5, 10, 51, 1⟩), (0x74052B3A, 0, .vextr ⟨7, 5, 10, 51, 1⟩),
   (0x74052B3B, 0, .vinsr ⟨7, 5, 10, 51, 1⟩), (0x74052B3C, 0, .movx ⟨7, 5, 10, 51, 1⟩), (0x74452B3E, 0, .sel 7 5 10 51 1 6),
   (0x748509A5, 0, .srd 7 5 0x9a5), (0x74C509A5, 0, .swr 7 5 0x9a5), (0x75052B38, 0, .fadd ⟨7, 5, 10, 51, 1⟩),
   (0x75052B39, 0, .fsub ⟨7, 5, 10, 51, 1⟩), (0x75052B3A, 0, .fmul ⟨7, 5, 10, 51, 1⟩), (0x75052B3B, 0, .fmin ⟨7, 5, 10, 51, 1⟩),
   (0x75052B3C, 0, .fmax ⟨7, 5, 10, 51, 1⟩), (0x75052B3D, 0, .fcpsgn ⟨7, 5, 10, 51, 1⟩), (0x75052B3E, 0, .ffma ⟨7, 5, 10, 51, 1⟩),
   (0x75052B3F, 0, .ffms ⟨7, 5, 10, 51, 1⟩), (0x75452800, 0, .fabs ⟨7, 5, 10⟩), (0x75452801, 0, .fneg ⟨7, 5, 10⟩),
   (0x75452802, 0, .frcp ⟨7, 5, 10⟩), (0x75452803, 0, .frsq ⟨7, 5, 10⟩), (0x75452804, 0, .fsqrt ⟨7, 5, 10⟩),
   (0x75452805, 0, .fexp2 ⟨7, 5, 10⟩), (0x75452806, 0, .flog2 ⟨7, 5, 10⟩), (0x75452807, 0, .fsinpi ⟨7, 5, 10⟩),
   (0x75852800, 0, .fcospi ⟨7, 5, 10⟩), (0x75852801, 0, .ftanh ⟨7, 5, 10⟩), (0x75852802, 0, .ffract ⟨7, 5, 10⟩),
   (0x75852803, 0, .frnd ⟨7, 5, 10⟩), (0x75852804, 0, .fclass ⟨7, 5, 10⟩), (0x75852B3D, 0, .fdiv ⟨7, 5, 10, 51, 1⟩)]
  : List (Word × Word × Instr)), decodeSimt p.1 p.2.1 = .ok p.2.2 := by decide +kernel

theorem test_simt_words4 : ∀ p ∈ (
  [(0x75852B3E, 0, .fldexp ⟨7, 5, 10, 51, 1⟩), (0x75852807, 0, .fsat ⟨7, 5, 10⟩), (0x75C52B38, 0, .hadd2 ⟨7, 5, 10, 51, 1⟩),
   (0x75C52B39, 0, .hmul2 ⟨7, 5, 10, 51, 1⟩), (0x75C52B3A, 0, .hfma2 ⟨7, 5, 10, 51, 1⟩), (0x75C52B3B, 0, .hmin2 ⟨7, 5, 10, 51, 1⟩),
   (0x75C52B3C, 0, .hmax2 ⟨7, 5, 10, 51, 1⟩), (0x75C52B3D, 0, .badd2 ⟨7, 5, 10, 51, 1⟩), (0x75C52B3E, 0, .bmul2 ⟨7, 5, 10, 51, 1⟩),
   (0x75C52B3F, 0, .bfma2 ⟨7, 5, 10, 51, 1⟩), (0x76052B5D, 0, .cvtf 7 5 10 6 5 1 5), (0x76452B2D, 0, .cvti 7 5 10 1 4 2 1 5),
   (0x76852B38, 0, .prmt ⟨7, 5, 10, 51, 1⟩), (0x76852B39, 0, .pk2h ⟨7, 5, 10, 51, 1⟩), (0x76852B3A, 0, .pk2b ⟨7, 5, 10, 51, 1⟩),
   (0x76852803, 0, .upk2h ⟨7, 5, 10⟩), (0x76852804, 0, .upk2b ⟨7, 5, 10⟩), (0x76852AE5, 0, .pk4q 7 5 10 5 1 2),
   (0x76852826, 0, .upk4q 7 5 10 2), (0x76F52B3B, 0, .icmp 7 6 5 10 51 1 3), (0x77352B3B, 0, .fcmp 7 6 5 10 51 1 3),
   (0x77452B30, 0, .pand ⟨7, 5, 10, 51⟩), (0x77452B31, 0, .por ⟨7, 5, 10, 51⟩), (0x77452B32, 0, .pxor ⟨7, 5, 10, 51⟩),
   (0x77452803, 0, .pnot ⟨7, 5, 10⟩), (0x77452804, 0, .pmov ⟨7, 5, 10⟩), (0x77452805, 0, .ptos ⟨7, 5, 10⟩),
   (0x77452806, 0, .pfroms ⟨7, 5, 10⟩), (0x77852810, 0, .vany 7 5 10 1), (0x77852811, 0, .vall 7 5 10 1)]
  : List (Word × Word × Instr)), decodeSimt p.1 p.2.1 = .ok p.2.2 := by decide +kernel

theorem test_simt_words5 : ∀ p ∈ (
  [(0x77852812, 0, .ballot 7 5 10 1), (0x77850013, 0, .gwid 7 5 1), (0x77852954, 0, .gred 7 5 10 10 1),
   (0x77852815, 0, .gmatch 7 5 10 1), (0x77850016, 0, .gelect 7 5 1), (0x77800007, 0, .wsync 7),
   (0x77C52B38, 0, .shfli ⟨7, 5, 10, 51, 1⟩), (0x77C52B39, 0, .shflu ⟨7, 5, 10, 51, 1⟩), (0x77C52B3A, 0, .shfld ⟨7, 5, 10, 51, 1⟩),
   (0x77C52B3B, 0, .shflx ⟨7, 5, 10, 51, 1⟩), (0x77C52B34, 0, .segsc ⟨7, 5, 10, 51⟩), (0x77C52B35, 0, .segscf ⟨7, 5, 10, 51⟩),
   (0x77C52816, 0, .gbcst 7 5 10 1), (0x782AAAA5, 0, .bra 7 0x2aaaa5), (0x78555557, 0, .call 7 0x155557),
   (0x78BFFFF1, 0, .rcvp 7 0x3ffff1), (0x78C02800, 0, .jmpx 7 10), (0x78C52801, 0, .callx ⟨7, 5, 10⟩),
   (0x78C02802, 0, .ret 7 10), (0x78C02B3B, 0, .callq 7 10 51 1), (0x78C00004, 0, .retq 7),
   (0x78C00005, 0, .exit 7), (0x78C00006, 0, .yield 7), (0x79000000, 0, .nop 7),
   (0x79667340, 0, .rpt 7 9 2 1 3 26), (0x79852800, 0, .qwr ⟨7, 5, 10⟩), (0x79852801, 0, .qrd ⟨7, 5, 10⟩),
   (0x79852B32, 0, .qtry ⟨7, 5, 10, 51⟩), (0x79852803, 0, .qcnt ⟨7, 5, 10⟩), (0x79E94000, 0, .bararv 7 0xa5)]
  : List (Word × Word × Instr)), decodeSimt p.1 p.2.1 = .ok p.2.2 := by decide +kernel

theorem test_simt_words6 : ∀ p ∈ (
  [(0x79E94001, 0, .barsyn 7 0xa5), (0x79E94A02, 0, .barinit 7 0xa5 10), (0x79E94003, 0, .barwt 7 0xa5),
   (0x79E94A04, 0, .barqry 7 0xa5 10), (0x79E94005, 0, .tbarsyn 7 0xa5), (0x79E94A06, 0, .tbarinit 7 0xa5 10),
   (0x7A052B38, 0, .ose ⟨7, 5, 10, 51, 1⟩), (0x7A052B39, 0, .osen ⟨7, 5, 10, 51, 1⟩), (0x7A002802, 0, .osx 7 10),
   (0x7A002B3B, 0, .osini 7 10 51 1), (0x7A002804, 0, .osfree 7 10), (0x7A052805, 0, .osqry ⟨7, 5, 10⟩),
   (0x7A052806, 0, .ostk ⟨7, 5, 10⟩), (0x7A452B38, 0, .dqpsh ⟨7, 5, 10, 51, 1⟩), (0x7A450001, 0, .dqpop 7 5),
   (0x7A45033A, 0, .dqspl ⟨7, 5, 51, 1⟩), (0x7A45033B, 0, .dqstl ⟨7, 5, 51, 1⟩), (0x7A450004, 0, .dqcnt 7 5),
   (0x7A400005, 0, .dqclr 7), (0x7A812B38, 0, .send 7 1 10 51 1), (0x7A812B39, 0, .sendh 7 1 10 51 1),
   (0x7A80073A, 0, .waitm 7 1 51 1), (0x7A85073B, 0, .recvm 7 5 1 51 1), (0x7A85073C, 0, .mcnt 7 5 1 51 1),
   (0x7A800005, 0, .hret 7), (0x7A802B3E, 0, .svreq 7 10 51 1), (0x7AC50338, 0, .waitc 7 5 51 1),
   (0x7AC31001, 0, .fence 7 3 4), (0x7AC00002, 0, .ifence 7), (0x7B150000, 0, .trap 7 21)]
  : List (Word × Word × Instr)), decodeSimt p.1 p.2.1 = .ok p.2.2 := by decide +kernel

theorem test_simt_words7 : ∀ p ∈ (
  [(0x7B150001, 0, .brk 7 21), (0x7B000002, 0, .tret 7), (0x7B000003, 0, .eret 7),
   (0x7B00033C, 0, .mramp 7 51 1), (0x7B000005, 0, .haltg 7), (0x7B452B38, 0, .plarm ⟨7, 5, 10, 51, 1⟩),
   (0x7B452B39, 0, .plbit ⟨7, 5, 10, 51, 1⟩), (0x7B452B3A, 0, .plcom ⟨7, 5, 10, 51, 1⟩), (0x7B452803, 0, .plqry ⟨7, 5, 10⟩),
   (0x7B452804, 0, .pldis ⟨7, 5, 10⟩), (0x7C05293D, 0x812371D0, .ld ⟨7, 5, 10, 19, 1, 5, 0x8123, 3, 4, 3, 2, 2⟩), (0x7C45293C, 0x812369B0, .st ⟨7, 5, 10, 19, 1, 4, 0x8123, 3, 2, 3, 1, 2⟩),
   (0x7C850139, 0x81232590, .sld ⟨7, 5, 0, 19, 1, 1, 0x8123, 1, 1, 3, 0, 2⟩), (0x7C85013B, 0x81232991, .sst ⟨7, 5, 0, 19, 1, 3, 0x8123, 1, 2, 3, 0, 2⟩), (0x7CC5293A, 0x81232D90, .aadd ⟨7, 5, 10, 19, 1, 2, 0x8123, 1, 3, 3, 0, 2⟩),
   (0x7CC5293A, 0x81232D91, .amins ⟨7, 5, 10, 19, 1, 2, 0x8123, 1, 3, 3, 0, 2⟩), (0x7CC5293A, 0x81232D92, .amaxs ⟨7, 5, 10, 19, 1, 2, 0x8123, 1, 3, 3, 0, 2⟩), (0x7CC5293A, 0x81232D93, .aminn ⟨7, 5, 10, 19, 1, 2, 0x8123, 1, 3, 3, 0, 2⟩),
   (0x7CC5293A, 0x81232D94, .amaxn ⟨7, 5, 10, 19, 1, 2, 0x8123, 1, 3, 3, 0, 2⟩), (0x7CC5293A, 0x81232D95, .aand ⟨7, 5, 10, 19, 1, 2, 0x8123, 1, 3, 3, 0, 2⟩), (0x7CC5293A, 0x81232D96, .aor ⟨7, 5, 10, 19, 1, 2, 0x8123, 1, 3, 3, 0, 2⟩),
   (0x7CC5293A, 0x81232D97, .axor ⟨7, 5, 10, 19, 1, 2, 0x8123, 1, 3, 3, 0, 2⟩), (0x7D05293B, 0x81232D90, .axchg ⟨7, 5, 10, 19, 1, 3, 0x8123, 1, 3, 3, 0, 2⟩), (0x7D05293B, 0x81232D91, .acas ⟨7, 5, 10, 19, 1, 3, 0x8123, 1, 3, 3, 0, 2⟩),
   (0x7D05293A, 0x81233192, .afadd ⟨7, 5, 10, 19, 1, 2, 0x8123, 1, 4, 3, 0, 2⟩), (0x7D05293A, 0x81233193, .afmin ⟨7, 5, 10, 19, 1, 2, 0x8123, 1, 4, 3, 0, 2⟩), (0x7D05293A, 0x81233194, .afmax ⟨7, 5, 10, 19, 1, 2, 0x8123, 1, 4, 3, 0, 2⟩),
   (0x7D05293A, 0x81233195, .ahadd2 ⟨7, 5, 10, 19, 1, 2, 0x8123, 1, 4, 3, 0, 2⟩), (0x7D05293A, 0x81236596, .ldr ⟨7, 5, 10, 19, 1, 2, 0x8123, 3, 1, 3, 0, 2⟩), (0x7D05293A, 0x81236997, .stc ⟨7, 5, 10, 19, 1, 2, 0x8123, 3, 2, 3, 0, 2⟩)]
  : List (Word × Word × Instr)), decodeSimt p.1 p.2.1 = .ok p.2.2 := by decide +kernel

theorem test_simt_words8 : ∀ p ∈ (
  [(0x7D402938, 0x81236050, .pref ⟨7, 0, 10, 19, 1, 0, 0x8123, 3, 0, 0, 2, 2⟩), (0x7D402938, 0x81234291, .linv ⟨7, 0, 10, 19, 1, 0, 0x8123, 2, 0, 5, 0, 2⟩), (0x7D402938, 0x81236012, .lwb ⟨7, 0, 10, 19, 1, 0, 0x8123, 3, 0, 0, 0, 2⟩),
   (0x7D402938, 0x81234013, .lcln ⟨7, 0, 10, 19, 1, 0, 0x8123, 2, 0, 0, 0, 2⟩), (0x7D402938, 0x81236294, .icinv ⟨7, 0, 10, 19, 1, 0, 0x8123, 3, 0, 5, 0, 2⟩), (0x7D402938, 0x81236995, .pclr ⟨7, 0, 10, 19, 1, 0, 0x8123, 3, 2, 3, 0, 2⟩),
   (0x7D45293A, 0x81232996, .femt ⟨7, 5, 10, 19, 1, 2, 0x8123, 1, 2, 3, 0, 2⟩), (0x7D45293A, 0x81230017, .fful ⟨7, 5, 10, 19, 1, 2, 0x8123, 0, 0, 0, 0, 2⟩), (0x7D852800, 0x00008040, .tcopy 7 5 10 1 2),
   (0x7DC52800, 0x00004060, .stbind 7 5 10 2 3), (0x7DC00000, 0x00000041, .stunb 7 2), (0x7DC50000, 0x00000062, .ststat 7 5 3),
   (0x7E052930, 0xA6102100, .mma ⟨7, 5, 10, 19, 2, 9, 0x21, 0, 4, 0, 1⟩), (0x7E052930, 0x40049C01, .mmas ⟨7, 5, 10, 19, 1, 0, 0, 0x12, 3, 2, 0⟩), (0x7E452800, 0, .malloc 7 5 10),
   (0x7E402800, 0x00000001, .mfree 7 10), (0x7E400130, 0x00000002, .mzero 7 19), (0x7E402930, 0x81230003, .mld 7 10 19 0x8123),
   (0x7E402930, 0x81230004, .mst 7 10 19 0x8123), (0x7E450130, 0x00001005, .mrdv 7 5 19 2), (0x7E450130, 0x00001806, .mwrv 7 5 19 3),
   (0x7E450130, 0x00000B27, .mcvts 7 5 19 1 1 4 1), (0x7E852930, 0x421AA090, .mreq 7 5 10 19 1 0x21 0x15 4 9), (0x7EC52930, 0x9A5F5130, .trq ⟨7, 5, 10, 19, 9, 0xA5, 1, 1, 1, 0x15, 0, 9, 1⟩),
   (0x7F050000, 0, .trpoll 7 5), (0x7F000000, 0x00000009, .trkill 7 1), (0x7F052800, 0x00000002, .trpin 7 5 10),
   (0x7F002800, 0x00000003, .trunp 7 10), (0x7F052930, 0x0000000C, .trpub 7 5 10 19 1), (0x7F052930, 0x00001505, .trload 7 5 10 19 0x15)]
  : List (Word × Word × Instr)), decodeSimt p.1 p.2.1 = .ok p.2.2 := by decide +kernel

theorem test_simt_words9 : ∀ p ∈ (
  [(0x7F452930, 0x00008000, .lqpsh 7 5 10 19 1), (0x7F452800, 0x00000001, .lqstat 7 5 10)]
  : List (Word × Word × Instr)), decodeSimt p.1 p.2.1 = .ok p.2.2 := by decide +kernel

theorem test_trav_words1 : ∀ p ∈ (
  [(0x040A0000, .tNfch 10), (0x08A0C813, .tNdec 5 25 19), (0x08AAC820, .tNdecX ⟨5, 10, 25⟩), (0x0CA00002, .tNqbx 5 2),
   (0x10AA0000, .tBox8 5 10), (0x14AA0000, .tSbox8 5 10), (0x18AAC802, .tTri 5 10 25 2), (0x1CAA0002, .tSphd 5 10 2),
   (0x20AA0002, .tKcmp8 5 10 2), (0x24AAC800, .tVdist ⟨5, 10, 25⟩), (0x2800C800, .tPushm 25), (0x280AC801, .tPushmE 10 25),
   (0x2CA00000, .tPop 5), (0x30A00002, .tStkq 5 2), (0x34A00535, .tBrc 5 0x535), (0x38AA0000, .tJmp 5 10),
   (0x3C000000, .tEnd), (0x400AC806, .tEmit 10 25 6), (0x440A0000, .tMigr 10), (0x48000000, .tYld),
   (0x4CAAC800, .tAdd ⟨5, 10, 25⟩), (0x4CAA0555, .tAddImm ⟨5, 10, 0x155⟩), (0x50AAC800, .tSub ⟨5, 10, 25⟩), (0x50AA0555, .tSubImm ⟨5, 10, 0x155⟩),
   (0x54AAC800, .tMul ⟨5, 10, 25⟩), (0x54AA0555, .tMulImm ⟨5, 10, 0x155⟩), (0x58AAC800, .tAnd ⟨5, 10, 25⟩), (0x58AA0555, .tAndImm ⟨5, 10, 0x155⟩)]
  : List (Word × Instr)), decodeTrav p.1 = .ok p.2 := by decide +kernel

theorem test_trav_words2 : ∀ p ∈ (
  [(0x5CAAC800, .tOr ⟨5, 10, 25⟩), (0x5CAA0555, .tOrImm ⟨5, 10, 0x155⟩), (0x60AAC800, .tXor ⟨5, 10, 25⟩), (0x60AA0555, .tXorImm ⟨5, 10, 0x155⟩),
   (0x64AAC800, .tShl ⟨5, 10, 25⟩), (0x64AA0555, .tShlImm ⟨5, 10, 0x155⟩), (0x68AAC800, .tShr ⟨5, 10, 25⟩), (0x68AA0555, .tShrImm ⟨5, 10, 0x155⟩),
   (0x6CAAC800, .tMin ⟨5, 10, 25⟩), (0x6CAA0555, .tMinImm ⟨5, 10, 0x155⟩), (0x70AAC800, .tMax ⟨5, 10, 25⟩), (0x70AA0555, .tMaxImm ⟨5, 10, 0x155⟩),
   (0x74AAC800, .tFadd ⟨5, 10, 25⟩), (0x78AAC800, .tFsub ⟨5, 10, 25⟩), (0x7CAAC800, .tFmul ⟨5, 10, 25⟩), (0x80AAC800, .tFmin ⟨5, 10, 25⟩),
   (0x84AAC800, .tFmax ⟨5, 10, 25⟩), (0x880AC800, .tFcmp 10 25), (0x8CA09234, .tMovi 5 0x9234), (0x8CA19234, .tMoviHi 5 0x9234),
   (0x90AAC805, .tSel 5 10 25 5)]
  : List (Word × Instr)), decodeTrav p.1 = .ok p.2 := by decide +kernel

/-! ## Words of the manual's own examples -/

/-- Examples of 02 Table 02-12, 03 R69, 05 R130 to R143, Table 05-13, 06 R151, R161, 07 R193, R201 and 08 R210 to R219. -/
theorem test_words_02_to_08 : ∀ p ∈ (
  [(0x70430420, 0, .iadd ⟨7, 3, 1, 2, 0⟩), (0xA5051448, 0, .fadd ⟨10, 5, 5, 4, 1⟩), (0x72471A03, 0, .srai ⟨7, 7, 6, 3⟩),
   (0x78C00005, 0, .exit 7), (0x783FFFFB, 0, .bra 7 0x3FFFFB), (0x7C08102A, 0x00106600, .ld ⟨7, 8, 4, 2, 1, 2, 16, 3, 1, 4, 0, 0⟩),
   (0x76020431, 0, .cvtf 7 2 1 0 3 0 1), (0x79800400, 0, .qwr ⟨7, 0, 1⟩), (0x79820001, 0, .qrd ⟨7, 2, 0⟩),
   (0x72811234, 0, .movi ⟨7, 1, 0x1234⟩), (0x72C15678, 0, .movhi ⟨7, 1, 0x5678⟩), (0x76942085, 0, .pk4q 7 20 8 1 0 0),
   (0x76D20C59, 0, .icmp 7 2 2 3 5 1 1), (0x7084107A, 0, .iaddss ⟨7, 4, 4, 7, 1⟩), (0x77892014, 0, .gred 7 9 8 0 1),
   (0x7D421002, 0x00000907, .fful ⟨7, 2, 4, 0, 0, 2, 0, 0, 2, 2, 0, 0⟩), (0x7A812038, 0, .send 7 1 8 3 1),
   (0x7A80070A, 0, .waitm 7 1 48 1), (0x7A84006B, 0, .recvm 7 4 0 6 1),
   (0x7CC6084A, 0x00006E00, .aadd ⟨7, 6, 2, 4, 1, 2, 0, 3, 3, 4, 0, 0⟩), (0x7D05242A, 0x00006A07, .stc ⟨7, 5, 9, 2, 1, 2, 0, 3, 2, 4, 0, 0⟩),
   (0x7D841400, 0x00008000, .tcopy 7 4 5 1 0), (0x7DC11800, 0x00000040, .stbind 7 1 6 0 2), (0x7DC00000, 0x00000041, .stunb 7 2),
   (0x7DC70000, 0x00000042, .ststat 7 7 2), (0x7C02044B, 0x00006000, .ld ⟨7, 2, 1, 4, 1, 3, 0, 3, 0, 0, 0, 0⟩)]
  : List (Word × Word × Instr)), decodeSimt p.1 p.2.1 = .ok p.2.2 := by decide +kernel

/-- Examples of 09 Table 09-4, 10 R253 and R258, 11 R286 to R295, 12 R310, R315, R322, 13 R359, R365, 14 R379, R386, 15 R400, R409. -/
theorem test_words_09_to_15 : ∀ p ∈ (
  [(0x7AC30308, 0, .waitc 7 3 48 1), (0x7AC10098, 0, .waitc 7 1 9 1), (0x7AC11001, 0, .fence 7 1 4), (0x7AC41401, 0, .fence 7 4 5),
   (0x7AC00002, 0, .ifence 7), (0x79C0C000, 0, .bararv 7 3), (0x79C14001, 0, .barsyn 7 5), (0x79C08602, 0, .barinit 7 2 6),
   (0x79C0C003, 0, .barwt 7 3), (0x79C08704, 0, .barqry 7 2 7), (0x79C04005, 0, .tbarsyn 7 1), (0x79C00606, 0, .tbarinit 7 0 6),
   (0x1A021050, 0, .ose ⟨1, 2, 4, 5, 0⟩), (0x2A001002, 0, .osx 2 4), (0x7F431050, 0x00008000, .lqpsh 7 3 4 5 1),
   (0x7F471000, 0x00000001, .lqstat 7 7 4), (0x78C0202B, 0, .callq 7 8 2 1), (0x7A441468, 0, .dqpsh ⟨7, 4, 5, 6, 1⟩),
   (0x7A440001, 0, .dqpop 7 4), (0x7A48002A, 0, .dqspl ⟨7, 8, 2, 1⟩), (0x7A48002B, 0, .dqstl ⟨7, 8, 2, 1⟩), (0x7A430004, 0, .dqcnt 7 3),
   (0x7A400005, 0, .dqclr 7), (0x7E000100, 0, .mma ⟨7, 0, 0, 16, 0, 0, 0, 0, 0, 0, 0⟩),
   (0x7E032200, 0x00402401, .mmas ⟨7, 3, 8, 32, 0, 0, 4, 0, 4, 2, 0⟩), (0x7E411000, 0, .malloc 7 1 4), (0x7E401000, 1, .mfree 7 4),
   (0x7E400020, 2, .mzero 7 2), (0x7E401820, 0x01000003, .mld 7 6 2 0x100), (0x7E401820, 4, .mst 7 6 2 0),
   (0x7E600000, 0x00000805, .mrdv 7 32 0 1), (0x7E680010, 6, .mwrv 7 40 1 0), (0x7E500000, 0x00000847, .mcvts 7 16 0 1 0 1 0)]
  : List (Word × Word × Instr)), decodeSimt p.1 p.2.1 = .ok p.2.2 := by decide +kernel

theorem test_words_12_to_15 : ∀ p ∈ (
  [(0x7E800100, 0x00030040, .mreq 7 0 0 16 0 0 6 0 4), (0x7EE80080, 0x20580660, .trq ⟨7, 40, 0, 8, 2, 5, 1, 0, 0, 0, 3, 3, 0⟩),
   (0x7F050000, 0, .trpoll 7 5), (0x7F000000, 9, .trkill 7 1), (0x7F032840, 0x00000505, .trload 7 3 10 4 5),
   (0x7F040800, 2, .trpin 7 4 2), (0x7F000800, 3, .trunp 7 2), (0x7F060880, 0x0000000C, .trpub 7 6 2 8 1),
   (0x7B431058, 0, .plarm ⟨7, 3, 4, 5, 1⟩), (0x7B431089, 0, .plbit ⟨7, 3, 4, 8, 1⟩), (0x7B43187A, 0, .plcom ⟨7, 3, 6, 7, 1⟩),
   (0x7B481003, 0, .plqry ⟨7, 8, 4⟩), (0x7B431004, 0, .pldis ⟨7, 3, 4⟩), (0x74840040, 0, .srd 7 4 0x040), (0x74C30010, 0, .swr 7 3 0x010),
   (0x7B050000, 0, .trap 7 5), (0x7B000001, 0, .brk 7 0), (0x7B000002, 0, .tret 7), (0x7B000003, 0, .eret 7), (0x7B000005, 0, .haltg 7),
   (0x78800003, 0, .rcvp 7 3), (0x77890003, 0, .gwid 7 9 0), (0x704E1E9A, 0, .imul ⟨7, 14, 7, 41, 1⟩)]
  : List (Word × Word × Instr)), decodeSimt p.1 p.2.1 = .ok p.2.2 := by decide +kernel

/-- Table 13-4, and the padding word of 02 R56. -/
theorem test_words_13 : ∀ p ∈ (
  [(0x04120000, .tNfch 18), (0x0A80A803, .tNdec 20 21 3), (0x0E800005, .tNqbx 20 5), (0x11000000, .tBox8 8 0), (0x15000000, .tSbox8 8 0),
   (0x19805002, .tTri 12 0 10 2), (0x1D800001, .tSphd 12 0 1), (0x20800000, .tKcmp8 4 0 0), (0x24C22000, .tVdist ⟨6, 2, 4⟩),
   (0x28004000, .tPushm 8), (0x2E400000, .tPop 18), (0x30800000, .tStkq 4 0), (0x35200005, .tBrc 9 5), (0x3BE50000, .tJmp 31 5),
   (0x3C000000, .tEnd), (0x400CC004, .tEmit 12 24 4), (0x44060000, .tMigr 6), (0x48000000, .tYld), (0x4D870400, .tAddImm ⟨12, 7, 0⟩),
   (0x88143800, .tFcmp 20 7), (0x8DE0FFFF, .tMovi 15 0xFFFF), (0x34000001, .tBrc 0 1)]
  : List (Word × Instr)), decodeTrav p.1 = .ok p.2 := by decide +kernel

/-- Words that decode to no instruction: G = 15 (02 Table 02-12), reserved majors (02 R33), an unassigned F, a one in a zero field
(02 R45), a guard of 15 in a long form, TAKE outside LOCAL and LDR outside GLOBAL (06 R150, 07 R200). -/
theorem test_words_refused : (
  [(0xF9000000, 0), (0x70000000, 0), (0x7B800000, 0), (0x7F800000, 0), (0x7FC00000, 0), (0x74000005, 0), (0x77400007, 0), (0x79000001, 0),
   (0x78C0000C, 0), (0x71052C0D, 0), (0x7E410020, 2), (0xFC08102A, 0x00106600), (0x7C08102A, 0x0000F800),
   (0x7D05242A, 0x00000606)]
  : List (Word × Word)).all (fun p => (okOf (decodeSimt p.1 p.2)).isNone) = true := by decide +kernel

/-- Traversal words that decode to none: opcodes 0 and 0x25, a one in a zero field, j = 3, type 3 and f = 3 (13 R333). -/
theorem test_trav_words_refused : ([0x00000000, 0x94000000, 0x04120001, 0x3C000001, 0x19805003, 0x1D800003, 0x20800003, 0x30800003,
    0x35600005, 0x9000000B, 0x4D870200] : List Word).all (fun w => (okOf (decodeTrav w)).isNone) = true := by decide +kernel

/-! ## Ill-formed terms, one for each check of WellFormed -/

theorem test_ill_formed : ∀ i ∈ ([
    .iadd ⟨15, 0, 0, 0, 0⟩, .ld ⟨7, 8, 4, 2, 1, 2, 16, 4, 1, 4, 0, 0⟩, .ld ⟨7, 8, 4, 2, 1, 6, 16, 3, 1, 4, 0, 0⟩,
    .ld ⟨7, 8, 4, 2, 1, 2, 16, 3, 2, 4, 0, 0⟩, .ld ⟨7, 8, 4, 2, 1, 2, 16, 3, 1, 6, 0, 0⟩, .ld ⟨7, 8, 4, 2, 1, 2, 16, 3, 0, 4, 0, 0⟩,
    .ld ⟨7, 8, 4, 2, 1, 2, 16, 0, 1, 4, 1, 0⟩, .ld ⟨7, 8, 4, 2, 1, 2, 16, 3, 5, 4, 0, 0⟩, .st ⟨7, 8, 4, 2, 1, 2, 16, 3, 1, 4, 0, 0⟩,
    .st ⟨7, 8, 4, 2, 1, 2, 16, 3, 6, 4, 0, 0⟩, .sld ⟨7, 8, 1, 2, 1, 2, 16, 3, 1, 4, 0, 0⟩, .sld ⟨7, 8, 0, 2, 1, 5, 16, 3, 1, 4, 0, 0⟩,
    .sst ⟨7, 8, 1, 2, 1, 2, 16, 3, 2, 4, 0, 0⟩, .aadd ⟨7, 8, 4, 2, 1, 1, 16, 3, 1, 4, 0, 0⟩, .acas ⟨7, 8, 4, 2, 1, 2, 16, 3, 1, 4, 1, 0⟩,
    .afadd ⟨7, 8, 4, 2, 1, 3, 16, 3, 1, 4, 0, 0⟩, .ldr ⟨7, 8, 4, 2, 1, 2, 16, 0, 1, 4, 0, 0⟩, .stc ⟨7, 8, 4, 2, 1, 2, 16, 3, 1, 4, 0, 0⟩,
    .pref ⟨7, 0, 4, 2, 1, 0, 16, 3, 0, 0, 3, 0⟩, .lwb ⟨7, 0, 4, 2, 1, 0, 16, 3, 0, 0, 1, 0⟩, .lcln ⟨7, 1, 4, 2, 1, 0, 16, 3, 0, 0, 0, 0⟩,
    .linv ⟨7, 0, 4, 2, 1, 0, 16, 0, 0, 0, 0, 0⟩, .icinv ⟨7, 0, 4, 2, 1, 0, 16, 2, 0, 0, 0, 0⟩, .pclr ⟨7, 0, 4, 2, 1, 0, 16, 3, 1, 4, 0, 0⟩,
    .femt ⟨7, 0, 4, 2, 1, 2, 16, 2, 0, 0, 0, 0⟩, .fful ⟨7, 0, 4, 2, 1, 3, 16, 0, 0, 0, 0, 0⟩] : List Instr), i.wf = false := by
  decide +kernel

theorem test_ill_formed2 : ∀ i ∈ ([
    .cvtf 7 0 0 7 0 0 0, .cvtf 7 0 0 0 7 0 0, .cvtf 7 0 0 0 0 0 6, .cvti 7 0 0 0 6 0 0 0, .cvti 7 0 0 0 0 3 0 0, .cvti 7 0 0 0 0 0 1 0,
    .cvti 7 0 0 1 2 0 1 0, .cvti 7 0 0 0 0 0 0 7, .pk4q 7 0 0 6 0 0, .pk4q 7 0 0 0 0 3, .upk4q 7 0 0 3, .icmp 7 0 0 0 0 0 4,
    .fcmp 7 0 0 0 0 0 7, .gred 7 0 0 11 0, .waitc 7 6 0 1, .fence 7 0 0, .fence 7 5 0, .fence 7 1 6, .tcopy 7 0 0 0 3,
    .stbind 7 0 0 1 0, .mma ⟨7, 0, 0, 0, 3, 0, 0, 0, 0, 0, 0⟩, .mma ⟨7, 0, 0, 0, 0, 1, 0, 0, 0, 0, 0⟩, .mma ⟨7, 0, 0, 0, 0, 0, 1, 0, 0, 0, 0⟩,
    .mma ⟨7, 0, 0, 0, 0, 0, 0, 1, 0, 0, 0⟩, .mma ⟨7, 0, 0, 0, 0, 0, 0, 0, 0, 1, 0⟩, .mmas ⟨7, 0, 0, 0, 0, 0, 0, 0, 5, 0, 0⟩,
    .mcvts 7 0 0 0 0 6 0, .mcvts 7 0 0 2 0 0 0, .mcvts 7 0 0 1 2 0 0, .mreq 7 0 0 0 2 0 0 0 0, .mreq 7 0 0 0 0 1 0 0 0,
    .trq ⟨7, 0, 0, 0, 0, 0, 0, 0, 0, 0, 0, 10, 0⟩, .trq ⟨7, 0, 0, 0, 0, 0, 0, 0, 0, 0, 7, 0, 0⟩, .trq ⟨7, 0, 0, 0, 0, 0, 0, 0, 0, 1, 0, 0, 0⟩,
    .trq ⟨7, 0, 0, 0, 0, 0, 0, 0, 0, 0, 0, 0, 1⟩, .trq ⟨7, 0, 0, 0, 0, 0, 0, 0, 1, 0, 1, 0, 0⟩, .trq ⟨7, 1, 0, 0, 0, 0, 0, 0, 1, 0, 0, 0, 0⟩,
    .tTri 0 0 0 3, .tSphd 0 0 3, .tKcmp8 0 0 3, .tStkq 0 3, .tBrc 11 0, .tSel 0 0 0 11] : List Instr), i.wf = false := by
  decide +kernel

/-! ## Results of the manual's tables and examples -/

/-- What holds after a meaning that answers a next state. -/
def result {α : Type} (m : Meaning) (f : State → α) : Option α := match m with | .next s => some (f s) | _ => none

/-- One lane with V1 = a, V2 = b, V3 = d. -/
def fed (fpctl a b d : Word) : State := one { lone with v := [(8, a), (16, b), (24, d)], fpctl := fpctl }

/-- V3 and FPFLAGS after an instruction on V1, V2, V3. -/
def v3 (i : Instr) (fpctl a b d : Word) : Option (Word × Word) :=
  result (exec i (fed fpctl a b d)) fun s => ((s.slice 0 0).vr 3 0, (s.slice 0 0).fpflags)

/-- Slices 0 and 1 of one gang, and EXPECT as given; the slices of `arrived` are in ARRV. -/
def gangBarred (expect : Nat) (arrived : List Nat) : State :=
  { st with slices := [(0, live), (1, { live with ix := 1 })], groups := [(1, { grp with slots := [0, 1] })], issuer := { slots := [0, 1] },
            cores := [(0, { barriers := [(2, { owner := 1, used := true, expect := expect, arrived := arrived })] })] }

/-- 10 R251, 04 R80: where an arrival of a gang's BARARV ends the phase, the member that was in ARRV arrives in the new one and none parks;
where none ends it, both park. -/
theorem test_bararv_gang :
    ([(2, [1]), (2, [0]), (3, [0])].map fun p => result (exec (.bararv 7 0) (gangBarred p.1 p.2)) fun s =>
      ((s.barrier 0 2).phase, (s.barrier 0 2).arrived, [0, 1].map fun t => (s.slice 0 t).park.isSome)) =
    [some (true, [1], [false, false]), some (true, [0], [false, false]), some (false, [0, 1], [true, true])] := by decide +kernel

def g3 : R3 := ⟨7, 3, 1, 2, 0⟩
def g2 : R2 := ⟨7, 3, 1⟩

/-- Table 05-13. -/
theorem test_table_05_13 : ([
    (.iaddss g3, 0, 0x7FFFFFF0, 0x20, 0x7FFFFFFF, 0), (.isubsn g3, 0, 5, 9, 0, 0), (.iabsd g3, 0, 0x80000000, 0x7FFFFFFF, 0xFFFFFFFF, 0),
    (.imulhs g3, 0, 0xFFFFFFFF, 0xFFFFFFFF, 0, 0), (.imulhn g3, 0, 0xFFFFFFFF, 0xFFFFFFFF, 0xFFFFFFFE, 0), (.shl g3, 0, 1, 40, 0, 0),
    (.sra g3, 0, 0x80000000, 40, 0xFFFFFFFF, 0), (.bfx g3, 0, 0xF80, 0x00010804, 0xFFFFFFF8, 0),
    (.fmin g3, 0, 0x7FC00000, 0x3F800000, 0x3F800000, 0), (.fmin g3, 0, 0x80000000, 0, 0x80000000, 0),
    (.ffract g2, 0, 0xBE800000, 0, 0x3F400000, 0), (.ffract g2, 0, 0xB0800000, 0, 0x3F7FFFFF, 16), (.fsat g2, 0, 0x7FC00000, 0, 0, 0),
    (.fclass g2, 0, 1, 0, 0x20, 0), (.fadd g3, 4, 1, 0x80000000, 0, 0)] : List (Instr × Word × Word × Word × Word × Word)).all (fun p =>
    decide (v3 p.1 p.2.1 p.2.2.1 p.2.2.2.1 0 = some (p.2.2.2.2.1, p.2.2.2.2.2))) = true := by decide +kernel

/-- 05 R137 with 03 R64: 2.0 − 2.0 is +0, and −0 where RM is RDN; of a zero it is +0. -/
theorem test_ffract_whole : [v3 (.ffract g2) 0 0x40000000 0 0, v3 (.ffract g2) 3 0x40000000 0 0, v3 (.ffract g2) 3 0x80000000 0 0] =
    [some (0, 0), some (0x80000000, 0), some (0, 0)] := by decide +kernel

/-- 03 R69 and R71: 500.0 to E4M3 sets OF and NX, 1.0 none; −128.4 to S8 NX, −128.6 NV under RNE and NX under RZ; the largest N32 to
F16 OF and NX. -/
theorem test_conversions : ([
    (.cvtf 7 3 1 0 3 0 1, 0x43FA0000, 0x7E, 4 + 16), (.cvtf 7 3 1 0 3 0 1, 0x3F800000, 0x38, 0), (.cvti 7 3 1 0 0 0 0 1, 0xC3006666, 0xFFFFFF80, 16),
    (.cvti 7 3 1 0 0 0 0 1, 0xC300999A, 0xFFFFFF80, 1), (.cvti 7 3 1 0 0 0 0 2, 0xC300999A, 0xFFFFFF80, 16),
    (.cvti 7 3 1 1 5 1 0 1, 0xFFFFFFFF, 0x7C00, 4 + 16)] : List (Instr × Word × Word × Word)).all (fun p =>
    decide (v3 p.1 0 p.2.1 0 0 = some (p.2.2.1, p.2.2.2))) = true := by decide +kernel

/-- 05 R141: a copy, the sign of a's byte 0, and the reversed old destination. -/
theorem test_prmt : ([(0x3210, 0x11223384), (0x8888, 0xFFFFFFFF), (0x4567, 0xDDCCBBAA)] : List (Word × Word)).all (fun p =>
    decide (v3 (.prmt g3) 0 0x11223384 p.1 0xAABBCCDD = some (p.2, 0))) = true := by decide +kernel

/-- 05 R142. -/
theorem test_pk4q : result (exec (.pk4q 7 20 8 1 0 0)
      (one { lone with v := [(64, 0x3F800000), (72, 0xC0200000), (80, 0x43FA0000), (88, 0x7FC00000)] }))
      (fun s => ((s.slice 0 0).vr 20 0, (s.slice 0 0).fpflags)) = some (0x7F7EC238, 4 + 16) := by decide +kernel

/-- 05 R130: MOVI then MOVHI. -/
theorem test_movi : v3 (.movi ⟨7, 3, 0x1234⟩) 0 0 0 0xFFFFFFFF = some (0x1234, 0) := by decide +kernel
theorem test_movhi : v3 (.movhi ⟨7, 3, 0x5678⟩) 0 0 0 0x1234 = some (0x56781234, 0) := by decide +kernel

/-- 05 R132: lane i reads V(16 + i), and 50 reads V2 in lane 7. -/
theorem test_movx : result (exec (.movx ⟨7, 30, 16, 0, 0⟩)
      (one { live with v := [(1, 1), (2, 2), (7, 50), (23, 0x77), (128, 0xA0), (137, 0xA1), (146, 0xA2)] }))
      (fun s => [0, 1, 2, 7].map ((s.slice 0 0).vr 30)) = some [0xA0, 0xA1, 0xA2, 0x77] := by decide +kernel

/-- 05 R143: −1 < 1 keeps the old bit of P2; as natural numbers it clears it. -/
theorem test_icmp : [2, 8].map (fun c => result (exec (.icmp 7 2 c 3 5 1 1)
      (one { lone with v := [(24, 0xFFFFFFFF)], s := [(5, 1)], p := [(2, 1)] })) fun s => (s.slice 0 0).pr 2) =
    [some 1, some 0] := by decide +kernel

/-- 04 R105: lane 40 of 64 is off its path and every other lane receives 2,016 − 40. -/
def home64 : State :=
  let lanes (i : Nat) : Tab Word := (List.range 8).map fun l => (64 + l, w32 (8 * i + l))
  let mask (i : Nat) : Pred := if i = 5 then 0xFE else 0xFF
  { slices := (List.range 8).map fun i =>
      (i, { live with ix := i, width := 8, met := true, v := lanes i, paths := [{ state := .run, mask := mask i }] }),
    groups := [(1, { grp with slots := List.range 8 })], issuer := { slots := List.range 8 } }
theorem test_gred : result (exec (.gred 7 9 8 0 1) home64) (fun s => ((s.slice 0 0).vr 9 0, (s.slice 0 5).vr 9 0, (s.slice 0 7).vr 9 7)) =
    some (1976, 0, 1976) := by decide +kernel

/-- 06 R171: the block of the example takes 5 segments, and 3 once its deltas are equal. -/
theorem test_deltas :
    segsOf ((List.range 64).map fun i => if i = 40 then 0x10300 else 0x10000 + 3 * i) = 5 ∧
    segsOf ((List.range 64).map fun i => 0x10000 + 3 * i) = 3 ∧ segsOf (List.replicate 64 0) = 0 ∧ segsOf (List.replicate 64 7) = 1 := by
  decide +kernel

/-- Table 03-9: one group under (FTZ, ZSKIP). -/
def group8 (ftz zskip : Bool) : MCmd :=
  { kind := .mma, group := 1, cls := 0, d := 0, b := 16, ftz := ftz, zskip := zskip,
    frag := [(0, 1), (1024, 0x3C007C00), (1088, 0x3C003C00), (1152, 0x3C003C00), (1216, 0x3C003C00)] }
theorem test_table_03_9 : (group8 false false).accumulate 0 0 0 0x40000000 = 0x7F800000 ∧
    (group8 false true).accumulate 0 0 0 0x40000000 = 0x7F800000 ∧ (group8 true false).accumulate 0 0 0 0x40000000 = 0x7FC00000 ∧
    (group8 true true).accumulate 0 0 0 0x40000000 = 0x40000000 := by decide +kernel

/-- 13 R355: slots 6, 1 and 4 are pushed in that order, and e0 to e3 go to memory. -/
theorem test_pushm : result (exec (.tPushm 0) (trav { (tested.thread 0 0) with stack := (List.range 7).map (·, true) }))
    (fun s => ((s.thread 0 0).stack.length, (s.thread 0 0).spb)) = some (6, 1) := by decide +kernel

/-- 15 R418: the walk of the example reaches 0x1_4033_8ABC, for a store of the user. -/
theorem test_walk :
    (({ one live with mem := mwriteBytes (mwriteBytes (mwriteBytes [(64, 1), (65, 0x20)] (0x2000 + 16) (natBytes 8 0x10001))
        (0x10000 + 8 * 0x12) (natBytes 8 0x20001)) (0x20000 + 8 * 0x13) (natBytes 8 0x14020082F) } : State).translate 0 1
        0x80240138ABC .store false).2.toOption = some 0x140338ABC := by decide +kernel

/-- FIPS 180-4's example: the digest of the bytes of "abc" begins with DDAF35A193617ABA and ends with 2A9AC94FA54CA49F. -/
theorem test_sha512 : (sha512 [0x61, 0x62, 0x63]).take 8 = [0xDD, 0xAF, 0x35, 0xA1, 0x93, 0x61, 0x7A, 0xBA] ∧
    (sha512 [0x61, 0x62, 0x63]).drop 56 = [0x2A, 0x9A, 0xC9, 0x4F, 0xA5, 0x4C, 0xA4, 0x9F] := by decide +kernel

/-- 03 R65, R66: an exact subnormal result of a function of Table 03-5 is flushed under FTZ and sets UF and NX; else it is delivered. -/
theorem test_flush : (⟨false, 1, -127, true, 1, -149⟩ : Interval).deliver 4 0x00400000 = (0, uf ||| nx) ∧
    (⟨false, 1, -127, true, 1, -149⟩ : Interval).deliver 0 0x00400000 = (0x00400000, 0) := by decide +kernel

/-- 11 R298: an only entry of one item that a steal takes comes back to an owner form of the same cycle. -/
theorem test_lent : result (exec (.dqpop 7 28) { dq 1 [] with
      cores := [(0, { deque := { owner := some 1, entries := [], lent := some ⟨5, 0, 0, false, 7, 9⟩ } })] })
      (fun s => [28, 29, 30].map (s.slice 0 0).sr) = some [7, 1, 9] := by decide +kernel

/-! ## Steps -/

/-- The first instruction after reset runs: IADD of registers that hold 0, past which the slice moves. -/
theorem test_step_placed : result (step (State.reset.withFetchWord 32 0x70400420)) (fun s => s.slices.map fun p => p.2.path.pc) = some [4] := by
  decide +kernel

/-- A word that decodes to nothing traps in system mode at SYSVEC (02 R46, 15 R407). -/
theorem test_step_illegal : result (step (State.reset.withFetchWord 32 0x79000001)) (fun s => s.slices.map fun p => p.2.system) =
    some [true] := by decide +kernel

end Sys2Proof.Tests
end

/-! The rotation of datapath visits (01 R10): where a turn leaves it, and what follows for every step. -/

namespace Sys2Proof.Proofs

open Sys2Proof.Machine

/-! ### An outcome and what is done with its state -/

/-- `andThen` answers a state only where its first part does. -/
theorem andThen_eq_next {m : Meaning} {f : State → State} {s' : State} :
    m.andThen f = .next s' ↔ ∃ t, m = .next t ∧ s' = f t := by
  cases m <;> simp [Meaning.andThen, eq_comm]

/-! ### The rotation -/

theorem placed_atPlace {s : State} (h : Placed s) (t : State) : Placed (s.atPlace t) := h

theorem placed_dropTurn {s : State} (h : Placed s) (rest : List Turn) : Placed { s with agenda := rest } := h

theorem nextVisit_of_dp_lt {s : State} (h : s.visitDp < 7) : s.nextVisit = { s with visitDp := s.visitDp + 1 } := if_pos h

theorem nextVisit_of_core_lt {s : State} (hd : 7 ≤ s.visitDp) (hc : s.visitCore < 255) :
    s.nextVisit = { s with visitDp := 0, visitCore := s.visitCore + 1 } := by
  rw [State.nextVisit, if_neg (by omega), if_pos hc]

theorem nextVisit_of_last {s : State} (hd : 7 ≤ s.visitDp) (hc : 255 ≤ s.visitCore) : s.nextVisit = s.endCycle := by
  rw [State.nextVisit, if_neg (by omega), if_neg (by omega)]

theorem placed_nextVisit {s : State} (h : Placed s) : Placed s.nextVisit := by
  obtain ⟨hc, hd⟩ := h
  rcases Nat.lt_or_ge s.visitDp 7 with h7 | h7
  · rw [nextVisit_of_dp_lt h7]; exact ⟨hc, Nat.succ_lt_succ h7⟩
  · rcases Nat.lt_or_ge s.visitCore 255 with h255 | h255
    · rw [nextVisit_of_core_lt h7 h255]; exact ⟨Nat.succ_lt_succ h255, Nat.succ_pos 7⟩
    · rw [nextVisit_of_last h7 h255]; exact ⟨Nat.succ_pos 255, Nat.succ_pos 7⟩

/-- A visit leaves the rotation where it stood, without main power, or moves it on by one place from there. -/
theorem visitTurn_cases {s s' : State} (h : s.visitTurn = .next s') :
    (s.mgmt.power = false ∧ s' = s) ∨ ∃ t, s' = (s.atPlace t).nextVisit := by
  unfold State.visitTurn at h
  dsimp only at h
  split at h
  next hp => cases h; exact .inl ⟨by simpa using hp, rfl⟩
  next =>
    split at h
    next => cases h; exact .inr ⟨s, rfl⟩
    next => obtain ⟨t, -, rfl⟩ := andThen_eq_next.1 h; exact .inr ⟨t, rfl⟩

theorem placed_visitTurn {s s' : State} (hs : Placed s) (h : s.visitTurn = .next s') : Placed s' := by
  obtain ⟨-, rfl⟩ | ⟨t, rfl⟩ := visitTurn_cases h
  · exact hs
  · exact placed_nextVisit (placed_atPlace hs t)

/-- A turn of the agenda is a visit, or leaves the rotation in place. -/
theorem step_cases_of_agenda {s s' : State} {x : Turn} {rest : List Turn} (ha : s.agenda = x :: rest) (h : step s = .next s') :
    { s with agenda := rest }.visitTurn = .next s' ∨ ∃ t, s' = { s with agenda := rest }.atPlace t := by
  unfold step State.turn at h
  rw [ha] at h
  cases x with
  | visit => exact .inl h
  | rake c => obtain ⟨t, -, rfl⟩ := andThen_eq_next.1 h; exact .inr ⟨t, rfl⟩
  | event i => obtain ⟨t, -, rfl⟩ := andThen_eq_next.1 h; exact .inr ⟨t, rfl⟩
  | tick => cases h; exact .inr ⟨_, rfl⟩
  | hostRead off => cases h; exact .inr ⟨_, rfl⟩
  | hostWrite off w => obtain ⟨t, -, rfl⟩ := andThen_eq_next.1 h; exact .inr ⟨t, rfl⟩
  | input x => cases h; exact .inr ⟨_, rfl⟩

theorem step_of_agenda_nil {s : State} (ha : s.agenda = []) : step s = s.visitTurn := by
  unfold step State.turn
  rw [ha]

theorem step_keeps_placed {s s' : State} (hs : Placed s) (h : step s = .next s') : Placed s' := by
  rcases ha : s.agenda with _ | ⟨x, rest⟩
  · exact placed_visitTurn hs (step_of_agenda_nil ha ▸ h)
  · obtain hv | ⟨t, rfl⟩ := step_cases_of_agenda ha h
    · exact placed_visitTurn (placed_dropTurn hs rest) hv
    · exact placed_atPlace (placed_dropTurn hs rest) t

theorem power_of_running {s : State} (h : s.running = true) : s.mgmt.power = true := by
  simp only [State.running, Bool.and_eq_true] at h
  exact h.1.1

/-- With nothing on the agenda a step of a running device moves the rotation on by one place. -/
theorem step_moves_on {s s' : State} (ha : s.agenda = []) (hr : s.running = true) (h : step s = .next s') :
    ∃ t, s' = (s.atPlace t).nextVisit := by
  rw [step_of_agenda_nil ha] at h
  obtain ⟨hp, -⟩ | ht := visitTurn_cases h
  · rw [power_of_running hr] at hp; cases hp
  · exact ht

/-- Settles O27: every turn keeps the rotation's place or moves it on once, and `nextVisit` stays among the datapaths. -/
theorem stepKeepsPlaced : Obligations.StepKeepsPlaced := by
  unfold Obligations.StepKeepsPlaced
  refine ⟨fun s s' => step_keeps_placed, fun s s' ha hr h => ?_⟩
  obtain ⟨t, rfl⟩ := step_moves_on ha hr h
  refine ⟨fun hd => ?_, fun hd hc => ?_, fun hd hc => ?_⟩
  · rw [nextVisit_of_dp_lt (s := s.atPlace t) hd]; exact ⟨rfl, rfl⟩
  · rw [nextVisit_of_core_lt (s := s.atPlace t) hd hc]; exact ⟨rfl, rfl⟩
  · rw [nextVisit_of_last (s := s.atPlace t) hd hc]; exact ⟨rfl, rfl⟩

end Sys2Proof.Proofs

/-! The memory forms of majors 0x30 to 0x34 up to the check of their lanes (06 R146, 07 R177): what each form runs, and how it ends
when a lane fails. -/

namespace Sys2Proof.Proofs

open Sys2Proof.Machine Sys2Proof.Claim

/-! ### What a form runs -/

theorem exec_atomTable {f : (MemF → Instr) × AtomForm} (hf : f ∈ atomTable) (m : MemF) (s : State) :
    exec (f.1 m) s = atomForm f.2 m s := by
  fin_cases hf <;> rfl

/-- Each row of the table is `memForm` with the row's own accesses, operands and requests. -/
theorem exec_memTable {m : MemF} {p : MemRow} (hp : p ∈ memTable m) (s : State) :
    exec p.instr s = memForm m p.kind { ok := p.ok, srcs := p.srcs } s (p.val s) p.request := by
  rcases List.mem_append.1 hp with hp | hp
  · fin_cases hp <;> rfl
  · obtain ⟨f, hf, rfl⟩ := List.mem_map.1 hp
    exact exec_atomTable hf m s

/-! ### The checks of the lanes -/

/-- An address that is no multiple of its size is misaligned before anything is translated. -/
theorem place_misaligned {s : State} {n : Nat} {a : Int} (h : a % (max n 1 : Nat) ≠ 0) (core slot space : Nat) (acc : Access)
    (noSys : Bool) : s.place core slot space n acc noSys a = (s, .bad 0x04 (taddr a)) :=
  if_pos h

/-- One more lane, which fails without a change of state, joins those that fail. -/
theorem resolve_concat_bad {s : State} {space n : Nat} {acc : Access} {noSys : Bool} {ts : List Tgt} {t : Tgt} {code addr : Nat}
    {r : Resolved} (hr : s.resolve space n acc noSys ts = r)
    (ht : r.s.place r.s.issuer.core t.slot space n acc noSys t.a = (r.s, .bad code addr)) :
    s.resolve space n acc noSys (ts ++ [t]) = { r with bad := r.bad ++ [(t, .bad code addr)] } := by
  subst hr
  unfold State.resolve at *
  rw [List.foldl_append, List.foldl_cons, List.foldl_nil, ht]

theorem resolve_misaligned {n : Nat} {ts : List Tgt} (h : ∀ t ∈ ts, t.a % (max n 1 : Nat) ≠ 0) (s : State) (space : Nat)
    (acc : Access) (noSys : Bool) :
    s.resolve space n acc noSys ts = ⟨s, [], ts.map fun t => (t, .bad 0x04 (taddr t.a))⟩ := by
  induction ts using List.reverseRecOn with
  | nil => rfl
  | append_singleton ts t ih =>
    rw [resolve_concat_bad (ih fun z hz => h z (List.mem_append_left _ hz)) (place_misaligned (h t (by simp)) ..)]
    simp

/-! ### A form that may issue -/

/-- A slice that acts alone is the gang's only active member, also once it has counted the issue. -/
theorem taking_begun {s : State} {c t : Nat} {g : BitVec 4} {srcs : List (Nat × Nat)} (h : Acts s c t g srcs) :
    (begun s c t).taking g = [t] := by
  obtain ⟨hs, -, hon⟩ := h
  rw [State.taking_solo g (s := begun s c t) hs.core hs.gang, if_neg]
  rw [begun, State.slice_setSlice_self]
  exact hon

/-- With a lane that fails a precise check, the form takes the fault of the lowest in the state that the walks left (01 R22). -/
theorem memForm_found {m : MemF} {k : MemKind} {h : Head} {s : State} {c t : Nat} {val : Slice → Nat → Nat × Nat}
    {part : State → Acc → Except Stop State} {r : Resolved} {q : Tgt} {code addr : Nat} {rest : List (Tgt × Place)}
    (acts : Acts s c t m.g (memBaseSrc m ++ (if k.scalar then [] else [(0, m.a.toNat)]) ++ h.srcs))
    (ok : (h.ok && memBaseOk m) = true) (priv : h.priv = false) (rdv : h.rdv = false)
    (waits : (begun s c t).memWaits m.g (k.code m.space.toNat) m.wt (memReleases m (k.form == .load)) m.scope.toNat = .ok ())
    (hr : (begun s c t).resolve m.space.toNat k.size k.acc k.noSys ((begun s c t).targets m k.scalar) = r)
    (hbad : r.bad = (q, .bad code addr) :: rest) :
    memForm m k h s val part =
      .next ((s.walked r.s).gangTrap 8 { code := code, addr := addr, lanes := tgtMasks (r.bad.map (·.1)) }) := by
  have taking := taking_begun acts
  obtain ⟨solo, free, -⟩ := acts
  unfold memForm
  rw [gangwise_solo solo.core solo.gang ok (by simp [priv]) ⟨solo.held, fun _ => free, solo.ready⟩ (by simp [rdv])]
  rw [show s.setSlice c t (s.slice c t).issued = begun s c t from rfl]
  simp only [taking, waits, hr, hbad]
  simp [State.memStop, bind, Except.bind, State.stop]

/-- The head of a row asks for no privilege and no rendezvous, and reads what the row says. -/
theorem exec_memTable_found {m : MemF} {p : MemRow} (hp : p ∈ memTable m) {s : State} {c t : Nat} {r : Resolved} {q : Tgt}
    {code addr : Nat} {rest : List (Tgt × Place)} (acts : Acts s c t m.g (p.reads m)) (ok : (p.ok && memBaseOk m) = true)
    (waits : (begun s c t).memWaits m.g (p.kind.code m.space.toNat) m.wt (memReleases m (p.kind.form == .load)) m.scope.toNat =
      .ok ())
    (hr : (begun s c t).resolve m.space.toNat p.kind.size p.kind.acc p.kind.noSys ((begun s c t).targets m p.kind.scalar) = r)
    (hbad : r.bad = (q, .bad code addr) :: rest) :
    exec p.instr s =
      .next ((s.walked r.s).gangTrap 8 { code := code, addr := addr, lanes := tgtMasks (r.bad.map (·.1)) }) := by
  rw [exec_memTable hp]
  exact memForm_found acts ok rfl rfl waits hr hbad

/-- Settles O6: the first failing lane is what `memStop` takes; where no lane is aligned, none lands and none is translated. -/
theorem memoryFaults : Obligations.MemoryFaults := by
  unfold Obligations.MemoryFaults
  intro m p hp s c t _ acts ok u waits ts r
  refine ⟨?_, ?_⟩
  · rintro ⟨q, _⟩ rest hbad code addr rfl
    exact exec_memTable_found hp acts ok waits rfl hbad
  · intro q rest hts hmis
    have hr := resolve_misaligned hmis u m.space.toNat p.kind.acc p.kind.noSys
    rw [exec_memTable_found hp acts ok waits hr (by rw [hts]; rfl), show r.s = u from congrArg Resolved.s hr]
    simp [Function.comp_def]

end Sys2Proof.Proofs

/-! Pre-emption and the repack unit (11 R283, R284, R290, R291; 15 R411, R412): each device step, once its condition holds. -/

namespace Sys2Proof.Proofs

open Sys2Proof.Machine Sys2Proof.Claim

/-! ### The halt of a team -/

/-- A team of groups that run, below a waiting head's level, halts (R283). -/
theorem preemptionRequest_halts {s : State} {q n : Nat} {g : Group} (hg : s.group? n = some g) (hq : (s.queue q).since ≠ none)
    (hne : s.teamGroups n g ≠ [])
    (hall : ∀ h ∈ s.teamGroups n g, h.2.halt = 0 ∧ h.2.saved = false ∧ s.groupLevel h.1 h.2 < s.effLevel q) :
    Becomes (.evPreemptionRequest q n) s ((s.teamGroups n g).foldl (fun s h => s.haltForSave h.1 h.2) s) := by
  have below : ((s.teamGroups n g).all fun h =>
      h.2.halt == 0 && !h.2.saved && decide (s.groupLevel h.1 h.2 < s.effLevel q)) = true := by
    rw [List.all_eq_true]
    intro h hh
    obtain ⟨h1, h2, h3⟩ := hall h hh
    simp [h1, h2, h3]
  show execEvPreemptionRequest q n s = _
  simp only [execEvPreemptionRequest, hg]
  rw [if_pos]
  rw [Option.isSome_iff_ne_none.2 hq, below]
  simp [hne]

/-! ### The save of a group -/

theorem halted_of_drained {x : Slice} (h : x.drained = true) : x.halted = true := by
  rw [Slice.drained, Bool.and_eq_true] at h
  exact h.1

/-- A halted group whose slices have drained is saved, with the core state where it is its context's last there (R412). -/
theorem groupSave_saves {s : State} {n : Nat} {g : Group} {last : Bool} {ts : List Nat} (hg : s.group? n = some g)
    (hs : g.saved = false) (hr : g.retired = false) (hh : g.halt = 2) (hc : s.coreDone g.core = true)
    (he : (s.reachSave g.asid g.core).saveEntry g.asid g.core % 2 = 1)
    (hlast : ((s.presentOn g.asid g.core).all fun h => h.1 == n) = last)
    (hts : s.liveSlots n g ++ (if last then s.handlersOn g.asid g.core else []) = ts)
    (hd : ∀ t ∈ ts, (s.slice g.core t).drained = true ∧ ∀ i, (s.slice g.core t).park ≠ some (.answer i))
    (ho : s.opsDrained g.core ts = true) (hm : (s.core g.core).mat.has n = false) :
    Becomes (.evGroupSave n) s ((s.reachSave g.asid g.core).saveGroup n g last) := by
  show execEvGroupSave n s = _
  simp only [execEvGroupSave, hg, hlast, hts, ho, hm]
  rw [if_neg (by simp [hs, hr, hh, hc, he]), if_neg, if_pos]
  case hc =>
    simp only [Bool.not_false, Bool.and_true, List.all_eq_true]
    intro t ht
    obtain ⟨drained, unanswered⟩ := hd t ht
    rw [drained, Bool.true_and]
    split
    next i hi => exact absurd hi (unanswered i)
    next => rfl
  case hnc =>
    simp only [List.any_eq_true, not_exists, not_and]
    intro t ht
    rw [halted_of_drained (hd t (hts ▸ List.mem_append_right _ ht)).1]
    decide

/-! ### Resumption -/

/-- A saved team that fits again, kept out by no higher head or team, is resumed (R284). -/
theorem groupResume_resumes {s : State} {n : Nat} {g : Group} (hg : s.group? n = some g)
    (hfit : s.reachHeads.teamCanResume (s.teamGroups n g) = true)
    (hhigher : s.reachHeads.resumeHigher (s.teamLevel (s.teamGroups n g)) = false)
    (hheads : ∀ q ∈ s.reachHeads.queues, s.teamLevel (s.teamGroups n g) < s.reachHeads.effLevel q.1 →
      s.reachHeads.headFits q.1 = false) :
    Becomes (.evGroupResume n) s ((s.teamGroups n g).foldl
      (fun s h => match s.group? h.1 with | some x => s.resumeGroup h.1 x | none => s) s.reachHeads) := by
  have noHead : (s.reachHeads.queues.any fun q =>
      decide (s.teamLevel (s.teamGroups n g) < s.reachHeads.effLevel q.1) && s.reachHeads.headFits q.1) = false := by
    rw [List.any_eq_false]
    intro q hq
    by_cases hl : s.teamLevel (s.teamGroups n g) < s.reachHeads.effLevel q.1 <;> simp [hl, hheads q hq]
  show execEvGroupResume n s = _
  simp only [execEvGroupResume, hg, hfit, hhigher, noHead]
  exact if_pos rfl

/-! ### The repack unit -/

/-- A repack queue whose oldest record has waited TIMEOUT falls due (R290). -/
theorem repackTimeout_due {s : State} {c rq asid k : Nat} {q : RepackQ} {r : List Word × Nat} {rs : List (List Word × Nat)}
    (hq : tget {} (s.core c).repack rq = q) (hk : q.key = some (asid, k)) (hr : q.records = r :: rs)
    (ht : r.2 + ((s.reachTarget asid k).target asid k).timeout ≤ s.cycle.toNat) :
    Becomes (.evRepackTimeout c rq) s ((s.reachTarget asid k).modCore c fun k =>
      { k with repack := tset k.repack rq { q with due := true } }) := by
  show execEvRepackTimeout c rq s = _
  simp only [execEvRepackTimeout, hq, hk, hr, if_pos ht]

/-- Settles O10: each step's condition is what its meaning asks, and the next state is the one it names. -/
theorem preemptionEvents : Obligations.PreemptionEvents := by
  unfold Obligations.PreemptionEvents
  refine ⟨?_, ?_, ?_, ?_, ?_⟩
  · intro s q n g hg hq gs hne hall
    exact preemptionRequest_halts hg hq hne hall
  · intro s n g hg hs hr hh hc u he last ts hd ho hm
    exact groupSave_saves hg hs hr hh hc he rfl rfl hd ho hm
  · intro s n g hg gs u hfit hhigher hheads
    exact groupResume_resumes hg hfit hhigher hheads
  · intro s c rq asid k r rs q u hk hr ht
    exact repackTimeout_due rfl hk hr ht
  · intro s c n asid k q0 slots a hserved hkey t hfree b hentry hvalid hfits
    have fit : ¬ (decide (t.entry = 0) || !b.ctxValid asid || !b.coreFits asid c) = true := by
      simp [hentry, hvalid, hfits]
    show execEvRepackWarpStart c s = _
    simp only [execEvRepackWarpStart]
    rw [hserved]
    simp only [hkey, Option.getD_some]
    rw [hfree]
    exact if_neg fit

end Sys2Proof.Proofs

/-! Answers, parked and holding slices, and retirement (01 R11, R23; 04 R77, R85, R88; 07 R188; 10 R252, R255, R259): what each device
step makes of a state that meets its condition. -/

namespace Sys2Proof.Proofs

open Sys2Proof.Machine Sys2Proof.Claim

/-! ### Steps on operations -/

/-- A step on an operation that has nothing left to wait for and is of the step's kind acts on it. -/
theorem onOp_of_ended {s : State} {o : Op} (h : Ended s o) {p : Op → Bool} (hp : p o = true) (f : Op → State) :
    s.onOp o.id p f = .next (f o) := by
  obtain ⟨under, left⟩ := h
  simp only [State.onOp, under, left, hp]
  rfl

theorem answerLqstat_of_no_flight {s : State} {op : Nat} (h : ∀ f ∈ s.flights, f.op ≠ some op) : s.answerLqstat op = s := by
  have none : s.flights.find? (fun f => f.op == some op) = none := by
    rw [List.find?_eq_none]
    intro f hf
    simpa using h f hf
  rw [State.answerLqstat, none]

/-- The answers of an ordered-section form reach its slice (10 R259). -/
theorem unitAnswer_of_osec {s : State} {o : Op} (h : Ended s o) (hf : ∀ f ∈ s.flights, f.op ≠ some o.id) (h1 : 1 ≤ o.osec)
    (h5 : o.osec ≤ 5) : Becomes (.evUnitAnswerArrival o.id) s (s.osecAnswer o) := by
  show execEvUnitAnswerArrival o.id s = _
  simp only [execEvUnitAnswerArrival, answerLqstat_of_no_flight hf, h.under]
  rw [if_neg (by simp [h.left]), if_pos (by simp [h1, h5])]

/-- The words of a unit for an S register reach its slice. -/
theorem unitAnswer_of_words {s : State} {o : Op} (h : Ended s o) (hf : ∀ f ∈ s.flights, f.op ≠ some o.id) {d n : Nat}
    (hd : o.dest = .s d n) (hl : o.isLoad = false) (ho : o.osec = 0) (hlent : s.isLent o.id = false) :
    Becomes (.evUnitAnswerArrival o.id) s (s.finishOp o) := by
  show execEvUnitAnswerArrival o.id s = _
  simp only [execEvUnitAnswerArrival, answerLqstat_of_no_flight hf, h.under, hd, hl, hlent]
  rw [if_neg (by simp [h.left]), if_neg (by simp [ho]), if_pos (by simp)]

theorem answerEvents : AnswerEvents := by
  unfold AnswerEvents
  intro s o h
  refine ⟨fun hl => ?_, fun hc => ?_, fun hf => ⟨fun h1 h5 => unitAnswer_of_osec h hf h1 h5, ?_⟩, fun ha ho => ?_⟩
  · show execEvLoadDataReturn o.id s = _
    rw [execEvLoadDataReturn, onOp_of_ended h hl]
    simp only [beq_iff_eq]
  · show execEvStoreAcknowledge o.id s = _
    exact onOp_of_ended h (by simpa using hc) _
  · rintro ⟨d, n, hd⟩ hl ho hlent
    exact unitAnswer_of_words h hf hd hl ho hlent
  · show execEvIcinvCompletion o.id s = _
    rw [execEvIcinvCompletion, onOp_of_ended h (by simp [ha, ho]), ha]

/-! ### Parks, holds and paths -/

theorem pathEvents : PathEvents := by
  unfold PathEvents
  intro s c t x
  refine ⟨fun hlive hhalt hpark hwoken => ?_, fun h hhold hlive hholding hvisits => ?_, fun hlive hhalt hfair => ?_⟩
  · have due : (x.live && !x.halted && x.park.isSome && x.woken) = true := by
      rw [Option.isSome_iff_ne_none.2 hpark, hlive, hhalt, hwoken]; rfl
    exact congrArg Host.Outcome.next (if_pos due)
  · show execEvHoldVisitLimit c t s = _
    simp only [execEvHoldVisitLimit]
    rw [show (s.slice c t).hold = some h from hhold]
    exact congrArg Host.Outcome.next (if_pos (by simp [x, hlive, hholding, hvisits] at *))
  · have due : (x.live && !x.halted && x.fairDue) = true := by rw [hlive, hhalt, hfair]; rfl
    exact congrArg Host.Outcome.next (if_pos due)

/-! ### Retirement -/

/-- The slot of a retired slice whose retirement has been counted, or of a retired handler, is released (04 R77). -/
theorem slotRelease_acts {x : Slice} (hp : x.phase = .retired) (hc : x.counted = [])
    (hr : x.handler = true ∨ x.retCounted = true) :
    ¬ (x.phase != .retired || !x.counted.isEmpty || !(x.handler || x.retCounted)) = true := by
  rcases hr with h | h <;> simp [hp, hc, h]

/-- A retirement is counted once, for a slice of a group with no counter left (10 R252). -/
theorem retirementCounted_acts {x : Slice} {done : Bool} (hp : x.phase = .retired) (hr : x.retCounted = false)
    (hh : x.handler = false) (hd : done = true) (hc : ∀ k < 4, x.count k = 0) :
    ¬ (x.phase != .retired || x.retCounted || x.handler || !done || [0, 1, 2, 3].any (fun c => x.count c != 0)) = true := by
  simp [hp, hr, hh, hd, hc]

theorem retirementEvents : RetirementEvents := by
  unfold RetirementEvents
  intro s c t x hp
  refine ⟨fun hc hr => if_neg (slotRelease_acts hp hc hr), ?_⟩
  intro g m hr hh hd hc hg hm u v hv w
  show execEvRetirementCounted c t s = _
  refine (if_neg (retirementCounted_acts hp hr hh hd hc)).trans ?_
  have group : (s.setSlice c t { x with retCounted := true }).group? x.group = some g := hg
  rw [group]
  dsimp only [v, u] at hv ⊢
  rw [hv, hm]
  

/-- Settles O53: each step's condition is met, so its meaning takes its acting branch. -/
theorem answerAndSliceEvents : Obligations.AnswerAndSliceEvents :=
  ⟨answerEvents, pathEvents, retirementEvents⟩

end Sys2Proof.Proofs

/-! Writes of device registers and requests of unit control (01 R19; 15 R397 to R405): each device step gives the state its rule names. -/

namespace Sys2Proof.Proofs

open Sys2Proof.Machine Sys2Proof.Claim

/-! ### REPLAY records (15 R405) -/

theorem replayOf_idx {s : State} {idx : Nat} {r : Replay} (h : s.replayOf idx = some r) : r.idx = idx := by
  have found := List.find?_some h
  simp only [Bool.and_eq_true, beq_iff_eq] at found
  exact found.1

theorem endReplay_retry {s : State} {idx : Nat} {r : Replay} (h : s.replayOf idx = some r) :
    s.endReplay idx false = s.replayRetry r := by
  simp only [State.endReplay, h]
  rfl

/-- A decline ends the waiter, unless its slices are saved. -/
theorem endReplay_decline {s : State} {idx : Nat} {r : Replay} (h : s.replayOf idx = some r) (hs : s.replaySaved r = false) :
    s.endReplay idx true = s.replayDecline r := by
  simp only [State.endReplay, h, hs]
  rfl

/-- A decline whose slices are saved is noted in the record. -/
theorem endReplay_decline_saved {s : State} {idx : Nat} {r : Replay} (h : s.replayOf idx = some r)
    (hs : s.replaySaved r = true) : s.endReplay idx true =
      { s with replays := s.replays.map fun (q : Replay) => if q = r then { q with declined := true } else q } := by
  simp only [State.endReplay, h, hs]
  rfl

theorem replaySaved_of_copy {s : State} {r : Replay} {e q : Nat} (h : r.who = .copy e q) : s.replaySaved r = false := by
  rw [State.replaySaved, h]

theorem replayRetry_of_slice {s : State} {r : Replay} {c t : Nat} (h : r.who = .slice c t) :
    s.replayRetry r = (({ s with replays := dropReplay r s.replays } : State).replayGang c r.idx).foldl
      (fun s t => s.modSlice c t fun x => { x with woken := true }) { s with replays := dropReplay r s.replays } := by
  rw [State.replayRetry, h]

theorem replayRetry_of_copy {s : State} {r : Replay} {e q : Nat} (h : r.who = .copy e q) :
    s.replayRetry r = ({ s with replays := dropReplay r s.replays } : State).copyReplay e q fun r => { r with wait := .none } := by
  rw [State.replayRetry, h]

/-! ### Counters (01 R19) -/

/-- A live slice reads a counter into an S register. -/
theorem counterRead_of_live {s : State} {c t d : Nat} (r : Nat) (hl : (s.slice c t).live = true) (hd : d < 32) :
    s.counterRead c t d r = (s.sysRead c t r).1.modSlice c t fun x => x.setS d (s.sysRead c t r).2 :=
  if_pos (by simp [hl, hd])

theorem systemEvents : SystemEvents := by
  unfold SystemEvents
  intro s
  refine ⟨?_, fun _ => rfl, fun _ => rfl, fun _ _ => rfl, rfl, fun _ _ => ⟨rfl, rfl⟩, fun _ _ => rfl, ?_⟩
  · intro idx r h u
    obtain rfl := replayOf_idx h
    refine ⟨fun c t hw => ?_, fun c t hw => ⟨fun hs => ?_, fun hs => ?_⟩, fun e q hw => ⟨?_, ?_⟩⟩
    · exact congrArg Host.Outcome.next ((endReplay_retry h).trans (replayRetry_of_slice hw))
    · refine congrArg Host.Outcome.next ((endReplay_decline h hs).trans ?_)
      rw [State.replayDecline, hw]
    · exact congrArg Host.Outcome.next (endReplay_decline_saved h hs)
    · exact congrArg Host.Outcome.next ((endReplay_retry h).trans (replayRetry_of_copy hw))
    · refine congrArg Host.Outcome.next ((endReplay_decline h (replaySaved_of_copy hw)).trans ?_)
      simp only [State.replayDecline, hw]
      rfl
  · intro c t d hl hd
    exact ⟨congrArg Host.Outcome.next (counterRead_of_live 0x40 hl hd), congrArg Host.Outcome.next (counterRead_of_live 0x42 hl hd)⟩

/-! ### Unit control (15 R399) -/

theorem bits_w32 {n : Nat} (h : n < 2 ^ 32) (lo len : Nat) : bits (w32 n) lo len = n / 2 ^ lo % 2 ^ len := by
  rw [bits, w32, BitVec.toNat_ofNat, Nat.mod_eq_of_lt h]

/-- UCSEL reads back the kind of a request and the unit it names. -/
theorem ucsel_fields {kind inst : Nat} (hk : kind < 2 ^ 8) (hi : inst < 2 ^ 16) :
    bits (w32 (kind + inst * 2 ^ 8)) 0 8 = kind ∧ bits (w32 (kind + inst * 2 ^ 8)) 8 16 = inst := by
  rw [bits_w32 (by omega), bits_w32 (by omega)]
  omega

/-- What a request of unit control does, by its kind (Table 15-2). -/
def ucOutcome (s : State) (kind inst : Nat) (d0 d1 d2 : Word) : State × Nat :=
  match kind with
  | 1 => s.ucExtent inst d0
  | 2 => s.ucRaw inst d0 d1 d2
  | 3 => s.ucPoolFail inst d0
  | 4 => s.ucQueue inst d0 d1
  | 5 => s.ucDeque inst d0
  | 6 => s.ucStruct inst d0
  | 7 => s.ucPlan inst d0
  | 8 => s.ucProgram inst d0 d1 d2
  | _ => (s, ucNone)

/-- A state whose unit-control registers hold a request. -/
def ucAsked (s : State) (kind inst : Nat) (d0 d1 d2 : Word) : State :=
  { s with sys := { s.sys with ucsel := w32 (kind + inst * 2 ^ 8), ucdata0 := d0, ucdata1 := d1, ucdata2 := d2 } }

/-- UCSTAT takes the outcome of a request. -/
def ucAnswered (r : State × Nat) : State := { r.1 with sys := { r.1.sys with ucstat := w32 r.2 } }

/-- UCCMD performs the request that the registers hold. -/
theorem ucCommand_eq (s : State) : s.ucCommand =
    ucAnswered (ucOutcome s (bits s.sys.ucsel 0 8) (bits s.sys.ucsel 8 16) s.sys.ucdata0 s.sys.ucdata1 s.sys.ucdata2) := by
  rfl

theorem ucRequest_eq (s : State) {kind inst : Nat} (hk : kind < 2 ^ 8) (hi : inst < 2 ^ 16) (d0 d1 d2 : Word) :
    s.ucRequest kind inst d0 d1 d2 = ucAnswered (ucOutcome (ucAsked s kind inst d0 d1 d2) kind inst d0 d1 d2) := by
  have asked : s.ucRequest kind inst d0 d1 d2 = (ucAsked s kind inst d0 d1 d2).ucCommand := by
    rw [State.ucRequest, Nat.mod_eq_of_lt hi]; rfl
  obtain ⟨hkind, hinst⟩ := ucsel_fields hk hi
  rw [asked, ucCommand_eq]
  simp only [ucAsked, hkind, hinst]

theorem unitControlEvents : UnitControlEvents := by
  unfold UnitControlEvents
  intro s inst d0 d1 d2 hi asked done
  have request (kind : Nat) (hk : kind < 2 ^ 8) (e1 e2 : Word) :
      (.next (s.ucRequest kind inst d0 e1 e2) : Meaning) =
        .next (ucAnswered (ucOutcome (ucAsked s kind inst d0 e1 e2) kind inst d0 e1 e2)) :=
    congrArg Host.Outcome.next (ucRequest_eq s hk hi d0 e1 e2)
  exact ⟨request 1 (by decide) 0 0, request 2 (by decide) d1 d2, request 3 (by decide) 0 0, request 4 (by decide) d1 0,
    request 5 (by decide) 0 0, request 6 (by decide) 0 0, request 7 (by decide) 0 0, request 8 (by decide) d1 d2,
    fun hq => congrArg Host.Outcome.next (if_pos hq)⟩

/-- Settles O59: the register writes hold by what they call, a resolved record by its waiter, and a request of unit control by its kind. -/
theorem systemAndUnitEvents : Obligations.SystemAndUnitEvents :=
  ⟨systemEvents, unitControlEvents⟩

end Sys2Proof.Proofs

/-! What a turn runs (01 R10; 02 R46; 13 R329): the instruction that a visiting slice fetches and decodes, the word that memory holds at
its PC, a rake's issue and a device step. -/

namespace Sys2Proof.Proofs

open Sys2Proof Sys2Proof.Machine Sys2Proof.Claim

/-! ### Words that decode are not rejected early (02 R46 steps 2 and 4) -/

theorem fields32_unused {w : Word} (h : (fld w 22 6).toNat ∈ [0x00, 0x2E, 0x2F]) : fields32 w = .error .reservedMajor := by
  simp only [List.mem_cons, List.not_mem_nil, or_false] at h
  unfold fields32
  rcases h with h | h | h <;> rw [h] <;> rfl

theorem fields64_unused {w w1 : Word} (h : (fld w 22 6).toNat ∈ [0x3E, 0x3F]) : fields64 w w1 = .error .reservedMajor := by
  simp only [List.mem_cons, List.not_mem_nil, or_false] at h
  unfold fields64
  rcases h with h | h <;> rw [h] <;> rfl

theorem not_rejectedEarly_of_decodes {w w1 : Word} {i : Instr} (h : decodeSimt w w1 = .ok i) : rejectedEarly w = false := by
  unfold decodeSimt at h
  split at h
  next => cases h
  next guard =>
    have major : (fld w 22 6).toNat ∉ [0x00, 0x2E, 0x2F, 0x3E, 0x3F] := by
      intro hm
      split at h
      next short =>
        rw [fields32_unused (by simp only [List.mem_cons, List.not_mem_nil, or_false] at hm ⊢; omega)] at h
        cases h
      next long =>
        rw [fields64_unused (by simp only [List.mem_cons, List.not_mem_nil, or_false] at hm ⊢; omega)] at h
        cases h
    rw [rejectedEarly, Bool.or_eq_false_iff, beq_eq_false_iff_ne]
    exact ⟨guard, by simpa using major⟩

/-! ### Copies of memory -/

/-- Of a table filtered by key, a key that is kept reads as before, and one that is dropped reads the default. -/
theorem tget_filter_key {β : Type} (d : β) (m : Tab β) (q : Nat → Bool) (k : Nat) :
    tget d (m.filter fun c => q c.1) k = if q k then tget d m k else d := by
  induction m with
  | nil => simp [tget]
  | cons c t ih =>
    obtain ⟨a, b⟩ := c
    rw [List.filter_cons]
    by_cases hk : a = k
    · subst hk
      by_cases hq : q a = true <;> simp [hq, tget, ih]
    · by_cases hq : q a = true <;> simp [hq, tget, hk, ih]

/-- Writing listed bytes one by one leaves them where they are not zero, and the old ones elsewhere. -/
theorem tget_foldl_mset {l : Memory} {lo : Nat} (h : wfFrom lo l) (m : Memory) (k : Nat) :
    tget 0 (l.foldl (fun m c => mset m c.1 c.2) m) k = if tget 0 l k = 0 then tget 0 m k else tget 0 l k := by
  induction l generalizing lo m with
  | nil => simp [tget]
  | cons c t ih =>
    obtain ⟨a, b⟩ := c
    simp only [wfFrom, Bool.and_eq_true, bne_iff_ne, ne_eq] at h
    obtain ⟨⟨-, hb⟩, ht⟩ := h
    rw [List.foldl_cons, ih ht, mset, if_neg hb, tget_tset, tget]
    by_cases hk : a = k
    · subst hk
      rw [if_pos rfl, if_pos rfl, tget_of_wfFrom_lt ht (Nat.lt_succ_self a), if_pos rfl, if_neg hb]
    · rw [if_neg hk, if_neg (Ne.symm hk)]

/-- Within the range copied a byte is the source's. -/
theorem mget_mcopy {src : Memory} (h : wfFrom 0 src) (m : Memory) {a n k : Nat} (hk : a ≤ k) (hn : k < a + n) :
    mget (mcopy m src a n) k = mget src k := by
  unfold mget mcopy mrange mclear
  rw [tget_foldl_mset (wfFrom_filter _ h), tget_filter_key 0 src (fun i => decide (a ≤ i) && decide (i < a + n)),
    tget_filter_key 0 m (fun i => !(decide (a ≤ i) && decide (i < a + n)))]
  simp only [hk, hn, decide_true, Bool.and_true, Bool.not_true, Bool.false_eq_true, if_true, if_false]
  split
  next zero => exact zero.symm
  next => rfl

theorem mread_congr {m m' : Memory} {a n : Nat} (h : ∀ i < n, mget m (a + i) = mget m' (a + i)) : mread m a n = mread m' a n := by
  induction n generalizing a with
  | zero => rfl
  | succ n ih =>
    rw [mread, mread, ih fun i hi => ?_, show mget m a = mget m' a from h 0 (Nat.succ_pos n)]
    rw [show a + 1 + i = a + (i + 1) by omega]
    exact h (i + 1) (by omega)

theorem mread_four (m : Memory) (a : Nat) : mread m a 4 = (mget m a).toNat + 2 ^ 8 * (mget m (a + 1)).toNat +
    2 ^ 16 * (mget m (a + 2)).toNat + 2 ^ 24 * (mget m (a + 3)).toNat := by
  simp only [mread]
  rw [show a + 1 + 1 = a + 2 from rfl, show a + 2 + 1 = a + 3 from rfl]
  omega

/-! ### The word fetched (15 R403; 04 R112) -/

/-- What a missing line reads of memory, the atomics that stand there performed and its sectors' errors found. -/
theorem icacheFill_of_miss {s : State} {c asid key : Nat} (h : (s.core c).icache.contains (key / 128) = false)
    {u : State} (hu : (s.reachHome (128 * (key / 128)) 128).findErrors asid [2 * (key / 128), 2 * (key / 128) + 1] = u)
    (room : (u.core c).icache.length < 256) :
    ((s.icacheFill c asid key).core c).icacheData = mcopy (u.core c).icacheData u.mem (128 * (key / 128)) 128 := by
  simp only [State.icacheFill, h, hu]
  rw [if_neg (by decide), State.modCore_core_self, if_pos room]

/-- A word in a line that is not held is the four bytes of memory at its key. -/
theorem fetchWord_of_miss {s v u : State} {c asid key : Nat} {system : Bool} {a : Addr}
    (ht : s.translateCore c asid a.toNat .fetch system = (v, .ok key)) (aligned : key % 4 = 0)
    (miss : (v.core c).icache.contains (key / 128) = false)
    (hu : (v.reachHome (128 * (key / 128)) 128).findErrors asid [2 * (key / 128), 2 * (key / 128) + 1] = u)
    (room : (u.core c).icache.length < 256) (wf : wfFrom 0 u.mem = true) :
    (s.fetchWord c asid system a).2 = .ok (w32 (mread u.mem key 4)) := by
  have word : (s.fetchWord c asid system a).2 = .ok (w32 (mread ((v.icacheFill c asid key).core c).icacheData key 4)) := by
    rw [State.fetchWord, ht]
  rw [word, icacheFill_of_miss miss hu room]
  congr 2
  exact mread_congr fun i hi => mget_mcopy wf _ (by omega) (by omega)

/-! ### A visit of a slice that can issue by itself (01 R10; 04 R79 to R88) -/

theorem settle_warp {s : State} {c t : Nat} (h : Visits s c t) :
    ((s.warpSlots c t).foldl (fun s t => if (s.slice c t).stamp == s.cycle.toNat + 1 then s
      else s.modSlice c t Slice.settle) s) = s := by
  rw [h.alone, List.foldl_cons, List.foldl_nil, if_neg (by simpa using h.fresh), State.modSlice, h.settled, h.stored]

theorem takeOverrun_of_visits {s : State} {c t : Nat} (h : Visits s c t) : s.takeOverrun c t = none := by
  unfold State.takeOverrun State.answering
  simp only [h.unparked, h.overrun]
  rfl

theorem visitHold_of_visits {s : State} {c t : Nat} (h : Visits s c t) : s.visitHold c t = s := by
  unfold State.visitHold
  simp only [h.unheld]

theorem holding_of_visits {s : State} {c t : Nat} (h : Visits s c t) : (s.slice c t).holding = false := by
  unfold Slice.holding
  simp only [h.unheld]

theorem gangOf_of_visits {s : State} {c t : Nat} (h : Visits s c t) : s.gangOf c t = [t] := by
  unfold State.gangOf
  simp [h.deferred, h.alone]

theorem issueAt_of_visits {s : State} {c t : Nat} (h : Visits s c t) :
    s.issueAt c t false = (fetching s c t).fetchDecode := by
  unfold State.issueAt
  simp only [gangOf_of_visits h]
  rfl

/-- The visit fetches for the slice alone. -/
theorem visit_of_visits {s : State} {t : Nat} (ht : t = 8 * (s.cycle.toNat % 16) + s.visitDp)
    (h : Visits s s.visitCore t) :
    s.visit s.visitCore s.visitDp = (fetching s s.visitCore t).fetchDecode := by
  have idle : ¬ (!(s.slice s.visitCore t).live || (s.slice s.visitCore t).halted ||
      (s.slice s.visitCore t).stamp == s.cycle.toNat + 1) = true := by
    simp [h.live, h.halted, h.fresh]
  unfold State.visit
  simp only [← ht]
  rw [if_neg idle, settle_warp h, takeOverrun_of_visits h]
  simp only [h.limit, visitHold_of_visits h, h.unparked, holding_of_visits h, h.deferred, gangOf_of_visits h]
  rw [if_neg (by decide), if_neg (by decide), if_pos (by simp)]
  exact issueAt_of_visits h

theorem decoded_of_ok {s : State} {w0 w1 : Word} {i : Instr} (h : decodeSimt w0 w1 = .ok i) : s.decoded w0 w1 = .run s i := by
  rw [State.decoded, h]

/-- A lead slice outside a repeat frame fetches one word, or two where the major is long, and issues what they decode to. -/
theorem fetchDecode_runs {f v u : State} {c t : Nat} {x : Slice} {w0 w1 : Word} {i : Instr} (hx : f.slice c t = x)
    (hi : f.issuer = { core := c, slots := [t], pc := x.path.pc }) (hf : x.frame.act = false)
    (hw : f.fetchWaits c x.asid x.system x.path.pc = false)
    (h0 : f.fetchWord c x.asid x.system x.path.pc = (v, .ok w0))
    (h1 : if simtLen w0 = 4 then v = u ∧ w1 = 0 else v.fetchWaits c x.asid x.system (x.path.pc + 4) = false ∧
      v.fetchWord c x.asid x.system (x.path.pc + 4) = (u, .ok w1))
    (hd : decodeSimt w0 w1 = .ok i) : f.fetchDecode = .run u i := by
  have at_pc : { f with issuer := { core := c, slots := [t], pc := x.path.pc } } = f := by rw [← hi]
  unfold State.fetchDecode
  simp only [hi, List.headD_cons, hx, hf, Bool.false_and, Bool.false_eq_true, if_false, at_pc, hw, h0,
    not_rejectedEarly_of_decodes hd]
  split at h1
  next short =>
    obtain ⟨rfl, rfl⟩ := h1
    rw [if_pos short, decoded_of_ok hd]
  next long =>
    obtain ⟨hw1, h1⟩ := h1
    simp only [long, hw1, h1, decoded_of_ok hd, if_false, Bool.false_eq_true]

/-- A visit of a slice that can issue by itself runs what it fetches and decodes, and the rotation goes on. -/
theorem visitTurn_runs {s u : State} {t : Nat} {i : Instr}
    (ht : t = 8 * (s.cycle.toNat % 16) + s.visitDp) (hr : s.running = true) (h : Visits s s.visitCore t)
    (hf : (fetching s s.visitCore t).fetchDecode = .run u i) :
    s.visitTurn = Meaning.andThen (exec i u) fun z => (s.atPlace z).nextVisit := by
  unfold State.visitTurn
  simp only [power_of_running hr, hr, ← ht, Bool.not_true, Bool.false_eq_true, if_false, h.unstepped]
  rw [visit_of_visits ht h, hf]
  rfl

/-! ### The other turns (13 R329) -/

theorem step_rake {s v : State} {c : Nat} {i : Instr} {rest : List Turn} (ha : s.agenda = .rake c :: rest)
    (hr : s.running = true) (hi : State.rakeIssue { s with agenda := rest } c = (v, some i)) :
    step s = Meaning.andThen (exec i v) { s with agenda := rest }.atPlace := by
  have running : ({ s with agenda := rest } : State).running = true := hr
  unfold step State.turn
  simp only [ha, State.rakeTurn, running, hi]
  rfl

theorem step_event {s : State} {i : Instr} {rest : List Turn} (ha : s.agenda = .event i :: rest) (hi : s.allows i = true) :
    step s = Meaning.andThen (exec i { s with agenda := rest }) { s with agenda := rest }.atPlace := by
  have allowed : ({ s with agenda := rest } : State).allows i = true := hi
  unfold step State.turn
  simp only [ha, allowed, if_true]

/-- Settles O25: a visit goes through its checks to the fetch; a missing line holds what memory does; the other turns call `exec`. -/
theorem stepRunsInstruction : Obligations.StepRunsInstruction := by
  unfold Obligations.StepRunsInstruction
  refine ⟨?_, ?_, ?_, ?_⟩
  · intro s v u t w0 w1 i c x ht ha hr h hw h0 h1 hd
    rw [step_of_agenda_nil ha]
    exact visitTurn_runs ht hr h
      (fetchDecode_runs (s.slice_modSlice_self c t fun x => { x with stamp := s.cycle.toNat + 1 }) rfl h.frame hw h0 h1 hd)
  · intro s v c asid key system a ht aligned miss u m room wf
    rw [fetchWord_of_miss ht aligned miss rfl room wf, mread_four]
    rfl
  · intro s v c i rest ha hr hi
    exact step_rake ha hr hi
  · intro s i rest ha hi
    exact step_event ha hi

end Sys2Proof.Proofs

/-! The state after reset (18 R445) and the sectors of peers: no path to a peer exists yet, so its sectors read as poisoned (09 R240). -/

namespace Sys2Proof.Proofs

open Sys2Proof.Machine Sys2Proof.Claim

/-- After reset no peer has a path, so every sector of a peer's memory reads as poisoned (07 R202, 09 R240). -/
theorem reset_poisonedAt_of_peer {k : Nat} (lo : peerBase 0 ≤ 64 * k) (hi : 64 * k < hostBase) :
    State.reset.poisonedAt k = true := by
  have gone : State.reset.peerGone (64 * k) = true := by
    rw [State.peerGone, decide_eq_true lo, decide_eq_true hi]
    rfl
  rw [State.poisonedAt, gone, Bool.or_true]

/-- Refutes O26: sector 2^46 is the first of peer 0's memory (byte 2^52), which reads as poisoned after reset, as no path to the peer
exists; the statement has no sector poisoned. -/
theorem not_resetValues : ¬ Obligations.ResetValues := by
  unfold Obligations.ResetValues ResetState
  rintro ⟨⟨-, -, -, unpoisoned, -⟩, -⟩
  have poisoned : State.reset.poisonedAt (2 ^ 46) = true := reset_poisonedAt_of_peer (by decide) (by decide)
  rw [unpoisoned (2 ^ 46)] at poisoned
  cases poisoned

end Sys2Proof.Proofs

/-! Fields of a word (02 R27 to R34): masks, fields and the parts a word is put together from. -/

namespace Sys2Proof.Proofs

/-! ### Bits under a mask -/

/-- No bit of `x` under the mask `k` is one: what `zeros` asks of a word, here of a part of any width. -/
def NoneUnder {n : Nat} (x : BitVec n) (k : Nat) : Prop := x &&& BitVec.ofNat n k = 0#n

theorem noneUnder_iff {n : Nat} {x : BitVec n} {k : Nat} :
    NoneUnder x k ↔ ∀ i, k.testBit i = true → x.getLsbD i = false := by
  constructor
  · intro h i hk
    by_cases hi : i < n
    · have bit : (x &&& BitVec.ofNat n k).getLsbD i = false := by rw [h, BitVec.getLsbD_zero]
      rwa [BitVec.getLsbD_and, BitVec.getLsbD_ofNat, hk, decide_eq_true hi, Bool.and_true, Bool.and_true] at bit
    · exact BitVec.getLsbD_of_ge x i (Nat.le_of_not_lt hi)
  · intro h
    apply BitVec.eq_of_getLsbD_eq
    intro i _
    rw [BitVec.getLsbD_and, BitVec.getLsbD_ofNat, BitVec.getLsbD_zero]
    cases hk : k.testBit i
    · rw [Bool.and_false, Bool.and_false]
    · rw [h i hk, Bool.false_and]

theorem noneUnder_zero {n : Nat} {x : BitVec n} : NoneUnder x 0 := BitVec.and_zero

theorem noneUnder_ofNat {n a k : Nat} (h : a &&& k = 0) : NoneUnder (BitVec.ofNat n a) k := by
  rw [NoneUnder, ← BitVec.ofNat_and, h]

/-- A mask over two parts is a mask over each. -/
theorem noneUnder_append {n m : Nat} {x : BitVec n} {y : BitVec m} {k : Nat} :
    NoneUnder (x ++ y) k ↔ NoneUnder x (k >>> m) ∧ NoneUnder y (k % 2 ^ m) := by
  simp only [noneUnder_iff, BitVec.getLsbD_append, Nat.testBit_shiftRight, Nat.testBit_mod_two_pow, Bool.and_eq_true,
    decide_eq_true_eq, and_imp]
  refine ⟨fun h => ⟨fun i hk => ?_, fun i hi hk => ?_⟩, fun ⟨hx, hy⟩ i hk => ?_⟩
  · simpa using h (m + i) hk
  · simpa [hi] using h i hk
  · split
    next hi => exact hy i hi hk
    next hi => exact hx (i - m) (by rwa [Nat.add_sub_cancel' (Nat.le_of_not_lt hi)])

/-- `zeros` answers its instruction, and only where no bit under its mask is one. -/
theorem zeros_eq_ok {M : Nat} {w : Word} {i j : Instr} : zeros M w i = .ok j ↔ NoneUnder w M ∧ i = j := by
  unfold zeros
  split
  next hz => exact ⟨fun h => ⟨hz, Except.ok.inj h⟩, fun h => congrArg _ h.2⟩
  next hz => exact ⟨nofun, fun h => absurd h.1 hz⟩

theorem zeros2_eq_ok {m0 m1 : Nat} {w0 w1 : Word} {i j : Instr} :
    zeros2 m0 w0 m1 w1 i = .ok j ↔ (NoneUnder w0 m0 ∧ NoneUnder w1 m1) ∧ i = j := by
  unfold zeros2
  split
  next hz => exact ⟨fun h => ⟨hz, Except.ok.inj h⟩, fun h => congrArg _ h.2⟩
  next hz => exact ⟨nofun, fun h => absurd h.1 hz⟩

/-! ### Bits of known value -/

/-- The bits of `w` under the mask `k` are those of `v`. -/
def Fixed (w : Word) (k v : Nat) : Prop := w.toNat &&& k = v

theorem Fixed.or {w : Word} {k v l u : Nat} (h : Fixed w k v) (h' : Fixed w l u) : Fixed w (k ||| l) (v ||| u) := by
  unfold Fixed at *
  rw [Nat.and_or_distrib_left, h, h']

theorem NoneUnder.fixed {w : Word} {k : Nat} (h : NoneUnder w k) : Fixed w k 0 := by
  apply Nat.eq_of_testBit_eq
  intro i
  rw [Nat.testBit_and, Nat.zero_testBit]
  cases hk : k.testBit i
  · rw [Bool.and_false]
  · rw [Bool.and_true]; exact noneUnder_iff.1 h i hk

/-- A bit that is not zero is one. -/
theorem fixed_of_not_noneUnder {w : Word} {b : Nat} (h : ¬NoneUnder w (2 ^ b)) : Fixed w (2 ^ b) (2 ^ b) := by
  have bit : w.toNat.testBit b = true := by
    by_contra hb
    refine h (noneUnder_iff.2 fun i hi => ?_)
    rw [Nat.testBit_two_pow, decide_eq_true_eq] at hi
    exact hi ▸ Bool.not_eq_true _ ▸ hb
  rw [Fixed, Nat.and_two_pow, bit, Bool.toNat_true, Nat.one_mul]

theorem fixed_of_fld {w : Word} {lo n a : Nat} (h : (fld w lo n).toNat = a) : Fixed w ((2 ^ n - 1) <<< lo) (a <<< lo) := by
  subst h
  apply Nat.eq_of_testBit_eq
  intro i
  simp only [fld, BitVec.extractLsb'_toNat, Nat.testBit_and, Nat.testBit_shiftLeft, Nat.testBit_mod_two_pow,
    Nat.testBit_shiftRight, Nat.testBit_two_pow_sub_one]
  by_cases hi : lo ≤ i
  · rw [decide_eq_true hi, Nat.add_sub_cancel' hi, Bool.true_and, Bool.true_and, Bool.and_comm]
  · rw [decide_eq_false hi, Bool.false_and, Bool.false_and, Bool.and_false]

/-! ### The parts of a word -/

/-- `x` is the field of `w` that begins at bit `lo`. -/
def PartOf (w : Word) (lo : Nat) {n : Nat} (x : BitVec n) : Prop := fld w lo n = x

theorem partOf_append {w : Word} {lo n m : Nat} {x : BitVec n} {y : BitVec m} :
    PartOf w lo (x ++ y) ↔ PartOf w (lo + m) x ∧ PartOf w lo y := by
  have whole : fld w (lo + m) n ++ fld w lo m = fld w lo (n + m) :=
    BitVec.extractLsb'_append_extractLsb'_eq_extractLsb' rfl
  unfold PartOf
  rw [← whole]
  refine ⟨fun h => ⟨?_, ?_⟩, fun ⟨h1, h2⟩ => by rw [h1, h2]⟩
  · simpa only [BitVec.extractLsb'_append_eq_left] using congrArg (BitVec.extractLsb' m n) h
  · simpa only [BitVec.extractLsb'_append_eq_right] using congrArg (BitVec.extractLsb' 0 m) h

theorem partOf_of_toNat {w : Word} {lo n a : Nat} (h : (fld w lo n).toNat = a) : PartOf w lo (BitVec.ofNat n a) := by
  rw [PartOf, ← h, BitVec.ofNat_toNat, BitVec.setWidth_eq]

theorem PartOf.at {w : Word} {lo k n : Nat} {x : BitVec n} (h : PartOf w lo x) (hk : k = lo) : PartOf w k x := hk ▸ h

theorem partOf_fld {w : Word} {lo k n : Nat} (h : k = lo) : PartOf w k (fld w lo n) := PartOf.at rfl h

/-- A literal is a field where the bits of the field are known, and are the literal's. -/
theorem partOf_ofNat {w : Word} {k v lo n a : Nat} (h : Fixed w k v)
    (ha : (k >>> lo) % 2 ^ n = 2 ^ n - 1 ∧ (v >>> lo) % 2 ^ n = a) : PartOf w lo (BitVec.ofNat n a) := by
  obtain ⟨hk, rfl⟩ := ha
  subst h
  apply BitVec.eq_of_toNat_eq
  rw [fld, BitVec.extractLsb'_toNat, BitVec.toNat_ofNat, Nat.mod_mod, Nat.shiftRight_and_distrib, Nat.and_mod_two_pow, hk,
    Nat.and_two_pow_sub_one_eq_mod, Nat.mod_mod]

theorem partOf_zero_iff {w x : Word} : PartOf w 0 x ↔ w = x := by
  rw [PartOf, fld, BitVec.extractLsb'_eq_self]

end Sys2Proof.Proofs

/-! A word that decodes is the encoding of what it decodes to (02 R33, R44, R45; 13 R333). -/

namespace Sys2Proof.Proofs

/-- What `r` answers is encoded in the words `ws`. -/
def Encodes (ws : List Word) (r : Except Reject Instr) : Prop := ∀ i, r = .ok i → encode i = ws

theorem encodes_ok {w x : Word} {i : Instr} (he : encode i = [x]) (hx : PartOf w 0 x) : Encodes [w] (.ok i) := by
  rintro _ ⟨⟩
  rw [he, partOf_zero_iff.1 hx]

theorem encodes_error {ws : List Word} {e : Reject} : Encodes ws (.error e) := nofun

theorem encodes_zeros {w x : Word} {M : Nat} {i : Instr} (he : encode i = [x]) (hx : NoneUnder w M → PartOf w 0 x) :
    Encodes [w] (zeros M w i) := by
  intro j h
  obtain ⟨hz, rfl⟩ := zeros_eq_ok.1 h
  rw [he, partOf_zero_iff.1 (hx hz)]

theorem encodes_zeros2 {w0 w1 x y : Word} {m0 m1 : Nat} {i : Instr} (he : encode i = [x, y])
    (hx : NoneUnder w0 m0 → PartOf w0 0 x) (hy : NoneUnder w1 m1 → PartOf w1 0 y) :
    Encodes [w0, w1] (zeros2 m0 w0 m1 w1 i) := by
  intro j h
  obtain ⟨⟨h0, h1⟩, rfl⟩ := zeros2_eq_ok.1 h
  rw [he, partOf_zero_iff.1 (hx h0), partOf_zero_iff.1 (hy h1)]

/-! ### The form that F selects -/

/-- At F = `k` of the word `v`, what the handler `h` answers is encoded in `ws`. -/
def FormEncodes (ws : List Word) (v : Word) (k : Nat) (h : Word → Except Reject Instr) : Prop :=
  (fld v 0 3).toNat = k → Encodes ws (h v)

/-- Each of the handlers, the first at F = `k`, answers what `ws` encode. -/
@[reducible] def FormsEncode (ws : List Word) (v : Word) : Nat → List (Word → Except Reject Instr) → Prop
  | _, [] => True
  | k, h :: hs => FormEncodes ws v k h ∧ FormsEncode ws v (k + 1) hs

theorem encodes_getElem {ws : List Word} {v : Word} {forms : List (Word → Except Reject Instr)} {k n : Nat}
    {h : Word → Except Reject Instr} (hs : FormsEncode ws v k forms) (hn : forms[n]? = some h)
    (hk : (fld v 0 3).toNat = k + n) : Encodes ws (h v) := by
  induction forms generalizing k n with
  | nil => cases hn
  | cons _ _ ih =>
    obtain ⟨first, others⟩ := hs
    cases n with
    | zero => cases hn; exact first hk
    | succ n => exact ih others hn (by omega)

theorem encodes_pick {ws : List Word} {v : Word} {forms : List (Word → Except Reject Instr)}
    (hs : FormsEncode ws v 0 forms) : Encodes ws (pick v forms) := by
  unfold pick
  split
  next h hn => exact encodes_getElem hs hn (Nat.zero_add _).symm
  next => exact encodes_error

theorem encodes_pick1 {ws : List Word} {v : Word} {forms : List (Word → Except Reject Instr)}
    (hs : FormsEncode ws v 0 forms) : Encodes ws (pick1 v forms) := encodes_pick hs

/-! ### The bits that major, F and mask fix -/

theorem fixed_major {w : Word} {M m : Nat} (hm : (fld w 22 6).toNat = m) (hz : NoneUnder w M) :
    Fixed w (M ||| 0xFC00000) (0 ||| m <<< 22) := hz.fixed.or (fixed_of_fld hm)

theorem fixed_function {w : Word} {M k : Nat} (hk : (fld w 0 3).toNat = k) (hz : NoneUnder w M) :
    Fixed w (M ||| 7) (0 ||| k <<< 0) := hz.fixed.or (fixed_of_fld hk)

theorem fixed_form {w : Word} {M m k : Nat} (hm : (fld w 22 6).toNat = m) (hk : (fld w 0 3).toNat = k) (hz : NoneUnder w M) :
    Fixed w (M ||| 0xFC00000 ||| 7) (0 ||| m <<< 22 ||| k <<< 0) := (fixed_major hm hz).or (fixed_of_fld hk)

theorem fixed_trav {w : Word} {M m : Nat} (hm : (fld w 26 6).toNat = m) (hz : NoneUnder w M) :
    Fixed w (M ||| 0xFC000000) (0 ||| m <<< 26) := hz.fixed.or (fixed_of_fld hm)

/-! ### The formats -/

section
variable {w : Word} {m k : Nat} (hm : (fld w 22 6).toNat = m)
include hm

theorem formEncodes_r3 {c : R3 → Instr}
    (he : ∀ f, encode (c f) = [f.enc (BitVec.ofNat 6 m) (BitVec.ofNat 3 k)] := by exact fun _ => rfl) :
    FormEncodes [w] w k (r3 c) := by
  refine fun hk => encodes_ok (he _) ?_
  simp (disch := decide) only [R3.enc, partOf_append, partOf_fld, (partOf_of_toNat hm).at, (partOf_of_toNat hk).at, and_self]

theorem formEncodes_r2 {c : R2 → Instr}
    (he : ∀ f, encode (c f) = [f.enc (BitVec.ofNat 6 m) (BitVec.ofNat 3 k)] := by exact fun _ => rfl) :
    FormEncodes [w] w k (r2 c) := by
  refine fun hk => encodes_zeros (he _) fun hz => ?_
  simp (disch := decide) only [R2.enc, partOf_append, partOf_fld, (partOf_of_toNat hm).at, (partOf_of_toNat hk).at,
    partOf_ofNat hz.fixed, and_self]

theorem formEncodes_rb {c : RB → Instr}
    (he : ∀ f, encode (c f) = [f.enc (BitVec.ofNat 6 m) (BitVec.ofNat 3 k)] := by exact fun _ => rfl) :
    FormEncodes [w] w k (rb c) := by
  refine fun hk => encodes_zeros (he _) fun hz => ?_
  simp (disch := decide) only [RB.enc, partOf_append, partOf_fld, (partOf_of_toNat hm).at, (partOf_of_toNat hk).at,
    partOf_ofNat hz.fixed, and_self]

theorem formEncodes_rp {c : RP → Instr}
    (he : ∀ f, encode (c f) = [f.enc (BitVec.ofNat 6 m) (BitVec.ofNat 3 k)] := by exact fun _ => rfl) :
    FormEncodes [w] w k (rp c) := by
  refine fun hk => encodes_zeros (he _) fun hz => ?_
  simp (disch := decide) only [RP.enc, partOf_append, partOf_fld, (partOf_of_toNat hm).at, (partOf_of_toNat hk).at,
    partOf_ofNat hz.fixed, and_self]

/-- A form of a format of its own: its fields and the bits that major, F and mask fix make up its word. -/
theorem formEncodes_zeros {M : Nat} {j : Word → Instr} {x : Word} (he : encode (j w) = [x] := by exact rfl)
    (hx : Fixed w (M ||| 0xFC00000 ||| 7) (0 ||| m <<< 22 ||| k <<< 0) → PartOf w 0 x := by
      exact fun hb => by simp (disch := decide) only [partOf_append, partOf_fld, partOf_ofNat hb, and_self]) :
    FormEncodes [w] w k fun w => zeros M w (j w) :=
  fun hk => encodes_zeros he fun hz => hx (fixed_form hm hk hz)

theorem encodes_ri {c : RI → Instr} (he : ∀ f, encode (c f) = [f.enc (BitVec.ofNat 6 m)]) : Encodes [w] (ri c w) := by
  refine encodes_ok (he _) ?_
  simp (disch := decide) only [RI.enc, partOf_append, partOf_fld, (partOf_of_toNat hm).at, and_self]

theorem encodes_ru {c : RU → Instr} (he : ∀ f, encode (c f) = [f.enc (BitVec.ofNat 6 m)]) : Encodes [w] (ru c w) := by
  refine encodes_ok (he _) ?_
  simp (disch := decide) only [RU.enc, partOf_append, partOf_fld, (partOf_of_toNat hm).at, and_self]

theorem formEncodes_mem {w1 : Word} {c : MemF → Instr}
    (he : ∀ f, encode (c f) = [f.enc0 (BitVec.ofNat 6 m), f.enc1 (BitVec.ofNat 3 k)] := by exact fun _ => rfl) :
    FormEncodes [w, w1] w1 k (mem w c) := by
  rintro hk _ ⟨⟩
  rw [he]
  refine congrArg₂ (fun x y => [x, y]) (partOf_zero_iff.1 ?_).symm (partOf_zero_iff.1 ?_).symm
  · simp (disch := decide) only [MemF.enc0, partOf_append, partOf_fld, (partOf_of_toNat hm).at, and_self]
  · simp (disch := decide) only [MemF.enc1, partOf_append, partOf_fld, (partOf_of_toNat hk).at, and_self]

/-- A form of two words of a format of its own. -/
theorem formEncodes_zeros2 {w1 : Word} {m0 m1 : Nat} {j : Word → Instr} {x y : Word}
    (he : encode (j w1) = [x, y] := by exact rfl)
    (hx : Fixed w (m0 ||| 0xFC00000) (0 ||| m <<< 22) → PartOf w 0 x := by
      exact fun hb => by simp (disch := decide) only [partOf_append, partOf_fld, partOf_ofNat hb, and_self])
    (hy : Fixed w1 (m1 ||| 7) (0 ||| k <<< 0) → PartOf w1 0 y := by
      exact fun hb => by simp (disch := decide) only [partOf_append, partOf_fld, partOf_ofNat hb, and_self]) :
    FormEncodes [w, w1] w1 k fun w1 => zeros2 m0 w m1 w1 (j w1) :=
  fun hk => encodes_zeros2 he (fun h0 => hx (fixed_major hm h0)) fun h1 => hy (fixed_function hk h1)

end

theorem partOf_mma0 {w w1 : Word} (hb : Fixed w 0xFC0000F (0x38 <<< 22)) : PartOf w 0 (mmaFields w w1).enc0 := by
  simp (disch := decide) only [MmaF.enc0, mmaFields, partOf_append, partOf_fld, partOf_ofNat hb, and_self]

theorem partOf_mma1 {w w1 : Word} {k : Nat} (hk : (fld w1 0 3).toNat = k) (hb : NoneUnder w1 0xF8) :
    PartOf w1 0 ((mmaFields w w1).enc1 (BitVec.ofNat 3 k)) := by
  simp (disch := decide) only [MmaF.enc1, mmaFields, partOf_append, partOf_fld, (partOf_of_toNat hk).at,
    partOf_ofNat hb.fixed, and_self]

theorem partOf_trq0 {w w1 : Word} (hb : Fixed w 0xFC0000F (0x3B <<< 22)) : PartOf w 0 (trqFields w w1).enc0 := by
  simp (disch := decide) only [TrqF.enc0, trqFields, partOf_append, partOf_fld, partOf_ofNat hb, and_self]

theorem partOf_trq1 {w w1 : Word} (hb : Fixed w1 0xF 0) : PartOf w1 0 (trqFields w w1).enc1 := by
  simp (disch := decide) only [TrqF.enc1, trqFields, partOf_append, partOf_fld, partOf_ofNat hb, and_self]

/-- The form that IMM10[9:8] selects (02 R32). -/
theorem encodes_shi {w : Word} (hm : (fld w 22 6).toNat = 0x09) : Encodes [w] (shi w) := by
  have word {n : Nat} (hn : (fld w 8 2).toNat = n) (hz : NoneUnder w 0xE0) :
      [RS.enc ⟨fld w 28 4, fld w 16 6, fld w 10 6, fld w 0 5⟩ (BitVec.ofNat 2 n)] = [w] := by
    refine congrArg (fun v => [v]) (partOf_zero_iff.1 ?_).symm
    simp (disch := decide) only [RS.enc, partOf_append, partOf_fld, partOf_ofNat (fixed_major hm hz),
      (partOf_of_toNat hn).at, and_self]
  intro i h
  obtain ⟨hz, rfl⟩ := zeros_eq_ok.1 h
  split
  next hn => exact word hn hz
  next hn => exact word hn hz
  next hn => exact word hn hz
  next h0 h1 h2 =>
    have three : (fld w 8 2).toNat = 3 := by
      have lt : (fld w 8 2).toNat < 4 := (fld w 8 2).isLt
      change ¬_ at h0 h1 h2
      omega
    exact word three hz

theorem fields32_encodes {w : Word} : Encodes [w] (fields32 w) := by
  unfold fields32
  split
  case h_1 hm | h_2 hm | h_3 hm | h_14 hm | h_20 hm | h_23 hm =>
    exact encodes_pick ⟨formEncodes_r3 hm, formEncodes_r3 hm, formEncodes_r3 hm, formEncodes_r3 hm, formEncodes_r3 hm,
      formEncodes_r3 hm, formEncodes_r3 hm, formEncodes_r3 hm, trivial⟩
  case h_4 hm =>
    exact encodes_pick ⟨formEncodes_r3 hm, formEncodes_r3 hm, formEncodes_r3 hm, formEncodes_r3 hm, formEncodes_r3 hm,
      formEncodes_r2 hm, formEncodes_r2 hm, formEncodes_r2 hm, trivial⟩
  case h_5 hm | h_6 hm | h_7 hm | h_8 hm => exact encodes_ri hm fun _ => rfl
  case h_9 hm => exact encodes_shi hm
  case h_10 hm | h_11 hm | h_12 hm | h_13 hm => exact encodes_ru hm fun _ => rfl
  case h_15 hm =>
    exact encodes_pick ⟨formEncodes_r3 hm, formEncodes_r3 hm, formEncodes_r3 hm, formEncodes_r3 hm, formEncodes_r3 hm,
      formEncodes_r2 hm, formEncodes_r2 hm, formEncodes_rb hm, trivial⟩
  case h_16 hm =>
    exact encodes_pick ⟨formEncodes_rb hm, formEncodes_r3 hm, formEncodes_r3 hm, formEncodes_r3 hm, formEncodes_r3 hm,
      trivial⟩
  case h_17 hm =>
    refine encodes_ok rfl ?_
    simp (disch := decide) only [partOf_append, partOf_fld, (partOf_of_toNat hm).at, and_self]
  case h_18 hm | h_19 hm | h_24 hm | h_25 hm | h_27 hm | h_28 hm | h_32 hm | h_33 hm | h_34 hm | h_36 hm | h_37 hm =>
    refine encodes_zeros rfl fun hz => ?_
    simp (disch := decide) only [partOf_append, partOf_fld, partOf_ofNat (fixed_major hm hz), and_self]
  case h_21 hm =>
    exact encodes_pick ⟨formEncodes_r2 hm, formEncodes_r2 hm, formEncodes_r2 hm, formEncodes_r2 hm, formEncodes_r2 hm,
      formEncodes_r2 hm, formEncodes_r2 hm, formEncodes_r2 hm, trivial⟩
  case h_22 hm =>
    exact encodes_pick ⟨formEncodes_r2 hm, formEncodes_r2 hm, formEncodes_r2 hm, formEncodes_r2 hm, formEncodes_r2 hm,
      formEncodes_r3 hm, formEncodes_r3 hm, formEncodes_r2 hm, trivial⟩
  case h_26 hm =>
    exact encodes_pick ⟨formEncodes_r3 hm, formEncodes_r3 hm, formEncodes_r3 hm, formEncodes_r2 hm, formEncodes_r2 hm,
      formEncodes_zeros hm, formEncodes_zeros hm, trivial⟩
  case h_29 hm =>
    exact encodes_pick ⟨formEncodes_rp hm, formEncodes_rp hm, formEncodes_rp hm, formEncodes_r2 hm, formEncodes_r2 hm,
      formEncodes_r2 hm, formEncodes_r2 hm, trivial⟩
  case h_30 hm =>
    exact encodes_pick ⟨formEncodes_zeros hm, formEncodes_zeros hm, formEncodes_zeros hm, formEncodes_zeros hm,
      formEncodes_zeros hm, formEncodes_zeros hm, formEncodes_zeros hm, formEncodes_zeros hm, trivial⟩
  case h_31 hm =>
    exact encodes_pick ⟨formEncodes_r3 hm, formEncodes_r3 hm, formEncodes_r3 hm, formEncodes_r3 hm, formEncodes_rp hm,
      formEncodes_rp hm, formEncodes_zeros hm, trivial⟩
  case h_35 hm =>
    exact encodes_pick ⟨formEncodes_zeros hm, formEncodes_r2 hm, formEncodes_zeros hm, formEncodes_zeros hm,
      formEncodes_zeros hm, formEncodes_zeros hm, formEncodes_zeros hm, trivial⟩
  case h_38 hm =>
    exact encodes_pick ⟨formEncodes_r2 hm, formEncodes_r2 hm, formEncodes_rp hm, formEncodes_r2 hm, trivial⟩
  case h_39 hm | h_42 hm =>
    exact encodes_pick ⟨formEncodes_zeros hm, formEncodes_zeros hm, formEncodes_zeros hm, formEncodes_zeros hm,
      formEncodes_zeros hm, formEncodes_zeros hm, formEncodes_zeros hm, trivial⟩
  case h_40 hm =>
    exact encodes_pick ⟨formEncodes_r3 hm, formEncodes_r3 hm, formEncodes_zeros hm, formEncodes_zeros hm,
      formEncodes_zeros hm, formEncodes_r2 hm, formEncodes_r2 hm, trivial⟩
  case h_41 hm =>
    exact encodes_pick ⟨formEncodes_r3 hm, formEncodes_zeros hm, formEncodes_rb hm, formEncodes_rb hm,
      formEncodes_zeros hm, formEncodes_zeros hm, trivial⟩
  case h_43 hm =>
    exact encodes_pick ⟨formEncodes_zeros hm, formEncodes_zeros hm, formEncodes_zeros hm, trivial⟩
  case h_44 hm =>
    exact encodes_pick ⟨formEncodes_zeros hm, formEncodes_zeros hm, formEncodes_zeros hm, formEncodes_zeros hm,
      formEncodes_zeros hm, formEncodes_zeros hm, trivial⟩
  case h_45 hm =>
    exact encodes_pick ⟨formEncodes_r3 hm, formEncodes_r3 hm, formEncodes_r3 hm, formEncodes_r2 hm, formEncodes_r2 hm,
      trivial⟩
  case h_46 => exact encodes_error

theorem fields64_encodes {w w1 : Word} : Encodes [w, w1] (fields64 w w1) := by
  unfold fields64
  dsimp only
  split
  case h_1 hm | h_2 hm =>
    exact encodes_pick1 ⟨formEncodes_mem hm, trivial⟩
  case h_3 hm =>
    exact encodes_pick1 ⟨formEncodes_mem hm, formEncodes_mem hm, trivial⟩
  case h_4 hm | h_5 hm | h_6 hm =>
    exact encodes_pick1 ⟨formEncodes_mem hm, formEncodes_mem hm, formEncodes_mem hm, formEncodes_mem hm,
      formEncodes_mem hm, formEncodes_mem hm, formEncodes_mem hm, formEncodes_mem hm, trivial⟩
  case h_7 hm | h_11 hm =>
    exact encodes_pick1 ⟨formEncodes_zeros2 hm, trivial⟩
  case h_8 hm =>
    exact encodes_pick1 ⟨formEncodes_zeros2 hm, formEncodes_zeros2 hm, formEncodes_zeros2 hm, trivial⟩
  case h_9 hm =>
    exact encodes_pick1 ⟨fun hk => encodes_zeros2 rfl (fun h0 => partOf_mma0 (fixed_major hm h0)) (partOf_mma1 hk),
      fun hk => encodes_zeros2 rfl (fun h0 => partOf_mma0 (fixed_major hm h0)) (partOf_mma1 hk), trivial⟩
  case h_10 hm =>
    exact encodes_pick1 ⟨formEncodes_zeros2 hm, formEncodes_zeros2 hm, formEncodes_zeros2 hm, formEncodes_zeros2 hm,
      formEncodes_zeros2 hm, formEncodes_zeros2 hm, formEncodes_zeros2 hm, formEncodes_zeros2 hm, trivial⟩
  case h_12 hm =>
    exact encodes_pick1 ⟨formEncodes_zeros2 hm rfl partOf_trq0 partOf_trq1, trivial⟩
  case h_13 hm =>
    exact encodes_pick1 ⟨formEncodes_zeros2 hm, formEncodes_zeros2 hm, formEncodes_zeros2 hm, formEncodes_zeros2 hm,
      formEncodes_zeros2 hm, formEncodes_zeros2 hm, trivial⟩
  case h_14 hm =>
    exact encodes_pick1 ⟨formEncodes_zeros2 hm, formEncodes_zeros2 hm, trivial⟩
  case h_15 => exact encodes_error

/-! ### The traversal words -/

section
variable {w : Word} {m : Nat} (hm : (fld w 26 6).toNat = m)
include hm

theorem encodes_trav {M : Nat} {i : Instr} {x : Word} (he : encode i = [x] := by exact rfl)
    (hx : Fixed w (M ||| 0xFC000000) (0 ||| m <<< 26) → PartOf w 0 x := by
      exact fun hb => by simp (disch := decide) only [partOf_append, partOf_fld, partOf_ofNat hb, and_self]) :
    Encodes [w] (zeros M w i) :=
  encodes_zeros he fun hz => hx (fixed_trav hm hz)

/-- An opcode of two forms, which bit `b` tells apart. -/
theorem encodes_trav_ite (b : Nat) {M M' : Nat} {i i' : Instr} {x x' : Word} (he : encode i = [x] := by exact rfl)
    (he' : encode i' = [x'] := by exact rfl)
    (hx : Fixed w (M ||| 0xFC000000) (0 ||| m <<< 26) → PartOf w 0 x := by
      exact fun hb => by simp (disch := decide) only [partOf_append, partOf_fld, partOf_ofNat hb, and_self])
    (hx' : Fixed w (M' ||| 0xFC000000 ||| 2 ^ b) (0 ||| m <<< 26 ||| 2 ^ b) → PartOf w 0 x' := by
      exact fun hb => by simp (disch := decide) only [partOf_append, partOf_fld, partOf_ofNat hb, and_self]) :
    Encodes [w] (if w &&& BitVec.ofNat 32 (2 ^ b) = 0 then zeros M w i else zeros M' w i') := by
  split
  next => exact encodes_trav hm he hx
  next hb => exact encodes_zeros he' fun hz => hx' ((fixed_trav hm hz).or (fixed_of_not_noneUnder hb))

end

theorem fieldsTrav_encodes {w : Word} : Encodes [w] (fieldsTrav w) := by
  unfold fieldsTrav
  split
  case h_2 hm => exact encodes_trav_ite hm 5
  case h_10 hm => exact encodes_trav_ite hm 0
  case h_19 hm | h_20 hm | h_21 hm | h_22 hm | h_23 hm | h_24 hm | h_25 hm | h_26 hm | h_27 hm | h_28 hm =>
    exact encodes_trav_ite hm 10
  case h_35 hm => exact encodes_trav_ite hm 16
  case h_1 hm | h_3 hm | h_4 hm | h_5 hm | h_6 hm | h_7 hm | h_8 hm | h_9 hm | h_11 hm | h_12 hm | h_13 hm | h_14 hm |
    h_15 hm | h_16 hm | h_17 hm | h_18 hm | h_29 hm | h_30 hm | h_31 hm | h_32 hm | h_33 hm | h_34 hm | h_36 hm =>
    exact encodes_trav hm
  case h_37 => exact encodes_error

/-! ### The decoder around the fields -/

theorem checked_eq_ok {r : Except Reject Instr} {i : Instr} : checked r = .ok i ↔ r = .ok i ∧ i.wf = true := by
  rcases r with e | j
  · exact ⟨nofun, fun h => nomatch h.1⟩
  · constructor
    · intro h
      unfold checked at h
      dsimp only at h
      split at h
      next hj => cases h; exact ⟨rfl, hj⟩
      next => cases h
    · rintro ⟨⟨⟩, hj⟩
      exact if_pos hj

theorem decodeSimt_eq_ok {w w1 : Word} {i : Instr} : decodeSimt w w1 = .ok i ↔
    fld w 28 4 ≠ 15#4 ∧ (if (fld w 22 6).toNat < 0x30 then fields32 w else fields64 w w1) = .ok i ∧ i.wf = true := by
  unfold decodeSimt
  split
  next hg => exact ⟨nofun, fun h => absurd hg h.1⟩
  next hg => split <;> simp only [checked_eq_ok, hg, ne_eq, not_false_eq_true, true_and]

theorem simtLen_short {w : Word} (h : (fld w 22 6).toNat < 0x30) : simtLen w = 4 := if_pos h

theorem simtLen_long {w : Word} (h : ¬(fld w 22 6).toNat < 0x30) : simtLen w = 8 := if_neg h

/-- Settles O17: each branch of the decoder answers what its word encodes, and the check of reserved codes is the rest. -/
theorem decodedIsEncoding : Obligations.DecodedIsEncoding := by
  unfold Obligations.DecodedIsEncoding
  refine ⟨fun w0 w1 i h => ?_, fun w i h => ?_⟩
  · obtain ⟨-, hf, hwf⟩ := decodeSimt_eq_ok.1 h
    refine ⟨hwf, ?_⟩
    split at hf
    next hm => rw [if_pos (simtLen_short hm), fields32_encodes i hf]
    next hm => rw [if_neg (by rw [simtLen_long hm]; decide), fields64_encodes i hf]
  · obtain ⟨hf, hwf⟩ := checked_eq_ok.1 h
    exact ⟨hwf, fieldsTrav_encodes i hf⟩

end Sys2Proof.Proofs

/-! The decoder's answer for the bytes of an instruction (02 R27 to R34, R44, R45). -/

namespace Sys2Proof.Proofs

open BitVec (extractLsb'_append_eq_of_le extractLsb'_append_eq_of_add_le extractLsb'_eq_self)

/-! ### Words and bytes -/

theorem takeWord_wordBytes (w : Word) (rest : List Byte) : takeWord (wordBytes w ++ rest) = some (w, rest) := by
  have parts : PartOf w 0 (fld w 24 8 ++ fld w 16 8 ++ fld w 8 8 ++ fld w 0 8) := by
    simp (disch := decide) only [partOf_append, partOf_fld, and_self]
  exact congrArg (fun v => some (v, rest)) (partOf_zero_iff.1 parts).symm

/-- The decoder reads the short word `w` as `i`, when `i` is well-formed. -/
structure Reads (i : Instr) (w : Word) : Prop where
  guard : i.wf = true → guardOk (fld w 28 4) = true
  major : (fld w 22 6).toNat < 0x30
  fields : fields32 w = .ok i

/-- The decoder reads the two words as `i`, when `i` is well-formed. -/
structure ReadsLong (i : Instr) (w w1 : Word) : Prop where
  guard : i.wf = true → guardOk (fld w 28 4) = true
  major : ¬(fld w 22 6).toNat < 0x30
  fields : fields64 w w1 = .ok i

theorem guardOk_iff {g : BitVec 4} : guardOk g = true ↔ g ≠ 15#4 := bne_iff_ne

theorem Reads.decodeBytes_eq {i : Instr} {w : Word} (h : Reads i w) (hwf : i.wf = true) (rest : List Byte) :
    decodeBytes (wordBytes w ++ rest) = .ok (i, rest) := by
  have one : decodeSimt w 0 = .ok i :=
    decodeSimt_eq_ok.2 ⟨guardOk_iff.1 (h.guard hwf), (if_pos h.major).trans h.fields, hwf⟩
  simp only [decodeBytes, takeWord_wordBytes, simtLen_short h.major, if_true, one]
  rfl

theorem ReadsLong.decodeBytes_eq {i : Instr} {w w1 : Word} (h : ReadsLong i w w1) (hwf : i.wf = true) (rest : List Byte) :
    decodeBytes (wordBytes w ++ (wordBytes w1 ++ rest)) = .ok (i, rest) := by
  have two : decodeSimt w w1 = .ok i :=
    decodeSimt_eq_ok.2 ⟨guardOk_iff.1 (h.guard hwf), (if_neg h.major).trans h.fields, hwf⟩
  simp only [decodeBytes, takeWord_wordBytes, simtLen_long h.major, two]
  rfl

/-! ### A form's words, read

What is left to each form is that its major and its F select its handler: the rest is a matter of the parts of its words, which
the default proofs of these lemmas settle. -/

section
variable {i j : Instr} {w w1 : Word} {g : BitVec 4} {maj : BitVec 6} {k : BitVec 3} {M m0 m1 : Nat}

/-- F selects a handler by its place. -/
theorem pick_eq {forms : List (Word → Except Reject Instr)} {h : Word → Except Reject Instr} (hk : fld w 0 3 = k)
    (hf : forms[k.toNat]? = some h) : pick w forms = h w := by
  rw [pick, hk, hf]

theorem ok_eq (e : i = j := by
      simp (disch := decide) only [R3.enc, R2.enc, RB.enc, RP.enc, RI.enc, RU.enc, RS.enc, fld,
        extractLsb'_append_eq_of_le, extractLsb'_append_eq_of_add_le, extractLsb'_eq_self, Nat.reduceSub]) :
    (Except.ok i : Except Reject Instr) = .ok j := congrArg _ e

theorem zeros_eq
    (hz : NoneUnder w M := by
      simp (disch := decide) only [R2.enc, RB.enc, RP.enc, RS.enc, noneUnder_append, noneUnder_zero,
        noneUnder_ofNat, Nat.reduceShiftRight, Nat.reduceMod, Nat.reducePow, and_self])
    (e : i = j := by
      simp (disch := decide) only [R3.enc, R2.enc, RB.enc, RP.enc, RI.enc, RU.enc, RS.enc, fld,
        extractLsb'_append_eq_of_le, extractLsb'_append_eq_of_add_le, extractLsb'_eq_self, Nat.reduceSub] <;> rfl) :
    zeros M w i = .ok j := zeros_eq_ok.2 ⟨hz, e⟩

theorem zeros2_eq
    (hz : NoneUnder w m0 ∧ NoneUnder w1 m1 := by
      simp (disch := decide) only [MmaF.enc0, MmaF.enc1, TrqF.enc0, TrqF.enc1, noneUnder_append, noneUnder_zero,
        noneUnder_ofNat, Nat.reduceShiftRight, Nat.reduceMod, Nat.reducePow, and_self])
    (e : i = j := by
      simp (disch := decide) only [MemF.enc0, MemF.enc1, MmaF.enc0, MmaF.enc1, TrqF.enc0, TrqF.enc1, mmaFields, trqFields,
        fld, extractLsb'_append_eq_of_le, extractLsb'_append_eq_of_add_le, extractLsb'_eq_self, Nat.reduceSub]) :
    zeros2 m0 w m1 w1 i = .ok j := zeros2_eq_ok.2 ⟨hz, e⟩

/-- A form that its major alone selects. -/
theorem reads_of_major
    (head : fld w 28 4 = g ∧ fld w 22 6 = maj := by
      refine ⟨?_, ?_⟩ <;> simp (disch := decide) only [R3.enc, R2.enc, RB.enc, RP.enc, RI.enc, RU.enc, RS.enc, fld,
        extractLsb'_append_eq_of_le, extractLsb'_append_eq_of_add_le, extractLsb'_eq_self, Nat.reduceSub] <;> rfl)
    (hwf : i.wf = true → guardOk g = true := by
      intro h; unfold Instr.wf at h; simp only [Bool.and_eq_true] at h; simp only [h])
    (lt : maj.toNat < 0x30 := by decide)
    (row : fld w 22 6 = maj → fields32 w = .ok i) : Reads i w := by
  obtain ⟨hg, hm⟩ := head
  exact ⟨fun h => hg ▸ hwf h, hm ▸ lt, row hm⟩

/-- A form that major and F select. -/
theorem reads_of_form {h : Word → Except Reject Instr}
    (head : fld w 28 4 = g ∧ fld w 22 6 = maj ∧ fld w 0 3 = k := by
      refine ⟨?_, ?_, ?_⟩ <;> simp (disch := decide) only [R3.enc, R2.enc, RB.enc, RP.enc, RI.enc, RU.enc, RS.enc, fld,
        extractLsb'_append_eq_of_le, extractLsb'_append_eq_of_add_le, extractLsb'_eq_self, Nat.reduceSub] <;> rfl)
    (hwf : i.wf = true → guardOk g = true := by
      intro h; unfold Instr.wf at h; simp only [Bool.and_eq_true] at h; simp only [h])
    (lt : maj.toNat < 0x30 := by decide)
    (row : ∀ v, fld v 22 6 = maj → fld v 0 3 = k → fields32 v = h v)
    (answer : h w = .ok i := by exact zeros_eq) : Reads i w := by
  obtain ⟨hg, hm, hk⟩ := head
  exact reads_of_major ⟨hg, hm⟩ hwf lt fun hm => (row w hm hk).trans answer

/-- A form of two words, which the major and the F of word1 select (02 R34). -/
theorem readsLong_of_form
    (head : fld w 28 4 = g ∧ fld w 22 6 = maj ∧ fld w1 0 3 = k := by
      refine ⟨?_, ?_, ?_⟩ <;>
        simp (disch := decide) only [MemF.enc0, MemF.enc1, MmaF.enc0, MmaF.enc1, TrqF.enc0, TrqF.enc1, mmaFields, trqFields,
          fld, extractLsb'_append_eq_of_le, extractLsb'_append_eq_of_add_le, extractLsb'_eq_self, Nat.reduceSub] <;> rfl)
    (hwf : i.wf = true → guardOk g = true := by
      intro h; unfold Instr.wf at h; simp only [MmaF.ok, TrqF.ok, Bool.and_eq_true] at h; simp only [h])
    (le : ¬maj.toNat < 0x30 := by decide)
    (row : fld w 22 6 = maj → fld w1 0 3 = k → fields64 w w1 = .ok i) : ReadsLong i w w1 := by
  obtain ⟨hg, hm, hk⟩ := head
  exact ⟨fun h => hg ▸ hwf h, hm ▸ le, row hm hk⟩

/-! ### The formats -/

theorem reads_r3 {c : R3 → Instr} {f : R3} (hwf : (c f).wf = guardOk f.g) (lt : maj.toNat < 0x30)
    (row : ∀ w, fld w 22 6 = maj → fld w 0 3 = k → fields32 w = r3 c w) : Reads (c f) (f.enc maj k) :=
  reads_of_form (g := f.g) (hwf := fun h => hwf ▸ h) (lt := lt) (row := row) (answer := ok_eq)

theorem reads_r2 {c : R2 → Instr} {f : R2} (hwf : (c f).wf = guardOk f.g) (lt : maj.toNat < 0x30)
    (row : ∀ w, fld w 22 6 = maj → fld w 0 3 = k → fields32 w = r2 c w) : Reads (c f) (f.enc maj k) :=
  reads_of_form (g := f.g) (hwf := fun h => hwf ▸ h) (lt := lt) (row := row)

theorem readsLong_mem {c : MemF → Instr} {m : MemF} (hwf : (c m).wf = true → guardOk m.g = true) (le : ¬maj.toNat < 0x30)
    (row : ∀ w w1, fld w 22 6 = maj → fld w1 0 3 = k → fields64 w w1 = mem w c w1) :
    ReadsLong (c m) (m.enc0 maj) (m.enc1 k) :=
  readsLong_of_form (g := m.g) (hwf := hwf) (le := le) (row := fun hm hk =>
    (row _ _ hm hk).trans (congrArg Except.ok (congrArg c (by
      simp (disch := decide) only [MemF.enc0, MemF.enc1, fld, extractLsb'_append_eq_of_le, extractLsb'_append_eq_of_add_le,
        extractLsb'_eq_self, Nat.reduceSub]))))

end

/-- A SIMT instruction of one word is read from it. -/
theorem reads_encode {i : Instr} {w : Word} (hw : encode i = [w]) (simt : Claim.travForm i = false) : Reads i w := by
  cases i with
  | iadd f | isub f | imul f | imulhs f | imulhn f | imins f | imaxs f | iminn f | imaxn f | iabsd f | iaddss f
  | iaddsn f | isubss f | isubsn f | imac f | imach f | and f | or f | xor f | andn f | orn f | xnor f | shl f
  | shr f | sra f | rol f | ror f | bfx f | bfi f | sadd f | ssub f | smul f | sand f | sor f | sxor f | sshl f
  | sshr f | ssra f | smins f | smaxs f | sminn f | smaxn f | vbcast f | vextr f | vinsr f | movx f | fadd f
  | fsub f | fmul f | fmin f | fmax f | fcpsgn f | ffma f | ffms f | fdiv f | fldexp f | hadd2 f | hmul2 f
  | hfma2 f | hmin2 f | hmax2 f | badd2 f | bmul2 f | bfma2 f | prmt f | pk2h f | pk2b f | shfli f | shflu f
  | shfld f | shflx f | ose f | osen f | dqpsh f | plarm f | plbit f | plcom f =>
    cases hw
    exact reads_r3 (f := f) rfl (by decide) fun w hm hk => by unfold fields32; rw [hm]; exact pick_eq hk rfl
  | clz f | popc f | brev f | sclz f | spopc f | fabs f | fneg f | frcp f | frsq f | fsqrt f | fexp2 f | flog2 f
  | fsinpi f | fcospi f | ftanh f | ffract f | frnd f | fclass f | fsat f | upk2h f | upk2b f | pnot f | pmov f
  | ptos f | pfroms f | callx f | qwr f | qrd f | qcnt f | osqry f | ostk f | plqry f | pldis f =>
    cases hw
    exact reads_r2 (f := f) rfl (by decide) fun w hm hk => by unfold fields32; rw [hm]; exact pick_eq hk rfl
  | smov f | mov f | dqspl f | dqstl f | pand f | por f | pxor f | segsc f | segscf f | qtry f | pk4q g d a r s f
  | upk4q g d a f | vany g d a h | vall g d a h | ballot g d a h | gwid g d h | gred g d a o h | gmatch g d a h
  | gelect g d h | wsync g | gbcst g d a w | jmpx g a | ret g a | callq g a b x | retq g | exit g | yield g
  | bararv g i | barsyn g i | barinit g i a | barwt g i | barqry g i a | tbarsyn g i | tbarinit g i a | osx g a
  | osini g a b x | osfree g a | dqpop g d | dqcnt g d | dqclr g | send g r a b x | sendh g r a b x
  | waitm g n b x | recvm g d n b x | mcnt g d n b x | hret g | svreq g a b x | waitc g c b x | fence g o s
  | ifence g | trap g n | brk g n | tret g | eret g | mramp g b x | haltg g =>
    cases hw
    exact reads_of_form (row := fun w hm hk => by unfold fields32; rewrite [hm]; exact pick_eq hk rfl)
  | shli f | shri f | srai f | rori f | srd g d r | swr g d r | cvtf g d a s t u r | cvti g d a v i f h r
  | icmp g p c a b x k | fcmp g p c a b x k | bra g o | call g o | rcvp g o | nop g | rpt g l d s t c =>
    cases hw
    exact reads_of_major (row := fun hm => by unfold fields32; rw [hm]; exact zeros_eq)
  | iaddi f | andi f | ori f | xori f | movi f | movhi f | smovi f | smovhi f | sel g d a b x p =>
    cases hw
    exact reads_of_major (row := fun hm => by unfold fields32; rw [hm]; exact ok_eq)
  | tNfch _ | tNdec _ _ _ | tNdecX _ | tNqbx _ _ | tBox8 _ _ | tSbox8 _ _ | tTri _ _ _ _ | tSphd _ _ _
  | tKcmp8 _ _ _ | tVdist _ | tPushm _ | tPushmE _ _ | tPop _ | tStkq _ _ | tBrc _ _ | tJmp _ _ | tEnd
  | tEmit _ _ _ | tMigr _ | tYld | tAdd _ | tAddImm _ | tSub _ | tSubImm _ | tMul _ | tMulImm _ | tAnd _
  | tAndImm _ | tOr _ | tOrImm _ | tXor _ | tXorImm _ | tShl _ | tShlImm _ | tShr _ | tShrImm _ | tMin _
  | tMinImm _ | tMax _ | tMaxImm _ | tFadd _ | tFsub _ | tFmul _ | tFmin _ | tFmax _ | tFcmp _ _ | tMovi _ _
  | tMoviHi _ _ | tSel _ _ _ _ =>
    cases simt
  | _ => cases hw

/-- An instruction of two words is read from them. -/
theorem readsLong_encode {i : Instr} {w w1 : Word} {ws : List Word} (hw : encode i = w :: w1 :: ws) :
    ws = [] ∧ ReadsLong i w w1 := by
  cases i with
  | ld m | st m | sld m | sst m | aadd m | amins m | amaxs m | aminn m | amaxn m | aand m | aor m | axor m
  | axchg m | acas m | afadd m | afmin m | afmax m | ahadd2 m | ldr m | stc m | pref m | linv m | lwb m | lcln m
  | icinv m | pclr m | femt m | fful m =>
    cases hw
    refine ⟨rfl, readsLong_mem (m := m) (fun h => ?_) (by decide) fun w w1 hm hk => by
      unfold fields64 pick1; rw [hm, hk]; rfl⟩
    unfold Instr.wf at h
    simp only [MemF.load, MemF.store, MemF.sload, MemF.sstore, MemF.atom, MemF.atomF, MemF.ldrOk, MemF.stcOk,
      MemF.cmem, MemF.linvOk, MemF.icinvOk, MemF.pclrOk, MemF.fe, MemF.codes, Bool.and_eq_true] at h
    simp only [h]
  | mma f | mmas f | trq f | tcopy g ds ts rel eng | stbind g d a space port | stunb g port | ststat g d port
  | malloc g d a | mfree g a | mzero g t | mld g a t off | mst g a t off | mrdv g d t part | mwrv g d t part
  | mcvts g d t part fmt rsel sat | mreq g d a b csrc sc ks etype cs | trpoll g d | trkill g sc | trpin g d a
  | trunp g a | trpub g d a b inv | trload g d a b c | lqpsh g d qs rs rel | lqstat g d qs =>
    cases hw
    exact ⟨rfl, readsLong_of_form (row := fun hm hk => by unfold fields64 pick1; rw [hm, hk]; exact zeros2_eq)⟩
  | _ => cases hw

/-- Settles O15: an instruction's one or two words are taken back from its bytes, and are read as it. -/
theorem simtEncodeDecode : Obligations.SimtEncodeDecode := by
  unfold Obligations.SimtEncodeDecode
  intro i rest hwf simt some
  rcases hw : encode i with _ | ⟨w, _ | ⟨w1, ws⟩⟩
  · exact absurd hw some
  · exact (reads_encode hw simt).decodeBytes_eq hwf rest
  · obtain ⟨rfl, reads⟩ := readsLong_encode hw
    exact reads.decodeBytes_eq hwf rest

end Sys2Proof.Proofs

/-! Fields that name a predicate (02 R38): codes above 7, and writes to P7. -/

namespace Sys2Proof.Proofs

open Sys2Proof.Machine Sys2Proof.Claim

/-! ### Codes that name no predicate -/

theorem pOk_eq_false {p : BitVec 6} (h : 8 ≤ p.toNat) : pOk p = false :=
  decide_eq_false (Nat.not_lt.2 h)

theorem pOk_eq_true {p : BitVec 6} (h : p.toNat < 8) : pOk p = true :=
  decide_eq_true h

/-- The instruction, of `len` bytes, takes ILLEGAL_OPERAND in every member of its gang unless its operands are `ok`. -/
def ChecksOperands (ok : Bool) (i : Instr) (s : State) (len : Nat) : Prop :=
  ok = false → exec i s = .next (s.gangTrap len { code := 0x02 })

/-! A frame whose decode-time operand check fails takes ILLEGAL_OPERAND before anything else (02 R46, step 5). -/

section
variable {s : State} {g : BitVec 4}

theorem simt_not_ok {h : Head} {body : State → Nat → Nat → Except Stop State} (bad : h.ok = false) :
    simt h s body = .next (s.gangTrap h.len { code := 0x02 }) :=
  gangwise_not_ok bad

theorem uniformly_not_ok {h : Head} {body : State → Nat → Nat → Except Stop State} (bad : h.ok = false) :
    uniformly h g s body = .next (s.gangTrap h.len { code := 0x02 }) :=
  simt_not_ok bad

theorem gangForm_not_ok {h : BitVec 1} {ok : Bool} {srcs : List (Nat × Nat)} {eff : State → State} (bad : ok = false) :
    gangForm h ok srcs s eff = .next (s.gangTrap 4 { code := 0x02 }) :=
  gangwise_not_ok bad

theorem scanForm_not_ok {f : RP} {start : Word → Word → Word × Flg} {step : Word → Word → Word → Word × Flg}
    (bad : pOk f.b = false) : scanForm f s start step = .next (s.gangTrap 4 { code := 0x02 }) :=
  gangwise_not_ok bad

theorem queueForm_not_ok {q : BitVec 6} {ok : Bool} {srcs : List (Nat × Nat)}
    {body : State → Nat → List (List Word) → List Nat → Except Stop State} (bad : (pOk q && ok) = false) :
    queueForm g q ok srcs s body = .next (s.gangTrap 4 { code := 0x02 }) :=
  gangwise_not_ok bad

theorem enterForm_not_ok {osec : Nat} {f : R3} (bad : (pOk f.d && osecB f.b f.x) = false) :
    enterForm osec f s = .next (s.gangTrap 4 { code := 0x02 }) :=
  gangwise_not_ok bad

theorem tileForm_not_ok {h : Head} {body : State → Nat → Except Stop State} (bad : h.ok = false) :
    tileForm h g s body = .next (s.gangTrap 8 { code := 0x02 }) :=
  gangwise_not_ok (h := { h with len := 8 }) bad

end

/-! The check of each form with a 6-bit field that names a predicate. -/

section
variable (s : State) (g : BitVec 4) (d a : BitVec 6)

theorem pand_checksOperands (f : RP) : ChecksOperands (pOk f.d && (pOk f.a && pOk f.b)) (.pand f) s 4 :=
  show _ → execPand f s = _ from fun bad => simt_not_ok bad

theorem por_checksOperands (f : RP) : ChecksOperands (pOk f.d && (pOk f.a && pOk f.b)) (.por f) s 4 :=
  show _ → execPor f s = _ from fun bad => simt_not_ok bad

theorem pxor_checksOperands (f : RP) : ChecksOperands (pOk f.d && (pOk f.a && pOk f.b)) (.pxor f) s 4 :=
  show _ → execPxor f s = _ from fun bad => simt_not_ok bad

theorem pnot_checksOperands (f : R2) : ChecksOperands (pOk f.d && pOk f.a) (.pnot f) s 4 :=
  show _ → execPnot f s = _ from fun bad => simt_not_ok bad

theorem pmov_checksOperands (f : R2) : ChecksOperands (pOk f.d && pOk f.a) (.pmov f) s 4 :=
  show _ → execPmov f s = _ from fun bad => simt_not_ok bad

theorem pfroms_checksOperands (f : R2) : ChecksOperands (pOk f.d && sOk f.a) (.pfroms f) s 4 :=
  show _ → execPfroms f s = _ from fun bad => simt_not_ok bad

theorem ptos_checksOperands (f : R2) : ChecksOperands (sOk f.d && pOk f.a) (.ptos f) s 4 :=
  show _ → execPtos f s = _ from fun bad => uniformly_not_ok bad

theorem vany_checksOperands (h : BitVec 1) : ChecksOperands (pOk d && pOk a) (.vany g d a h) s 4 :=
  show _ → execVany g d a h s = _ from fun bad => gangForm_not_ok bad

theorem vall_checksOperands (h : BitVec 1) : ChecksOperands (pOk d && pOk a) (.vall g d a h) s 4 :=
  show _ → execVall g d a h s = _ from fun bad => gangForm_not_ok bad

theorem ballot_checksOperands (h : BitVec 1) : ChecksOperands (sOk d && alignOk d 2 && pOk a) (.ballot g d a h) s 4 :=
  show _ → execBallot g d a h s = _ from fun bad => gangForm_not_ok bad

theorem gelect_checksOperands (h : BitVec 1) : ChecksOperands (pOk d) (.gelect g d h) s 4 :=
  show _ → execGelect g d h s = _ from fun bad => gangForm_not_ok bad

theorem segsc_checksOperands (f : RP) : ChecksOperands (pOk f.b) (.segsc f) s 4 :=
  show _ → execSegsc f s = _ from fun bad => scanForm_not_ok bad

theorem segscf_checksOperands (f : RP) : ChecksOperands (pOk f.b) (.segscf f) s 4 :=
  show _ → execSegscf f s = _ from fun bad => scanForm_not_ok bad

theorem qtry_checksOperands (f : RP) : ChecksOperands (pOk f.a && pOk f.b) (.qtry f) s 4 :=
  show _ → execQtry f s = _ from fun bad => queueForm_not_ok bad

theorem ose_checksOperands (f : R3) : ChecksOperands (pOk f.d && osecB f.b f.x) (.ose f) s 4 :=
  show _ → execOse f s = _ from fun bad => enterForm_not_ok bad

theorem osen_checksOperands (f : R3) : ChecksOperands (pOk f.d && osecB f.b f.x) (.osen f) s 4 :=
  show _ → execOsen f s = _ from fun bad => enterForm_not_ok bad

theorem malloc_checksOperands : ChecksOperands (pOk d && sOk a) (.malloc g d a) s 8 :=
  show _ → execMalloc g d a s = _ from fun bad => tileForm_not_ok bad

theorem stbind_checksOperands (space : BitVec 3) (port : BitVec 2) :
    ChecksOperands (pOk d && sOk a) (.stbind g d a space port) s 8 :=
  show _ → execStbind g d a space port s = _ from fun bad => gangwise_not_ok bad

end

/-! ### Writes to P7 -/

theorem setPBit_seven (x : Slice) (l : Nat) (b : Bool) : x.setPBit 7 l b = x := rfl

theorem writePred_seven (x : Slice) (lanes : List Nat) (f : Nat → Bool) : x.writePred 7 lanes f = x :=
  List.foldl_fixed' (fun l => setPBit_seven x l (f l)) lanes

/-- A predicate form whose destination is P7 only moves a gang of one past it. -/
theorem predForm_seven {s : State} {c t : Nat} (g : BitVec 4) {ok : Bool} (op : Slice → Pred) (solo : Solo s c t [])
    (hok : ok = true) :
    predForm g 7 ok [] s op = .next (s.setSlice c t ((s.slice c t).issued.advance 4)) := by
  obtain ⟨core, gang, held, ready⟩ := solo
  unfold predForm
  rw [simt_solo (u := s.setSlice c t (s.slice c t).issued) core gang (by simpa [pOk] using hok) (by simp)
    ⟨held, by simp, ready⟩ (by simp)]
  · simp
  · simp [writePred_seven]
  · simp

/-- Settles O18: each form refuses a code above 7 by its own operand check, and the predicate forms write P7 through
`Slice.setPBit`, which discards it. -/
theorem predicateFields : Obligations.PredicateFields := by
  unfold Obligations.PredicateFields
  refine ⟨fun s g p d a hp => ?_, fun x => ⟨x.pr_seven, setPBit_seven x⟩, fun g a b s c t solo ha hb => ?_⟩
  · have hp := pOk_eq_false hp
    refine ⟨fun b =>
      ⟨pand_checksOperands s _ ?_, pand_checksOperands s _ ?_, pand_checksOperands s _ ?_,
        por_checksOperands s _ ?_, por_checksOperands s _ ?_, por_checksOperands s _ ?_,
        pxor_checksOperands s _ ?_, pxor_checksOperands s _ ?_, pxor_checksOperands s _ ?_⟩,
      pnot_checksOperands s _ ?_, pnot_checksOperands s _ ?_,
      pmov_checksOperands s _ ?_, pmov_checksOperands s _ ?_,
      ptos_checksOperands s _ ?_, pfroms_checksOperands s _ ?_,
      fun h => ⟨vany_checksOperands s g p a h ?_, vany_checksOperands s g d p h ?_,
        vall_checksOperands s g p a h ?_, vall_checksOperands s g d p h ?_,
        ballot_checksOperands s g d p h ?_, gelect_checksOperands s g p h ?_⟩,
      segsc_checksOperands s _ ?_, segscf_checksOperands s _ ?_, qtry_checksOperands s _ ?_,
      fun b x => ⟨ose_checksOperands s _ ?_, osen_checksOperands s _ ?_⟩,
      malloc_checksOperands s g p a ?_, fun space port => stbind_checksOperands s g p a space port ?_⟩
    all_goals simp [hp]
  · have ha := pOk_eq_true ha
    have hab : (pOk a && pOk b) = true := by rw [ha, pOk_eq_true hb]; rfl
    exact ⟨show execPand _ s = _ from predForm_seven g _ solo hab, show execPor _ s = _ from predForm_seven g _ solo hab,
      show execPxor _ s = _ from predForm_seven g _ solo hab, show execPnot _ s = _ from predForm_seven g _ solo ha,
      show execPmov _ s = _ from predForm_seven g _ solo ha⟩

end Sys2Proof.Proofs

/-! The frame of a SIMT instruction (04 R79, R80, R89) in the terms of the claims: what runs for a gang that waits for nothing, and what
an instruction that changes slices alone leaves of the machine. -/

namespace Sys2Proof.Proofs

open Sys2Proof.Machine Sys2Proof.Claim

/-! ### A gang that waits for nothing -/

section
variable {s t : State} {h : Head} {body : State → Except Stop State}

theorem quiet_of_gang (gang : Gang s h.srcs) (mem : h.mem = false) :
    ∀ i ∈ s.issuer.slots, h.quiet (s.slice s.issuer.core i) :=
  fun i hi => ⟨gang.held i hi, by simp [mem], gang.ready i hi⟩

/-- A gang that waits for nothing runs an instruction that is neither privileged nor a memory access. -/
theorem gangwise_of_gang (gang : Gang s h.srcs) (hb : body s.countIssue = .ok t) (ok : h.ok = true := by rfl)
    (met : h.rdv = true → ∀ i ∈ s.issuer.slots, (s.slice s.issuer.core i).met = true := by nofun)
    (priv : h.priv = false := by rfl) (mem : h.mem = false := by rfl) :
    gangwise h s body = .next (if h.adv = true then t.advanceAll h.len else t) :=
  gangwise_next ok (by simp [priv]) (quiet_of_gang gang mem) met hb

end

/-- A slice that issues by itself is a gang of one. -/
theorem gang_of_solo {s : State} {c t : Nat} {srcs : List (Nat × Nat)} (solo : Solo s c t srcs) : Gang s srcs := by
  obtain ⟨rfl, gang, held, ready⟩ := solo
  constructor <;> simp only [gang, List.nodup_singleton, List.mem_singleton, forall_eq]
  · exact held
  · exact ready

theorem slice_begun (s : State) (c t : Nat) : (begun s c t).slice c t = (s.slice c t).issued :=
  s.slice_setSlice_self c t _

section
variable {s : State} {c t : Nat} {srcs : List (Nat × Nat)}

theorem begun_core (solo : Solo s c t srcs) : (begun s c t).issuer.core = c := solo.core

theorem begun_slots (solo : Solo s c t srcs) : (begun s c t).issuer.slots = [t] := solo.gang

theorem countIssue_of_solo (solo : Solo s c t srcs) : s.countIssue = begun s c t :=
  State.countIssue_solo solo.core solo.gang

theorem members_begun (solo : Solo s c t srcs) (f : Slice → Slice) :
    (begun s c t).members f = s.setSlice c t (f (s.slice c t).issued) := by
  rw [State.members, State.foldl_solo _ (begun_slots solo), begun_core solo, State.modSlice, slice_begun, begun,
    State.setSlice_setSlice]

theorem advanceAll_begun (solo : Solo s c t srcs) (n : Nat) :
    (begun s c t).advanceAll n = s.setSlice c t ((s.slice c t).issued.advance n) :=
  members_begun solo fun x => x.advance n

end

/-! ### A change of one slice -/

/-- Replacing a slice leaves everything else. -/
theorem onlySlice_setSlice (s : State) (c t : Nat) (x : Slice) : OnlySlice s (s.setSlice c t x) c t where
  mem _ := rfl
  others c' t' ht ht' hne := s.slice_setSlice_of_ne x fun hk => by
    obtain ⟨rfl, rfl⟩ := skey_inj ht' ht hk
    simp at hne
  cores := rfl
  clusters := rfl
  sys := rfl

theorem keepsControl_advance_issued (x : Slice) (n : Nat) : KeepsControl x (x.issued.advance n) := by
  constructor <;> simp [Slice.issued]

theorem path_modPath {x : Slice} (h : x.cur < x.paths.length) (f : Path → Path) : (x.modPath f).path = f x.path := by
  simp [Slice.modPath, Slice.setPath, Slice.path, h]

/-- Outside a repeat frame the instruction's length is added to the PC of the path. -/
theorem advance_of_no_frame {x : Slice} (h : x.frame.act = false) (n : Nat) : x.advance n =
    ({ x with poolSince := none, parkSeq := none } : Slice).modPath fun p => { p with pc := p.pc + BitVec.ofNat 52 n } := by
  simp [Slice.advance, h]

end Sys2Proof.Proofs

/-! NOP (04 R100). -/

namespace Sys2Proof.Proofs

open Sys2Proof Sys2Proof.Machine Sys2Proof.Claim

theorem nop_completes (g : BitVec 4) {s : State} (gang : Gang s []) :
    exec (.nop g) s = .next (s.countIssue.advanceAll 4) :=
  show execNop g s = _ from gangwise_of_gang gang rfl

theorem nop_solo (g : BitVec 4) {s : State} {c t : Nat} (solo : Solo s c t []) : MovesOn (.nop g) s c t 4 := by
  rw [MovesOn, nop_completes g (gang_of_solo solo), countIssue_of_solo solo, advanceAll_begun solo]

/-- Outside a frame a slice that moves past an instruction keeps its registers, and its path goes on by four bytes. -/
theorem moved_keeps {x : Slice} (hf : x.frame.act = false) (hc : x.cur < x.paths.length) :
    (x.issued.advance 4).frame = x.frame ∧ (x.issued.advance 4).path = { x.path with pc := x.path.pc + 4 } := by
  rw [advance_of_no_frame (x := x.issued) hf]
  exact ⟨rfl, path_modPath (x := { x.issued with poolSince := none, parkSeq := none }) hc _⟩

/-- A word of NOP's major decodes only where its other fields are zero. -/
theorem not_decodes_of_nop_major {w : Word} (hm : fld w 22 6 = 0x24) (hz : fld w 0 22 ≠ 0) (w1 : Word) (i : Instr) :
    decodeSimt w w1 ≠ .ok i := by
  intro hd
  obtain ⟨-, hi, -⟩ := decodeSimt_eq_ok.1 hd
  have row : fields32 w = zeros 0x3FFFFF w (.nop (fld w 28 4)) := by unfold fields32; rw [hm]; rfl
  rw [hm, if_pos (by decide), row] at hi
  obtain ⟨none, -⟩ := zeros_eq_ok.1 hi
  refine hz (BitVec.eq_of_getLsbD_eq fun b hb => ?_)
  rw [fld, BitVec.getLsbD_extractLsb', Nat.zero_add, noneUnder_iff.1 none b, Bool.and_false]
  · exact BitVec.getLsbD_zero.symm
  rw [show 0x3FFFFF = 2 ^ 22 - 1 from rfl, Nat.testBit_two_pow_sub_one]
  exact decide_eq_true hb

theorem decoded_of_not_ok {s : State} {w w1 : Word} (h : ∀ i, decodeSimt w w1 ≠ .ok i) :
    s.decoded w w1 = .done (s.gangTrap (simtLen w) { code := 0x01 }) := by
  unfold State.decoded
  split
  next hi => exact absurd hi (h _)
  next => rfl

/-- Settles O19: NOP's body is empty, so its gang only moves on; its row of the decoder asks for zeros in the rest of the word. -/
theorem nopForm : Obligations.NopForm := by
  unfold Obligations.NopForm
  refine ⟨by decide, fun g s => nop_completes g, ?_, fun s w w1 hm hz => ?_⟩
  · intro g s c t solo ht x hf hc
    refine ⟨_, nop_solo g solo, onlySlice_setSlice .., ?_⟩
    obtain ⟨frame, path⟩ := moved_keeps hf hc
    simp only [State.slice_setSlice_self]
    exact ⟨by simp [Slice.issued, x], by simp [Slice.issued, x], by simp [Slice.issued, x], by simp [Slice.issued, x],
      keepsControl_advance_issued x 4, frame, path⟩
  · rw [decoded_of_not_ok (not_decodes_of_nop_major hm hz w1), simtLen_short (by rw [hm]; decide)]

end Sys2Proof.Proofs

/-! Gang forms (04 R89, R101 to R105): votes, reductions, shuffles, scans and broadcasts over the lanes of a whole gang. -/

namespace Sys2Proof.Proofs

open Sys2Proof.Machine Sys2Proof.Claim

/-! ### Votes and reductions -/

section
variable {s : State} {h : BitVec 1}

/-- A GANG form of a gang that has met, where HOME asks for it, has its effect and moves on (R89). -/
theorem gangForm_of_gang {srcs : List (Nat × Nat)} {ok : Bool} {eff : State → State} (gang : Gang s srcs) (met : Met s h)
    (hok : ok = true := by rfl) : gangForm h ok srcs s eff = .next ((eff s.countIssue).advanceAll 4) :=
  gangwise_of_gang gang rfl hok fun hr => met (by simpa using hr)

theorem vany_completes {g : BitVec 4} {d a : BitVec 6} (gang : Gang s []) (met : Met s h) (hd : d.toNat < 8)
    (ha : a.toNat < 8) : exec (.vany g d a h) s = .next ((s.countIssue.gangPred g d.toNat fun _ =>
      (s.countIssue.gangLanes g).any (s.countIssue.pbit a.toNat)).advanceAll 4) :=
  show execVany g d a h s = _ from gangForm_of_gang gang met (by rw [pOk_eq_true hd, pOk_eq_true ha]; rfl)

theorem vall_completes {g : BitVec 4} {d a : BitVec 6} (gang : Gang s []) (met : Met s h) (hd : d.toNat < 8)
    (ha : a.toNat < 8) : exec (.vall g d a h) s = .next ((s.countIssue.gangPred g d.toNat fun _ =>
      (s.countIssue.gangLanes g).all (s.countIssue.pbit a.toNat)).advanceAll 4) :=
  show execVall g d a h s = _ from gangForm_of_gang gang met (by rw [pOk_eq_true hd, pOk_eq_true ha]; rfl)

theorem sOk_eq_true {d : BitVec 6} (h : d.toNat < 32) : sOk d = true := decide_eq_true h

/-- A form of S registers acts where a lane of the gang is active. -/
theorem ite_gangLanes_of_active {s : State} {g : BitVec 4} (on : s.gangLanes g ≠ []) (x y : State) :
    (if (s.gangLanes g).isEmpty then x else y) = y :=
  if_neg (by simpa using on)

theorem ballot_completes {g : BitVec 4} {d a : BitVec 6} (gang : Gang s []) (met : Met s h) (hd : d.toNat < 32)
    (even : d.toNat % 2 = 0) (ha : a.toNat < 8) (on : s.countIssue.gangLanes g ≠ []) :
    exec (.ballot g d a h) s = .next ((s.countIssue.members fun x =>
      (x.setS d.toNat (w32 (s.countIssue.ballot g a.toNat))).setS (d.toNat + 1)
        (w32 (s.countIssue.ballot g a.toNat / 2 ^ 32))).advanceAll 4) := by
  have ok : (sOk d && alignOk d 2 && pOk a) = true := by rw [sOk_eq_true hd, alignOk, even, pOk_eq_true ha]; rfl
  show execBallot g d a h s = _
  rw [execBallot, gangForm_of_gang gang met ok, ite_gangLanes_of_active on]

theorem gwid_completes {g : BitVec 4} {d : BitVec 6} (gang : Gang s []) (met : Met s h) (hd : d.toNat < 32)
    (on : s.countIssue.gangLanes g ≠ []) :
    let u := s.countIssue
    exec (.gwid g d h) s = .next ((u.members fun x => x.setS d.toNat
      (w32 ((u.ixMask u.issuer.core u.issuer.slots).toNat + (u.liveMask u.issuer.core (u.issuer.slots.headD 0)).toNat * 2 ^ 8 +
        8 * u.issuer.slots.length * 2 ^ 16))).advanceAll 4) := by
  show execGwid g d h s = _
  rw [execGwid, gangForm_of_gang gang met (sOk_eq_true hd), ite_gangLanes_of_active on]

/-- GRED folds A over the gang's active lanes, from that of the lowest (R103). -/
theorem gred_completes {g : BitVec 4} {d a : BitVec 6} (gang : Gang s [(0, a.toNat)]) (met : Met s h) {p : Nat × Nat}
    {ps : List (Nat × Nat)} (hls : s.countIssue.gangLanes g = p :: ps) (o : BitVec 4) :
    let u := s.countIssue
    let c := (u.slice u.issuer.core (u.issuer.slots.headD 0)).fpctl
    let r := ps.foldl (fun (t : Word × BitVec 5) q =>
      let v := gredOp o.toNat c t.1 (u.vlane a.toNat q)
      (v.1, t.2 ||| v.2)) (if o.toNat < 8 then (u.vlane a.toNat p, 0) else headF c (u.vlane a.toNat p))
    exec (.gred g d a o h) s = .next (((u.gangV g d.toNat fun _ => r.1).members fun x =>
      if x.active g = 0 then x else x.orFlags r.2).advanceAll 4) := by
  show execGred g d a o h s = _
  rw [execGred, gangForm_of_gang gang met, hls]
  simp only [List.map_cons, List.foldl_map]
  rcases Nat.lt_or_ge o.toNat 8 with integer | float
  · rw [if_neg (Nat.not_le.2 integer), if_pos integer]
  · rw [if_pos float, if_neg (Nat.not_lt.2 float)]

theorem wsync_completes (g : BitVec 4) (gang : Gang s []) (met : Met s 1) :
    exec (.wsync g) s = .next (s.countIssue.advanceAll 4) :=
  show execWsync g s = _ from gangwise_of_gang (h := { rdv := true }) gang rfl (met := fun _ => met rfl)

end

theorem voteForms : VoteForms := by
  unfold VoteForms
  intro s g d a h met u ls
  refine ⟨?_, ?_, ?_, ?_, ?_, ?_⟩
  · intro gang hd ha
    exact ⟨vany_completes gang met hd ha, vall_completes gang met hd ha⟩
  · intro gang hd even ha on
    exact ballot_completes gang met hd even ha on
  · intro gang hd on
    exact gwid_completes gang met hd on
  · intro gang
    exact ⟨fun p ps hls o => gred_completes gang met hls o, show execGmatch g d a h s = _ from gangForm_of_gang gang met⟩
  · intro gang hd
    exact show execGelect g d h s = _ from gangForm_of_gang gang met (pOk_eq_true hd)
  · intro gang met1
    exact wsync_completes g gang met1

/-! ### Shuffles, scans and broadcasts -/

theorem exec_shuffles {p : (R3 → Instr) × (Nat → Nat → Nat → Option Nat)} (hp : p ∈ shuffles) (f : R3) (s : State) :
    exec (p.1 f) s = shflForm f s p.2 := by
  fin_cases hp <;> rfl

/-- A shuffle reads A of the lanes with the source numbers, once B has been read for every member (R104). -/
theorem shflForm_of_gang {f : R3} {s s1 : State} {bs : List (Nat × (Nat → Word))}
    (gang : Gang s ((0, f.a.toNat) :: bSrc f.b f.x)) (ok : vbOk f.b f.x = true)
    (hb : s.countIssue.gangOperandB f.g f.b f.x = .ok (s1, bs)) (src : Nat → Nat → Nat → Option Nat) :
    shflForm f s src = .next ((s1.gangV f.g f.d.toNat fun q =>
      match src (8 * s1.issuer.slots.idxOf q.1 + q.2) (((bs.lookup q.1).getD fun _ => 0) q.2).toNat
          (8 * s1.issuer.slots.length) with
      | some n => s1.vlane f.a.toNat (s1.issuer.slots.getD (n / 8) 0, n % 8)
      | none => s1.vlane f.a.toNat q).advanceAll 4) :=
  gangwise_of_gang gang (by rw [hb]; rfl) ok

theorem exec_scans {p : (RP → Instr) × (Word → Word → Word × BitVec 5) × (Word → Word → Word → Word × BitVec 5)}
    (hp : p ∈ scans) (f : RP) (s : State) : exec (p.1 f) s = scanForm f s p.2.1 p.2.2 := by
  fin_cases hp <;> rfl

theorem gbcst_completes {g : BitVec 4} {d a : BitVec 6} (w : BitVec 1) {s : State} (gang : Gang s [(0, a.toNat)]) :
    let u := s.countIssue
    exec (.gbcst g d a w) s = .next ((match if w = 0 then (u.gangLanes g).head? else (u.gangLanes g).getLast? with
      | some p => u.gangV g d.toNat fun _ => u.vlane a.toNat p
      | none => u).advanceAll 4) := by
  refine show execGbcst g d a w s = _ from gangwise_of_gang gang ?_
  simp only [beq_iff_eq]
  rcases (if w = 0 then (s.countIssue.gangLanes g).head? else (s.countIssue.gangLanes g).getLast?) with _ | p <;> rfl

theorem shuffleForms : ShuffleForms := by
  unfold ShuffleForms
  refine ⟨fun p hp f s s1 bs gang ok hb => ?_, ?_, fun g d a w s gang => ?_⟩
  · exact (exec_shuffles hp f s).trans (shflForm_of_gang gang ok hb p.2)
  · intro p hp f s gang hb u step
    refine (exec_scans hp f s).trans (gangwise_of_gang gang (congrArg Except.ok ?_) (pOk_eq_true hb))
    congr 2
    funext acc q
    rcases acc with _ | ⟨r, acc⟩ <;> rfl
  · exact gbcst_completes w gang

/-- Settles O33: each form is one frame around an effect on the gang's active lanes, and the frame's checks are the premises. -/
theorem gangForms : Obligations.GangForms :=
  ⟨voteForms, shuffleForms⟩

end Sys2Proof.Proofs

/-! Branch forms (04 R82, R87, R95, R96): the resolution of every member's path, and a branch that moves its path whole. -/

namespace Sys2Proof.Proofs

open Sys2Proof.Machine Sys2Proof.Claim

/-! ### A gang's branch -/

theorem exec_branch (b : Branch) (s : State) :
    exec b.instr s = branchForm b.guard b.srcs b.delta b.link s b.target := by
  cases b <;> rfl

/-- With every active lane's target aligned, every member's path is resolved (R82, R95). -/
theorem branchForms : BranchForms := by
  unfold BranchForms
  intro b s gang g u aligned
  have misaligned : (u.gangLanes g).filter (fun p => (b.target (u.slice u.issuer.core p.1) p.2).toNat % 4 != 0) = [] := by
    rw [List.filter_eq_nil_iff]
    intro p hp
    simpa using aligned p hp
  refine (exec_branch b s).trans (gangwise_of_gang gang ?_)
  simp only [u, g] at misaligned
  simp only [misaligned]
  rfl

/-! ### The gang of one -/

theorem gangLanes_begun {s : State} {c t : Nat} {srcs : List (Nat × Nat)} (solo : Solo s c t srcs) (g : BitVec 4) :
    (begun s c t).gangLanes g = ((s.slice c t).issued.lanes g).map fun l => (t, l) := by
  simp [State.gangLanes, begun_slots solo, begun_core solo, slice_begun]

/-- A gang of one does not split: no hold opens (R87). -/
theorem openHolds_singleton (s : State) (o : Nat × Option Addr × BitVec 8) : s.openHolds [o] = s := by
  simp [State.openHolds]

/-! ### A path whose lanes all go the same way -/

theorem lanesOf_ne_nil {m : Pred} (h : m ≠ 0) : lanesOf m ≠ [] := by
  intro none
  refine h (BitVec.eq_of_getLsbD_eq fun l hl => ?_)
  by_contra on
  have : l ∈ lanesOf m := mem_lanesOf.2 ⟨hl, by simpa using on⟩
  rw [none] at this
  cases this

theorem eraseDups_of_const {α : Type} [BEq α] [LawfulBEq α] {l : List α} {a : α} (hne : l ≠ []) (h : ∀ b ∈ l, b = a) :
    l.eraseDups = [a] := by
  rcases l with _ | ⟨b, l⟩
  · exact absurd rfl hne
  · rw [List.eraseDups_cons, h b List.mem_cons_self, List.filter_eq_nil_iff.2, List.eraseDups_nil]
    intro x hx
    simp [h x (List.mem_cons_of_mem _ hx)]

/-- Lanes with one next PC and depth are one piece (R82). -/
theorem pieces_of_uniform {mask : Pred} {next : Nat → Addr × BitVec 8} {k : Addr × BitVec 8} (hm : mask ≠ 0)
    (h : ∀ l ∈ lanesOf mask, next l = k) : ∃ m, pieces mask next = [⟨k.1, k.2, m⟩] := by
  have keys : ((lanesOf mask).map next).eraseDups = [k] :=
    eraseDups_of_const (by simpa using lanesOf_ne_nil hm) (by simpa using h)
  unfold pieces
  simp only [keys]
  exact ⟨_, rfl⟩

/-- A path whose lanes all go one way moves there, and its declared point is used up (R82). -/
theorem branch_of_uniform {x : Slice} {next : Nat → Addr × BitVec 8} {k : Addr × BitVec 8} (hc : x.cur < x.paths.length)
    (hm : x.path.mask ≠ 0) (h : ∀ l ∈ lanesOf x.path.mask, next l = k) :
    x.branch next = x.setPath x.cur { x.path with pc := k.1, depth := k.2, decl := none } := by
  obtain ⟨m, one⟩ := pieces_of_uniform hm h
  have spent := path_modPath hc fun p => { p with decl := none }
  unfold Slice.branch
  simp only [spent, one]
  simp [Slice.modPath, Slice.setPath, Slice.path, hc]

theorem aligned_brTarget {pc : Addr} (h : pc.toNat % 4 = 0) (o : BitVec 22) : (pc + 4 * o.signExtend 52).toNat % 4 = 0 := by
  simp only [BitVec.toNat_add, BitVec.toNat_mul, BitVec.reduceToNat]
  omega

/-- A branch that all lanes of its path take, or none, moves the path whole (R82). -/
theorem uniformBranchMovesPath : UniformBranchMovesPath := by
  unfold UniformBranchMovesPath
  intro g o s c t solo x e hc hm aligned uniform pc
  have whole : ∀ l ∈ lanesOf e.mask,
      (if (x.active g).getLsbD l then (x.path.pc + 4 * o.signExtend 52, x.path.depth + 0) else (x.path.pc + 4, x.path.depth)) =
        (pc, e.depth) := by
    intro l hl
    rcases uniform with taken | none
    · rw [if_pos (by rw [taken]; exact (mem_lanesOf.1 hl).2), show x.path.depth + 0 = e.depth from BitVec.add_zero _]
      exact congrArg (·, e.depth) (if_neg (by rwa [taken])).symm
    · simp [none, pc, e]
  refine (branchForms (.bra g o) s (gang_of_solo solo) ?_).trans ?_
  · rw [countIssue_of_solo solo]
    intro p hp
    rw [show Branch.guard (.bra g o) = g from rfl, gangLanes_begun solo] at hp
    obtain ⟨l, -, rfl⟩ := List.mem_map.1 hp
    rw [begun_core solo, slice_begun]
    exact aligned_brTarget aligned o
  · rw [countIssue_of_solo solo, begun_slots solo]
    exact congrArg Host.Outcome.next ((openHolds_singleton _ _).trans ((members_begun solo _).trans
      (congrArg (s.setSlice c t) (branch_of_uniform hc hm whole))))

/-- Settles O34: a gang's branch is the frame around the resolution of its paths; lanes that all go one way are one piece. -/
theorem branchAndPathForms : Obligations.BranchAndPathForms :=
  ⟨branchForms, uniformBranchMovesPath⟩

end Sys2Proof.Proofs

/-! What a gang's fetches and address translations leave of it. On their way atomics that stand at a unit are performed (07 R195), errors
of sectors are found and reported (07 R201, 15 R405), and slices that waited for any of it are woken (01 R23): the gang that issues
stays, and its slices but for their reservations and their being woken. -/

namespace Sys2Proof.Proofs

open Sys2Proof.Machine Sys2Proof.Claim

/-! ### The relation -/

/-- A slice but for its reservations and its being woken. -/
def SameButWoken (x y : Slice) : Prop := ∃ r w, y = { x with resv := r, woken := w }

theorem SameButWoken.refl (x : Slice) : SameButWoken x x := ⟨x.resv, x.woken, rfl⟩

theorem SameButWoken.trans {x y z : Slice} (h : SameButWoken x y) (h' : SameButWoken y z) : SameButWoken x z := by
  obtain ⟨r, w, rfl⟩ := h
  obtain ⟨r', w', rfl⟩ := h'
  exact ⟨r', w', rfl⟩

/-- The gang that issues in `t` is that of `s`, and every slice is the same but for its reservations and its being woken. -/
structure KeepsGang (s t : State) : Prop where
  issuer : t.issuer = s.issuer
  slice : ∀ c i, SameButWoken (s.slice c i) (t.slice c i)

/-- A relation that each value of a table has to its image, the values at two tables' keys have. -/
theorem tget_map_rel {β : Type} {R : β → β → Prop} {d : β} {f : β → β} (hd : R d d) (hf : ∀ x, R x (f x)) (l : Tab β) (n : Nat) :
    R (tget d l n) (tget d (l.map fun p => (p.1, f p.2)) n) := by
  induction l with
  | nil => exact hd
  | cons p l ih =>
    obtain ⟨k, x⟩ := p
    rw [List.map_cons, tget, tget]
    split
    · exact hf x
    · exact ih

namespace KeepsGang

theorem refl (s : State) : KeepsGang s s := ⟨rfl, fun _ _ => .refl _⟩

variable {s t u : State}

/-- A change of other parts of the state. -/
theorem congr (h : KeepsGang s t) (hi : u.issuer = t.issuer) (hs : u.slices = t.slices) : KeepsGang s u where
  issuer := hi.trans h.issuer
  slice c i := (h.slice c i).trans (by rw [State.slice, State.slice, hs]; exact .refl _)

/-- A change of every slice. -/
theorem mapSlices (h : KeepsGang s t) {f : Slice → Slice} (hf : ∀ x, SameButWoken x (f x)) (hi : u.issuer = t.issuer)
    (hs : u.slices = t.slices.map fun p => (p.1, f p.2)) : KeepsGang s u where
  issuer := hi.trans h.issuer
  slice c i := (h.slice c i).trans (by rw [State.slice, State.slice, hs]; exact tget_map_rel (.refl _) hf t.slices _)

/-- A change of one slice. -/
theorem modSlice (h : KeepsGang s t) (c i : Nat) {f : Slice → Slice} (hf : ∀ x, SameButWoken x (f x)) :
    KeepsGang s (t.modSlice c i f) where
  issuer := h.issuer
  slice d j := by
    refine (h.slice d j).trans ?_
    by_cases hk : skey d j = skey c i
    · have hs (v : State) : v.slice d j = v.slice c i := congrArg (tget ({} : Slice) v.slices) hk
      rw [hs, hs, State.slice_modSlice_self]
      exact hf _
    · rw [State.modSlice, State.slice_setSlice_of_ne _ _ hk]
      exact .refl _

theorem foldl (h : KeepsGang s t) {α : Type} (l : List α) {f : State → α → State}
    (hf : ∀ u a, KeepsGang s u → KeepsGang s (f u a)) : KeepsGang s (l.foldl f t) := by
  induction l generalizing t with
  | nil => exact h
  | cons a l ih => exact ih (hf t a h)

/-! ### Waking, writing and reporting -/

theorem wake (h : KeepsGang s t) (p : Park → Bool) : KeepsGang s (t.wake p) :=
  h.mapSlices (f := fun x => match x.park with | some o => if p o then { x with woken := true } else x | none => x)
    (fun x => by
      split
      · split
        · exact ⟨x.resv, true, rfl⟩
        · exact .refl x
      · exact .refl x) rfl rfl

theorem breakResv (h : KeepsGang s t) (key n : Nat) : KeepsGang s (t.breakResv key n) := by
  unfold State.breakResv
  split
  · exact h
  · extract_lets hit
    exact h.mapSlices (f := fun x => if x.resv.any hit then { x with resv := x.resv.map fun r => if hit r then r.broken else r } else x)
      (fun x => by
        split
        · exact ⟨_, x.woken, rfl⟩
        · exact .refl x) rfl rfl

theorem mgmt (h : KeepsGang s t) (m : Mgmt) : KeepsGang s { t with mgmt := m } := h.congr rfl rfl

theorem memory (h : KeepsGang s t) (m : Memory) : KeepsGang s { t with mem := m } := h.congr rfl rfl

theorem memoryAndSys (h : KeepsGang s t) (m : Memory) (r : SysRegs) : KeepsGang s { t with mem := m, sys := r } :=
  h.congr rfl rfl

theorem eqWaiting (h : KeepsGang s t) (q : List (List Word × List Nat)) : KeepsGang s { t with eqWaiting := q } := h.congr rfl rfl

theorem raise (h : KeepsGang s t) (v : Nat) : KeepsGang s (t.raise v) := h.mgmt _

theorem log (h : KeepsGang s t) (type : Nat) (payload : List Byte) : KeepsGang s (t.log type payload) := by
  unfold State.log
  extract_lets record records excess unit logged
  have kept : KeepsGang s logged := h.mgmt _
  split
  · exact kept.raise 0
  · exact kept

theorem notePoison (h : KeepsGang s t) (k cause : Nat) : KeepsGang s (t.notePoison k cause) := by
  refine log (t := { t with poison := _, bad := _, clean := _ }) ?_ ..
  exact h.congr rfl rfl

theorem eqWrite (h : KeepsGang s t) (ws : List Word) : KeepsGang s (t.eqWrite ws) := by
  unfold State.eqWrite
  extract_lets tail slot empty cleared regs written raised
  have broken : KeepsGang s cleared := h.breakResv slot 32
  have kept : KeepsGang s written := broken.memoryAndSys _ _
  have told : KeepsGang s raised := by
    unfold raised
    split
    · exact kept.raise 1
    · exact kept
  split
  · exact (told.notePoison _ _).eqWaiting _
  · exact told

theorem eqWriteThen (h : KeepsGang s t) (ws : List Word) (vs : List Nat) : KeepsGang s (t.eqWriteThen ws vs) :=
  (h.eqWrite ws).foldl vs fun _ v hu => hu.raise v

theorem drainEq (h : KeepsGang s t) (n : Nat) : KeepsGang s (State.drainEq n t) := by
  induction n generalizing t with
  | zero => exact h
  | succ n ih =>
    rw [State.drainEq]
    split
    · exact h
    · split
      · exact h
      · exact ih ((h.eqWaiting _).eqWriteThen _ _)

theorem eqGo (h : KeepsGang s t) : KeepsGang s t.eqGo := h.drainEq _

theorem post (h : KeepsGang s t) (ws : List Word) : KeepsGang s (t.post ws) := (h.eqWaiting _).eqGo

theorem findErrors (h : KeepsGang s t) (asid : Nat) (ks : List Nat) : KeepsGang s (t.findErrors asid ks) :=
  h.foldl ks fun u k hu => by
    split
    · exact (hu.notePoison _ _).post _
    · exact hu

/-! ### Requests performed at their homes -/

theorem modCore (h : KeepsGang s t) (c : Nat) (f : Core → Core) : KeepsGang s (t.modCore c f) := h.congr rfl rfl

theorem modCluster (h : KeepsGang s t) (k : Nat) (f : Cluster → Cluster) : KeepsGang s (t.modCluster k f) := h.congr rfl rfl

theorem modOp (h : KeepsGang s t) (id : Nat) (f : Op → Op) : KeepsGang s (t.modOp id f) := h.congr rfl rfl

theorem modUnit (h : KeepsGang s t) (unit : Nat) (f : AUnit → AUnit) : KeepsGang s (t.modUnit unit f) := h.congr rfl rfl

theorem lessLeft (h : KeepsGang s t) (op : Nat) : KeepsGang s (t.lessLeft op) := h.modOp ..

theorem supersede (h : KeepsGang s t) (core : Nat) (ids ks : List Nat) : KeepsGang s (t.supersede core ids ks) :=
  h.congr rfl rfl

theorem fetched (h : KeepsGang s t) (op : Nat) (a : Acc) : KeepsGang s (t.fetched op a) := h.modOp ..

theorem clearPoison (h : KeepsGang s t) (k : Nat) : KeepsGang s (t.clearPoison k) := h.congr rfl rfl

theorem write (h : KeepsGang s t) (key n v : Nat) : KeepsGang s (t.write key n v) := by
  unfold State.write
  split
  · exact h.congr rfl rfl
  · exact (h.breakResv key n).memory _

theorem storeLane (h : KeepsGang s t) (n : Nat) (l : LaneAcc) : KeepsGang s (t.storeLane n l) := by
  unfold State.storeLane
  split <;> exact h.write ..

theorem setFe (h : KeepsGang s t) (w n : Nat) (empty : Bool) : KeepsGang s (t.setFe w n empty) := by
  refine wake (t := { t with emptyWords := _ }) ?_ _
  exact h.congr rfl rfl

theorem dcacheFor (h : KeepsGang s t) (line cp : Nat) (store : Bool) : KeepsGang s (t.dcacheFor line cp store) := by
  unfold State.dcacheFor
  split
  · exact h.congr rfl rfl
  · split
    · exact h
    · exact h.congr rfl rfl

theorem performLane (h : KeepsGang s t) (op core : Nat) (f : AccForm) (n : Nat) (l : LaneAcc) :
    KeepsGang s (t.performLane op core f n l).1 := by
  cases f with
  | load | linv | lwb | lcln => exact h
  | store => exact h.storeLane n l
  | ldr => exact h.modSlice _ _ fun x => ⟨_, x.woken, rfl⟩
  | atomic f =>
    rw [State.performLane]
    split
    · exact h.write ..
    · exact h
  | stc =>
    have stored (b : Bool) : KeepsGang s (if b then t.write l.pa n l.val else t) := by
      split
      · exact h.write ..
      · exact h
    rw [State.performLane]
    refine modSlice ?_ _ _ fun x => ⟨_, x.woken, rfl⟩
    split
    · exact (stored _).dcacheFor ..
    · exact stored _
  | pclr => exact (h.breakResv _ _).memory _
  | femt => exact h.setFe ..
  | fful => exact h.setFe ..

theorem performAcc (h : KeepsGang s t) (op core : Nat) (a : Acc) : KeepsGang s (t.performAcc op core a) :=
  h.foldl a.lanes fun u l hu => by
    split
    · exact hu.congr rfl rfl
    · exact (hu.performLane ..).congr rfl rfl

theorem freeEntries (h : KeepsGang s t) (op core n : Nat) : KeepsGang s (t.freeEntries op core n) := by
  unfold State.freeEntries
  split
  · exact h
  · exact (h.modOp ..).wake _

/-- An operation's request is performed and counted, and its miss entries are freed. -/
theorem performed (h : KeepsGang s t) (op core : Nat) (a : Acc) :
    KeepsGang s (((t.performAcc op core a).lessLeft op).freeEntries op core a.entries) :=
  ((h.performAcc op core a).lessLeft op).freeEntries ..

theorem nearLine (h : KeepsGang s t) (core : Nat) (a : Acc) : KeepsGang s (t.nearLine core a) :=
  h.foldl _ fun u c hu => by
    split
    · exact hu
    · exact hu.congr rfl rfl

/-- A plain request is performed for the loads that share it too. -/
theorem performPlain (h : KeepsGang s t) (f : Flight) (a : Acc) (sharers : List (Nat × Acc)) (op : Nat) (ks : List Nat) (own : Bool) :
    let v := (t.supersede f.src (op :: sharers.map (·.1)) a.sectors).findErrors f.asid ks
    let v := if own then v.dcacheFor a.line a.cp a.form.isStore else v
    let v := ((v.performAcc op f.src a).lessLeft op).freeEntries op f.src a.entries
    let v := sharers.foldl (fun s x => ((s.performAcc x.1 f.src x.2).lessLeft x.1).fetched x.1 x.2) v
    KeepsGang s (((a.touched.filter a.covers).foldl State.clearPoison v).fetched op a) := by
  have found : KeepsGang s ((t.supersede f.src (op :: sharers.map (·.1)) a.sectors).findErrors f.asid ks) :=
    (h.supersede ..).findErrors ..
  have cached : KeepsGang s (if own then
      ((t.supersede f.src (op :: sharers.map (·.1)) a.sectors).findErrors f.asid ks).dcacheFor a.line a.cp a.form.isStore
      else (t.supersede f.src (op :: sharers.map (·.1)) a.sectors).findErrors f.asid ks) := by
    split
    · exact found.dcacheFor ..
    · exact found
  refine fetched (foldl (foldl (cached.performed op f.src a) sharers fun u x hu => ?_) _ fun u k hu => hu.clearPoison k) ..
  exact ((hu.performAcc ..).lessLeft _).fetched ..

theorem performGlobal (h : KeepsGang s t) (f : Flight) (a : Acc) (sharers : List (Nat × Acc)) :
    KeepsGang s (t.performGlobal f a sharers) := by
  unfold State.performGlobal
  dsimp only
  split
  · exact (h.nearLine ..).lessLeft _
  · exact h.congr rfl rfl
  · exact lessLeft (nearLine (by exact h.congr rfl rfl) ..) _
  · exact h.performPlain ..

theorem leaveFlight (h : KeepsGang s t) (f : Flight) : KeepsGang s (t.leaveFlight f) := by
  unfold State.leaveFlight
  split
  · exact h
  · exact h.congr rfl rfl

theorem arriveGlobal (h : KeepsGang s t) (f : Flight) (a : Acc) (sharers : List (Nat × Acc)) :
    KeepsGang s (t.arriveGlobal f a sharers) := by
  unfold State.arriveGlobal
  split
  · exact h.congr rfl rfl
  · exact (h.leaveFlight f).performGlobal ..

/-! ### Atomic units -/

theorem forward (h : KeepsGang s t) (unit : Nat) (ids : List Nat) : KeepsGang s (State.forward unit ids t) := by
  induction ids generalizing t with
  | nil => exact h
  | cons i rest ih =>
    rw [State.forward]
    split
    · split
      · exact h.congr rfl rfl
      · exact ih (h.arriveGlobal ..)
      · exact ih h
    · exact ih h

theorem applyUnit (h : KeepsGang s t) (unit : Nat) : KeepsGang s (t.applyUnit unit) := by
  unfold State.applyUnit
  split
  · exact h
  · split
    · exact h
    · split
      next u _ _ _ a _ =>
        have found : KeepsGang s ((t.modUnit unit fun u => { u with applied := true }).findErrors u.holder.asid a.touched) :=
          (h.modUnit ..).findErrors ..
        refine performed (leaveFlight ?_ _) ..
        split
        · exact found.dcacheFor ..
        · exact found
      · exact h

theorem passUnit (h : KeepsGang s t) (unit : Nat) : KeepsGang s (t.passUnit unit) := by
  unfold State.passUnit
  split
  · exact h
  · split
    · exact eqGo (forward (by exact h.congr rfl rfl) ..)
    · exact h

theorem finishUnit (h : KeepsGang s t) (n unit : Nat) : KeepsGang s (State.finishUnit n unit t) := by
  induction n generalizing t with
  | zero => exact h
  | succ n ih =>
    rw [State.finishUnit]
    split
    · exact h
    · refine ih ?_
      split
      · exact h.passUnit unit
      · exact h.applyUnit unit

theorem settle (h : KeepsGang s t) (p : AUnit → Bool) : KeepsGang s (t.settle p) :=
  h.foldl _ fun _ _ hu => hu.finishUnit ..

theorem settleRange (h : KeepsGang s t) (key n : Nat) : KeepsGang s (t.settleRange key n) := h.settle _

theorem reachHome (h : KeepsGang s t) (key n : Nat) : KeepsGang s (t.reachHome key n) := by
  unfold State.reachHome
  dsimp only
  split
  · exact (h.settle _).congr rfl rfl
  · exact h.settleRange ..

/-! ### Translation and fetch -/

theorem walkNow (h : KeepsGang s t) (asid va : Nat) : KeepsGang s (t.walkNow asid va) := by
  unfold State.walkNow
  split
  · exact h
  · refine findErrors (foldl (h.settleRange ..) _ fun u i hu => ?_) ..
    split
    · exact hu.settleRange ..
    · exact hu

theorem coreWalk (h : KeepsGang s t) (core asid va : Nat) : KeepsGang s (t.coreWalk core asid va) := by
  unfold State.coreWalk
  split
  · exact h
  · exact h.walkNow ..

theorem leaf (h : KeepsGang s t) (core asid va : Nat) : KeepsGang s (t.leaf core asid va).1 := by
  unfold State.leaf
  extract_lets k walked
  have found : KeepsGang s walked := h.findErrors asid (t.walkSectors asid va)
  split
  · exact h
  · split
    · dsimp only
      exact h.modCore core _
    · split <;> dsimp only
      · exact found
      · exact (found.modCore core _).modCluster k _

theorem translate (h : KeepsGang s t) (core asid va : Nat) (acc : Access) (system : Bool) :
    KeepsGang s (t.translate core asid va acc system).1 := by
  have leaf := h.leaf core asid va
  unfold State.translate
  split
  next hl => rw [hl] at leaf; exact leaf
  next hl =>
    rw [hl] at leaf
    split <;> exact leaf

theorem translateCore (h : KeepsGang s t) (core asid va : Nat) (acc : Access) (system : Bool) :
    KeepsGang s (t.translateCore core asid va acc system).1 := (h.coreWalk ..).translate ..

theorem icacheFill (h : KeepsGang s t) (core asid key : Nat) : KeepsGang s (t.icacheFill core asid key) := by
  unfold State.icacheFill
  extract_lets line read
  have found : KeepsGang s read := (h.reachHome (128 * line) 128).findErrors asid _
  split
  · exact h
  · exact found.modCore core _

theorem fetchWord (h : KeepsGang s t) (core asid : Nat) (system : Bool) (a : Addr) :
    KeepsGang s (t.fetchWord core asid system a).1 := by
  have translated := h.translateCore core asid a.toNat .fetch system
  unfold State.fetchWord
  split
  next ht => rw [ht] at translated; exact translated
  next ht => rw [ht] at translated; exact translated.icacheFill ..

theorem capture (h : KeepsGang s t) (core asid : Nat) (system check : Bool) (n : Nat) (a : Addr) :
    KeepsGang s (State.capture core asid system check n a t).1 := by
  induction n generalizing t a with
  | zero => exact h
  | succ n ih =>
    have rest (b : Addr) (l : (Word × Word)) {v : State} (hv : KeepsGang s v) :
        KeepsGang s (match State.capture core asid system check n b v with
          | (u, .ok ls) => (u, Except.ok (l :: ls))
          | r => r).1 := by
      have tail := ih hv b
      split
      next hc => rw [hc] at tail; exact tail
      next => exact tail
    have first := h.fetchWord core asid system a
    unfold State.capture
    split
    next he => rw [he] at first; exact first
    next v w0 he =>
      rw [he] at first
      split
      · exact first
      · split
        · exact rest _ _ first
        · have second := first.fetchWord core asid system (a + 4)
          split
          next he => rw [he] at second; exact second
          next he => rw [he] at second; exact rest _ _ second

/-! ### The lanes of a memory form -/

theorem place (h : KeepsGang s t) (core slot space n : Nat) (acc : Access) (noSys : Bool) (a : Int) :
    KeepsGang s (t.place core slot space n acc noSys a).1 := by
  have translated := h.translateCore core (t.slice core slot).asid a.toNat acc (t.slice core slot).system
  unfold State.place
  dsimp only
  split
  · exact h
  split
  · exact h
  split
  · split
    · exact h
    · split <;> exact h
  · split
    · exact h
    · split <;> exact h
  · split
    · exact h
    · split <;> exact h
  · split
    · exact h
    · split
      next ht => rw [ht] at translated; exact translated
      next ht =>
        rw [ht] at translated
        split
        · exact h
        · exact translated

theorem resolve (h : KeepsGang s t) (space n : Nat) (acc : Access) (noSys : Bool) (ts : List Tgt) :
    KeepsGang s (t.resolve space n acc noSys ts).s := by
  induction ts using List.reverseRecOn with
  | nil => exact h
  | append_singleton ts q ih =>
    have placed := ih.place (t.resolve space n acc noSys ts).s.issuer.core q.slot space n acc noSys q.a
    unfold State.resolve at placed ⊢
    rw [List.foldl_append, List.foldl_cons, List.foldl_nil]
    split
    next hp => rw [hp] at placed; exact placed
    next hp => rw [hp] at placed; exact placed

/-! ### Sections -/

theorem wakeSection (h : KeepsGang s t) (domain key : Nat) : KeepsGang s (t.wakeSection domain key) :=
  (h.wake _).congr rfl rfl

theorem sections (h : KeepsGang s t) (m : Tab Section) : KeepsGang s { t with sections := m } := h.congr rfl rfl

theorem abandonIf (h : KeepsGang s t) (p : Holder → Bool) : KeepsGang s (t.abandonIf p) :=
  h.foldl _ fun u e hu => by
    obtain ⟨k, x⟩ := e
    dsimp only
    split
    · split
      · exact ((hu.sections _).post _).wakeSection ..
      · exact hu
    · exact hu

end KeepsGang

/-! ### What reads through it -/

theorem SameButWoken.active {x y : Slice} (h : SameButWoken x y) (g : BitVec 4) : y.active g = x.active g := by
  obtain ⟨r, w, rfl⟩ := h
  rfl

theorem SameButWoken.paths {x y : Slice} (h : SameButWoken x y) : y.paths = x.paths := by
  obtain ⟨r, w, rfl⟩ := h
  rfl

end Sys2Proof.Proofs

/-! NOP, IFENCE, YIELD, RCVP, EXIT and RPT (04 R77, R97 to R100, R107 to R109, R113). -/

namespace Sys2Proof.Proofs

open Sys2Proof.Machine Sys2Proof.Claim

/-! ### Forms that move on -/

theorem rcvp_completes (g : BitVec 4) (o : BitVec 22) {s : State} {c t : Nat} (solo : Solo s c t []) :
    let x := (s.slice c t).issued
    exec (.rcvp g o) s = .next (s.setSlice c t
      ((if x.active g = 0 then x
        else x.modPath fun p => { p with decl := some (p.pc + 4 * o.signExtend 52) }).advance 4)) :=
  show execRcvp g o s = _ from
    uniformly_slice (h := {}) (f := fun x => x.modPath fun p => { p with decl := some (brTarget o x 0) }) solo.core solo.gang rfl
      (by simp) ⟨solo.held, by simp, solo.ready⟩ (by simp) rfl

/-- A uniform instruction without effect moves its gang on. -/
theorem uniformly_idle (g : BitVec 4) {s : State} (gang : Gang s []) :
    uniformly {} g s (fun u _ _ => .ok u) = .next (s.countIssue.advanceAll 4) := by
  have idle : (fun (u : State) (core slot : Nat) => if (u.slice core slot).active g = 0 then (.ok u : Except Stop State)
      else (u.slice core slot).laned slot g (.ok u)) = fun u _ _ => .ok u := by
    funext u core slot
    split <;> rfl
  have run (l : List Nat) (u : State) : l.foldlM (fun u _ => (.ok u : Except Stop State)) u = .ok u := by
    induction l with
    | nil => rfl
    | cons _ l ih => exact ih
  unfold uniformly
  simp only [idle]
  refine gangwise_of_gang (h := {}) gang ?_
  simp [gangFault, run]

theorem simpleFlowForms : SimpleFlowForms := by
  unfold SimpleFlowForms
  intro g s gang
  exact ⟨nop_completes g gang, show execIfence g s = _ from uniformly_idle g gang,
    show execYield g s = _ from gangwise_of_gang (h := { adv := false }) gang rfl, fun o c t solo => rcvp_completes g o solo⟩

/-! ### EXIT -/

theorem members_issuer (s : State) (f : Slice → Slice) : (s.members f).issuer = s.issuer :=
  List.foldlRecOn (motive := fun u : State => u.issuer = s.issuer) _ _ rfl fun _ hu _ _ => hu

theorem countIssue_issuer (s : State) : s.countIssue.issuer = s.issuer := members_issuer s Slice.issued

theorem exit_completes (g : BitVec 4) {s : State} (gang : Gang s []) :
    exec (.exit g) s = .next (s.issuer.slots.foldl (fun s t =>
      s.exitMember s.issuer.core t ((s.slice s.issuer.core t).active g)) s.countIssue) := by
  refine show execExit g s = _ from gangwise_of_gang gang ?_
  rw [countIssue_issuer]

theorem choose_paths (x : Slice) : x.choose.paths = x.paths := by
  unfold Slice.choose Slice.switchTo
  split
  · rfl
  · split
    · split <;> rfl
    · rfl

/-- When all lanes of a path under no join leave, its entry is free (R98). -/
theorem exitLanes_paths_of_all {x : Slice} (hl : x.path.link = none) :
    (x.exitLanes x.path.mask).paths = x.paths.set x.cur {} := by
  unfold Slice.exitLanes
  simp only [hl, Slice.leaveJoins, Slice.childBack]
  rw [if_pos (BitVec.and_not_self _), choose_paths]
  rfl

/-- A table of paths with no other entry in use is empty without the current one. -/
theorem all_free_set {ps : List Machine.Path} {n : Nat} (h : ∀ i, i ≠ n → (ps.getD i {}).state = .free) :
    ((ps.set n {}).all fun p => p.state == .free) = true := by
  rw [List.all_eq_true]
  intro p hp
  obtain ⟨i, hi, rfl⟩ := List.mem_iff_getElem.1 hp
  rw [List.getElem_set]
  split
  · rfl
  · next hne =>
    rw [List.length_set] at hi
    have free := h i (Ne.symm hne)
    rw [List.getD_eq_getElem _ _ hi] at free
    rw [free]
    rfl

/-- A slice whose last lanes leave retires, once their sections are abandoned (R77, R98; 10 R264). -/
theorem exitMember_of_all {s : State} {c t : Nat} {x : Slice} (hx : s.slice c t = x) (hl : x.path.link = none)
    (free : ∀ i, i ≠ x.cur → (x.paths.getD i {}).state = .free) :
    s.exitMember c t x.path.mask = ((s.modSlice c t (·.exitLanes x.path.mask)).abandonIf fun h =>
      h.core == c && h.slot == t && h.group == x.group && x.path.mask.getLsbD h.lane).retire c t := by
  subst hx
  have kept := (KeepsGang.refl (s.modSlice c t (·.exitLanes (s.slice c t).path.mask))).abandonIf fun h =>
    h.core == c && h.slot == t && h.group == (s.slice c t).group && (s.slice c t).path.mask.getLsbD h.lane
  have left := (kept.slice c t).paths.trans
    ((congrArg Slice.paths (State.slice_modSlice_self ..)).trans (exitLanes_paths_of_all hl))
  exact if_pos ((congrArg (fun ps => ps.all fun p => p.state == .free) left).trans (all_free_set free))

theorem exitForms : ExitForms := by
  unfold ExitForms
  refine ⟨fun g s => exit_completes g, ?_⟩
  intro g s c t solo x hc hl ha free
  have all : (begun s c t).exitMember c t x.path.mask = _ :=
    exitMember_of_all (x := x.issued) (slice_begun s c t) hl free
  have active : ((begun s c t).slice c t).active g = x.path.mask := (congrArg (·.active g) (slice_begun s c t)).trans ha
  rw [exit_completes g (gang_of_solo solo), solo.gang, List.foldl_cons, List.foldl_nil, countIssue_of_solo solo, begun_core solo,
    active]
  exact congrArg Host.Outcome.next all

/-! ### RPT -/

section
variable {s : State} {c t : Nat} {x : Slice} {g l : BitVec 4} {d a b : BitVec 2} {k : BitVec 5}

/-- A slice with no lane active moves past RPT. -/
theorem rpt_moves_on (solo : Solo s c t [(1, k.toNat)]) (hx : (s.slice c t).issued = x) (off : x.active g = 0) :
    exec (.rpt g l d a b k) s = .next (s.setSlice c t (x.advance 4)) := by
  have issued : (begun s c t).slice c t = x := (slice_begun s c t).trans hx
  rw [← hx, ← advanceAll_begun solo]
  refine show execRpt g l d a b k s = _ from gangwise_of_gang (t := (begun s c t).advanceAll 4) (gang_of_solo solo) ?_
  rw [countIssue_of_solo solo]
  simp only [begun_core solo, begun_slots solo, List.filter_cons, List.filter_nil, issued, off]
  rfl

/-- RPT captures its body, and opens a frame with the count of S[C] (R109). -/
theorem rpt_opens {n : Nat} {s1 : State} {body : List (Word × Word)} (solo : Solo s c t [(1, k.toNat)])
    (hx : (s.slice c t).issued = x) (hn : (x.sr k.toNat).toNat = n) (on : x.active g ≠ 0) (susp : x.frame.susp = false)
    (few : n ≤ 0x00FFFFFF)
    (captured : State.capture c x.asid x.system (n != 0) (l.toNat + 1) (x.path.pc + 4) (begun s c t) = (s1, .ok body)) :
    exec (.rpt g l d a b k) s = .next ({ s1 with nextId := s1.nextId + 1 }.modSlice c t fun y =>
      if y.active g = 0 then y.advance 4 else y.openFrame n d.toNat a.toNat b.toNat s1.nextId body) := by
  have issued : (begun s c t).slice c t = x := (slice_begun s c t).trans hx
  have kept := (KeepsGang.refl (begun s c t)).capture c x.asid x.system (n != 0) (l.toNat + 1) (x.path.pc + 4)
  rw [captured] at kept
  have slots : s1.issuer.slots = [t] := (congrArg Issuer.slots kept.issuer).trans (begun_slots solo)
  have taking : ([t].filter fun i => ((begun s c t).slice c i).active g != 0) = [t] := by simpa [issued] using on
  refine show execRpt g l d a b k s = _ from gangwise_of_gang (gang_of_solo solo) ?_
  rw [countIssue_of_solo solo]
  simp only [begun_core solo, begun_slots solo, taking, List.head?_cons, List.any_cons, List.any_nil, Bool.or_false, issued, susp,
    hn, Nat.not_lt.2 few, decide_false, captured, slots, List.foldl_cons, List.foldl_nil]
  rfl

end

theorem repeatOpensFrame : RepeatOpensFrame := by
  unfold RepeatOpensFrame
  intro g l d a b k s c t solo x n
  refine ⟨fun off => rpt_moves_on solo rfl off, fun s1 body on susp hn captured => ?_⟩
  exact rpt_opens solo rfl rfl on susp hn captured

/-- Settles O35: a form moves on, or changes each member by itself; EXIT of all lanes leaves an empty table of paths, and what a capture
reads on its way leaves the gang. -/
theorem flowForms : Obligations.FlowForms :=
  ⟨simpleFlowForms, exitForms, repeatOpensFrame⟩

end Sys2Proof.Proofs

/-! Cache maintenance, ICINV, FEMT and FFUL (04 R112; 06 R151; 07 R205, R206), once their lanes' addresses translate. -/

namespace Sys2Proof.Proofs

open Sys2Proof.Machine Sys2Proof.Claim

/-! ### The gang after the walks of its addresses -/

theorem KeepsGang.taking {s v : State} (h : KeepsGang s v) (g : BitVec 4) : v.taking g = s.taking g := by
  unfold State.taking
  rw [h.issuer]
  congr 1
  funext t
  rw [(h.slice s.issuer.core t).active g]

/-- The request of a cache form for the lanes that land. -/
abbrev cacheAcc (m : MemF) (f : AccForm) (n : Nat) (ok : List (Tgt × Nat)) : Acc :=
  { form := f, size := n, cp := m.cp.toNat,
    lanes := ok.map fun q => ({ slot := q.1.slot, lane := q.1.lane, va := taddr q.1.a, pa := q.2 } : LaneAcc) }

/-- The frame of the cache forms, for a slice whose lanes land or may be dropped (07 R205). -/
theorem cmemForm_of_acts {m : MemF} {k : MemKind} {code : Option Nat} {rel drop : Bool} {s v w : State} {c t : Nat}
    {ok : List (Tgt × Nat)} {bad : List (Tgt × Place)} {body : State → Acc → Except Stop State}
    (acts : Acts s c t m.g ((0, m.a.toNat) :: memBaseSrc m)) (base : memBaseOk m = true)
    (waits : (begun s c t).memWaits m.g code m.wt rel m.scope.toNat = .ok ())
    (hr : (begun s c t).resolve m.space.toNat k.size k.acc k.noSys ((begun s c t).targets m false) = ⟨v, ok, bad⟩)
    (pass : drop = true ∨ bad = [])
    (watched : v.watch m.space.toNat k.watch ok (fun _ => k.size) = .ok ())
    (hb : body v (cacheAcc m k.form k.size ok) = .ok w) :
    cmemForm m k code rel drop s body = .next w := by
  have taking := taking_begun acts
  obtain ⟨solo, free, -⟩ := acts
  have passes : (!drop && !bad.isEmpty) = false := by rcases pass with rfl | rfl <;> simp
  unfold cmemForm
  rw [gangwise_solo solo.core solo.gang base (by simp) ⟨solo.held, fun _ => free, solo.ready⟩ (by simp)]
  rw [show s.setSlice c t (s.slice c t).issued = begun s c t from rfl]
  simp only [taking, waits, hr, passes, bind, Except.bind, watched, hb]
  rfl

/-- The walks of a form's addresses leave the gang that issues. -/
theorem keepsGang_of_resolve {s v : State} {space n : Nat} {acc : Access} {noSys : Bool} {ts : List Tgt} {ok : List (Tgt × Nat)}
    {bad : List (Tgt × Place)} (h : s.resolve space n acc noSys ts = ⟨v, ok, bad⟩) : KeepsGang s v := by
  have kept := (KeepsGang.refl s).resolve space n acc noSys ts
  rwa [h] at kept

/-- An access that is neither a load nor a store meets no watchpoint (15 R418). -/
theorem watch_of_no_kind (s : State) (space : Nat) (ok : List (Tgt × Nat)) (n : Tgt → Nat) : s.watch space 0 ok n = .ok () := by
  have none (i key va n : Nat) : (s.core s.issuer.core).watchHit s.issuer.core i space 0 key va n = false := by
    simp [Core.watchHit]
  have unhit : (ok.filter fun p =>
      s.attached s.issuer.core (s.slice s.issuer.core p.1.slot).asid && !(s.slice s.issuer.core p.1.slot).wskip && n p.1 != 0 &&
        (List.range 4).any fun i => (s.core s.issuer.core).watchHit s.issuer.core i space 0 p.2 p.1.a.toNat (n p.1)) = [] := by
    simp [none]
  unfold State.watch
  simp only [unhit]

/-! ### Requests to this device's own homes -/

theorem homeSlice_lt (p : Nat) : homeSlice p < 32 := by
  have field (lo : Nat) : p / 2 ^ lo % 32 < 2 ^ 5 := Nat.mod_lt _ (by decide)
  have last : p / 2 ^ 33 % 16 < 2 ^ 5 := (Nat.mod_lt _ (by decide)).trans (by decide)
  exact Nat.xor_lt_two_pow (Nat.xor_lt_two_pow (Nat.xor_lt_two_pow (Nat.xor_lt_two_pow (Nat.xor_lt_two_pow (field 8) (field 13))
    (field 18)) (field 23)) (field 28)) last

theorem homeOf_lt_nodePeer {key : Nat} (h : key < 2 ^ 52) : homeOf key < nodePeer 0 := by
  have := homeSlice_lt key
  rw [homeOf, if_pos h, nodeHome, nodePeer]
  omega

/-- Requests that leave the device for no peer have room at the ports. -/
theorem peerRoom_of_near (s : State) {dsts : List Nat} (h : ∀ d ∈ dsts, d < nodePeer 0) : s.peerRoom dsts = true := by
  rw [State.peerRoom, List.all_eq_true]
  intro d hd
  simp [h d hd]

/-- The groups of lanes: each has a lane, and its lanes are the list's, with the group's key. -/
theorem mem_groupLanes {f : LaneAcc → Nat} {ls : List LaneAcc} {p : Nat × List LaneAcc} (h : p ∈ groupLanes f ls) :
    ∃ l rest, p.2 = l :: rest ∧ l ∈ ls ∧ f l = p.1 := by
  obtain ⟨k, hk, rfl⟩ := List.mem_map.1 h
  obtain ⟨l, hl, rfl⟩ := List.mem_map.1 (List.mem_eraseDups.1 hk)
  have some : l ∈ ls.filter fun q => f q == f l := List.mem_filter.2 ⟨hl, by simp⟩
  rcases hq : ls.filter fun q => f q == f l with _ | ⟨q, rest⟩
  · rw [hq] at some; cases some
  · have first : q ∈ ls.filter fun q => f q == f l := hq ▸ List.mem_cons_self
    rw [List.mem_filter, beq_iff_eq] at first
    exact ⟨q, rest, rfl, first⟩

theorem length_eraseDups_le {α : Type} [BEq α] : ∀ l : List α, l.eraseDups.length ≤ l.length
  | [] => Nat.le_refl 0
  | a :: l => by
    have rest := length_eraseDups_le (l.filter fun b => !b == a)
    have fewer := List.length_filter_le (fun b => !b == a) l
    rw [List.eraseDups_cons, List.length_cons, List.length_cons]
    omega
termination_by l => l.length
decreasing_by exact Nat.lt_succ_of_le (List.length_filter_le ..)

theorem length_groupLanes_le (f : LaneAcc → Nat) (ls : List LaneAcc) : (groupLanes f ls).length ≤ ls.length := by
  rw [groupLanes, List.length_map]
  exact (length_eraseDups_le _).trans (List.length_map ..).le

theorem postRoom_mono {s : State} {core n n' : Nat} (h : s.postRoom core n = true) (le : n' ≤ n) : s.postRoom core n' = true := by
  simp only [State.postRoom, decide_eq_true_eq] at h ⊢
  omega

/-- A posted form whose lanes lie in this device's memory is posted, once the queue has room (07 R185). -/
theorem globalPosted_of_near {s : State} {m : MemF} {k : MemKind} {a : Acc} (scalar : k.scalar = false)
    (near : ∀ l ∈ a.lanes, l.pa < 2 ^ 52) (room : s.postRoom s.issuer.core a.lanes.length = true) :
    ∃ w, s.globalPosted m k a = .ok w := by
  have ports : s.peerRoom ((groupLanes (·.pa / 256) a.lanes).map fun p =>
      homeOf (p.2.headD ⟨0, 0, 0, 0, false, 0, 0⟩).pa) = true := by
    refine peerRoom_of_near s fun d hd => ?_
    obtain ⟨p, hp, rfl⟩ := List.mem_map.1 hd
    obtain ⟨l, rest, hl, mem, -⟩ := mem_groupLanes hp
    rw [hl]
    exact homeOf_lt_nodePeer (near l mem)
  have queue := postRoom_mono room (length_groupLanes_le (·.pa / 256) a.lanes)
  unfold State.globalPosted
  simp only [scalar, Bool.false_eq_true, if_false, ports, queue]
  exact ⟨_, rfl⟩

/-- The lanes of a cache form lie where their targets landed. -/
theorem cacheAcc_near {m : MemF} {f : AccForm} {n : Nat} {ok : List (Tgt × Nat)} (near : ∀ q ∈ ok, q.2 < 2 ^ 52) :
    ∀ l ∈ (cacheAcc m f n ok).lanes, l.pa < 2 ^ 52 := by
  intro l hl
  obtain ⟨q, hq, rfl⟩ := List.mem_map.1 hl
  exact near q hq

theorem globalPosted_of_cacheAcc {v : State} {m : MemF} {k : MemKind} {f : AccForm} {n c : Nat} {ok : List (Tgt × Nat)}
    (scalar : k.scalar = false) (core : v.issuer.core = c) (near : ∀ q ∈ ok, q.2 < 2 ^ 52)
    (room : v.postRoom c ok.length = true) : ∃ w, v.globalPosted m k (cacheAcc m f n ok) = .ok w :=
  globalPosted_of_near scalar (cacheAcc_near near) (by rw [core, List.length_map]; exact room)

/-- The homes of a fetch of lines of this device's memory are its own (07 R206). -/
theorem peerRoom_of_prefetch {v : State} {ls : List LaneAcc} (near : ∀ l ∈ ls, l.pa < 2 ^ 52) :
    v.peerRoom ((groupLanes (·.pa / 256) ls).map fun p => homeOf (256 * p.1)) = true := by
  refine peerRoom_of_near v fun d hd => ?_
  obtain ⟨p, hp, rfl⟩ := List.mem_map.1 hd
  obtain ⟨l, rest, -, mem, key⟩ := mem_groupLanes hp
  refine homeOf_lt_nodePeer ?_
  have := near l mem
  omega

/-! ### The forms -/

section
variable {m : MemF} {s v : State} {c t : Nat} {ok : List (Tgt × Nat)}

/-- The gang after the walks is the slice alone, at its core. -/
theorem solo_walked {srcs : List (Nat × Nat)} {space n : Nat} {a : Access} {noSys : Bool} {ts : List Tgt}
    {bad : List (Tgt × Place)} (acts : Acts s c t m.g srcs)
    (hr : (begun s c t).resolve space n a noSys ts = ⟨v, ok, bad⟩) :
    v.issuer.core = c ∧ v.issuer.slots = [t] ∧ v.taking m.g = [t] := by
  have kept := keepsGang_of_resolve hr
  rw [kept.issuer, kept.taking]
  exact ⟨begun_core acts.1, begun_slots acts.1, taking_begun acts⟩

/-- PREF (07 R206): lanes that would fault are dropped, lines fetched in GLOBAL or in CLUSTER. -/
theorem exec_pref_landed {bad : List (Tgt × Place)} (acts : Acts s c t m.g ((0, m.a.toNat) :: memBaseSrc m))
    (base : memBaseOk m = true) (waits : (begun s c t).memWaits m.g none m.wt false m.scope.toNat = .ok ())
    (hr : (begun s c t).resolve m.space.toNat 1 .load false ((begun s c t).targets m false) = ⟨v, ok, bad⟩) :
    let pref : MemKind := { form := .load, size := 1, acc := .load, watch := 0 }
    (ok = [] → exec (.pref m) s = .next (v.advanceAll 8)) ∧
    (ok ≠ [] → m.space = 3 → (∀ q ∈ ok, q.2 < 2 ^ 52) →
      exec (.pref m) s = .next ((v.prefetch m pref (cacheAcc m .load 1 ok)).advanceAll 8)) ∧
    ∀ w, ok ≠ [] → m.space ≠ 3 →
      v.touchBlocks (clusterOf c) false ((ok.map fun q => (q.2 - clusterBase (clusterOf c)) / 256).eraseDups) = some w →
      exec (.pref m) s = .next (w.advanceAll 8) := by
  intro pref
  obtain ⟨core, -, -⟩ := solo_walked acts hr
  have watched := watch_of_no_kind v m.space.toNat ok fun _ => 1
  rw [show exec (.pref m) s = execPref m s from rfl, execPref]
  refine ⟨fun none => ?_, fun some space near => ?_, fun w some space touched => ?_⟩
  · refine cmemForm_of_acts (k := pref) acts base waits hr (.inl rfl) watched ?_
    simp [none]
  · refine cmemForm_of_acts (k := pref) acts base waits hr (.inl rfl) watched ?_
    simp [some, space, peerRoom_of_prefetch (v := v) (cacheAcc_near (m := m) (f := .load) (n := 1) near), pref]
  · refine cmemForm_of_acts (k := pref) acts base waits hr (.inl rfl) watched ?_
    simp only [core, List.map_map, Function.comp_def, touched, List.isEmpty_map, List.isEmpty_eq_false_iff.2 some,
      beq_eq_false_iff_ne.2 space, Bool.false_eq_true, if_false]

/-- ICINV (04 R112) parks its slice until the caches have dropped the lines. -/
theorem exec_icinv_landed (acts : Acts s c t m.g ((0, m.a.toNat) :: memBaseSrc m))
    (base : memBaseOk m = true) (waits : (begun s c t).memWaits m.g none m.wt false m.scope.toNat = .ok ())
    (hr : (begun s c t).resolve m.space.toNat 1 .none false ((begun s c t).targets m false) = ⟨v, ok, []⟩) :
    let k : MemKind := { form := .linv m.scope.toNat, size := 1, acc := .none, watch := 0 }
    let o : Op := { v.memOp m.g none k (cacheAcc m (.linv m.scope.toNat) 1 ok).lanes with
      keys := (ok.map fun q => q.2 / 128).eraseDups, await := 8, members := [t], pd := m.scope.toNat }
    exec (.icinv m) s = .next (({ v with ops := v.ops ++ [o], nextId := o.id + 1 }).members fun x =>
      x.parkOn (.answer o.id)) := by
  intro k o
  obtain ⟨-, slots, -⟩ := solo_walked acts hr
  rw [show exec (.icinv m) s = execIcinv m s from rfl, execIcinv]
  refine cmemForm_of_acts (k := k) acts base waits hr (.inr rfl) (watch_of_no_kind ..) ?_
  simp [slots, o, k, Function.comp_def]

/-- LINV, LWB and LCLN (07 R205) are posted to the homes, or, in CLUSTER, done there. -/
theorem lineForm_landed {f : AccForm} (acts : Acts s c t m.g ((0, m.a.toNat) :: memBaseSrc m)) (base : memBaseOk m = true) :
    let k : MemKind := { form := f, size := 1, acc := .none, watch := 0 }
    (begun s c t).memWaits m.g (k.code m.space.toNat) m.wt false m.scope.toNat = .ok () →
    (begun s c t).resolve m.space.toNat 1 .none false ((begun s c t).targets m false) = ⟨v, ok, []⟩ →
    (m.space = 3 → (∀ q ∈ ok, q.2 < 2 ^ 52) → v.postRoom c ok.length = true →
      ∃ w, v.globalPosted m k (cacheAcc m f 1 ok) = .ok w ∧ lineForm f m s = .next w) ∧
    (m.space ≠ 3 →
      let now := !v.clusterBehind c [t]
      let o : Op := { v.memOp m.g (k.code 2) k (cacheAcc m f 1 ok).lanes with left := if now then 0 else 1 }
      lineForm f m s = .next ((if now then (v.openOp o).performCluster o.id c (cacheAcc m f 1 ok)
        else (v.openOp o).send c (nodeCluster (clusterOf c)) o.asid (some o.id) (.cluster (cacheAcc m f 1 ok))).advanceAll 8)) := by
  intro k waits hr
  obtain ⟨core, -, taking⟩ := solo_walked acts hr
  have watched := watch_of_no_kind v m.space.toNat ok fun _ => 1
  rw [lineForm]
  refine ⟨fun space near room => ?_, fun space => ?_⟩
  · obtain ⟨w, posted⟩ := globalPosted_of_cacheAcc (m := m) (k := k) (f := f) (n := 1) rfl core near room
    refine ⟨w, posted, cmemForm_of_acts (k := k) acts base waits hr (.inr rfl) watched ?_⟩
    simpa [space] using posted
  · intro now o
    refine cmemForm_of_acts (k := k) acts base waits hr (.inr rfl) watched ?_
    have far : (m.space == 3) = false := beq_eq_false_iff_ne.2 space
    simp only [far, Bool.false_eq_true, if_false, core, taking]
    rfl

/-- The kind of PCLR: a store of 64 bytes that no page of SYSTEM takes (07 R206). -/
abbrev pclrKind : MemKind := { form := .pclr, size := 64, acc := .store, noSys := true, watch := 2 }

/-- PCLR (07 R206) is posted to the homes. -/
theorem exec_pclr_landed (acts : Acts s c t m.g ((0, m.a.toNat) :: memBaseSrc m)) (base : memBaseOk m = true)
    (waits : (begun s c t).memWaits m.g (some 3) m.wt (m.ord == 2) m.scope.toNat = .ok ())
    (room : v.postRoom c ok.length = true)
    (hr : (begun s c t).resolve m.space.toNat 64 .store true ((begun s c t).targets m false) = ⟨v, ok, []⟩)
    (watched : v.watch m.space.toNat 2 ok (fun _ => 64) = .ok ()) (near : ∀ q ∈ ok, q.2 < 2 ^ 52) :
    ∃ w, v.globalPosted m pclrKind (cacheAcc m .pclr 64 ok) = .ok w ∧
      exec (.pclr m) s = .next w := by
  obtain ⟨core, -, -⟩ := solo_walked acts hr
  obtain ⟨w, posted⟩ := globalPosted_of_cacheAcc (m := m) (k := pclrKind) (f := .pclr) (n := 64) rfl core near room
  rw [show exec (.pclr m) s = execPclr m s from rfl, execPclr]
  exact ⟨w, posted, cmemForm_of_acts (k := pclrKind) acts base waits hr (.inr rfl) watched posted⟩

end

theorem cacheForms : CacheForms := by
  intro m s v c t ok acts base u k acc pref line pclr
  refine ⟨fun waits => ⟨fun bad hr => exec_pref_landed acts base waits hr, exec_icinv_landed acts base waits⟩, ?_,
    fun waits room hr watched near => exec_pclr_landed acts base waits room hr watched near⟩
  simp only [List.forall_mem_cons, List.not_mem_nil, false_imp_iff, implies_true, and_true]
  exact ⟨lineForm_landed acts base, lineForm_landed acts base, lineForm_landed acts base⟩

/-! ### FEMT and FFUL -/

/-- A walk over targets that all land in the state as it stands collects them with their keys. -/
theorem foldl_landed {u : State} {f : Resolved → Tgt → Resolved} : ∀ {ts : List Tgt} {ks : List Nat} (acc : List (Tgt × Nat)),
    ks.length = ts.length → (∀ acc, ∀ p ∈ ts.zip ks, f ⟨u, acc, []⟩ p.1 = ⟨u, acc ++ [p], []⟩) →
    ts.foldl f ⟨u, acc, []⟩ = ⟨u, acc ++ ts.zip ks, []⟩
  | [], [], acc, _, _ => by simp
  | t :: ts, k :: ks, acc, len, lands => by
    rw [List.foldl_cons, lands acc (t, k) List.mem_cons_self,
      foldl_landed (acc ++ [(t, k)]) (Nat.succ.inj len) fun acc p hp => lands acc p (List.mem_cons_of_mem _ hp)]
    simp

/-- FEMT and FFUL (06 R151) for a slice by itself whose runs lie in its memory: the words are marked in LOCAL; in LWIN a
message leaves for each lane. -/
theorem feForm_landed {m : MemF} {f : AccForm} {s : State} {c t : Nat} {ks : List Nat}
    (acts : Acts s c t m.g ((0, m.a.toNat) :: (0, m.d.toNat) :: memBaseSrc m)) (base : memBaseOk m = true) :
    let u := begun s c t
    let count (q : Tgt) : Nat := ((u.slice c q.slot).vr m.d.toNat q.lane).toNat
    let ts := (u.targets m false).filter fun q => count q != 0
    let kind : MemKind := { form := f, size := 4, acc := .none, watch := 2 }
    let a : Acc := { form := f, size := 4, lanes := (ts.zip ks).map fun p =>
      { slot := p.1.slot, lane := p.1.lane, va := taddr p.1.a, pa := p.2, val := count p.1 } }
    ks.length = ts.length → (∀ p ∈ ts.zip ks, u.placeRun p.1 m.space.toNat (count p.1) = (u, .key p.2)) →
    u.watch m.space.toNat 2 (ts.zip ks) (fun q => 4 * count q) = .ok () →
    u.memWaits m.g (kind.code m.space.toNat) m.wt (m.ord == 2) m.scope.toNat = .ok () →
    feForm f m s = .next (if m.space = 0 then (u.performNow a .none).advanceAll 8
      else (u.lwinAccess m.g kind a false 0).advanceAll 8) := by
  intro u count ts kind a len lands watched waits
  have core : u.issuer.core = c := begun_core acts.1
  have taking : u.taking m.g = [t] := taking_begun acts
  obtain ⟨solo, free, -⟩ := acts
  dsimp only [kind] at waits
  dsimp only [count] at watched
  unfold feForm
  rw [gangwise_solo solo.core solo.gang base (by simp) ⟨solo.held, fun _ => free, solo.ready⟩ (by simp)]
  rw [show s.setSlice c t (s.slice c t).issued = u from rfl]
  simp only [taking, waits, core, bind, Except.bind]
  rw [foldl_landed (ks := ks) [] len fun acc p hp => by rw [lands p hp]]
  simp only [List.isEmpty_cons, List.isEmpty_nil, List.nil_append, watched, Bool.not_true, Bool.false_eq_true, if_false]
  by_cases here : m.space = 0
  · rw [if_pos here, if_pos (by rw [here]; rfl)]
    rfl
  · have away : m.space.toNat ≠ 0 := fun none => here (BitVec.eq_of_toNat_eq none)
    rw [if_neg here, if_neg away]
    rfl

theorem fullEmptyForms : FullEmptyForms := by
  intro m s c t acts base u count ts ks len lands watched lanes p hp kind a waits
  have run : exec (p.1 m) s = feForm p.2 m s := by
    simp only [List.mem_cons, List.not_mem_nil, or_false] at hp
    rcases hp with rfl | rfl <;> rfl
  rw [run, feForm_landed acts base len lands watched waits]
  exact ⟨fun here => by rw [if_pos here], fun away => by rw [if_neg away]⟩

/-- Settles O45: a slice by itself walks its lanes' addresses without leaving its gang, so the request that the form makes of
what landed is the claim's; requests to this device's memory meet only its own homes, whose ports have room. -/
theorem cacheAndFullEmptyForms : Obligations.CacheAndFullEmptyForms := ⟨cacheForms, fullEmptyForms⟩

end Sys2Proof.Proofs

/-! Register forms (05 R124 to R144; 02 R29, R35 to R40): what a lane-wise form, a uniform form and a form that only replaces its slice
leave of a slice that issues by itself. -/

namespace Sys2Proof.Proofs

open Sys2Proof.Machine Sys2Proof.Claim

/-! ### The shapes -/

theorem laneForm_of_vec3 {i : R3 → Instr} {third : Bool} {op : Word → Word → Word → Word → Word × BitVec 5}
    (h : ∀ f s, exec (i f) s = vec3 f third s op) : LaneForm i third op :=
  fun f s _ _ _ _ solo ok hb => (h f s).trans (vec3_solo solo.core solo.gang ok solo.held solo.ready hb)

theorem unaryForm_of_vec2 {i : R2 → Instr} {op : Word → Word → Word × BitVec 5}
    (h : ∀ f s, exec (i f) s = vec2 f s op) : UnaryForm i op :=
  fun f s _ _ solo => (h f s).trans (vec2_solo solo.core solo.gang solo.held (solo.ready _ List.mem_cons_self))

theorem orAll_zero (ls : List Nat) : orAll ls (fun _ => 0) = 0 :=
  List.foldl_fixed' (fun _ => BitVec.or_zero) ls

theorem immForm_of_vecImm {i : Instr} {g : BitVec 4} {d a : Nat} {srcs : List (Nat × Nat)} {val : Word → Word → Word}
    (h : ∀ s, exec i s = vecImm g d a srcs s val) : ImmForm i g d a srcs val := by
  intro s c t solo
  rw [h, vecImm_solo solo.core solo.gang solo.held solo.ready, laneResult, orAll_zero]
  rfl

/-- A uniform form whose value the count of the issue does not touch (02 R29). -/
theorem uniformForm_of_uniformly {i : Instr} {g : BitVec 4} {d : Nat} {ok : Bool} {srcs : List (Nat × Nat)} {val : Slice → Word}
    (h : ∀ s, exec i s = uniformly { ok := ok, srcs := srcs } g s fun s core slot =>
      .ok (s.setSlice core slot ((s.slice core slot).setS d (val (s.slice core slot))))) (hok : ok = true)
    (hval : ∀ x : Slice, val x.issued = val x) : UniformForm i g d srcs val := by
  intro s c t solo
  rw [h, ← hval]
  exact uniformly_slice (f := fun x => x.setS d (val x)) solo.core solo.gang hok (by simp) ⟨solo.held, by simp, solo.ready⟩
    (by simp) rfl

/-- A form whose body replaces its slice, in the state `s1` to which the reading of its operands led, has replaced it and moves on. -/
theorem simt_replaces {h : Head} {s s1 : State} {c t : Nat} {x : Slice} {body : State → Nat → Nat → Except Stop State}
    (solo : Solo s c t h.srcs) (ok : h.ok = true) (hb : body (begun s c t) c t = .ok (s1.setSlice c t x))
    (hi : s1.issuer = s.issuer) (priv : h.priv = false := by rfl) (mem : h.mem = false := by rfl)
    (rdv : h.rdv = false := by rfl) (adv : h.adv = true := by rfl) :
    simt h s body = .next (s1.setSlice c t (x.advance h.len)) := by
  rw [simt_solo solo.core solo.gang ok (by simp [priv]) ⟨solo.held, by simp [mem], solo.ready⟩ (by simp [rdv]) hb hi, if_pos adv,
    State.slice_setSlice_self, State.setSlice_setSlice]

theorem begun_issuer (s : State) (c t : Nat) : (begun s c t).issuer = s.issuer :=
  s.setSlice_issuer c t _

/-- Where reading B led, the same gang issues. -/
theorem issuer_of_operandB {s s1 : State} {c t : Nat} {g : BitVec 4} {b : BitVec 6} {x : BitVec 1} {bv : Nat → Word}
    (hb : (begun s c t).operandB c t g b x = .ok (s1, bv)) : s1.issuer = s.issuer :=
  (State.operandB_issuer hb).trans (begun_issuer s c t)

end Sys2Proof.Proofs

/-! Integer, bitwise, shift, immediate and uniform forms (05 R126 to R132, R141, R144). -/

namespace Sys2Proof.Proofs

open Sys2Proof.Machine Sys2Proof.Claim

/-! ### Vector forms -/

/-- The two clamps of 01 Table 01-5 agree on a range that is not empty. -/
theorem clamp_eq_clampTo {lo hi : Int} (h : lo ≤ hi) (x : Int) : clamp x lo hi = clampTo x lo hi := by
  unfold clamp clampTo
  omega

theorem satS_eq_clampTo (x : Int) : satS x = BitVec.ofInt 32 (clampTo x (-2 ^ 31) (2 ^ 31 - 1)) :=
  congrArg (BitVec.ofInt 32) (clamp_eq_clampTo (by decide) x)

theorem satN_eq_clampTo (x : Int) : satN x = BitVec.ofInt 32 (clampTo x 0 (2 ^ 32 - 1)) :=
  congrArg (BitVec.ofInt 32) (clamp_eq_clampTo (by decide) x)

theorem exec_intForms {p : (R3 → Instr) × (Word → Word → Word)} (hp : p ∈ intForms) (f : R3) (s : State) :
    exec (p.1 f) s = ivec f s p.2 := by
  simp only [intForms, ← satS_eq_clampTo, ← satN_eq_clampTo] at hp
  fin_cases hp <;> rfl

theorem exec_logicForms {p : (R3 → Instr) × (Word → Word → Word)} (hp : p ∈ logicForms) (f : R3) (s : State) :
    exec (p.1 f) s = ivec f s p.2 := by
  fin_cases hp <;> rfl

theorem exec_dForms {p : (R3 → Instr) × (Word → Word → Word → Word)} (hp : p ∈ dForms) (f : R3) (s : State) :
    exec (p.1 f) s = ivecD f s p.2 := by
  fin_cases hp <;> rfl

theorem exec_unaryInts {p : (R2 → Instr) × (Word → Word)} (hp : p ∈ unaryInts) (f : R2) (s : State) :
    exec (p.1 f) s = ivec1 f s p.2 := by
  fin_cases hp <;> rfl

theorem integerLaneForms : IntegerLaneForms := by
  unfold IntegerLaneForms
  refine ⟨fun p hp => laneForm_of_vec3 fun f s => ?_, laneForm_of_vec3 fun _ _ => rfl,
    fun p hp => laneForm_of_vec3 fun f s => exec_dForms hp f s, fun p hp => unaryForm_of_vec2 fun f s => exec_unaryInts hp f s⟩
  rcases List.mem_append.1 hp with arith | logic
  · exact exec_intForms arith f s
  · exact exec_logicForms logic f s

/-! ### Immediates -/

/-- A shift by an immediate of 5 bits shifts by that amount (R130). -/
theorem toNat_shiftAmount (n : BitVec 5) : (n.setWidth 32).toNat = n.toNat :=
  BitVec.toNat_setWidth_of_le (by decide)

theorem shl_imm (a : Word) (n : BitVec 5) : shl a (n.setWidth 32) = a <<< n.toNat := by
  rw [shl, toNat_shiftAmount, if_neg (Nat.not_le.2 n.isLt)]

theorem shr_imm (a : Word) (n : BitVec 5) : shr a (n.setWidth 32) = a >>> n.toNat := by
  rw [shr, toNat_shiftAmount, if_neg (Nat.not_le.2 n.isLt)]

theorem sra_imm (a : Word) (n : BitVec 5) : sra a (n.setWidth 32) = a.sshiftRight n.toNat := by
  rw [sra, toNat_shiftAmount, min_eq_left (Nat.le_of_lt_succ n.isLt)]

theorem ror_imm (a : Word) (n : BitVec 5) : ror a (n.setWidth 32) = a.rotateRight n.toNat := by
  rw [ror, toNat_shiftAmount, Nat.mod_eq_of_lt n.isLt]

/-- A shift by an immediate is the shift by that word. -/
theorem immForm_of_shiForm {i : Instr} {f : RS} {op : Word → Word → Word} {val : Word → Word}
    (h : ∀ s, exec i s = shiForm f s op) (hval : ∀ a, op a (f.n.setWidth 32) = val a) :
    ImmForm i f.g f.d.toNat f.a.toNat [(0, f.a.toNat)] fun a _ => val a :=
  immForm_of_vecImm fun s => (h s).trans (by simp only [shiForm, hval])

theorem immediateForms : ImmediateForms := by
  unfold ImmediateForms
  refine ⟨fun f => ⟨?_, ?_, ?_, ?_⟩, fun f => ⟨?_, ?_, ?_, ?_⟩, fun f => ⟨?_, ?_, fun hd => ?_, fun hd => ?_⟩⟩
  · exact immForm_of_vecImm fun _ => rfl
  · exact immForm_of_vecImm fun _ => rfl
  · exact immForm_of_vecImm fun _ => rfl
  · exact immForm_of_vecImm fun _ => rfl
  · exact immForm_of_shiForm (op := shl) (fun _ => rfl) (shl_imm · f.n)
  · exact immForm_of_shiForm (op := shr) (fun _ => rfl) (shr_imm · f.n)
  · exact immForm_of_shiForm (op := sra) (fun _ => rfl) (sra_imm · f.n)
  · exact immForm_of_shiForm (op := ror) (fun _ => rfl) (ror_imm · f.n)
  · exact immForm_of_vecImm fun _ => rfl
  · exact immForm_of_vecImm fun _ => rfl
  · exact uniformForm_of_uniformly (fun _ => rfl) hd fun _ => rfl
  · exact uniformForm_of_uniformly (fun _ => rfl) hd fun _ => rfl

/-! ### Uniform forms -/

theorem exec_uniformForms {p : (R3 → Instr) × (Word → Word → Word)} (hp : p ∈ uniformForms) (f : R3) (s : State) :
    exec (p.1 f) s = uni3 f s p.2 := by
  fin_cases hp <;> rfl

theorem uniformForms_complete : UniformForms := by
  unfold UniformForms
  refine ⟨fun p hp f ok => uniformForm_of_uniformly (fun s => exec_uniformForms hp f s) ok fun _ => rfl, fun f ok => ⟨?_, ?_⟩,
    fun f ok => ?_, fun f ok => ?_, fun f ok => ?_⟩
  all_goals exact uniformForm_of_uniformly (fun _ => rfl) ok fun _ => rfl

/-- Settles O30: each form is one of the lane-wise or uniform shapes with the operation of its row, and a slice by itself runs the
shape in its active lanes. -/
theorem integerForms : Obligations.IntegerForms :=
  ⟨integerLaneForms, immediateForms, uniformForms_complete⟩

end Sys2Proof.Proofs

/-! Floating, fused, packed and converting forms (05 R134 to R140; 03 R67 to R72). -/

namespace Sys2Proof.Proofs

open Sys2Proof.Machine Sys2Proof.Claim

theorem exec_floatForms {p : (R3 → Instr) × (Word → Nat → Nat → Nat × BitVec 5)} (hp : p ∈ floatForms) (f : R3) (s : State) :
    exec (p.1 f) s = fvec f s p.2 := by
  fin_cases hp <;> rfl

theorem exec_fusedForms {p : (R3 → Instr) × (Word → Nat → Nat → Nat → Nat × BitVec 5)} (hp : p ∈ fusedForms) (f : R3)
    (s : State) : exec (p.1 f) s = fvecD f s p.2 := by
  fin_cases hp <;> rfl

theorem exec_unaryFloats {p : (R2 → Instr) × (Word → Nat → Nat × BitVec 5)} (hp : p ∈ unaryFloats) (f : R2) (s : State) :
    exec (p.1 f) s = fvec1 f s p.2 := by
  fin_cases hp <;> rfl

theorem floatLaneForms : FloatLaneForms :=
  ⟨fun _ hp => laneForm_of_vec3 (exec_floatForms hp), fun _ hp => laneForm_of_vec3 (exec_fusedForms hp)⟩

theorem unaryFloatForms : UnaryFloatForms :=
  ⟨fun _ hp => unaryForm_of_vec2 (exec_unaryFloats hp), fun _ _ _ _ => unaryForm_of_vec2 fun _ _ => rfl,
    fun _ _ _ _ _ => unaryForm_of_vec2 fun _ _ => rfl⟩

/-- Settles O31: each form is the lane-wise shape with the operation of its row under the lane's FPCTL, whose flags the shape ORs. -/
theorem floatForms : Obligations.FloatForms :=
  ⟨floatLaneForms, unaryFloatForms⟩

end Sys2Proof.Proofs

/-! Compares and predicate logic (02 R38; 05 R143, R144). -/

namespace Sys2Proof.Proofs

open Sys2Proof.Machine Sys2Proof.Claim

/-! ### Compares -/

/-- A compare leaves its slice with the active lanes' bits of P[PD] combined and its flags ORed (R143). -/
theorem cmpForm_solo {g : BitVec 4} {p k : BitVec 3} {a b : BitVec 6} {xb : BitVec 1} {s s1 : State} {c t : Nat} {bv : Nat → Word}
    (solo : Solo s c t ((0, a.toNat) :: bSrc b xb)) (ok : vbOk b xb = true)
    (hb : (begun s c t).operandB c t g b xb = .ok (s1, bv)) (op : Word → Word → Word → Bool × Flg) :
    let x := s1.slice c t
    let r := fun l => op x.fpctl (x.vr a.toNat l) (bv l)
    cmpForm g p a b xb k s op = .next (s1.setSlice c t
      (((x.writePred p.toNat (x.lanes g) fun l => combine k.toNat ((x.pr p.toNat).getLsbD l) (r l).1).orFlags
        (orAll (x.lanes g) fun l => (r l).2)).advance 4)) := by
  refine simt_replaces solo ok ?_ (issuer_of_operandB hb)
  simp only [hb]
  rfl

/-- Writing predicate bits and flags touches nothing else of a slice. -/
theorem orFlags_writePred_eq (x : Slice) (d : Nat) (ls : List Nat) (f : Nat → Bool) (fl : BitVec 5) :
    let y := (x.writePred d ls f).orFlags fl
    y = { x with p := y.p, fpflags := x.fpflags ||| fl.setWidth 32 } := by
  obtain ⟨p, hp⟩ := x.writePred_eq d ls f
  rw [hp]
  rfl

/-- CMB of 02 Table 02-9, case by case. -/
theorem combine_eq (k : Nat) (old new : Bool) : combine k old new =
    if k = 0 then new else if k = 1 then old && new else if k = 2 then old || new else old != new := by
  unfold combine
  split <;> simp_all

/-- A compare completes as 05 R143 says. -/
theorem writesCompare_of_cmpForm {i : Instr} {g : BitVec 4} {p k : BitVec 3} {a b : BitVec 6} {xb : BitVec 1} {s s1 : State}
    {c t : Nat} {bv : Nat → Word} {op : Word → Word → Word → Bool × Flg} (hi : exec i s = cmpForm g p a b xb k s op)
    (solo : Solo s c t ((0, a.toNat) :: bSrc b xb)) (ok : vbOk b xb = true)
    (hb : (begun s c t).operandB c t g b xb = .ok (s1, bv)) :
    let x := s1.slice c t
    let r := fun l => op x.fpctl (x.vr a.toNat l) (bv l)
    ∃ y : Slice, exec i s = .next (s1.setSlice c t (y.advance 4)) ∧
      (∀ n l, n < 8 → l < 8 → (y.pr n).getLsbD l =
        if n = p.toNat ∧ n ≠ 7 ∧ l ∈ x.lanes g then combine k.toNat ((x.pr n).getLsbD l) (r l).1 else (x.pr n).getLsbD l) ∧
      y = { x with p := y.p, fpflags := x.fpflags ||| (orAll (x.lanes g) fun l => (r l).2).setWidth 32 } := by
  intro x r
  refine ⟨_, hi.trans (cmpForm_solo solo ok hb op), fun n l _ hl => ?_, orFlags_writePred_eq ..⟩
  refine (Slice.pr_writePred x _ _ _ n l lanesOf_lt hl).trans (if_ctx_congr .rfl (fun h => ?_) fun _ => rfl)
  rw [h.1]

/-! ### Predicate logic -/

/-- A predicate form leaves its slice with the active lanes' bits of P[D] those of its mask (R144). -/
theorem predForm_solo {g : BitVec 4} {d : BitVec 6} {ok : Bool} {srcs : List (Nat × Nat)} {s : State} {c t : Nat}
    (solo : Solo s c t srcs) (hd : d.toNat < 8) (hok : ok = true) (op : Slice → Pred) :
    let x := (s.slice c t).issued
    predForm g d ok srcs s op =
      .next (s.setSlice c t ((x.writePred d.toNat (x.lanes g) fun l => (op x).getLsbD l).advance 4)) := by
  refine simt_replaces solo (by rw [pOk_eq_true hd, hok]; rfl) ?_ rfl
  simp only [slice_begun]
  exact congrArg Except.ok (s.setSlice_setSlice ..)

theorem writePred_keeps (x : Slice) (d : Nat) (ls : List Nat) (f : Nat → Bool) :
    x.writePred d ls f = { x with p := (x.writePred d ls f).p } := by
  obtain ⟨p, hp⟩ := x.writePred_eq d ls f
  rw [hp]

/-- A form that writes the mask `m` of its slice to P[D] (05 R144): active lanes' bits change, P7's do not, and nothing else does. -/
def WritesMask (i : Instr) (g : BitVec 4) (d : BitVec 6) (srcs : List (Nat × Nat)) (m : Slice → Pred) : Prop :=
  ∀ (s : State) (c t : Nat), Solo s c t srcs → d.toNat < 8 →
    let x := (s.slice c t).issued
    ∃ y : Slice, exec i s = .next (s.setSlice c t (y.advance 4)) ∧
      (∀ n l, n < 8 → l < 8 → (y.pr n).getLsbD l =
        if n = d.toNat ∧ n ≠ 7 ∧ l ∈ x.lanes g then (m x).getLsbD l else (x.pr n).getLsbD l) ∧
      y = { x with p := y.p }

theorem writesMask_of_predForm {i : Instr} {g : BitVec 4} {d : BitVec 6} {ok : Bool} {srcs : List (Nat × Nat)} {m : Slice → Pred}
    (hi : ∀ s, exec i s = predForm g d ok srcs s m) (hok : ok = true) : WritesMask i g d srcs m :=
  fun s _ _ solo hd => ⟨_, (hi s).trans (predForm_solo solo hd hok m),
    fun n l _ hl => Slice.pr_writePred _ _ _ _ n l lanesOf_lt hl, writePred_keeps ..⟩

/-- Settles O1: a compare or a predicate form replaces its slice by one with bits of P[D] written, and a write of bits touches the
active lanes' bits of that register alone, and none of P7. -/
theorem predicateForms : Obligations.PredicateForms := by
  unfold Obligations.PredicateForms
  intro comb compares masks
  have named : masks = WritesMask := rfl
  clear_value masks
  subst named
  refine ⟨fun g cc p a b xb k s s1 c t bv solo ok hb => ?_, fun g cc p a b xb k s s1 c t bv solo ok hb => ?_, fun f ha hb => ?_,
    fun f ha => ?_, fun f ha => ?_⟩
  · simpa only [combine_eq] using writesCompare_of_cmpForm (i := .icmp g p cc a b xb k) (op := fun _ u v => (icond cc.toNat u v, 0)) rfl solo ok hb
  · simpa only [combine_eq] using writesCompare_of_cmpForm (i := .fcmp g p cc a b xb k) (op := fcond cc.toNat) rfl solo ok hb
  · have ok : (pOk f.a && pOk f.b) = true := by rw [pOk_eq_true ha, pOk_eq_true hb]; rfl
    exact ⟨writesMask_of_predForm (fun _ => rfl) ok, writesMask_of_predForm (fun _ => rfl) ok,
      writesMask_of_predForm (fun _ => rfl) ok⟩
  · exact ⟨writesMask_of_predForm (fun _ => rfl) (pOk_eq_true ha), writesMask_of_predForm (fun _ => rfl) (pOk_eq_true ha)⟩
  · exact writesMask_of_predForm (fun _ => rfl) (sOk_eq_true ha)

end Sys2Proof.Proofs

/-! Moves, selects and lane moves (05 R132, R133), packing and unpacking (05 R140, R142). -/

namespace Sys2Proof.Proofs

open Sys2Proof.Machine Sys2Proof.Claim

/-! ### Moves -/

section
variable {s s1 : State} {c t : Nat} {bv : Nat → Word}

theorem mov_completes {f : RB} (solo : Solo s c t (bSrc f.b f.x)) (ok : vbOk f.b f.x = true)
    (hb : (begun s c t).operandB c t f.g f.b f.x = .ok (s1, bv)) :
    let x := s1.slice c t
    exec (.mov f) s = .next (s1.setSlice c t ((x.writeLanes f.d.toNat (x.lanes f.g) bv).advance 4)) := by
  refine show execMov f s = _ from simt_replaces solo ok ?_ (issuer_of_operandB hb)
  simp only [hb]
  rfl

theorem vbcast_completes {f : R3} (solo : Solo s c t ((0, f.a.toNat) :: bSrc f.b f.x)) (ok : vbOk f.b f.x = true)
    (hb : (begun s c t).operandB c t f.g f.b f.x = .ok (s1, bv)) :
    let x := s1.slice c t
    exec (.vbcast f) s = .next (s1.setSlice c t
      ((x.writeLanes f.d.toNat (x.lanes f.g) fun l => x.vr f.a.toNat ((bv l).toNat % 8)).advance 4)) := by
  refine show execVbcast f s = _ from simt_replaces solo ok ?_ (issuer_of_operandB hb)
  simp only [hb]
  rfl

/-- MOVX moves once none of the registers that its lanes name is pending. -/
theorem movx_completes {f : R3} (solo : Solo s c t (bSrc f.b f.x)) (ok : vbOk f.b f.x = true)
    (hb : (begun s c t).operandB c t f.g f.b f.x = .ok (s1, bv)) :
    let x := s1.slice c t
    let src := fun l => (f.a.toNat + (bv l).toNat) % 64
    (∀ l ∈ x.lanes f.g, x.pendingReg 0 (src l) = false) →
    exec (.movx f) s = .next (s1.setSlice c t
      ((x.writeLanes f.d.toNat (x.lanes f.g) fun l => x.vr (src l) l).advance 4)) := by
  intro x src ready
  have none : ((x.lanes f.g).any fun l => x.pendingReg 0 (src l)) = false := by
    rw [List.any_eq_false]
    exact fun l hl => by rw [ready l hl]; decide
  refine show execMovx f s = _ from simt_replaces solo ok ?_ (issuer_of_operandB hb)
  simp only [x, src] at none
  simp only [hb, bind, Except.bind, none]
  rfl

theorem sel_completes {g : BitVec 4} {d a b : BitVec 6} {xb : BitVec 1} (p : BitVec 3)
    (solo : Solo s c t ((0, a.toNat) :: bSrc b xb)) (ok : vbOk b xb = true)
    (hb : (begun s c t).operandB c t g b xb = .ok (s1, bv)) :
    let x := s1.slice c t
    exec (.sel g d a b xb p) s = .next (s1.setSlice c t
      ((x.writeLanes d.toNat (x.lanes g) fun l =>
        if (x.pr p.toNat).getLsbD l then x.vr a.toNat l else bv l).advance 4)) := by
  refine show execSel g d a b xb p s = _ from simt_replaces solo ok ?_ (issuer_of_operandB hb)
  simp only [hb]
  rfl

theorem vinsr_completes {f : R3} (solo : Solo s c t ((1, f.a.toNat) :: laneSrc f.b))
    (ok : (sOk f.a && f.x == 1 && codeOk f.b) = true) :
    let x := (s.slice c t).issued
    let k := (x.uniform f.b f.x).toNat % 8
    exec (.vinsr f) s = .next (s.setSlice c t
      ((if (x.active f.g).getLsbD k then x.setV f.d.toNat k (x.sr f.a.toNat) else x).advance 4)) := by
  refine show execVinsr f s = _ from simt_replaces solo ok ?_ rfl
  simp only [slice_begun]
  exact congrArg Except.ok (s.setSlice_setSlice ..)

end

theorem moveForms : MoveForms :=
  ⟨fun _ _ _ _ _ _ solo ok hb => mov_completes solo ok hb, fun _ _ _ _ _ _ solo ok hb => vbcast_completes solo ok hb,
    fun _ _ _ _ _ _ solo ok hb => movx_completes solo ok hb, fun _ _ _ _ _ p _ _ _ _ _ solo ok hb => sel_completes p solo ok hb,
    fun _ _ _ _ solo ok => vinsr_completes solo ok⟩

/-! ### Packing and unpacking -/

theorem alignOk_eq_true {a : BitVec 6} {n : Nat} (h : a.toNat % n = 0) : alignOk a n = true :=
  beq_iff_eq.2 h

/-- Writing a register group and flags touches nothing else of a slice. -/
theorem orFlags_writeGroup_eq (x : Slice) (d n : Nat) (ls : List Nat) (f : Nat → Nat → Word) (fl : BitVec 5) :
    let y := (x.writeGroup d n ls f).orFlags fl
    y = { x with v := y.v, fpflags := y.fpflags } := by
  obtain ⟨v, hv⟩ := x.writeGroup_eq d n ls f
  rw [hv]
  rfl

theorem orFlags_writeLanes_eq (x : Slice) (d : Nat) (ls : List Nat) (f : Nat → Word) (fl : BitVec 5) :
    let y := (x.writeLanes d ls f).orFlags fl
    y = { x with v := y.v, fpflags := y.fpflags } := by
  obtain ⟨v, hv⟩ := x.writeLanes_eq d ls f
  rw [hv]
  rfl

/-- An unpacking form leaves its slice with the elements of V[A] written to a group and their flags ORed. -/
theorem unpack_solo {g : BitVec 4} {d a : BitVec 6} {src w n : Nat} {s : State} {c t : Nat} (solo : Solo s c t [(0, a.toNat)])
    (hd : d.toNat % n = 0) :
    let x := (s.slice c t).issued
    let r := fun k l => cvtf src 0 false .rne ((x.vr a.toNat l).toNat / 2 ^ (w * k))
    let fl := (x.lanes g).foldl (fun m l => (List.range n).foldl (fun m k => m ||| (r k l).2) m) 0
    unpack g d a src w n s = .next (s.setSlice c t
      (((x.writeGroup d.toNat n (x.lanes g) fun k l => w32 (r k l).1).orFlags fl).advance 4)) := by
  refine simt_replaces solo (alignOk_eq_true hd) ?_ rfl
  simp only [slice_begun]
  exact congrArg Except.ok (s.setSlice_setSlice ..)

/-- An unpacking form writes its elements, lane by lane, to the registers of its destination group (R140, R142). -/
theorem unpack_completes {g : BitVec 4} {d a : BitVec 6} {src w n : Nat} {s : State} {c t : Nat}
    (solo : Solo s c t [(0, a.toNat)]) (hd : d.toNat % n = 0) :
    let x := (s.slice c t).issued
    let r := fun k l => cvtf src 0 false .rne ((x.vr a.toNat l).toNat / 2 ^ (w * k))
    ∃ y : Slice, unpack g d a src w n s = .next (s.setSlice c t (y.advance 4)) ∧
      (∀ m l, m < 64 → l < 8 → y.vr m l =
        if d.toNat ≤ m ∧ m < d.toNat + n ∧ l ∈ x.lanes g then BitVec.ofNat 32 (r (m - d.toNat) l).1 else x.vr m l) ∧
      y = { x with v := y.v, fpflags := y.fpflags } := by
  intro x r
  exact ⟨_, unpack_solo solo hd, fun m l _ hl => Slice.vr_writeGroup x _ _ _ _ m l lanesOf_lt hl, orFlags_writeGroup_eq ..⟩

/-- PK4Q leaves its slice with a packed word written to each active lane of V[D] and their flags ORed. -/
theorem pk4q_solo {g : BitVec 4} {d a : BitVec 6} (rs : BitVec 3) (sat : BitVec 1) {f : BitVec 2} {s : State} {c t : Nat}
    (solo : Solo s c t (group 0 a.toNat (quadFmt f.toNat).2.2)) (ha : a.toNat % (quadFmt f.toNat).2.2 = 0) :
    let q := quadFmt f.toNat
    let x := (s.slice c t).issued
    let e := fun l k => cvtf 0 q.1 (sat == 1) (rselMode (rmOf x.fpctl) rs.toNat) (x.vr (a.toNat + k) l).toNat
    let fl := (x.lanes g).foldl (fun m l => (List.range q.2.2).foldl (fun m k => m ||| (e l k).2) m) 0
    exec (.pk4q g d a rs sat f) s = .next (s.setSlice c t
      (((x.writeLanes d.toNat (x.lanes g) fun l =>
        w32 (((List.range q.2.2).map fun k => (e l k).1 * 2 ^ (q.2.1 * k)).sum)).orFlags fl).advance 4)) := by
  refine show execPk4q g d a rs sat f s = _ from simt_replaces solo (alignOk_eq_true ha) ?_ rfl
  simp only [slice_begun]
  exact congrArg Except.ok (s.setSlice_setSlice ..)

/-- PK4Q packs a lane's elements, each rounded to the narrow format, into one word (R142). -/
theorem pk4q_completes {g : BitVec 4} {d a : BitVec 6} (rs : BitVec 3) (sat : BitVec 1) {f : BitVec 2} {s : State} {c t : Nat}
    (solo : Solo s c t (group 0 a.toNat (quadFmt f.toNat).2.2)) (ha : a.toNat % (quadFmt f.toNat).2.2 = 0) :
    let q := quadFmt f.toNat
    let x := (s.slice c t).issued
    let e := fun l k => cvtf 0 q.1 (sat == 1) (rselMode (rmOf x.fpctl) rs.toNat) (x.vr (a.toNat + k) l).toNat
    ∃ y : Slice, exec (.pk4q g d a rs sat f) s = .next (s.setSlice c t (y.advance 4)) ∧
      (∀ m l, m < 64 → l < 8 → y.vr m l =
        if m = d.toNat ∧ l ∈ x.lanes g then BitVec.ofNat 32 (((List.range q.2.2).map fun k => (e l k).1 * 2 ^ (q.2.1 * k)).sum)
        else x.vr m l) ∧
      y = { x with v := y.v, fpflags := y.fpflags } := by
  intro q x e
  exact ⟨_, pk4q_solo rs sat solo ha, fun m l _ hl => Slice.vr_writeLanes x _ _ _ m l lanesOf_lt hl, orFlags_writeLanes_eq ..⟩

theorem packForms : PackForms :=
  ⟨fun f => ⟨fun _ _ _ solo hd => unpack_completes (g := f.g) (src := 1) (w := 16) solo hd,
      fun _ _ _ solo hd => unpack_completes (g := f.g) (src := 2) (w := 16) solo hd⟩,
    fun g _ _ f _ _ _ solo hd => unpack_completes (g := g) (src := (quadFmt f.toNat).1) (w := (quadFmt f.toNat).2.1) solo hd,
    fun _ _ _ rs sat _ _ _ _ solo ha => pk4q_completes rs sat solo ha⟩

/-- Settles O32: a move replaces its slice by one with lanes of V[D] written, and a packing form by one with lanes of a register or a
group written and flags ORed. -/
theorem moveAndPackForms : Obligations.MoveAndPackForms :=
  ⟨moveForms, packForms⟩

end Sys2Proof.Proofs

/-! What the vector and the uniform forms leave as it was (05 R124, R126, R128, R131, R134, R139). -/

namespace Sys2Proof.Proofs

open Sys2Proof.Machine Sys2Proof.Claim

/-! ### The path of a slice that moves on -/

/-- A change of the current path that keeps its mask, also where the table has no such entry. -/
theorem mask_modPath {x : Slice} {f : Path → Path} (hf : ∀ p, (f p).mask = p.mask) : (x.modPath f).path.mask = x.path.mask := by
  by_cases h : x.cur < x.paths.length
  · rw [path_modPath h, hf]
  · rw [Slice.modPath, Slice.setPath, List.set_eq_of_length_le (Nat.le_of_not_lt h)]

/-- Moving past an instruction, in a repeat frame or outside one, leaves the lanes of the path. -/
theorem mask_advance (x : Slice) (n : Nat) : (x.advance n).path.mask = x.path.mask := by
  unfold Slice.advance
  dsimp only
  split
  · split
    · rfl
    · split
      · rfl
      · exact mask_modPath fun _ => rfl
  · exact mask_modPath fun _ => rfl

/-! ### Vector forms -/

/-- A lane-wise result is in V[d] and the flags. -/
theorem laneResult_eq (x : Slice) (g : BitVec 4) (d : Nat) (r : Nat → Word × BitVec 5) :
    ∃ v, laneResult x g d r = Slice.advance { x with
      v := v, fpflags := x.fpflags ||| (orAll (x.lanes g) fun l => (r l).2).setWidth 32 } 4 := by
  obtain ⟨v, hv⟩ := x.writeLanes_eq d (x.lanes g) fun l => (r l).1
  exact ⟨v, by rw [laneResult, hv]; rfl⟩

theorem vr_advance (x : Slice) (n m l : Nat) : (x.advance n).vr m l = x.vr m l := by
  rw [Slice.vr, Slice.advance_v, Slice.vr]

theorem sr_advance (x : Slice) (n m : Nat) : (x.advance n).sr m = x.sr m := by
  rw [Slice.sr, Slice.advance_s, Slice.sr]

theorem vr_laneResult (x : Slice) (g : BitVec 4) (d : Nat) (r : Nat → Word × BitVec 5) (m : Nat) {l : Nat} (hl : l < 8) :
    (laneResult x g d r).vr m l = if m = d ∧ l ∈ x.lanes g then (r l).1 else x.vr m l :=
  (vr_advance _ 4 m l).trans (Slice.vr_writeLanes x d _ _ m l lanesOf_lt hl)

/-- Or-ing in 5 flags leaves the bits above them, and those that are set. -/
theorem getLsbD_or_flags {w : Word} (fl : BitVec 5) {k : Nat} (h : 5 ≤ k ∨ w.getLsbD k = true) :
    (w ||| fl.setWidth 32).getLsbD k = w.getLsbD k := by
  rw [BitVec.getLsbD_or]
  rcases h with high | set
  · rw [BitVec.getLsbD_setWidth, BitVec.getLsbD_of_ge fl k high, Bool.and_false, Bool.or_false]
  · rw [set, Bool.true_or]

/-- A lane-wise form of A and B and perhaps D, with some operation (05 R124). -/
theorem laneForm_of_regForms {p : (R3 → Instr) × Bool} (hp : p ∈ regForms) : ∃ op, LaneForm p.1 p.2 op := by
  simp only [regForms, List.mem_append, List.mem_map, List.mem_singleton] at hp
  obtain ⟨ints, bfx, withD, -⟩ := integerLaneForms
  obtain ⟨floats, fused⟩ := floatLaneForms
  rcases hp with ((((⟨q, hq, rfl⟩ | ⟨q, hq, rfl⟩) | rfl) | ⟨q, hq, rfl⟩) | ⟨q, hq, rfl⟩) | ⟨q, hq, rfl⟩
  · exact ⟨_, ints q (List.mem_append_left _ hq)⟩
  · exact ⟨_, ints q (List.mem_append_right _ hq)⟩
  · exact ⟨_, bfx⟩
  · exact ⟨_, withD q hq⟩
  · exact ⟨_, floats q hq⟩
  · exact ⟨_, fused q hq⟩

/-- A register or a constant as B is read without a change of state (02 R35, R36). -/
theorem operandB_of_register (s : State) (c t : Nat) (g : BitVec 4) {b : BitVec 6} {x : BitVec 1}
    (h : x = 0 ∨ b.toNat < 32 ∨ 48 ≤ b.toNat) : ∃ bv, s.operandB c t g b x = .ok (s, bv) := by
  unfold State.operandB
  dsimp only
  split
  · exact ⟨_, rfl⟩
  · next hx =>
    split
    · exact ⟨_, rfl⟩
    · next hb =>
      have high : 48 ≤ b.toNat := by
        rcases h with rfl | low | high
        · exact absurd rfl hx
        · exact absurd low hb
        · exact high
      rw [if_neg (by omega), if_neg (by omega)]
      split
      · exact ⟨_, rfl⟩
      · split <;> exact ⟨_, rfl⟩

/-- Settles O21: a vector form replaces its slice by a lane-wise result, which is in V[D] of the active lanes and in the flags. -/
theorem vectorFormsFrame : Obligations.VectorFormsFrame := by
  unfold Obligations.VectorFormsFrame
  intro p hp f s c t solo ok reg _
  obtain ⟨op, form⟩ := laneForm_of_regForms hp
  obtain ⟨bv, hb⟩ := operandB_of_register (begun s c t) c t f.g reg
  refine ⟨_, form f s _ c t bv solo ok hb, ?_⟩
  rw [begun, State.setSlice_setSlice, State.slice_setSlice_self, State.slice_setSlice_self]
  refine ⟨onlySlice_setSlice .., fun m l _ hl off => ?_, ?_⟩
  · rw [vr_laneResult _ _ _ _ m hl, if_neg]
    · rfl
    · rintro ⟨rfl, on⟩
      rcases off with other | off
      · exact other rfl
      · exact Bool.false_ne_true (off.symm.trans (mem_lanesOf.1 on).2)
  · obtain ⟨v, hv⟩ := laneResult_eq (s.slice c t).issued f.g f.d.toNat fun l =>
      op (s.slice c t).issued.fpctl ((s.slice c t).issued.vr f.a.toNat l) (bv l) ((s.slice c t).issued.vr f.d.toNat l)
    rw [hv]
    refine ⟨by simp [Slice.issued], by simp [Slice.issued], fun k hk => ?_, ?_, mask_advance ..⟩
    · rw [Slice.advance_fpflags]
      exact getLsbD_or_flags _ hk
    · constructor <;> simp [Slice.issued]

/-! ### Uniform forms -/

/-- Settles O22: a uniform form writes S[D] of its slice, or nothing, and moves on. -/
theorem uniformFormsFrame : Obligations.UniformFormsFrame := by
  unfold Obligations.UniformFormsFrame
  intro p hp f s c t solo ok _
  refine ⟨_, uniformForms_complete.1 p hp f ok s c t solo, onlySlice_setSlice .., ?_⟩
  rw [State.slice_setSlice_self]
  split
  next off => exact ⟨fun m _ => sr_advance .., by simp [Slice.issued], by simp [Slice.issued], by simp [Slice.issued],
      keepsControl_advance_issued ..⟩
  next on =>
    refine ⟨fun m hm => ?_, by simp [Slice.issued], by simp [Slice.issued], by simp [Slice.issued],
      by constructor <;> simp [Slice.issued]⟩
    rw [sr_advance, Slice.sr_setS, if_neg]
    · rfl
    · rintro rfl
      rcases hm with other | off
      · exact other rfl
      · exact on off

end Sys2Proof.Proofs

/-! Queue registers (05 R119 to R122): QWR, QRD, QTRY and QCNT of a slice by itself, their waits and their faults. -/

namespace Sys2Proof.Proofs

open Sys2Proof.Machine Sys2Proof.Claim

/-! ### The names of a handler, and a body that stops -/

/-- A gang that waits for nothing takes the stop of its body. -/
theorem gangwise_stops {s : State} {h : Head} {body : State → Except Stop State} {e : Stop} (gang : Gang s h.srcs)
    (hb : body s.countIssue = .error e) (ok : h.ok = true := by rfl) (rdv : h.rdv = false := by rfl)
    (priv : h.priv = false := by rfl) (mem : h.mem = false := by rfl) : gangwise h s body = s.stop h.len e := by
  rw [gangwise_eq ok (by simp [priv]) (quiet_of_gang gang mem) (by simp [rdv]), hb]

theorem queueOf_of_handler {s : State} {c t : Nat} (h : (s.slice c t).handler = true) (q : Nat) : s.queueOf c t q = none := by
  unfold State.queueOf
  exact if_pos h

/-- A slice with a queue of its own is in no handler. -/
theorem handler_of_queueOf {s : State} {c t q n : Nat} (h : s.queueOf c t q = some n) : (s.slice c t).handler = false := by
  cases hh : (s.slice c t).handler
  · rfl
  · rw [queueOf_of_handler hh] at h
    cases h

/-! ### The frame of a queue form -/

section
variable {s : State} {c t : Nat} {g : BitVec 4} {q : BitVec 6} {ok : Bool} {srcs : List (Nat × Nat)}
  {body : State → Nat → List (List Word) → List Nat → Except Stop State}

variable (acts : Acts s c t g srcs) (hq : q.toNat < 8)
include acts hq

/-- For a slice with a lane active, a queue form is its body on the queue that the name stands for (R119). -/
theorem queueForm_completes {u : State} {n : Nat} (own : (begun s c t).queueOf c t q.toNat = some n)
    (run : body (begun s c t) n (tget ({} : QReg) ((begun s c t).core c).queues n).entries [t] = .ok u) (hok : ok = true := by rfl) :
    queueForm g q ok srcs s body = .next (u.advanceAll 4) := by
  refine gangwise_of_gang (gang_of_solo acts.solo) ?_ (by rw [pOk_eq_true hq, hok]; rfl)
  rw [countIssue_of_solo acts.solo]
  simp only [taking_begun acts, begun_core acts.solo, own, run]

/-- A body that waits for its queue parks the slice on it (R121). -/
theorem queueForm_parks {n : Nat} (own : (begun s c t).queueOf c t q.toNat = some n)
    (run : body (begun s c t) n (tget ({} : QReg) ((begun s c t).core c).queues n).entries [t] = .error (.park (.queue c n)))
    (hok : ok = true := by rfl) :
    queueForm g q ok srcs s body = .next (s.parkGang fun _ => .queue c n) := by
  have user : (s.slice c t).handler = false := by
    have := handler_of_queueOf own
    rwa [slice_begun] at this
  refine (gangwise_stops (e := .park (.queue c n)) (gang_of_solo acts.solo) ?_ (by rw [pOk_eq_true hq, hok]; rfl)).trans ?_
  · rw [countIssue_of_solo acts.solo]
    simp only [taking_begun acts, begun_core acts.solo, own, run]
  · simp [State.stop, acts.solo.core, acts.solo.gang, user]

/-- A name that stands for no queue, as every name does in a handler, is QUEUE_MISUSE (R119). -/
theorem queueForm_misused (absent : (s.slice c t).handler = true ∨ (begun s c t).queueOf c t q.toNat = none)
    (hok : ok = true := by rfl) :
    queueForm g q ok srcs s body =
      .next (s.gangTrap 4 { code := 0x10, lanes := [(t, (s.slice c t).active g)] }) := by
  have unnamed : (begun s c t).queueOf c t q.toNat = none := by
    rcases absent with handler | unnamed
    · exact queueOf_of_handler (by rw [slice_begun]; exact handler) _
    · exact unnamed
  refine gangwise_stops (e := .fault _) (gang_of_solo acts.solo) ?_ (by rw [pOk_eq_true hq, hok]; rfl)
  rw [countIssue_of_solo acts.solo]
  simp only [taking_begun acts, begun_core acts.solo, unnamed, State.faultAll, begun_slots acts.solo, List.map_cons, List.map_nil,
    slice_begun]
  rfl

end

/-! ### Forms that complete -/

/-- One member takes the oldest entry. -/
theorem popAll_singleton (s : State) (n t : Nat) (e : List Word) (es : List (List Word)) (f : Slice → List Word → Slice) :
    s.popAll n (e :: es) [t] f = (s.setQueue s.issuer.core n es).modSlice s.issuer.core t fun x => f x e := rfl

section
variable {s : State} {c t n : Nat}

theorem qwr_completes {f : R2} (acts : Acts s c t f.g [(0, f.a.toNat)]) (hq : f.d.toNat < 8)
    (own : (begun s c t).queueOf c t f.d.toNat = some n)
    (room : (tget ({} : QReg) ((begun s c t).core c).queues n).entries.length < 8) :
    exec (.qwr f) s = .next (((begun s c t).setQueue c n
      ((tget ({} : QReg) ((begun s c t).core c).queues n).entries ++ [row (s.slice c t) f.a.toNat])).advanceAll 4) := by
  refine show execQwr f s = _ from queueForm_completes acts hq own ?_
  refine (if_pos room).trans ?_
  simp only [begun_core acts.solo, slice_begun, List.map_cons, List.map_nil]
  rfl

theorem qrd_completes {f : R2} {e : List Word} {es : List (List Word)} (acts : Acts s c t f.g []) (hq : f.a.toNat < 8)
    (own : (begun s c t).queueOf c t f.a.toNat = some n)
    (entries : (tget ({} : QReg) ((begun s c t).core c).queues n).entries = e :: es) :
    exec (.qrd f) s = .next ((((begun s c t).setQueue c n es).modSlice c t fun x =>
      x.writeLanes f.d.toNat (x.lanes f.g) fun l => e.getD l 0).advanceAll 4) := by
  refine show execQrd f s = _ from queueForm_completes acts hq own ?_
  rw [entries, if_pos (by simp), popAll_singleton, begun_core acts.solo]

/-- QTRY's predicate bits say whether it took an entry (R122). -/
theorem qtry_completes {f : RP} (acts : Acts s c t f.g []) (hq : f.a.toNat < 8) (hb : f.b.toNat < 8)
    (own : (begun s c t).queueOf c t f.a.toNat = some n) :
    let mark := fun (x : Slice) b => (x.lanes f.g).foldl (fun y l => y.setPBit f.b.toNat l b) x
    ((tget ({} : QReg) ((begun s c t).core c).queues n).entries = [] →
      exec (.qtry f) s = .next (((begun s c t).modSlice c t fun x => mark x false).advanceAll 4)) ∧
    ∀ e es, (tget ({} : QReg) ((begun s c t).core c).queues n).entries = e :: es →
      exec (.qtry f) s = .next ((((begun s c t).setQueue c n es).modSlice c t fun x =>
        mark (x.writeLanes f.d.toNat (x.lanes f.g) fun l => e.getD l 0) true).advanceAll 4) := by
  intro mark
  refine ⟨fun entries => ?_, fun e es entries => ?_⟩
  · refine show execQtry f s = _ from queueForm_completes acts hq own ?_ (pOk_eq_true hb)
    simp only [entries]
    rw [if_neg (by simp), List.foldl_cons, List.foldl_nil, begun_core acts.solo]
  · refine show execQtry f s = _ from queueForm_completes acts hq own ?_ (pOk_eq_true hb)
    simp only [entries]
    rw [if_pos (by simp), popAll_singleton, begun_core acts.solo]

theorem qcnt_completes {f : R2} (acts : Acts s c t f.g []) (hq : f.a.toNat < 8) (hd : f.d.toNat < 32)
    (own : (begun s c t).queueOf c t f.a.toNat = some n) :
    exec (.qcnt f) s = .next (((begun s c t).modSlice c t fun x =>
      x.setS f.d.toNat (w32 (tget ({} : QReg) ((begun s c t).core c).queues n).entries.length)).advanceAll 4) := by
  refine show execQcnt f s = _ from queueForm_completes acts hq own ?_ (sOk_eq_true hd)
  rw [begun_slots acts.solo, List.foldl_cons, List.foldl_nil, begun_core acts.solo]

end

theorem queueForms : QueueForms :=
  ⟨fun _ _ _ _ _ acts hq own room => qwr_completes acts hq own room,
    fun _ _ _ _ _ _ _ acts hq own entries => qrd_completes acts hq own entries,
    fun _ _ _ _ _ acts hq hb own => qtry_completes acts hq hb own,
    fun _ _ _ _ _ acts hq hd own => qcnt_completes acts hq hd own⟩

/-! ### Waits and faults -/

section
variable {s : State} {c t n : Nat} {f : R2}

theorem qwr_parks (acts : Acts s c t f.g [(0, f.a.toNat)]) (hq : f.d.toNat < 8)
    (own : (begun s c t).queueOf c t f.d.toNat = some n)
    (full : 8 ≤ (tget ({} : QReg) ((begun s c t).core c).queues n).entries.length) :
    exec (.qwr f) s = .next (s.parkGang fun _ => .queue c n) := by
  refine show execQwr f s = _ from queueForm_parks acts hq own ?_
  exact (if_neg (Nat.not_le.2 (Nat.lt_succ_of_le full))).trans (by rw [begun_core acts.solo])

theorem qrd_parks (acts : Acts s c t f.g []) (hq : f.a.toNat < 8) (own : (begun s c t).queueOf c t f.a.toNat = some n)
    (empty : (tget ({} : QReg) ((begun s c t).core c).queues n).entries = []) :
    exec (.qrd f) s = .next (s.parkGang fun _ => .queue c n) := by
  refine show execQrd f s = _ from queueForm_parks acts hq own ?_
  rw [empty, if_neg (by simp), begun_core acts.solo]

end

theorem queueWaits : QueueWaits := by
  unfold QueueWaits
  refine ⟨fun f s c t n => ⟨qwr_parks, qrd_parks⟩, fun s c t q => (queueOf_of_handler · q), fun s c t g => ⟨?_, ?_, ?_, ?_⟩⟩
  · rintro d a acts ⟨hq, absent⟩
    exact show execQwr _ s = _ from queueForm_misused acts hq absent
  · rintro d a acts ⟨hq, absent⟩
    exact show execQrd _ s = _ from queueForm_misused acts hq absent
  · rintro d a b acts ⟨hq, absent⟩ hb
    exact show execQtry _ s = _ from queueForm_misused acts hq absent (pOk_eq_true hb)
  · rintro d a acts ⟨hq, absent⟩ hd
    exact show execQcnt _ s = _ from queueForm_misused acts hq absent (sOk_eq_true hd)

/-- Settles O38: the frame of a queue form finds the slice's queue, or none; with one the form's body appends, takes, counts or waits. -/
theorem queueRegisters : Obligations.QueueRegisters :=
  ⟨queueForms, queueWaits⟩

end Sys2Proof.Proofs

/-! Memory forms whose lanes land (06 R146 to R149, R152 to R155, R169 to R174; 07 R191 to R193): what each space makes of the request,
and a form without an active lane. -/

namespace Sys2Proof.Proofs

open Sys2Proof.Machine Sys2Proof.Claim

/-! ### The request of a form -/

/-- What `memForm` makes, in each space, of the request of a form whose lanes land. -/
def landedPart (p : MemRow) (m : MemF) (v : State) (a : Acc) : Except Stop State :=
  match m.space.toNat with
  | 0 => do
    let w ← v.localAccess m.ord.toNat a p.kind.dest
    pure ((if p.acquires m then w.acquireNow w.issuer.core m.scope.toNat else w).advanceAll 8)
  | 1 =>
    let w := v.lwinAccess m.g p.kind a (p.acquires m && p.kind.dest != .none) m.scope.toNat
    pure ((p.acquired m w.issuer.core w).advanceAll 8)
  | 2 => do
    let w ← v.clusterAccess m.g p.kind a (p.acquires m && p.kind.dest != .none) m.scope.toNat
    pure (p.acquired m w.issuer.core w)
  | _ => do
    let w ← p.request v a
    pure (p.acquired m w.issuer.core w)

section
variable {m : MemF} {p : MemRow} {s v w : State} {c t : Nat} {ok : List (Tgt × Nat)}

/-- The gang whose lanes have landed is the slice alone, at its core. -/
theorem solo_landed (land : Lands p m s c t v ok) : v.issuer.core = c ∧ v.issuer.slots = [t] ∧ v.taking m.g = [t] :=
  solo_walked land.acts land.lands

/-- A form whose lanes land makes its request in the state that the walks left. -/
theorem exec_memTable_landed (hp : p ∈ memTable m) (land : Lands p m s c t v ok)
    (run : landedPart p m v (p.access m s v c ok) = .ok w) : exec p.instr s = .next w := by
  obtain ⟨core, -, -⟩ := solo_landed land
  obtain ⟨acts, legal, waits, lands, unwatched⟩ := land
  have taking := taking_begun acts
  obtain ⟨solo, free, -⟩ := acts
  rw [exec_memTable hp]
  unfold memForm
  rw [gangwise_solo solo.core solo.gang legal (by simp) ⟨solo.held, fun _ => free, solo.ready⟩ (by simp)]
  rw [show s.setSlice c t (s.slice c t).issued = begun s c t from rfl]
  simp only [taking, waits, lands, unwatched, core, bind, Except.bind, List.isEmpty_cons, List.isEmpty_nil, Bool.not_true,
    Bool.false_eq_true, if_false]
  exact congrArg (fun r : Except Stop State => match r with | .ok u => Host.Outcome.next u | .error e => s.stop 8 e) run

/-- With no lane active the form only moves on. -/
theorem movesOn_of_idle (hp : p ∈ memTable m) (idle : Idles s c t m.g (p.reads m)) (legal : (p.ok && memBaseOk m) = true) :
    MovesOn p.instr s c t 8 := by
  obtain ⟨solo, free, off⟩ := idle
  have none : (begun s c t).taking m.g = [] := by
    rw [State.taking_solo m.g (begun_core solo) (begun_slots solo), slice_begun]
    exact if_pos off
  refine (exec_memTable hp s).trans ?_
  unfold memForm
  rw [gangwise_solo solo.core solo.gang legal (by simp) ⟨solo.held, fun _ => free, solo.ready⟩ (by simp)]
  rw [show s.setSlice c t (s.slice c t).issued = begun s c t from rfl]
  simp only [none, List.isEmpty_nil, if_true, advanceAll_begun solo]
  rfl

end

/-! ### LOCAL (06 R146, R149) -/

/-- The words that some lanes of `n` bytes cover. -/
abbrev laneWords (n : Nat) (ls : List LaneAcc) : List Nat := ls.flatMap fun l => feWords l.pa n

/-- Lanes whose words are all in the state asked, none of them changed by a lower lane, do not wait. -/
theorem feFailing_eq_nil {emptied : List Nat} {n : Nat} {want moves : Bool} : ∀ {ls : List LaneAcc} {moved : List Nat},
    (∀ x ∈ laneWords n ls, emptied.contains x = want) → (∀ x ∈ laneWords n ls, x ∉ moved) →
    (moves = true → (laneWords n ls).Nodup) → feFailing emptied n want moves moved ls = []
  | [], _, _, _, _ => rfl
  | l :: ls, moved, asked, fresh, distinct => by
    simp only [laneWords, List.flatMap_cons, List.forall_mem_append] at asked fresh
    obtain ⟨askedHere, askedRest⟩ := asked
    obtain ⟨freshHere, freshRest⟩ := fresh
    have here : ((feWords l.pa n).all fun w => emptied.contains w == want && !moved.contains w) = true := by
      rw [List.all_eq_true]
      intro x hx
      simp only [askedHere x hx, beq_self_eq_true, Bool.true_and, Bool.not_eq_true', List.contains_eq_mem, decide_eq_false_iff_not]
      exact freshHere x hx
    rw [feFailing]
    refine (if_pos here).trans (feFailing_eq_nil askedRest ?_ fun hm => ?_)
    · cases moves with
      | false => exact freshRest
      | true =>
        have apart := (List.nodup_append.1 (distinct rfl)).2.2
        intro x hx hmem
        rcases List.mem_append.1 hmem with old | new
        · exact freshRest x hx old
        · exact apart x new x hx rfl
    · exact (List.nodup_append.1 (distinct hm)).2.1

/-- The lanes of a LOCAL access performed in turn, with the register writes that they give. -/
def lanesNow (s : State) (a : Acc) (d : Dest) : State × List RegWrite :=
  a.lanes.foldl (fun p l =>
    let q := p.1.performLane 0 s.issuer.core a.form a.size l
    (q.1, p.2 ++ d.writes l q.2)) (s, [])

theorem performNow_eq (s : State) (a : Acc) (d : Dest) : s.performNow a d =
    (lanesNow s a d).2.foldl (fun u w => u.modSlice s.issuer.core w.slot w.apply) (lanesNow s a d).1 := rfl

theorem keepsGang_lanesNow (s : State) (a : Acc) (d : Dest) : KeepsGang s (lanesNow s a d).1 :=
  List.foldlRecOn (motive := fun p : State × List RegWrite => KeepsGang s p.1) a.lanes _ (.refl s)
    fun _ kept _ _ => kept.performLane ..

theorem performNow_issuer (s : State) (a : Acc) (d : Dest) : (s.performNow a d).issuer = s.issuer := by
  rw [performNow_eq]
  exact List.foldlRecOn (motive := fun u : State => u.issuer = s.issuer) _ _ (keepsGang_lanesNow s a d).issuer
    fun _ same _ _ => same

/-- The words of a LOCAL access are in the state that its ORD asks of them (06 R149). -/
def FeReady (ord : Nat) (store : Bool) (emptied words : List Nat) : Prop :=
  (ord = 5 → store = false → ∀ x ∈ words, emptied.contains x = false) ∧
  (ord = 6 → words.Nodup ∧ ∀ x ∈ words, emptied.contains x = store)

/-- How SYNC and TAKE leave the words of an access (06 R149). -/
def feMarked (ord : Nat) (store : Bool) (words : List Nat) (w : State) : State :=
  if ord == 6 && !store then words.foldl (fun u x => u.setFe x 1 true) w
  else if store && decide (5 ≤ ord) then words.foldl (fun u x => u.setFe x 1 false) w
  else w

theorem keepsGang_feMarked (ord : Nat) (store : Bool) (words : List Nat) (w : State) : KeepsGang w (feMarked ord store words w) := by
  unfold feMarked
  split
  · exact (KeepsGang.refl w).foldl words fun _ _ kept => kept.setFe ..
  · split
    · exact (KeepsGang.refl w).foldl words fun _ _ kept => kept.setFe ..
    · exact .refl w

/-- A LOCAL access whose words are ready is performed at once. -/
theorem localAccess_of_ready {s : State} {ord : Nat} {a : Acc}
    (ready : FeReady ord a.form.isStore s.emptyWords (laneWords a.size a.lanes)) (d : Dest) :
    s.localAccess ord a d = .ok (feMarked ord a.form.isStore (laneWords a.size a.lanes) (s.performNow a d)) := by
  obtain ⟨sync, take⟩ := ready
  have passes : (if (ord == 6 || (ord == 5 && !a.form.isStore)) = true then
      feFailing s.emptyWords a.size a.form.isStore (ord == 6) [] a.lanes else []) = [] := by
    split
    next asks =>
      simp only [Bool.or_eq_true, Bool.and_eq_true, Bool.not_eq_true', beq_iff_eq] at asks
      refine feFailing_eq_nil ?_ (by simp) fun six => (take (by simpa using six)).1
      rcases asks with six | ⟨five, load⟩
      · exact (take six).2
      · rw [load]
        exact sync five load
    next => rfl
  simp only [State.localAccess, passes, feMarked]

section
variable {m : MemF} {p : MemRow} {s v : State} {c t : Nat} {ok : List (Tgt × Nat)}

/-- A LOCAL form whose words are ready completes. -/
theorem exec_local_landed (hp : p ∈ memTable m) (land : Lands p m s c t v ok) (space : m.space = 0)
    (ready : FeReady m.ord.toNat p.kind.form.isStore v.emptyWords (laneWords p.kind.size (p.access m s v c ok).lanes)) :
    let w := feMarked m.ord.toNat p.kind.form.isStore (laneWords p.kind.size (p.access m s v c ok).lanes)
      (v.performNow (p.access m s v c ok) p.kind.dest)
    exec p.instr s = .next ((if p.acquires m then w.acquireNow c m.scope.toNat else w).advanceAll 8) := by
  intro w
  have core : w.issuer.core = c := by
    rw [(keepsGang_feMarked ..).issuer, performNow_issuer]
    exact (solo_landed land).1
  refine exec_memTable_landed hp land ?_
  have run := localAccess_of_ready (s := v) (a := p.access m s v c ok) ready p.kind.dest
  simp only [landedPart, space, run, bind, Except.bind]
  exact congrArg (fun k => Except.ok ((if p.acquires m then w.acquireNow k m.scope.toNat else w).advanceAll 8)) core

end

section
variable {ord : Nat} {words : List Nat} {w : State}

theorem feMarked_of_lt {store : Bool} (h : ord < 5) : feMarked ord store words w = w := by
  have six : (ord == 6) = false := by simp; omega
  have five : decide (5 ≤ ord) = false := by simp; omega
  simp [feMarked, six, five]

theorem feMarked_store (h : 5 ≤ ord) : feMarked ord true words w = words.foldl (fun u x => u.setFe x 1 false) w := by
  simp [feMarked, h]

theorem feMarked_sync_load : feMarked 5 false words w = w := rfl

theorem feMarked_take_load : feMarked 6 false words w = words.foldl (fun u x => u.setFe x 1 true) w := rfl

end

/-- Settles O4: with its words ready every lane is performed in the instruction, and ORD says how the words are marked after. -/
theorem localForms : Obligations.LocalForms := by
  intro m p hp s v c t ok _ land space a store words w fin
  have completes {u : State} (ready : FeReady m.ord.toNat store v.emptyWords words) (marks : feMarked m.ord.toNat store words w = u) :
      exec p.instr s = .next (fin u) := by
    rw [← marks]
    exact exec_local_landed hp land space ready
  refine ⟨fun plain => ?_, fun sync stores => ?_, fun sync loads full => ?_, fun take distinct asked => ?_⟩
  · exact completes ⟨by omega, by omega⟩ (feMarked_of_lt plain)
  · rw [sync, stores] at completes
    exact completes ⟨by simp, by simp⟩ (feMarked_store (by decide))
  · rw [sync, loads] at completes
    exact completes ⟨fun _ _ => full, by simp⟩ feMarked_sync_load
  · rw [take] at completes
    refine completes ⟨by simp, fun _ => ⟨distinct, asked⟩⟩ ?_
    cases store
    · exact feMarked_take_load
    · exact feMarked_store (by decide)

end Sys2Proof.Proofs

/-! What a LOCAL form leaves as it was (06 R146, R148, R149): the bytes that its lanes do not store to, and its slice's S and P registers,
FPCTL and FPFLAGS. -/

namespace Sys2Proof.Proofs

open Sys2Proof.Machine Sys2Proof.Claim

/-! ### Bytes that are not written -/

theorem tget_tdel_of_ne {β : Type} (d : β) {n k : Nat} (h : k ≠ n) : ∀ t : Tab β, tget d (tdel t n) k = tget d t k
  | [] => rfl
  | (i, x) :: t => by
    rw [tdel]
    split
    next hi => rw [tget, if_neg (by omega)]
    next => rw [tget, tget, tget_tdel_of_ne d h t]

theorem mget_mset_of_ne {m : Memory} {a k : Nat} (b : Byte) (h : k ≠ a) : mget (mset m a b) k = mget m k := by
  unfold mget mset
  split
  · exact tget_tdel_of_ne 0 h m
  · exact tget_tset_of_ne 0 m b h

theorem mget_mwrite_of_outside {k : Nat} : ∀ {n a v : Nat} {m : Memory}, k < a ∨ a + n ≤ k → mget (mwrite m a n v) k = mget m k
  | 0, _, _, _, _ => rfl
  | n + 1, a, v, m, h => by
    rw [mwrite, mget_mwrite_of_outside (by omega), mget_mset_of_ne _ (by omega)]

theorem breakResv_mem (s : State) (key n : Nat) : (s.breakResv key n).mem = s.mem := by
  unfold State.breakResv
  split <;> rfl

theorem mget_write_of_outside {s : State} {key n v k : Nat} (h : k < key ∨ key + n ≤ k) :
    mget (s.write key n v).mem k = mget s.mem k := by
  unfold State.write
  split
  · rfl
  · exact (mget_mwrite_of_outside h).trans (by rw [breakResv_mem])

theorem mget_storeLane_of_outside {s : State} {n k : Nat} {l : LaneAcc} (h : k < l.pa ∨ l.pa + max 1 n ≤ k) :
    mget (s.storeLane n l).mem k = mget s.mem k := by
  unfold State.storeLane
  split
  · exact mget_write_of_outside (by omega)
  · exact mget_write_of_outside (by omega)

/-- The forms that LOCAL accepts: loads, stores and atomics (07 R190). -/
inductive LocalKind : AccForm → Prop where
  | load : LocalKind .load
  | store : LocalKind .store
  | atomic (f : AtomForm) : LocalKind (.atomic f)

/-- A lane of a LOCAL form writes no byte beside its own. -/
theorem mget_performLane_of_outside {s : State} {op c n k : Nat} {f : AccForm} {l : LaneAcc} (hf : LocalKind f)
    (h : k < l.pa ∨ l.pa + max 1 n ≤ k) : mget (s.performLane op c f n l).1.mem k = mget s.mem k := by
  cases hf with
  | load => rfl
  | store => exact mget_storeLane_of_outside h
  | atomic f =>
    rw [State.performLane]
    split
    · exact mget_write_of_outside (by omega)
    · rfl

theorem performLane_load (s : State) (op c n : Nat) (l : LaneAcc) : s.performLane op c .load n l = (s, s.readLane n l) := rfl

section
variable (s : State) (a : Acc) (d : Dest)

/-- Writing registers writes no memory. -/
theorem performNow_mem : (s.performNow a d).mem = (lanesNow s a d).1.mem := by
  rw [performNow_eq]
  exact List.foldlRecOn (motive := fun u : State => u.mem = (lanesNow s a d).1.mem) _ _ rfl fun _ same _ _ => same

theorem mget_performNow_of_outside {k : Nat} (hf : LocalKind a.form) (h : ∀ l ∈ a.lanes, k < l.pa ∨ l.pa + max 1 a.size ≤ k) :
    mget (s.performNow a d).mem k = mget s.mem k := by
  rw [performNow_mem]
  exact List.foldlRecOn (motive := fun q : State × List RegWrite => mget q.1.mem k = mget s.mem k) a.lanes _ rfl
    fun _ same l hl => (mget_performLane_of_outside hf (h l hl)).trans same

theorem performNow_mem_of_load (hf : a.form = .load) : (s.performNow a d).mem = s.mem := by
  rw [performNow_mem]
  exact List.foldlRecOn (motive := fun q : State × List RegWrite => q.1.mem = s.mem) a.lanes _ rfl
    fun _ same l _ => by rw [hf, performLane_load]; exact same

end

/-- Marking words writes no byte. -/
theorem feMarked_mem (ord : Nat) (store : Bool) (words : List Nat) (w : State) : (feMarked ord store words w).mem = w.mem := by
  have marked (empty : Bool) : (words.foldl (fun u x => u.setFe x 1 empty) w).mem = w.mem :=
    List.foldlRecOn (motive := fun u : State => u.mem = w.mem) words _ rfl fun _ same _ _ => same
  unfold feMarked
  split
  · exact marked true
  · split
    · exact marked false
    · rfl

theorem acquireNow_mem (s : State) (c scope : Nat) : (s.acquireNow c scope).mem = s.mem := by
  unfold State.acquireNow
  split <;> rfl

theorem advanceAll_mem (s : State) (n : Nat) : (s.advanceAll n).mem = s.mem :=
  List.foldlRecOn (motive := fun u : State => u.mem = s.mem) s.issuer.slots _ rfl fun _ same _ _ => same

/-! ### Registers that are not written -/

/-- `y` has the P registers, FPCTL and FPFLAGS of `x`, and, but for a scalar form, its S registers. -/
structure KeepsUniform (scalar : Bool) (x y : Slice) : Prop where
  p : y.p = x.p
  fpctl : y.fpctl = x.fpctl
  fpflags : y.fpflags = x.fpflags
  s : scalar = false → y.s = x.s

namespace KeepsUniform

variable {scalar : Bool}

theorem refl (x : Slice) : KeepsUniform scalar x x := ⟨rfl, rfl, rfl, fun _ => rfl⟩

theorem trans {x y z : Slice} (h : KeepsUniform scalar x y) (h' : KeepsUniform scalar y z) : KeepsUniform scalar x z :=
  ⟨h'.p.trans h.p, h'.fpctl.trans h.fpctl, h'.fpflags.trans h.fpflags, fun v => (h'.s v).trans (h.s v)⟩

theorem of_woken {x y : Slice} (h : SameButWoken x y) : KeepsUniform scalar x y := by
  obtain ⟨r, w, rfl⟩ := h
  exact ⟨rfl, rfl, rfl, fun _ => rfl⟩

theorem advance (x : Slice) (n : Nat) : KeepsUniform scalar x (x.advance n) := by
  constructor <;> simp

/-- The register writes of a lane are of V, or, for a scalar form, of S. -/
theorem apply {d : Dest} (vector : scalar = false → ∀ r n, d ≠ .s r n) {l : LaneAcc} {v : Nat} {w : RegWrite}
    (hw : w ∈ d.writes l v) (x : Slice) : KeepsUniform scalar x (w.apply x) := by
  cases d with
  | none => cases hw
  | v r n =>
    obtain ⟨i, -, rfl⟩ := List.mem_map.1 hw
    exact ⟨rfl, rfl, rfl, fun _ => rfl⟩
  | s r n =>
    obtain ⟨i, -, rfl⟩ := List.mem_map.1 hw
    exact ⟨rfl, rfl, rfl, fun h => absurd rfl (vector h r n)⟩

/-- A change of one slice that keeps its own registers keeps those of every slice. -/
theorem modSlice (s : State) (c i : Nat) {f : Slice → Slice} (hf : ∀ x, KeepsUniform scalar x (f x)) (d t : Nat) :
    KeepsUniform scalar (s.slice d t) ((s.modSlice c i f).slice d t) := by
  by_cases hk : skey d t = skey c i
  · have at_ (v : State) : v.slice d t = v.slice c i := congrArg (tget ({} : Slice) v.slices) hk
    rw [at_, at_, State.slice_modSlice_self]
    exact hf _
  · rw [State.modSlice, State.slice_setSlice_of_ne _ _ hk]
    exact refl _

end KeepsUniform

/-- The register writes of an access are those of its lanes' values. -/
theorem mem_lanesNow_writes {s : State} {a : Acc} {d : Dest} : ∀ w ∈ (lanesNow s a d).2, ∃ l v, w ∈ d.writes l v :=
  List.foldlRecOn (motive := fun q : State × List RegWrite => ∀ w ∈ q.2, ∃ l v, w ∈ d.writes l v) a.lanes _ (by simp)
    fun q old l _ w hw => by
      rcases List.mem_append.1 hw with before | new
      · exact old w before
      · exact ⟨l, _, new⟩

theorem keepsUniform_performNow {scalar : Bool} (s : State) (a : Acc) {d : Dest} (vector : scalar = false → ∀ r n, d ≠ .s r n)
    (c t : Nat) : KeepsUniform scalar (s.slice c t) ((s.performNow a d).slice c t) := by
  rw [performNow_eq]
  refine List.foldlRecOn (motive := fun u : State => KeepsUniform scalar (s.slice c t) (u.slice c t)) _ _
    (.of_woken ((keepsGang_lanesNow s a d).slice c t)) fun u kept w hw => ?_
  obtain ⟨l, v, written⟩ := mem_lanesNow_writes w hw
  exact kept.trans (.modSlice u _ _ (.apply vector written) c t)

theorem slice_acquireNow (s : State) (c scope d t : Nat) : (s.acquireNow c scope).slice d t = s.slice d t := by
  unfold State.acquireNow
  split <;> rfl

theorem keepsUniform_advanceAll {scalar : Bool} (s : State) (n c t : Nat) :
    KeepsUniform scalar (s.slice c t) ((s.advanceAll n).slice c t) :=
  List.foldlRecOn (motive := fun u : State => KeepsUniform scalar (s.slice c t) (u.slice c t)) s.issuer.slots _ (.refl _)
    fun u kept _ _ => kept.trans (.modSlice u _ _ (.advance · n) c t)

/-! ### The rows of the table in LOCAL -/

/-- The checks of LOCAL addresses walk no table (06 R146). -/
theorem resolve_local (s : State) (n : Nat) (acc : Access) (noSys : Bool) (ts : List Tgt) : (s.resolve 0 n acc noSys ts).s = s := by
  have placed (c slot : Nat) (a : Int) : (s.place c slot 0 n acc noSys a).1 = s := by
    unfold State.place
    dsimp only
    split
    · rfl
    split
    · rfl
    change (if _ then _ else if _ then _ else _ : State × Place).1 = s
    split
    · rfl
    · split <;> rfl
  refine List.foldlRecOn (motive := fun r : Resolved => r.s = s) ts _ rfl fun r same q _ => ?_
  have here := placed s.issuer.core q.slot q.a
  rw [same]
  split
  next hp => rw [hp] at here; exact here
  next hp => rw [hp] at here; exact here

section
variable {m : MemF} {p : MemRow}

theorem localKind_of_wf (hp : p ∈ memTable m) (wf : p.instr.wf = true) (space : m.space = 0) : LocalKind p.kind.form := by
  rcases List.mem_append.1 hp with hp | hp
  · simp only [List.mem_cons, List.not_mem_nil, or_false] at hp
    rcases hp with rfl | rfl | rfl | rfl | rfl | rfl
    · exact .load
    · exact .store
    · exact .load
    · exact .store
    · simp [Instr.wf, MemF.ldrOk, MemF.codes, space] at wf
    · simp [Instr.wf, MemF.stcOk, MemF.codes, space] at wf
  · obtain ⟨f, -, rfl⟩ := List.mem_map.1 hp
    exact .atomic f.2

theorem ord_of_wf (hp : p ∈ memTable m) (wf : p.instr.wf = true) : m.ord.toNat ≤ 6 := by
  rcases List.mem_append.1 hp with hp | hp
  · simp only [List.mem_cons, List.not_mem_nil, or_false] at hp
    rcases hp with rfl | rfl | rfl | rfl | rfl | rfl <;>
      simp [Instr.wf, MemF.load, MemF.store, MemF.sload, MemF.sstore, MemF.ldrOk, MemF.stcOk, MemF.codes] at wf <;> omega
  · obtain ⟨f, hf, rfl⟩ := List.mem_map.1 hp
    fin_cases hf <;> simp [Instr.wf, MemF.atom, MemF.atomF, MemF.codes] at wf <;> omega

/-- Only SLD and SST name S registers (07 R191, R192). -/
theorem dest_of_vector (hp : p ∈ memTable m) (vector : p.kind.scalar = false) (r n : Nat) : p.kind.dest ≠ .s r n := by
  rcases List.mem_append.1 hp with hp | hp
  · simp only [List.mem_cons, List.not_mem_nil, or_false] at hp
    rcases hp with rfl | rfl | rfl | rfl | rfl | rfl <;> simp at vector ⊢
  · obtain ⟨f, -, rfl⟩ := List.mem_map.1 hp
    simp

end

/-! ### The form as a whole -/

section
variable {m : MemF} {p : MemRow} {s v w : State} {c t : Nat} {ok : List (Tgt × Nat)}

/-- The acquire and the move past a form write no byte. -/
theorem finished_mem (w : State) (acquires : Bool) (c scope n : Nat) :
    ((if acquires then w.acquireNow c scope else w).advanceAll n).mem = w.mem := by
  rw [advanceAll_mem]
  split
  · exact acquireNow_mem ..
  · rfl

theorem keepsUniform_finished {scalar : Bool} (w : State) (acquires : Bool) (k scope n c t : Nat) :
    KeepsUniform scalar (w.slice c t) (((if acquires then w.acquireNow k scope else w).advanceAll n).slice c t) := by
  refine .trans ?_ (keepsUniform_advanceAll ..)
  split
  · rw [slice_acquireNow]
    exact .refl _
  · exact .refl _

/-- The lanes of a LOCAL form land in the state in which the issue has been counted. -/
theorem landed_local (land : Lands p m s c t v ok) (space : m.space = 0) : v = begun s c t := by
  have lands := land.lands
  rw [space] at lands
  exact (congrArg Resolved.s lands).symm.trans (resolve_local ..)

/-- The lanes of a request lie where their targets landed. -/
theorem pa_of_mem_access {l : LaneAcc} (hl : l ∈ (p.access m s v c ok).lanes) : ∃ q ∈ ok, q.2 = l.pa := by
  obtain ⟨q, hq, rfl⟩ := List.mem_map.1 hl
  exact ⟨q, hq, rfl⟩

end

/-- Settles O23: of the steps of a LOCAL form only its lanes write bytes, each its own, and only the writes of its destination
change registers. -/
theorem localFormsFrame : Obligations.LocalFormsFrame := by
  intro m p hp s v c t ok wf land space words store sync take
  have ready : FeReady m.ord.toNat p.kind.form.isStore v.emptyWords (laneWords p.kind.size (p.access m s v c ok).lanes) :=
    ⟨fun five => sync (BitVec.eq_of_toNat_eq five), fun six => take (BitVec.eq_of_toNat_eq six)⟩
  obtain rfl := landed_local land space
  refine ⟨_, exec_local_landed hp land space ready, fun key outside => ?_, fun loads key => ?_, ?_⟩
  · rw [finished_mem, feMarked_mem]
    refine mget_performNow_of_outside _ _ _ (localKind_of_wf hp wf space) fun l hl => ?_
    obtain ⟨q, hq, same⟩ := pa_of_mem_access hl
    rw [← same]
    exact outside q hq
  · rw [finished_mem, feMarked_mem, performNow_mem_of_load _ _ _ loads]
    rfl
  · have issued : KeepsUniform p.kind.scalar (s.slice c t) ((begun s c t).slice c t) := by
      rw [slice_begun]
      exact ⟨rfl, rfl, rfl, fun _ => rfl⟩
    have performed := keepsUniform_performNow (begun s c t) (p.access m s (begun s c t) c ok) (dest_of_vector hp) c t
    have marked := (keepsGang_feMarked m.ord.toNat p.kind.form.isStore (laneWords p.kind.size (p.access m s (begun s c t) c ok).lanes)
      ((begun s c t).performNow (p.access m s (begun s c t) c ok) p.kind.dest)).slice c t
    obtain ⟨hp, fpctl, fpflags, hs⟩ := ((issued.trans performed).trans (.of_woken marked)).trans (keepsUniform_finished ..)
    exact ⟨hs, hp, fpctl, fpflags⟩

end Sys2Proof.Proofs

/-! LWIN and CLUSTER forms (06 R152 to R155, R169 to R174): a message to each home that a lane names; an access of expanded blocks,
performed at once or queued. -/

namespace Sys2Proof.Proofs

open Sys2Proof.Machine Sys2Proof.Claim

/-! ### The gang after a request -/

theorem openOp_issuer (s : State) (o : Op) : (s.openOp o).issuer = s.issuer :=
  List.foldlRecOn (motive := fun u : State => u.issuer = s.issuer) o.members _ rfl fun _ same _ _ => same

theorem noteAcquire_issuer (s : State) (o : Op) (acq : Bool) (scope : Nat) : (s.noteAcquire o acq scope).issuer = s.issuer := by
  unfold State.noteAcquire
  split
  · exact List.foldlRecOn (motive := fun u : State => u.issuer = s.issuer) o.members _ rfl fun _ same _ _ => same
  · rfl

theorem advanceAll_issuer (s : State) (n : Nat) : (s.advanceAll n).issuer = s.issuer :=
  List.foldlRecOn (motive := fun u : State => u.issuer = s.issuer) s.issuer.slots _ rfl fun _ same _ _ => same

theorem lwinAccess_issuer (s : State) (g : BitVec 4) (k : MemKind) (a : Acc) (acq : Bool) (scope : Nat) :
    (s.lwinAccess g k a acq scope).issuer = s.issuer := by
  unfold State.lwinAccess
  dsimp only
  exact List.foldlRecOn (motive := fun u : State => u.issuer = s.issuer) _ _
    ((noteAcquire_issuer ..).trans (openOp_issuer ..)) fun _ same _ _ => same

namespace KeepsGang

variable {s t : State}

theorem poolLow (h : KeepsGang s t) (c why : Nat) : KeepsGang s (t.poolLow c why) := (h.modCluster ..).post _

theorem poolChanged (h : KeepsGang s t) (c : Nat) : KeepsGang s (t.poolChanged c) := by
  unfold State.poolChanged
  extract_lets woken
  have kept : KeepsGang s woken := h.wake _
  split
  · exact (kept.modCluster ..).poolLow ..
  · split
    · exact kept.modCluster ..
    · exact kept

theorem evictBlock (h : KeepsGang s t) (c b : Nat) : KeepsGang s (t.evictBlock c b) := by
  unfold State.evictBlock State.writeBack
  dsimp only
  split
  · exact ((h.modCluster ..).modCluster ..).poolChanged c
  · exact (h.modCluster ..).poolChanged c

theorem touchBlock (h : KeepsGang s t) {c b : Nat} {write : Bool} {keep : List Nat} {u : State}
    (touched : t.touchBlock c b write keep = some u) : KeepsGang s u := by
  unfold State.touchBlock at touched
  extract_lets k dirty put at touched
  have kept {v : State} (hv : KeepsGang s v) : KeepsGang s (put v) := by
    simp only [put]
    split
    · exact (hv.modCluster ..).poolChanged c
    · exact hv.modCluster ..
  split at touched
  · cases touched
    exact kept h
  · split at touched
    · cases touched
      exact kept (h.evictBlock ..)
    · cases touched

theorem touchBlocks (h : KeepsGang s t) {c : Nat} {write : Bool} {bs : List Nat} {u : State}
    (touched : t.touchBlocks c write bs = some u) : KeepsGang s u := by
  have each (keep : List Nat) : ∀ (l : List Nat) {v : State}, KeepsGang s v →
      l.foldlM (fun (v : State) b => v.touchBlock c b write keep) v = some u → KeepsGang s u := by
    intro l
    induction l with
    | nil =>
      intro v hv eq
      cases eq
      exact hv
    | cons b l ih =>
      intro v hv eq
      rw [List.foldlM_cons] at eq
      obtain ⟨v', here, rest⟩ := Option.bind_eq_some_iff.1 eq
      exact ih (hv.touchBlock here) rest
  exact each bs bs h touched

theorem cleanBlock (h : KeepsGang s t) (c b : Nat) (leave : Bool) : KeepsGang s (t.cleanBlock c b leave) := by
  unfold State.cleanBlock State.writeBack
  dsimp only
  split
  · split
    · exact ((h.modCluster ..).modCluster ..).poolChanged c
    · exact h.modCluster ..
  · exact h

theorem performCluster (h : KeepsGang s t) (op core : Nat) (a : Acc) : KeepsGang s (t.performCluster op core a) := by
  unfold State.performCluster
  dsimp only
  split
  · exact h.foldl _ fun _ _ hu => hu.cleanBlock ..
  · exact h.foldl _ fun _ _ hu => hu.cleanBlock ..
  · exact h.foldl _ fun _ _ hu => hu.cleanBlock ..
  · exact (h.performAcc ..).foldl _ fun _ _ hu => hu.modOp ..

end KeepsGang

/-! ### The forms -/

theorem lwinForms : LwinForms := by
  intro m p hp s v c t ok _ land space
  refine exec_memTable_landed hp land ?_
  have core : (v.lwinAccess m.g p.kind (p.access m s v c ok) (p.acquires m && p.kind.dest != .none) m.scope.toNat).issuer.core = c := by
    rw [lwinAccess_issuer]
    exact (solo_landed land).1
  rw [landedPart, space]
  exact congrArg (fun k => Except.ok ((p.acquired m k _).advanceAll 8)) core

theorem memoryIdle : MemoryIdle := fun _ _ hp _ _ _ idle legal => movesOn_of_idle hp idle legal

/-- A CLUSTER access with its blocks expanded, a writer's in the pool, is performed at once or queued (06 R170 to R174). -/
theorem clusterAccess_of_room {v w : State} {c : Nat} (core : v.issuer.core = c) (g : BitVec 4) (k : MemKind) (a : Acc) (acq : Bool)
    (scope : Nat) :
    let q := clusterOf c
    let blocks := (a.lanes.map fun l => (l.pa - clusterBase q) / 256).eraseDups
    let write := k.form != .load
    let now := (blocks.all fun b => (v.cluster q).grainer.any (·.1 == b)) && !w.clusterBehind c (w.taking g)
    (write = true → v.poolOlder q = false ∧ (v.cluster q).admits blocks = true) → v.touchBlocks q write blocks = some w →
    let o : Op := { w.memOp g (k.code 2) k a.lanes with left := if now then 0 else 1 }
    let x := (w.openOp o).noteAcquire o acq scope
    v.clusterAccess g k a acq scope = .ok ((if now then x.performCluster o.id c a
      else x.send c (nodeCluster q) o.asid (some o.id) (.cluster a)).advanceAll 8) := by
  subst core
  intro q blocks write now room touched o x
  unfold State.clusterAccess
  dsimp only
  split
  next load =>
    have reads : write = false := by simp [write, load]
    rw [reads] at touched
    simp only [Bool.false_and, Bool.false_eq_true, if_false, touched, blocks, q]
    rfl
  next stores =>
    have writes : write = true := by simpa [write] using stores
    obtain ⟨first, admitted⟩ := room writes
    rw [writes] at touched
    simp only [first, admitted, touched, Bool.true_and, Bool.not_true, Bool.false_eq_true, if_false, blocks, q]
    rfl

theorem clusterForms : ClusterForms := by
  intro m p hp s v w c t ok _ land space k a blocks write now room touched o x
  obtain ⟨core, -, taking⟩ := solo_landed land
  have kept : KeepsGang v w := (KeepsGang.refl v).touchBlocks touched
  refine exec_memTable_landed hp land ?_
  have run := clusterAccess_of_room core m.g p.kind a (p.acquires m && p.kind.dest != .none) m.scope.toNat room touched
  rw [kept.taking, taking] at run
  have issuer : ((if now then x.performCluster o.id c a
      else x.send c (nodeCluster k) o.asid (some o.id) (.cluster a)).advanceAll 8).issuer.core = c := by
    have opened : x.issuer = v.issuer := ((noteAcquire_issuer ..).trans (openOp_issuer ..)).trans kept.issuer
    rw [advanceAll_issuer]
    split
    · rw [((KeepsGang.refl x).performCluster ..).issuer, opened, core]
    · rw [State.send_issuer, opened, core]
  rw [landedPart, space]
  change (do let u ← v.clusterAccess m.g p.kind a (p.acquires m && p.kind.dest != .none) m.scope.toNat
             pure (p.acquired m u.issuer.core u)) = Except.ok _
  rw [run]
  exact congrArg (fun k => Except.ok (p.acquired m k _)) issuer

/-- Settles O44: the request of a form whose lanes land is the claim's in LWIN and in CLUSTER, whose blocks are expanded without leaving
the gang; without an active lane none is made. -/
theorem remoteLocalAndClusterForms : Obligations.RemoteLocalAndClusterForms :=
  ⟨memoryIdle, lwinForms, clusterForms⟩

end Sys2Proof.Proofs

/-! Messages, counts of them, the end of a handler and service requests (06 R161 to R166) of a slice by itself. -/

namespace Sys2Proof.Proofs

open Sys2Proof.Machine Sys2Proof.Claim

/-! ### The frame of a form that acts -/

section
variable {s u : State} {h : Head} {c t : Nat} {g : BitVec 4}

theorem quiet_of_acts (acts : Acts s c t g h.srcs) : h.quiet (s.slice c t) :=
  ⟨acts.solo.held, fun _ => acts.free, acts.solo.ready⟩

section
variable {body : State → Except Stop State}

/-- A slice that acts runs a form that is not privileged, a memory access too. -/
theorem gangwise_of_acts (acts : Acts s c t g h.srcs) (hb : body (begun s c t) = .ok u) (ok : h.ok = true := by rfl)
    (rdv : h.rdv = false := by rfl) (priv : h.priv = false := by rfl) :
    gangwise h s body = .next (if h.adv = true then u.advanceAll h.len else u) := by
  rw [gangwise_solo acts.solo.core acts.solo.gang ok (by simp [priv]) (quiet_of_acts acts) (by simp [rdv])]
  rw [show s.setSlice c t (s.slice c t).issued = begun s c t from rfl, hb]

theorem gangwise_stops_of_acts {e : Stop} (acts : Acts s c t g h.srcs) (hb : body (begun s c t) = .error e) (ok : h.ok = true := by rfl)
    (rdv : h.rdv = false := by rfl) (priv : h.priv = false := by rfl) : gangwise h s body = s.stop h.len e := by
  rw [gangwise_solo acts.solo.core acts.solo.gang ok (by simp [priv]) (quiet_of_acts acts) (by simp [rdv])]
  rw [show s.setSlice c t (s.slice c t).issued = begun s c t from rfl, hb]

end

variable {body : State → Nat → Nat → Except Stop State}

/-- The active slice runs the body of a uniform form. -/
theorem uniformly_of_acts (acts : Acts s c t g h.srcs) (hb : body (begun s c t) c t = .ok u) (hu : u.issuer = s.issuer)
    (ok : h.ok = true := by rfl) (rdv : h.rdv = false := by rfl) (priv : h.priv = false := by rfl) :
    uniformly h g s body = .next (if h.adv = true then u.advanceAll h.len else u) := by
  rw [uniformly_solo acts.solo.core acts.solo.gang ok (by simp [priv]) (quiet_of_acts acts) (by simp [rdv])
    (by rw [if_neg acts.on]; exact hb) hu]
  rw [State.advanceAll_solo h.len (hu ▸ acts.solo.core) (hu ▸ acts.solo.gang)]

/-- A uniform form whose body parks its members parks them. -/
theorem uniformly_parks_of_acts {l : List (Nat × Park)} (acts : Acts s c t g h.srcs) (hb : body (begun s c t) c t = .error (.parks l))
    (ok : h.ok = true := by rfl) (rdv : h.rdv = false := by rfl) (priv : h.priv = false := by rfl) :
    uniformly h g s body = s.stop h.len (.parks l) := by
  have on : ((begun s c t).slice c t).active g ≠ 0 := by rw [slice_begun]; exact acts.on
  have run : (if ((begun s c t).slice c t).active g = 0 then .ok (begun s c t)
      else ((begun s c t).slice c t).laned t g (body (begun s c t) c t) : Except Stop State) = .error (.parks l) := by
    rw [if_neg on, hb]
    rfl
  unfold uniformly simt
  refine gangwise_stops_of_acts acts ?_ ok rdv priv
  simp only [begun_slots acts.solo, begun_core acts.solo, gangFault, List.filterMap_cons, List.filterMap_nil, List.foldlM_cons,
    List.foldlM_nil, run, List.head?_nil, Option.map_none]
  rfl

end

/-! ### SEND and SENDH -/

section
variable {s : State} {c t : Nat} {g : BitVec 4}

theorem msgB_of_code {b : BitVec 6} {n : BitVec 1} (code : codeOk b = true) (any : n = 1 → b = 48) : msgB b 1 n = true := by
  have tag : (n == 0 || b == 48) = true := by
    rcases BitVec.eq_zero_or_eq_one n with rfl | rfl
    · rfl
    · rw [any rfl]; rfl
  rw [msgB, code, tag]
  rfl

/-- A message to a core that the context reaches leaves, once the release allows it and the interface has an entry (R162). -/
theorem sendForm_completes {r : BitVec 1} {a b : BitVec 6} (handler : Bool) (acts : Acts s c t g ((0, a.toNat) :: sbSrc b 1))
    (code : codeOk b = true) (near : ((s.slice c t).uniform b 1).toNat ≤ 255)
    (reached : (begun s c t).reach (s.slice c t).asid ((s.slice c t).uniform b 1).toNat = true)
    (released : r = 1 → (begun s c t).releaseReady c t 4 = true) (room : (begun s c t).outbound c ≤ 15) :
    sendForm handler g r a b 1 s = .next (((begun s c t).send c ((s.slice c t).uniform b 1).toNat (s.slice c t).asid none
      (.msg (sendMsg ((begun s c t).slice c t) c a.toNat) handler false)).advanceAll 4) := by
  have release (rel : r = 1) : (begun s c t).releaseGang g 4 = .ok () := by
    rw [State.releaseGang, begun_slots acts.solo, begun_core acts.solo]
    exact if_pos (by simp [released rel])
  refine gangwise_of_acts acts ?_ (msgB_of_code code (by simp))
  have home : ((begun s c t).slice c t).uniform b 1 = (s.slice c t).uniform b 1 := by rw [slice_begun]; rfl
  have asid : ((begun s c t).slice c t).asid = (s.slice c t).asid := by rw [slice_begun]; rfl
  simp only [taking_begun acts, begun_core acts.solo, home, asid, List.filter_cons, List.filter_nil, Nat.not_lt.2 near, if_false, reached,
    if_true, Option.isSome_none, Bool.false_eq_true, List.length_singleton]
  rw [if_neg (show ¬ 16 < (begun s c t).outbound c + 1 by omega), List.foldl_cons, List.foldl_nil, home, asid]
  split
  next rel =>
    rw [release (by simpa using rel)]
    rfl
  next => rfl

end

section
variable {s : State} {c t : Nat} {g : BitVec 4} {n : BitVec 1} {b : BitVec 6}

/-! ### The mailbox (R163) -/

/-- The first message that matches is taken, and the others stay. -/
theorem takeMsg_of_first {p : Msg → Bool} {m : Msg} (hm : p m = true) (rest : List Msg) : ∀ {l : List Msg}, l.any p = false →
    takeMsg p (l ++ m :: rest) = some (m, l ++ rest)
  | [], _ => if_pos hm
  | k :: l, h => by
    obtain ⟨hk, hl⟩ := Bool.or_eq_false_iff.1 h
    rw [List.cons_append, takeMsg, if_neg (by simp [hk]), takeMsg_of_first hm rest hl]
    rfl

theorem takeMsg_eq_none {p : Msg → Bool} : ∀ {l : List Msg}, l.any p = false → takeMsg p l = none
  | [], _ => rfl
  | k :: l, h => by
    obtain ⟨hk, hl⟩ := Bool.or_eq_false_iff.1 h
    rw [takeMsg, if_neg (by simp [hk]), takeMsg_eq_none hl]
    rfl

/-- The messages that a member of this slice matches. -/
abbrev matching (s : State) (c t : Nat) (n : BitVec 1) (b : BitVec 6) (m : Msg) : Bool :=
  m.hits (s.slice c t).asid n ((s.slice c t).uniform b 1)

theorem waitm_completes (acts : Acts s c t g (sbSrc b 1)) (code : codeOk b = true) (any : n = 1 → b = 48)
    (waiting : (s.core c).mailbox.any (matching s c t n b) = true) :
    exec (.waitm g n b 1) s = .next ((begun s c t).advanceAll 4) := by
  refine show execWaitm g n b 1 s = _ from uniformly_of_acts (h := { ok := msgB b 1 n, srcs := sbSrc b 1 }) acts ?_ rfl
    (msgB_of_code code any)
  rw [slice_begun]
  exact if_pos waiting

theorem mcnt_completes {d : BitVec 6} (acts : Acts s c t g (sbSrc b 1)) (code : codeOk b = true) (any : n = 1 → b = 48)
    (hd : d.toNat < 32) : exec (.mcnt g d n b 1) s = .next (((begun s c t).modSlice c t fun y =>
      y.setS d.toNat (w32 ((s.core c).mailbox.filter (matching s c t n b)).length)).advanceAll 4) := by
  refine show execMcnt g d n b 1 s = _ from gangwise_of_acts (h := { ok := sOk d && msgB b 1 n, srcs := sbSrc b 1 }) acts ?_
    (by rw [sOk_eq_true hd, msgB_of_code code any]; rfl)
  rw [taking_begun acts, members_begun acts.solo, begun_core acts.solo, State.modSlice, slice_begun, begun, State.setSlice_setSlice]
  rfl

/-- RECVM takes the first message that matches, and the core acquires (R163). -/
theorem recvm_completes {d : BitVec 6} {l rest : List Msg} {m : Msg} (acts : Acts s c t g (sbSrc b 1)) (code : codeOk b = true)
    (any : n = 1 → b = 48) (box : (s.core c).mailbox = l ++ m :: rest) (before : l.any (matching s c t n b) = false)
    (hm : matching s c t n b m = true) :
    exec (.recvm g d n b 1) s = .next (((((begun s c t).modCore c fun k => { k with mailbox := l ++ rest }).setSlice c t
      ((s.slice c t).issued.writeLanes d.toNat (List.range 8) fun i => m.words.getD i 0)).acquireNow c 4).advanceAll 4) := by
  refine show execRecvm g d n b 1 s = _ from gangwise_of_acts (h := { ok := msgB b 1 n, srcs := sbSrc b 1, mem := true }) acts ?_
    (msgB_of_code code any)
  have taken : takeMsg (fun m => m.hits ((begun s c t).slice c t).asid n (((begun s c t).slice c t).uniform b 1))
      ((begun s c t).core c).mailbox = some (m, l ++ rest) := by
    rw [slice_begun]
    exact (congrArg (takeMsg _) box).trans (takeMsg_of_first hm rest before)
  simp only [taking_begun acts, begun_core acts.solo, List.foldlM_cons, List.foldlM_nil, taken]
  rw [slice_begun]
  rfl

/-- The park of a receiver that finds no message, and what it is in a handler (R163, R165). -/
theorem stop_mailParks (solo : Solo s c t (sbSrc b 1)) : s.stop 4 ((begun s c t).mailParks n b 1) =
    .next (if (s.slice c t).handler then s.gangTrap 4 { code := 0x18 }
      else s.parkGang fun _ => .mailbox c (if n = 1 then none else some ((s.slice c t).uniform b 1))) := by
  have tag : mailPark c n (((begun s c t).slice c t).uniform b 1) =
      .mailbox c (if n = 1 then none else some ((s.slice c t).uniform b 1)) := by
    rw [slice_begun, mailPark]
    simp only [beq_iff_eq]
    rfl
  simp only [State.mailParks, begun_slots solo, begun_core solo, List.map_cons, List.map_nil, tag, State.stop, List.any_cons, List.any_nil,
    solo.gang, solo.core, blocksHandler, Bool.or_false, Bool.true_and, State.parkGang, List.foldl_cons, List.foldl_nil]
  split
  · rfl
  · simp

theorem waitm_parks (acts : Acts s c t g (sbSrc b 1)) (code : codeOk b = true) (any : n = 1 → b = 48)
    (none : (s.core c).mailbox.any (matching s c t n b) = false) :
    exec (.waitm g n b 1) s = s.stop 4 ((begun s c t).mailParks n b 1) := by
  refine show execWaitm g n b 1 s = _ from uniformly_parks_of_acts (h := { ok := msgB b 1 n, srcs := sbSrc b 1 }) acts ?_
    (msgB_of_code code any)
  rw [slice_begun]
  exact if_neg (by rw [← Bool.not_eq_true] at none; exact none)

theorem recvm_parks {d : BitVec 6} (acts : Acts s c t g (sbSrc b 1)) (code : codeOk b = true) (any : n = 1 → b = 48)
    (none : (s.core c).mailbox.any (matching s c t n b) = false) :
    exec (.recvm g d n b 1) s = s.stop 4 ((begun s c t).mailParks n b 1) := by
  refine show execRecvm g d n b 1 s = _ from gangwise_stops_of_acts (h := { ok := msgB b 1 n, srcs := sbSrc b 1, mem := true }) acts ?_
    (msgB_of_code code any)
  have absent : takeMsg (fun m => m.hits ((begun s c t).slice c t).asid n (((begun s c t).slice c t).uniform b 1))
      ((begun s c t).core c).mailbox = .none := by
    rw [slice_begun]
    exact takeMsg_eq_none none
  simp only [taking_begun acts, begun_core acts.solo, List.foldlM_cons, absent]
  rfl

end

/-! ### HRET -/

section
variable {s : State} {c t : Nat} {g : BitVec 4}

theorem hret_completes (acts : Acts s c t g []) (inside : (s.slice c t).handler = true) :
    exec (.hret g) s = .next (((begun s c t).modSlice c t fun x => { x with paths := x.paths.map fun _ => {} }).retire c t) := by
  refine show execHret g s = _ from gangwise_of_acts (h := { adv := false }) acts ?_
  simp only [taking_begun acts, begun_core acts.solo, List.any_cons, List.any_nil, slice_begun]
  exact if_neg (by simp [Slice.issued, inside])

theorem hret_misused (acts : Acts s c t g []) (outside : (s.slice c t).handler = false) :
    exec (.hret g) s = .next (s.gangTrap 4 { code := 0x01, lanes := [(t, (s.slice c t).active g)] }) := by
  refine show execHret g s = _ from gangwise_stops_of_acts (e := .fault { code := 0x01, lanes := [(t, (s.slice c t).active g)] })
    (h := { adv := false }) acts ?_
  simp only [taking_begun acts, begun_core acts.solo, List.any_cons, List.any_nil, slice_begun, State.faultAll, begun_slots acts.solo,
    List.map_cons, List.map_nil]
  exact if_pos (by simp [Slice.issued, outside])

end

/-! ### SVREQ (R166) -/

section
variable {s : State} {c t : Nat} {g : BitVec 4}

/-- Requests of lanes leave one after another; they change no slice that later lanes are read from. -/
theorem svreq_sends {x : Slice} (a : Nat) (dst : Nat → Nat) (raster : Nat → Bool) : ∀ (ls : List Nat) (u : State), u.slice c t = x →
    (ls.map fun l => (t, l)).foldl (fun u p => u.send c (dst p.1) (u.slice c p.1).asid none
      (.service c (raster p.1) ((List.range 8).map fun i => (u.slice c p.1).vr (a + i) p.2) 0)) u =
    ls.foldl (fun u l => u.send c (dst t) x.asid none (.service c (raster t) ((List.range 8).map fun i => x.vr (a + i) l) 0)) u
  | [], _, _ => rfl
  | l :: ls, u, h => by
    subst h
    exact svreq_sends a dst raster ls _ rfl

theorem serviceRequestForm : ServiceRequestForm := by
  intro g a b s c t acts code aligned x n known
  refine show execSvreq g a b 1 s = _ from gangwise_of_acts
    (h := { ok := msgB b 1 0 && alignOk a 8, srcs := group 0 a.toNat 8 ++ sbSrc b 1, mem := true }) acts ?_
    (by rw [msgB_of_code code (by simp), alignOk, aligned]; rfl)
  have unit : ((begun s c t).slice c t).uniform b 1 = x.uniform b 1 := by rw [slice_begun]; rfl
  have legal : (decide (8 ≤ n) && n != 16) = false := by
    rcases known with raster | texture
    · simp [Nat.not_le.2 raster]
    · simp [texture]
  simp only [taking_begun acts, begun_core acts.solo, unit, List.filter_cons, List.filter_nil, gangLanes_begun acts.solo]
  rw [show (decide (8 ≤ (x.uniform b 1).toNat) && (x.uniform b 1).toNat != 16) = false from legal]
  refine congrArg Except.ok ((svreq_sends a.toNat (fun t' => if (((begun s c t).slice c t').uniform b 1).toNat < 8 then
      nodeRaster (((begun s c t).slice c t').uniform b 1).toNat else nodeTexture (clusterOf c))
    (fun t' => decide ((((begun s c t).slice c t').uniform b 1).toNat < 8)) _ _ (slice_begun s c t)).trans ?_)
  rw [unit]
  rfl

end

theorem messageForms : MessageForms := by
  refine ⟨?_, ?_, ?_⟩
  · intro g r a b s c t acts code u x home sent near reached released room
    exact ⟨show execSend g r a b 1 s = _ from sendForm_completes false acts code near reached released room,
      show execSendh g r a b 1 s = _ from sendForm_completes true acts code near reached released room⟩
  · intro g n b s c t acts code any u x hits
    exact ⟨fun waiting => waitm_completes acts code any waiting, fun d => ⟨fun hd => mcnt_completes acts code any hd,
      fun l m rest box before hm => recvm_completes acts code any box before hm⟩⟩
  · intro g s c t acts inside
    exact hret_completes acts inside

theorem messageWaits : MessageWaits := by
  refine ⟨?_, fun g s c t acts outside => hret_misused acts outside⟩
  intro g n d b s c t acts code any x none waits
  exact ⟨(waitm_parks acts code any none).trans (stop_mailParks acts.solo),
    (recvm_parks acts code any none).trans (stop_mailParks acts.solo)⟩

/-- Settles O42: a slice that acts runs each form's body, which sends, takes or counts; with no message to take it parks. -/
theorem messagesAndServices : Obligations.MessagesAndServices :=
  ⟨messageForms, messageWaits, serviceRequestForm⟩

end Sys2Proof.Proofs

/-! Requests performed at their homes, and atomic units that pass on (06 R153, R170, R176; 07 R180, R194, R195, R197, R201). -/

namespace Sys2Proof.Proofs

open Sys2Proof.Machine Sys2Proof.Claim

/-! ### Steps on messages under way -/

/-- A step on the first message of its pair takes it in. -/
theorem onFlight_of_due {s : State} {f : Flight} (due : Due s f) {act : Flight → State → Option State} {u : State}
    (hu : act f (s.dropFlight f.id) = some u) : s.onFlight f.id act = .next u := by
  simp only [State.onFlight, due.under, due.first, if_true, hu, Option.getD_some]

/-- A step on a request that stands at its home, in the queue of no unit, acts on it. -/
theorem onHome_of_due {s : State} {f : Flight} (due : Due s f) (free : s.queued f.id = false) (act : Flight → State) :
    s.onHome f.id act = .next (act f) := by
  simp only [State.onHome, due.under, due.first, free, Bool.not_false, Bool.and_true, if_true]

theorem toPeer_eq_false {n : Nat} (h : ¬ (nodePeer 0 ≤ n ∧ n < nodePeer 8)) : toPeer n = false := by
  simpa [toPeer] using h

section
variable {s : State} {f : Flight} {a : Acc}

theorem lwinAccess_performed (due : Due s f) (hp : f.pkt = .lwin a) :
    Becomes (.evLwinAccessAtHome f.id) s ((s.dropFlight f.id).performLwin f a) :=
  show execEvLwinAccessAtHome f.id s = _ from onFlight_of_due due (by simp only [hp])

theorem globalRequest_arrives {sh : List (Nat × Acc)} (due : Due s f) (near : ¬ (nodePeer 0 ≤ f.dst ∧ f.dst < nodePeer 8))
    (free : s.queued f.id = false) (known : s.resvOpen f = false) (hp : f.pkt = .global a sh) :
    Becomes (.evGlobalRequestAtHome f.id) s (if a.form = .stc then s.performStc f else s.arriveGlobal f a sh) := by
  show execEvGlobalRequestAtHome f.id s = _
  rw [execEvGlobalRequestAtHome, onHome_of_due due free, toPeer_eq_false near, hp]
  simp [known, State.arriveRequest]

theorem reserve_arrives (due : Due s f) (near : ¬ (nodePeer 0 ≤ f.dst ∧ f.dst < nodePeer 8)) (free : s.queued f.id = false)
    (hp : f.pkt = .reserve a) : Becomes (.evAtomicReserve f.id) s (s.arriveReserve f a) := by
  show execEvAtomicReserve f.id s = _
  rw [execEvAtomicReserve, onHome_of_due due free, toPeer_eq_false near, hp]
  rfl

/-- The lowest lane of a SYSTEM atomic completes or is refused, and the others follow (07 R197). -/
theorem systemAtomic_completes {op : Nat} {l : LaneAcc} {rest : List LaneAcc} (due : Due s f) (hop : f.op = some op)
    (hp : f.pkt = .sysAtomic a) (hl : a.lanes = l :: rest) (refused : Bool) :
    let v := (if refused then s.modOp op fun o =>
        { o with laneFaults := o.laneFaults ++ [(l.slot, l.lane, 0x07, l.va)], writes := o.writes ++ o.dest.writes l 0 }
      else (s.findErrors f.asid [l.pa / 64]).performAcc op f.src { a with lanes := [l] }).lessLeft op |>.freeEntries op f.src 1
    Becomes (.evSystemAtomicopCompletion f.id refused) s (if rest.isEmpty then v.dropFlight f.id
      else { v with flights := v.flights.map fun (g : Flight) =>
        if g.id == f.id then { g with pkt := .sysAtomic { a with lanes := rest } } else g }) := by
  intro v
  show execEvSystemAtomicopCompletion f.id refused s = _
  simp only [execEvSystemAtomicopCompletion, due.under, hp, hop, hl, due.first]
  rfl

/-- A CLUSTER access whose members have none before it is performed (06 R170, R172). -/
theorem blockExpansion_completes {o : Op} (under : s.flight? f.id = some f) (hp : f.pkt = .cluster a) (hop : f.op = some o.id)
    (ho : s.op? o.id = some o)
    (first : ({ s with flights := s.flights.takeWhile (·.id != f.id) } : State).clusterBehind f.src o.members = false) :
    Becomes (.evBlockExpansionComplete f.id) s (((s.dropFlight f.id).performCluster o.id f.src a).lessLeft o.id) := by
  show execEvBlockExpansionComplete f.id s = _
  simp only [execEvBlockExpansionComplete, under, hp, hop, Option.bind_some, ho, first]
  rfl

end

/-! ### Atomic units (07 R195) -/

section
variable {s : State} {u : AUnit} (held : s.units.find? (·.key == u.key) = some u)
include held

/-- The holder applies its lanes (07 R194, R196, R203). -/
theorem atomicGrant_applies {a : Acc} (fresh : u.applied = false) (hp : u.holder.pkt = .reserve a) :
    let op := u.holder.op.getD 0
    let v := (s.modUnit u.key fun u => { u with applied := true }).findErrors u.holder.asid a.touched
    let w := (if u.key < 2 ^ 49 then v.dcacheFor (u.key / 32) 0 true else v).leaveFlight u.holder
    Becomes (.evAtomicGrant u.key) s (((w.performAcc op u.holder.src a).lessLeft op).freeEntries op u.holder.src a.entries) := by
  intro op v w
  show (.next (s.applyUnit u.key) : Meaning) = _
  simp only [State.applyUnit, held, fresh, hp]
  rfl

theorem atomicUnitRelease_passes (applied : u.applied = true) : Becomes (.evAtomicUnitRelease u.key) s
    (State.forward u.key u.queue { s with units := s.units.filter (·.key != u.key) }).eqGo := by
  show (.next (s.passUnit u.key) : Meaning) = _
  simp only [State.passUnit, held, applied]
  rfl

end

theorem memoryEvents : MemoryEvents := by
  refine ⟨fun s f a due => ?_, fun s f a o under hp hop ho first => blockExpansion_completes under hp hop ho first, fun s u held => ?_⟩
  · intro u away
    exact ⟨lwinAccess_performed due, fun sh near free known hp => globalRequest_arrives due near free known hp,
      fun near free hp => reserve_arrives due near free hp,
      fun op l rest refused hop hp hl => systemAtomic_completes due hop hp hl refused⟩
  · exact ⟨fun a fresh hp => atomicGrant_applies held fresh hp, fun applied => atomicUnitRelease_passes held applied⟩

/-! ### The wait for the pool (06 R176) -/

/-- A wait for the pool faults at 100,000 ticks, and not before. -/
theorem poolTimeoutEvent : PoolTimeoutEvent := by
  intro s c t k since addr mask hpark live running
  have step : exec (.evPoolWaitTimeout c t) s =
      if 100000 ≤ s.time.toNat - since then .next (s.poolFault c t) else .next s := by
    show execEvPoolWaitTimeout c t s = _
    simp only [execEvPoolWaitTimeout, hpark, live, running, Bool.not_false, Bool.true_and, decide_eq_true_eq]
  exact ⟨fun late => step.trans (if_pos late), fun early => step.trans (if_neg (Nat.not_le.2 early))⟩

/-- Settles O54: each step's condition is what its meaning asks, so it acts. -/
theorem memoryDeviceEvents : Obligations.MemoryDeviceEvents :=
  ⟨memoryEvents, poolTimeoutEvent⟩

end Sys2Proof.Proofs

/-! Messages admitted, refused, held or discarded, and handlers started and limited (06 R160, R164, R165). -/

namespace Sys2Proof.Proofs

open Sys2Proof.Machine Sys2Proof.Claim

/-! ### Mailboxes and handler queues -/

/-- A step on the first message of its pair acts on it. -/
theorem onMessage_of_due {s : State} {f : Flight} {m : Msg} {h unit : Bool} (due : Due s f) (hp : f.pkt = .msg m h unit)
    (act : Flight → Msg → Bool → State) : s.onMessage f.id h act = .next (act f m unit) := by
  simp only [State.onMessage, due.under, hp, due.first, beq_self_eq_true, Bool.and_self, if_true]

section
variable {s : State} {f : Flight} {m : Msg} {unit : Bool}

theorem arriveMail_admitted (list : (s.core f.dst).mailRefused = []) (held : s.holds m.asid f.dst = true)
    (room : (s.core f.dst).mailbox.length < 64) : s.arriveMessage f m false unit = s.admitMail f m := by
  simp [State.arriveMessage, list, held, room]

theorem arriveHandler_admitted (list : (s.core f.dst).handlerRefused = []) (held : s.holds m.asid f.dst = true)
    (room : (s.core f.dst).handlerQ.length < 16) : s.arriveMessage f m true unit = s.admitHandler f m := by
  simp [State.arriveMessage, list, held, room]

theorem arriveMail_refused (new : f.id ∉ (s.core f.dst).mailRefused) (held : s.holds m.asid f.dst = true)
    (full : (s.core f.dst).mailRefused ≠ [] ∨ ¬ (s.core f.dst).mailbox.length < 64) :
    s.arriveMessage f m false unit = s.modCore f.dst fun k => { k with mailRefused := k.mailRefused ++ [f.id] } := by
  have full' : ((s.core f.dst).mailRefused.isEmpty && decide ((s.core f.dst).mailbox.length < 64)) = false := by
    simpa [imp_iff_not_or] using full
  simp [State.arriveMessage, new, held, full']

theorem arriveHandler_refused (new : f.id ∉ (s.core f.dst).handlerRefused) (held : s.holds m.asid f.dst = true)
    (full : (s.core f.dst).handlerRefused ≠ [] ∨ ¬ (s.core f.dst).handlerQ.length < 16) :
    s.arriveMessage f m true unit = s.modCore f.dst fun k => { k with handlerRefused := k.handlerRefused ++ [f.id] } := by
  have full' : ((s.core f.dst).handlerRefused.isEmpty && decide ((s.core f.dst).handlerQ.length < 16)) = false := by
    simpa [imp_iff_not_or] using full
  simp [State.arriveMessage, new, held, full']

/-- A message whose context holds no group on the core is not admitted. -/
theorem arriveMessage_stray {h : Bool} (away : s.holds m.asid f.dst = false)
    (new : f.id ∉ if h then (s.core f.dst).handlerRefused else (s.core f.dst).mailRefused) :
    s.arriveMessage f m h unit = s.strayMessage f m unit := by
  simp [State.arriveMessage, new, away]

/-- The oldest refused message is admitted once there is room (06 R160). -/
theorem messageRetry_admits {h : Bool} {rest : List Nat} (found : s.flight? f.id = some f) (hp : f.pkt = .msg m h unit)
    (oldest : (if h then (s.core f.dst).handlerRefused else (s.core f.dst).mailRefused) = f.id :: rest)
    (held : s.holds m.asid f.dst = true)
    (room : if h then (s.core f.dst).handlerQ.length < 16 else (s.core f.dst).mailbox.length < 64) :
    let unlisted := s.modCore f.dst fun k =>
      { k with mailRefused := k.mailRefused.filter (· != f.id), handlerRefused := k.handlerRefused.filter (· != f.id) }
    Becomes (.evMessageRetry f.id) s (if h then unlisted.admitHandler f m else unlisted.admitMail f m) := by
  intro unlisted
  show execEvMessageRetry f.id s = _
  have room' : (if h then decide ((s.core f.dst).handlerQ.length < 16) else decide ((s.core f.dst).mailbox.length < 64)) = true := by
    cases h <;> simpa using room
  simp only [execEvMessageRetry, found, hp, oldest, held, room']
  simp [unlisted]

end

theorem messageEvents : MessageEvents := by
  intro s f m h unit hp
  refine ⟨fun due => ?_, fun found rest oldest held room => messageRetry_admits found hp oldest held room⟩
  have arrives : exec (if h then .evHandlerQueueArrival f.id else .evMessageArrival f.id) s = .next (s.arriveMessage f m h unit) := by
    cases h
    · exact onMessage_of_due due hp fun f m unit => s.arriveMessage f m false unit
    · exact onMessage_of_due due hp fun f m unit => s.arriveMessage f m true unit
  refine ⟨fun list held room => arrives.trans ?_, fun new held full => arrives.trans ?_, fun new away => arrives.trans ?_⟩
  · cases h
    · exact congrArg Host.Outcome.next (arriveMail_admitted list held room)
    · exact congrArg Host.Outcome.next (arriveHandler_admitted list held room)
  · cases h
    · exact congrArg Host.Outcome.next (arriveMail_refused new held full)
    · exact congrArg Host.Outcome.next (arriveHandler_refused new held full)
  · exact congrArg Host.Outcome.next (arriveMessage_stray away new)

/-! ### Handlers -/

/-- The slot that a handler takes: the first empty one from 120 (06 R164). -/
theorem freeHandler_eq_some {s : State} {c t : Nat} (low : 120 ≤ t) (high : t < 128) (free : (s.slice c t).phase = .empty)
    (taken : ∀ j, 120 ≤ j → j < t → (s.slice c j).phase ≠ .empty) : s.freeHandler c = some t := by
  rw [State.freeHandler, List.find?_map, Option.map_eq_some_iff]
  refine ⟨t - 120, List.find?_range_eq_some.2 ⟨by simpa [Nat.add_sub_cancel' low] using free, by simp; omega, fun j hj => ?_⟩,
    Nat.add_sub_cancel' low⟩
  simpa using taken (120 + j) (by omega) (by omega)

section
variable {s : State} {c : Nat} {m : Msg} {rest : List Msg} (queue : (s.core c).handlerQ = m :: rest)
include queue

/-- A message with no entry for its kind is discarded with a record (06 R164). -/
theorem startHandler_of_unset :
    let kind := bits (m.words.getD 0 0) 24 4
    let v := s.reachHandler m.asid kind
    v.handlerEntry m.asid kind = 0 → s.startHandler c = (v.modCore c fun k => { k with handlerQ := rest }).post
      ([evWord 0x96 0 m.asid, w32 (1 + c * 2 ^ 8 + kind * 2 ^ 16), 1] ++ m.words.take 5) := by
  intro kind v unset
  simp only [State.startHandler, queue]
  exact if_pos unset

/-- With an entry and a free slot, a handler starts there. -/
theorem startHandler_of_free {t : Nat} :
    let kind := bits (m.words.getD 0 0) 24 4
    let v := s.reachHandler m.asid kind
    v.handlerEntry m.asid kind ≠ 0 → v.freeHandler c = some t → s.startHandler c =
      ((v.modCore c fun k => { k with handlerQ := rest }).setSlice c t
        (handlerSlice m (v.handlerEntry m.asid kind) v.cycle.toNat)).acquireNow c 4 := by
  intro kind v set free
  simp only [State.startHandler, queue]
  refine (if_neg set).trans ?_
  rw [free]

/-- A context with no core state saved on the core starts its handler at once. -/
theorem handlerStart_of_resident (resident : s.coreKeeper m.asid c = none) : exec (.evHandlerStart c) s = .next (s.startHandler c) := by
  show execEvHandlerStart c s = _
  simp only [execEvHandlerStart, queue, resident, Option.isNone_none, Bool.or_true, if_true]

/-- A context whose core state is saved on the core gets it back first, or waits (06 R165, 11 R294). -/
theorem handlerStart_of_saved (saved : (s.coreKeeper m.asid c).isSome = true) (free : (s.freeHandler c).isSome = true) :
    let kind := bits (m.words.getD 0 0) 24 4
    let u := (s.reachHandler m.asid kind).reachCore m.asid c
    u.handlerEntry m.asid kind ≠ 0 → exec (.evHandlerStart c) s =
      if u.coreFits m.asid c then .next (((u.enterCtx m.asid).restoreCore m.asid c).startHandler c) else .next s := by
  intro kind u set
  show execEvHandlerStart c s = _
  simp only [execEvHandlerStart, queue]
  refine if_neg ?_
  simp only [Bool.or_eq_true, Bool.not_eq_true', not_or, Bool.not_eq_false, Option.isNone_iff_eq_none, Bool.and_eq_true, bne_iff_ne]
  exact ⟨⟨set, free⟩, Option.ne_none_iff_isSome.2 saved⟩

end

theorem handlerEvents : HandlerEvents := by
  refine ⟨fun s c m rest queue => ?_, fun s c m rest queue => ?_, fun s c t due running => ?_⟩
  · intro kind v u entry resident
    exact ⟨fun unset => (handlerStart_of_resident queue resident).trans (congrArg Host.Outcome.next (startHandler_of_unset queue unset)),
      fun t set low high free taken => (handlerStart_of_resident queue resident).trans
        (congrArg Host.Outcome.next (startHandler_of_free queue set (freeHandler_eq_some low high free taken)))⟩
  · intro kind u set free saved
    have step := handlerStart_of_saved queue saved free set
    exact ⟨fun fits => step.trans (if_pos fits), fun large => step.trans (if_neg (Bool.eq_false_iff.1 large))⟩
  · show (.next (if s.runLimitDue c t && !(s.slice c t).halted then s.takeRunLimit c t else s) : Meaning) = _
    simp only [due, running, Bool.not_false, Bool.and_self, if_true]

/-- Settles O55: a message goes where its list, the room and its context say, and a handler where a slot is free. -/
theorem messageDeviceEvents : Obligations.MessageDeviceEvents :=
  ⟨messageEvents, handlerEvents⟩

end Sys2Proof.Proofs

/-! The structure version table and the deadline commit unit (14 R377 to R380, R387 to R393), and the services (06 R166 to R168). -/

namespace Sys2Proof.Proofs

open Sys2Proof.Machine Sys2Proof.Claim

/-! ### The structure version table (14 R378, R380) -/

section
variable {s : State} {f : Flight} {st : Nat} (due : Due s f)
include due

theorem tableRequest_pin {op t d : Nat} (hp : f.pkt = .table (.pin st op t d)) :
    let r := (s.dropFlight f.id).pinCurrent f.asid st
    Becomes (.evTableRequest f.id) s (r.1.answer op t d r.2) :=
  show execEvTableRequest f.id s = _ from onFlight_of_due due (by simp only [hp])

theorem tableRequest_unpin {n : Nat} (hp : f.pkt = .table (.unpin st n)) (owned : (s.dropFlight f.id).ownsStruct f.asid st = true) :
    Becomes (.evTableRequest f.id) s ((s.dropFlight f.id).unpinSlot st n) :=
  show execEvTableRequest f.id s = _ from onFlight_of_due due (by simp only [hp, owned, if_true])

theorem tableRequest_publish {op t d c : Nat} {root : BitVec 64} {inv : Bool} (hp : f.pkt = .table (.publish st op t d c root inv)) :
    let r := (s.dropFlight f.id).publishRoot f.asid st c root inv
    Becomes (.evTableRequest f.id) s (r.1.answer op t d r.2) :=
  show execEvTableRequest f.id s = _ from onFlight_of_due due (by simp only [hp])

theorem tableRequest_pinLanes {core op : Nat} {es : List Nat} (hp : f.pkt = .table (.pinLanes st core op es)) :
    let r := (s.dropFlight f.id).pinLanes f.asid st es.length
    Becomes (.evTableRequest f.id) s (r.1.modRake core fun k => es.foldl (fun (k : Rake) e =>
      let q : TReq := tget {} k.reqs e
      { k with reqs := tset k.reqs e { q with pin := r.2.map fun n => (st, n), waiting := false } }) k) :=
  show execEvTableRequest f.id s = _ from onFlight_of_due due (by simp only [hp])

end

/-! ### The deadline commit unit (14 R387 to R393) -/

section
variable {s : State} {f : Flight} {slot op t d : Nat}

/-- PLQRY and PLDIS write no output, so nothing of theirs waits for the run-time. -/
theorem planRequestArrival_answers {r : PlanReq} (due : Due s f) (ask : r = .qry op t d ∨ r = .dis op t d)
    (hp : f.pkt = .plan slot r) (asked : s.waitsReplay (.flight f.id) = false) :
    Becomes (.evPlanRequestArrival f.id) s (((s.expireDue slot).dropFlight f.id).planArrives f slot r) := by
  show execEvPlanRequestArrival f.id s = _
  rcases ask with rfl | rfl <;> simp [execEvPlanRequestArrival, due.under, hp, due.first, asked]

/-! What PLCOM is answered; `v` is the state once a slot that is due has expired (14 R390, R391). -/

section
variable {v : State} {b : List Byte} (due : Due s f) (hp : f.pkt = .plan slot (.com op t d b))
  (expired : (s.dropFlight f.id).expireDue slot = v)
include due hp expired

theorem plcomArrival_malformed (bad : PlanReq.malformed (.com op t d b) = true) :
    Becomes (.evPlcomArrival f.id) s (PlanReq.reply (.com op t d b) v [plMalformed]) :=
  show execEvPlcomArrival f.id s = _ from onFlight_of_due due (by simp only [hp, expired, bad, if_true])

section
variable (formed : PlanReq.malformed (.com op t d b) = false) (owned : v.ownsPlan f.asid slot = true)
  (armed : (v.plan slot).state = 1)
include formed owned armed

theorem plcomArrival_late (late : (v.plan slot).deadline.toNat ≤ v.time.toNat) :
    Becomes (.evPlcomArrival f.id) s (PlanReq.reply (.com op t d b) v [plLate]) :=
  show execEvPlcomArrival f.id s = _ from onFlight_of_due due (by simp [hp, expired, formed, owned, armed, late])

variable (early : v.time.toNat < (v.plan slot).deadline.toNat)
include early

theorem plcomArrival_stale (checked : bitAt (recNat b 12 4) 8 = false)
    (passed : staleVersion (v.struct (recNat b 12 4 % 2 ^ 8)).lastinv (w32 (recNat b 16 4)) = true) :
    Becomes (.evPlcomArrival f.id) s (PlanReq.reply (.com op t d b) v [plStale]) :=
  show execEvPlcomArrival f.id s = _ from onFlight_of_due due
    (by simp [-Nat.reducePow, hp, expired, formed, owned, armed, Nat.not_le.2 early, checked, passed])

theorem plcomArrival_commits (fresh : bitAt (recNat b 12 4) 8 = true ∨
      staleVersion (v.struct (recNat b 12 4 % 2 ^ 8)).lastinv (w32 (recNat b 16 4)) = false) :
    Becomes (.evPlcomArrival f.id) s ((PlanReq.reply (.com op t d b)
      (v.modPlan slot fun p => { p with state := 2, jobTime := v.time.toNat }) [plDone]).send nodePlan nodePlan f.asid none
        (.planData slot (.com op t d b) 0)) :=
  show execEvPlcomArrival f.id s = _ from onFlight_of_due due (by
    rcases fresh with h | h <;>
      simp [-Nat.reducePow, hp, expired, formed, owned, armed, Nat.not_le.2 early, h])

end
end

/-- A read of the unit that gets its data takes it in. -/
theorem readOn_of_data {r : PlanReq} {outp : Nat} (asked : s.waitsReplay (.flight f.id) = false) {w : State} {bs : List Byte}
    (read : (s.expireDue slot).unitRead f.asid r.source.1 r.source.2 [] = .data w bs) :
    s.readOn f slot r outp = (w.dropFlight f.id).planRead f slot r outp (some bs) := by
  simp [State.readOn, asked, read]

theorem onRead_of_found {r : PlanReq} {outp : Nat} (found : s.flight? f.id = some f) (hp : f.pkt = .planData slot r outp)
    {p : PlanReq → Bool} (kind : p r = true) : s.onRead f.id p = .next (s.readOn f slot r outp) := by
  simp only [State.onRead, found, hp, kind, if_true]

end

theorem expireDue_of_due {s : State} {slot : Nat} (due : (s.plan slot).due s.time.toNat = true) :
    s.expireDue slot = s.publishFallback slot true := if_pos due

theorem expireDue_of_not_due {s : State} {slot : Nat} (due : ¬ (s.plan slot).due s.time.toNat = true) : s.expireDue slot = s :=
  if_neg due

/-- A slot expires when it is ARMED, at or after DEADLINE, and after the tick of its arming (14 R388, R391). -/
theorem due_iff {p : Plan} {time : Nat} : p.due time = true ↔ p.state = 1 ∧ p.deadline.toNat ≤ time ∧ p.armed < time := by
  simp [Plan.due, and_assoc]

theorem planEvents : PlanEvents := by
  refine ⟨fun s f due => ?_, fun s f slot op t d outp b found asked => ?_, fun s slot => ?_⟩
  · refine ⟨fun st op t d hp => tableRequest_pin due hp, fun st n hp owned => tableRequest_unpin due hp owned,
      fun st op t d c root inv hp => tableRequest_publish due hp, fun st core op es hp => tableRequest_pinLanes due hp,
      fun slot op t d ask asked r hp => ?_, fun slot op t d b hp => ?_⟩
    · exact planRequestArrival_answers due (ask.imp (fun h => by simpa [hp] using h) (fun h => by simpa [hp] using h)) hp asked
    · exact ⟨plcomArrival_malformed due hp rfl, plcomArrival_late due hp rfl, plcomArrival_stale due hp rfl,
        plcomArrival_commits due hp rfl⟩
  · exact ⟨fun hp w bs read => (onRead_of_found found hp rfl).trans (congrArg Host.Outcome.next (readOn_of_data asked read)),
      fun hp w bs read => (onRead_of_found found hp rfl).trans (congrArg Host.Outcome.next (readOn_of_data asked read)),
      fun commit w bs read => show (.next (s.commitOn slot) : Meaning) = _ by
        simp only [State.commitOn, commit, readOn_of_data (r := .com op t d b) asked read]⟩
  · exact ⟨fun armed late after => congrArg Host.Outcome.next (expireDue_of_due (due_iff.2 ⟨armed, late, after⟩)),
      fun waits => congrArg Host.Outcome.next (expireDue_of_not_due (by rw [due_iff]; omega))⟩

/-! ### The pins of a TRQ's lanes (14 R378) -/

section
variable {s : State} {st n : Nat}

theorem pinLanes_of_current {asid k : Nat} (owned : s.ownsStruct asid st = true) (cur : (s.struct st).cur = some n) :
    s.pinLanes asid st k = (s.modStruct st fun x => x.modSlot n fun v => { v with pins := v.pins + k, qpins := v.qpins + k }, some n) := by
  simp only [State.pinLanes, owned, if_true, cur]

theorem pinLanes_of_no_current {asid k : Nat} (absent : s.ownsStruct asid st = false ∨ (s.struct st).cur = none) :
    s.pinLanes asid st k = (s, none) := by
  rcases absent with h | h <;> simp [State.pinLanes, h]

/-- The slot that the end of a lane's request leaves, with one pin fewer (14 R378). -/
def unpinnedSlot (v : VSlot) : VSlot := { v with pins := v.pins - 1, qpins := v.qpins - 1 }

theorem struct_modStruct_slot {v : VSlot} : ((s.modStruct st fun x => x.modSlot n fun _ => v).struct st) =
    (s.struct st).modSlot n fun _ => v := by
  simp [State.modStruct, State.struct]

theorem slot_modSlot {x : Struct} {v : VSlot} : (x.modSlot n fun _ => v).slot n = v := by
  simp [Struct.modSlot, Struct.slot]

/-- Taking a lane's pin is setting its slot, and retiring it if it is OLD and has no pin left. -/
theorem unpinLane_eq : s.unpinLane st n =
    (s.modStruct st fun x => x.modSlot n fun _ => unpinnedSlot ((s.struct st).slot n)).retireSlot st n := rfl

section
variable {v : VSlot}

theorem retireSlot_of_kept (kept : ¬ (v.state = 2 ∧ v.pins = 0)) :
    (s.modStruct st fun x => x.modSlot n fun _ => v).retireSlot st n = s.modStruct st fun x => x.modSlot n fun _ => v := by
  simp only [State.retireSlot, struct_modStruct_slot, slot_modSlot]
  exact if_neg kept

theorem retireSlot_of_old (old : v.state = 2) (last : v.pins = 0) :
    let w := s.modStruct st fun x => x.modSlot n fun _ => v
    w.retireSlot st n = (w.modStruct st fun x => x.modSlot n fun _ => {}).unitMsg nodeTable v.bcore (s.struct st).asid 0x82 0x01A1
      (w32 st) [w32 (st + n * 2 ^ 8), v.num, v.root.setWidth 32, v.root.extractLsb' 32 32, 0, 0] := by
  intro w
  simp only [State.retireSlot, w, struct_modStruct_slot, slot_modSlot]
  exact if_pos ⟨old, last⟩

end

/-- The end of a lane's request takes its pin, if it has one. -/
theorem freeEntry_of_unpinned {c e : Nat} (unpinned : (tget {} (s.rake c).reqs e : TReq).pin = none) :
    s.freeEntry c e = s.modRake c fun r => { r with reqs := tset r.reqs e {}, order := r.order.filter (· != e) } := by
  simp only [State.freeEntry, unpinned]

theorem freeEntry_of_pinned {c e : Nat} (pinned : (tget {} (s.rake c).reqs e : TReq).pin = some (st, n)) :
    s.freeEntry c e =
      (s.modRake c fun r => { r with reqs := tset r.reqs e {}, order := r.order.filter (· != e) }).unpinLane st n := by
  simp only [State.freeEntry, pinned]

end

theorem lanePins : LanePins := by
  refine ⟨fun s asid st k => ⟨fun n owned cur => ?_, pinLanes_of_no_current⟩,
    fun s c e => ⟨freeEntry_of_unpinned, fun st n pinned => ?_⟩⟩
  · intro v
    rw [pinLanes_of_current owned cur]
    exact ⟨rfl, rfl⟩
  · intro x v w
    have ends := (freeEntry_of_pinned pinned).trans unpinLane_eq
    refine ⟨fun kept => ends.trans (retireSlot_of_kept ?_), fun old last => ends.trans (retireSlot_of_old old ?_)⟩
    · show ¬ (v.state = 2 ∧ v.pins - 1 = 0)
      omega
    · show v.pins - 1 = 0
      omega

/-! ### The services (06 R166 to R168) -/

/-- A texture request's words and coordinates are in form (06 R167). -/
def TexOk (ws : List Word) : Prop :=
  let w (i : Nat) : Nat := (ws.getD i 0).toNat
  w 0 / 2 ^ 24 ≤ 1 ∧ w 0 % 2 ^ 24 = 0 ∧ w 2 < 2 ^ 20 ∧ (w 1 + 2 ^ 32 * w 2) % 16 = 0 ∧ (f32.decode (w 3)).isFin = true ∧
    (f32.decode (w 4)).isFin = true ∧ w 5 = 0 ∧ w 6 = 0

section
variable {u : State} {f : Flight} {ws : List Word}

theorem texture_of_not_ok (bad : ¬ TexOk ws) : u.texture f ws = some (u.reject f (0x180 + (f.dst - nodeTexture 0)) ws 1 0) := by
  refine if_pos ?_
  simp only [TexOk, not_and_or, not_le, not_lt, Bool.not_eq_true] at bad
  simpa only [ne_eq, Bool.not_eq_true', bne_iff_ne] using bad

/-- A request in form whose descriptor and texels can be read gets its filtered texel (06 R167). -/
theorem texture_of_ok (ok : TexOk ws) {v z : State} {d : Nat} {x : Tex} {l : List (Nat × Nat)} :
    let w (i : Nat) : Nat := (ws.getD i 0).toNat
    u.serviceRead f.asid (w 1 + 2 ^ 32 * w 2) 16 = (v, some (.ok d)) → Tex.of d = some x →
    State.readTexels f.asid x.size (x.wanted (w 0 / 2 ^ 24 == 1) (f32.decode (w 3)) (f32.decode (w 4))) v [] = (z, some (.ok l)) →
    u.texture f ws = some ((z.texResult x l).1.reply f (0x180 + (f.dst - nodeTexture 0)) 0x84 (ws.getD 7 0) (z.texResult x l).2) := by
  intro w descriptor formed texels
  refine (if_neg ?_).trans ?_
  · obtain ⟨op, low, high, aligned, finX, finY, zero5, zero6⟩ := ok
    simp only [not_or, not_lt, not_le, ne_eq, not_not, Bool.not_eq_true', Bool.not_eq_false]
    exact ⟨op, low, high, aligned, finX, finY, zero5, zero6⟩
  · simp only [w] at descriptor texels
    simp only [descriptor, formed, texels]

/-! A request that is first of its pair is refused while the queue is full, and else served (06 R166, log 30). -/

/-- The state that a new request is looked at in, after the free value of log 30 is drawn. -/
def serviceDrawn (s : State) : State := { s with freeCount := s.freeCount + 1 }
/-- The input queue refuses a request. -/
def serviceFull (s : State) (f : Flight) : Bool := Config.freeBool s.freeCount || s.serviceRefused f.dst s.nextId

variable {s t : State} {c : Nat} {raster : Bool}

theorem onService_of_new (found : s.flight? f.id = some f) (first : s.first f = true) (hp : f.pkt = .service c raster ws 0)
    (act : Flight → List Word → State → Option State) (acts : act f ws ((serviceDrawn s).dropFlight f.id) = some t) :
    s.onService f.id raster act = .next (if serviceFull s f then (serviceDrawn s).refuseService f.id else t) := by
  simp only [State.onService, found, hp, first, beq_self_eq_true, Bool.and_self, if_true]
  exact congrArg (fun r : Option State => Host.Outcome.next
    (if serviceFull s f then (serviceDrawn s).refuseService f.id else r.getD (serviceDrawn s))) acts

theorem serviceRetry_of_oldest {k : Nat} (found : s.flight? f.id = some f) (refused : k ≠ 0)
    (oldest : s.serviceRefused f.dst k = false) (hp : f.pkt = .service c raster ws k)
    (acts : (if raster then some ((s.dropFlight f.id).raster f ws) else (s.dropFlight f.id).texture f ws) = some t) :
    Becomes (.evServiceRequestRetry f.id) s t := by
  show execEvServiceRequestRetry f.id s = _
  simp only [execEvServiceRequestRetry, found, hp, oldest, acts, refused, decide_false, Bool.or_self, Option.getD_some]
  rfl

end

theorem serviceEvents : ServiceEvents := by
  intro s f c ws found src w da x y good answers
  have served : ∀ u t, answers u t → u.texture f ws = some t := by
    rintro u t (⟨bad, rfl⟩ | ⟨v, d, x', z, l, ok, descriptor, formed, texels, rfl⟩)
    · exact texture_of_not_ok bad
    · exact texture_of_ok ok descriptor formed texels
  refine ⟨fun first => ⟨
    fun hp => onService_of_new found first hp (fun f ws s => some (s.raster f ws)) rfl,
    fun t hp ha => onService_of_new found first hp (fun f ws s => s.texture f ws) (served _ _ ha)⟩,
    fun k refused oldest => ⟨fun hp => ?_, fun t hp ha => ?_⟩⟩
  · exact serviceRetry_of_oldest found refused oldest hp rfl
  · exact serviceRetry_of_oldest found refused oldest hp (served _ _ ha)

/-- Settles O58: each request's state, record and pins are what its meaning asks, so it acts. -/
theorem planAndServiceEvents : Obligations.PlanAndServiceEvents :=
  ⟨planEvents, lanePins, serviceEvents⟩

end Sys2Proof.Proofs

/-! GLOBAL forms to device memory (07 R181 to R185, R193 to R199): while the core has miss entries and room in its posted-store queue, the
request of a form is made, and the gang that issues stays. -/

namespace Sys2Proof.Proofs

open Sys2Proof.Machine Sys2Proof.Claim

/-! ### The gang after a request's parts -/

theorem foldl_issuer {α : Type} {f : State → α → State} (hf : ∀ u x, (f u x).issuer = u.issuer) (l : List α) (s : State) :
    (l.foldl f s).issuer = s.issuer :=
  List.foldlRecOn (motive := fun u : State => u.issuer = s.issuer) l _ rfl fun u same x _ => (hf u x).trans same

theorem performLane_issuer (s : State) (op core : Nat) (f : AccForm) (n : Nat) (l : LaneAcc) :
    (s.performLane op core f n l).1.issuer = s.issuer :=
  ((KeepsGang.refl s).performLane op core f n l).issuer

theorem openResv_issuer (s : State) (op : Nat) (a : Acc) : (s.openResv op a).issuer = s.issuer := by
  unfold State.openResv
  dsimp only
  split
  · rfl
  · exact (foldl_issuer (fun _ _ => State.modSlice_issuer ..) _ _).trans (foldl_issuer (fun _ _ => State.modSlice_issuer ..) _ _)

theorem shareFetch_issuer (s : State) (o : Op) (id : Nat) (a : Acc) (sector : Nat) :
    (s.shareFetch o id a sector).issuer = s.issuer :=
  State.modOp_issuer ..

theorem nearStore_issuer (s : State) (core n : Nat) (l : LaneAcc) : (s.nearStore core n l).issuer = s.issuer := by
  unfold State.nearStore
  dsimp only
  split <;> rfl

theorem nearForget_issuer (s : State) (core sector : Nat) : (s.nearForget core sector).issuer = s.issuer :=
  State.modCore_issuer ..

/-! ### Requests with room -/

/-- Groups of lanes whose keys lie in this device's memory need no room at a port (07 Table 07-1). -/
theorem peerRoom_groupLanes (s : State) {f : LaneAcc → Nat} {ls : List LaneAcc} {key : Nat × List LaneAcc → Nat}
    (near : ∀ l ∈ ls, ∀ rest, key (f l, l :: rest) < 2 ^ 52) :
    s.peerRoom ((groupLanes f ls).map fun p => homeOf (key p)) = true := by
  refine peerRoom_of_near s fun d hd => ?_
  obtain ⟨⟨k, group⟩, hp, rfl⟩ := List.mem_map.1 hd
  obtain ⟨l, rest, hl, mem, hk⟩ := mem_groupLanes hp
  obtain rfl : group = l :: rest := hl
  obtain rfl : f l = k := hk
  exact homeOf_lt_nodePeer (near l mem rest)

section
variable {s : State} {m : MemF} {k : MemKind} {a : Acc}

variable (near : ∀ l ∈ a.lanes, l.pa < 2 ^ 52)
include near

/-- A load is made while each of its sectors could have an entry (07 R184). -/
theorem globalLoad_of_room (first : s.missOlder = false) (entries : s.entriesUsed s.issuer.core + a.touched.length ≤ 256)
    (acq : Bool) : ∃ w, s.globalLoad m k a acq = .ok w ∧ w.issuer = s.issuer := by
  unfold State.globalLoad
  extract_lets core scope bypass plain kc sectors hits shared need part parts fresh fill plainOp countedOp o opened touched served joined
  have fewer : need.length ≤ a.touched.length := List.length_filter_le ..
  have ports : s.peerRoom (parts.map fun p => homeOf (p.2.headD ⟨0, 0, 0, 0, false, 0, 0⟩).pa) = true :=
    peerRoom_groupLanes (key := fun p => (p.2.headD ⟨0, 0, 0, 0, false, 0, 0⟩).pa) s fun l hl _ => near l (List.mem_of_mem_filter hl)
  rw [if_neg (by simp [first]), if_neg (Nat.not_lt.2 ((Nat.add_le_add_left fewer _).trans entries)), if_neg (by rw [ports]; decide)]
  refine ⟨_, rfl, ?_⟩
  have hOpened : opened.issuer = s.issuer := ((noteAcquire_issuer ..).trans (openOp_issuer ..)).trans (openResv_issuer ..)
  have hTouched : touched.issuer = opened.issuer := foldl_issuer (fun _ _ => State.modCore_issuer ..) _ _
  have hServed : served.issuer = touched.issuer := by
    refine foldl_issuer (fun u l => ?_) _ _
    exact performLane_issuer { u with mem := kc.nearData } o.id core k.form k.size l
  have hJoined : joined.issuer = served.issuer := foldl_issuer (fun u c => by split; exacts [shareFetch_issuer .., rfl]) _ _
  calc _ = joined.issuer := (advanceAll_issuer ..).trans (foldl_issuer (fun _ _ => State.send_issuer ..) _ _)
    _ = s.issuer := ((hJoined.trans hServed).trans hTouched).trans hOpened

/-- A posted request is made while the queue has room for one of each lane (07 R185). -/
theorem globalPosted_of_room (room : s.postRoom s.issuer.core a.lanes.length = true) :
    ∃ w, s.globalPosted m k a = .ok w ∧ w.issuer = s.issuer := by
  unfold State.globalPosted
  extract_lets core part parts dst far plainOp o opened stored
  have ports : s.peerRoom (parts.map dst) = true :=
    peerRoom_groupLanes (key := fun p => (p.2.headD ⟨0, 0, 0, 0, false, 0, 0⟩).pa) s fun l hl _ => near l hl
  have queue : s.postRoom core parts.length = true := postRoom_mono room (length_groupLanes_le ..)
  rw [if_neg (by rw [ports, queue]; decide)]
  refine ⟨_, rfl, ?_⟩
  have hStored : stored.issuer = opened.issuer := by
    unfold stored
    split
    · exact foldl_issuer (fun _ _ => nearStore_issuer ..) _ _
    · exact foldl_issuer (fun _ _ => foldl_issuer (fun _ _ => nearStore_issuer ..) _ _) _ _
    · rfl
  calc _ = stored.issuer := (advanceAll_issuer ..).trans (foldl_issuer (fun _ _ => State.send_issuer ..) _ _)
    _ = s.issuer := hStored.trans (openOp_issuer ..)

/-- An atomic is made while each of its lanes could have an entry (07 R184, R194). -/
theorem globalAtomic_of_room (first : s.missOlder = false) (entries : s.entriesUsed s.issuer.core + a.lanes.length ≤ 256) :
    ∃ w, s.globalAtomic m k a = .ok w ∧ w.issuer = s.issuer := by
  unfold State.globalAtomic
  extract_lets core sys own parts dst need plainOp o opened forgot pkt sent last
  have none : sys = [] := List.filter_eq_nil_iff.2 fun l hl => by
    have own : l.pa < hostBase := (near l hl).trans (by decide)
    simpa using own
  have fewer : need ≤ a.lanes.length := by
    have groups : parts.length ≤ a.lanes.length := (length_groupLanes_le ..).trans (List.length_filter_le ..)
    simpa [need, none] using groups
  have ports : s.peerRoom (parts.map dst) = true :=
    peerRoom_groupLanes (key := fun p => 8 * p.1) s fun l hl _ => by
      have := near l (List.mem_of_mem_filter hl)
      omega
  rw [if_neg (by simp [first]), if_neg (Nat.not_lt.2 ((Nat.add_le_add_left fewer _).trans entries)), if_neg (by rw [ports]; decide)]
  refine ⟨_, rfl, ?_⟩
  have hOpened : opened.issuer = s.issuer := (noteAcquire_issuer ..).trans (openOp_issuer ..)
  have hForgot : forgot.issuer = opened.issuer := foldl_issuer (fun _ _ => nearForget_issuer ..) _ _
  have hSent : sent.issuer = forgot.issuer := foldl_issuer (fun _ _ => State.send_issuer ..) _ _
  have hLast : last = sent := if_pos (List.isEmpty_iff.2 none)
  rw [advanceAll_issuer, hLast]
  exact (hSent.trans hForgot).trans hOpened

end

/-! ### The forms -/

/-- The request of a row in GLOBAL is a load's, a posted store's or an atomic's (07 R191 to R193, R198, R199). -/
theorem request_of_memTable {m : MemF} {p : MemRow} (hp : p ∈ memTable m) :
    (∃ acq, p.request = fun s a => s.globalLoad m p.kind a acq) ∨ (p.request = fun s a => s.globalPosted m p.kind a) ∨
      p.request = fun s a => s.globalAtomic m p.kind a := by
  rcases List.mem_append.1 hp with hp | hp
  · simp only [List.mem_cons, List.not_mem_nil, or_false] at hp
    rcases hp with rfl | rfl | rfl | rfl | rfl | rfl
    · exact .inl ⟨_, rfl⟩
    · exact .inr (.inl rfl)
    · exact .inl ⟨_, rfl⟩
    · exact .inr (.inl rfl)
    · exact .inl ⟨_, rfl⟩
    · exact .inr (.inr rfl)
  · obtain ⟨f, -, rfl⟩ := List.mem_map.1 hp
    exact .inr (.inr rfl)

/-- Settles O5: whichever of the three requests a form makes, the entries and the queue have room for it, and it leaves the gang that
acquires. -/
theorem globalForms : Obligations.GlobalForms := by
  intro m p hp s v c t ok _ land space near lanes sectors first room
  obtain ⟨core, -, -⟩ := solo_landed land
  have nearLanes : ∀ l ∈ (p.access m s v c ok).lanes, l.pa < 2 ^ 52 := fun l hl => by
    obtain ⟨q, hq, same⟩ := pa_of_mem_access hl
    exact same ▸ near q hq
  have count : (p.access m s v c ok).lanes.length = ok.length := List.length_map ..
  obtain ⟨w, made, same⟩ : ∃ w, p.request v (p.access m s v c ok) = .ok w ∧ w.issuer = v.issuer := by
    rcases request_of_memTable hp with ⟨acq, load⟩ | posted | atomic
    · rw [load]
      exact globalLoad_of_room nearLanes first (by rwa [core]) acq
    · rw [posted]
      exact globalPosted_of_room nearLanes (by rwa [core, count])
    · rw [atomic]
      exact globalAtomic_of_room nearLanes first (by rwa [core, count])
  refine ⟨w, made, exec_memTable_landed hp land ?_⟩
  rw [landedPart, space]
  change (do let u ← p.request v (p.access m s v c ok); pure (p.acquired m u.issuer.core u)) = Except.ok _
  rw [made]
  exact congrArg (fun k => Except.ok (p.acquired m k w)) ((congrArg (·.core) same).trans core)

end Sys2Proof.Proofs

/-! TCOPY, STBIND, STUNB and STSTAT (08 R209, R210, R218 to R225) of a slice by itself with a lane active. -/

namespace Sys2Proof.Proofs

open Sys2Proof.Machine Sys2Proof.Claim

section
variable {s : State} {c t : Nat} {g : BitVec 4}

/-! ### The wait for the copy counter -/

/-- The only member releases once its counters allow it (09 R236). -/
theorem releaseGang_of_ready {srcs : List (Nat × Nat)} {scope : Nat} (solo : Solo s c t srcs)
    (ready : (begun s c t).releaseReady c t scope = true) : (begun s c t).releaseGang g scope = .ok () := by
  rw [State.releaseGang, begun_slots solo, begun_core solo]
  exact if_pos (by simp [ready])

/-- A form that the copy counter counts waits for nothing while the counter has room and the release, if any, may issue (R209). -/
theorem memWaits_of_copyRoom {srcs : List (Nat × Nat)} {rel : Bool} {scope : Nat} (acts : Acts s c t g srcs)
    (room : ((begun s c t).slice c t).count 4 < 255)
    (ready : rel = true → (begun s c t).releaseReady c t scope = true) :
    (begun s c t).memWaits g (some 4) 0 rel scope = .ok () := by
  rw [State.memWaits, taking_begun acts, begun_core acts.solo]
  refine (if_neg (by simp [room])).trans ?_
  split
  next release => exact releaseGang_of_ready acts.solo (ready release)
  next => rfl

end

/-! ### TCOPY -/

theorem copyForm : CopyForm := by
  intro g ds ts rel eng s c t desc acts ok u x found watched room released queue o
  have waits : u.memWaits g (some 4) 0 (rel == 1) 4 = .ok () := memWaits_of_copyRoom acts room fun r => released (by simpa using r)
  refine show execTcopy g ds ts rel eng s = _ from gangwise_of_acts
    (h := { len := 8, mem := true, ok := sOk ds && sOk ts, srcs := [(1, ds.toNat), (1, ts.toNat)] }) acts ?_ ok
  have fits : ¬ 16 < (begun s c t).outbound c + 1 := Nat.not_lt.2 (Nat.succ_le_succ queue)
  dsimp only [u, x, o] at found watched waits ⊢
  simp only [taking_begun acts, begun_core acts.solo, List.filterMap_cons, List.filterMap_nil, List.map_cons, List.map_nil,
    List.length_singleton, List.foldl_cons, List.foldl_nil, found, watched, waits]
  exact if_neg fits

/-! ### Stream ports -/

section
variable {s : State} {c t : Nat} {g : BitVec 4} {d a : BitVec 6} {space : BitVec 3} {port : BitVec 2} {p : List Byte}

/-- The port of the slice that a form names. -/
abbrev portAt (s : State) (c t : Nat) (port : BitVec 2) : Port := tget {} ((begun s c t).slice c t).ports port.toNat

/-- The core's buffers in use once the port is bound (R221). -/
abbrev boundUse (s : State) (c t : Nat) (port : BitVec 2) : Nat :=
  ((begun s c t).core c).streamUsed + if (portAt s c t port).bound then 0 else 1

theorem stbind_of_legal (acts : Acts s c t g [(1, a.toNat)]) (hd : d.toNat < 8) (ha : a.toNat < 32)
    (legal : (begun s c t).patternAt t space.toNat (((begun s c t).slice c t).sr a.toNat).toNat = .ok p)
    (watched : (begun s c t).watchSpans g [(t, (((begun s c t).slice c t).sr a.toNat).toNat, 32)] = .ok ())
    (room : ((begun s c t).slice c t).count 4 < 255) :
    let used := boundUse s c t port
    let w := ((begun s c t).modCore c fun k => { k with streamUsed := used }).endBind c t (portAt s c t port)
    let o : Op := { w.unitOp t 0 0 with dest := .none, code := some 4 }
    let mark (b : Bool) (y : Slice) : Slice := y.writePred d.toNat (y.lanes g) fun _ => b
    exec (.stbind g d a space port) s = .next ((if used ≤ 64 then (w.openOp o).modSlice c t fun y => mark true { y with
        ports := tset y.ports port.toNat { bound := true, space := space.toNat, pattern := p, op := o.id } }
      else (begun s c t).modSlice c t (mark false)).advanceAll 8) := by
  intro used w o mark
  refine show execStbind g d a space port s = _ from gangwise_of_acts
    (h := { len := 8, mem := true, ok := pOk d && sOk a, srcs := [(1, a.toNat)] }) acts ?_
    (by rw [pOk_eq_true hd, sOk_eq_true ha]; rfl)
  have one : ([t].filter fun i => !(tget ({} : Port) ((begun s c t).slice c i).ports port.toNat).bound).length =
      if (portAt s c t port).bound then 0 else 1 := by
    cases h : (portAt s c t port).bound <;> simp [h]
  simp only [taking_begun acts, begun_core acts.solo, List.filterMap_cons, List.filterMap_nil, List.map_cons, List.map_nil,
    List.foldl_cons, List.foldl_nil, legal, watched, one, memWaits_of_copyRoom acts room (rel := false) (scope := 0) nofun]
  change (if !decide (used ≤ 64) then _ else _) = _
  by_cases fits : used ≤ 64
  · rw [if_pos fits, if_neg (by simp [fits]), decide_eq_true fits]
    rfl
  · rw [if_neg fits, if_pos (by simp [fits]), decide_eq_false fits]
    rfl

theorem stunb_of_unbound (acts : Acts s c t g []) (free : (portAt s c t port).bound = false) :
    exec (.stunb g port) s = .next ((begun s c t).advanceAll 8) := by
  refine show execStunb g port s = _ from gangwise_of_acts (h := { len := 8, mem := true }) acts ?_
  simp only [taking_begun acts, begun_core acts.solo, List.filter_cons, List.filter_nil, free]
  rfl

theorem stunb_of_bound (acts : Acts s c t g []) (bound : (portAt s c t port).bound = true)
    (room : ((begun s c t).slice c t).count 4 < 255) :
    let w := ((begun s c t).endBind c t (portAt s c t port)).modSlice c t fun y => { y with ports := tset y.ports port.toNat {} }
    exec (.stunb g port) s = .next ((w.openOp { w.unitOp t 0 0 with
      dest := .none, code := some 4, await := 0, osec := 9 }).advanceAll 8) := by
  refine show execStunb g port s = _ from gangwise_of_acts (h := { len := 8, mem := true }) acts ?_
  simp only [taking_begun acts, begun_core acts.solo, List.filter_cons, List.filter_nil, bound, if_true,
    memWaits_of_copyRoom acts room (rel := false) (scope := 0) nofun]
  rfl

/-- What STSTAT reads of a port (R225). -/
abbrev portStatus (q : Port) : Word := if q.bound then w32 (2 ^ 31 + q.buf.length * 2 ^ 27 + (q.total - q.popped)) else 0

theorem ststat_completes (acts : Acts s c t g []) (hd : d.toNat < 32) :
    exec (.ststat g d port) s = .next (s.setSlice c t
      ((((begun s c t).slice c t).setS d.toNat (portStatus (portAt s c t port))).advance 8)) := by
  have run : exec (.ststat g d port) s = .next (s.setSlice c t ((if (s.slice c t).issued.active g = 0 then (s.slice c t).issued
      else (s.slice c t).issued.setS d.toNat (portStatus (tget {} (s.slice c t).issued.ports port.toNat))).advance 8)) :=
    show execStstat g d port s = _ from uniformly_slice (h := { len := 8, ok := sOk d })
      (f := fun x => x.setS d.toNat (portStatus (tget {} x.ports port.toNat))) acts.solo.core acts.solo.gang (sOk_eq_true hd) nofun
      ⟨acts.solo.held, nofun, acts.solo.ready⟩ nofun rfl
  rw [run, if_neg (show (s.slice c t).issued.active g ≠ 0 from acts.on), portAt, slice_begun]

end

theorem streamForms : StreamForms := by
  refine ⟨?_, fun g port s c t acts => ⟨stunb_of_unbound acts, stunb_of_bound acts, fun d hd => ststat_completes acts hd⟩⟩
  intro g d a space port s c t p acts hd ha u x old used mark legal watched room
  have run := stbind_of_legal (port := port) acts hd ha legal watched room
  refine ⟨fun full => run.trans ?_, fun fits => run.trans ?_⟩
  · rw [if_neg (Nat.not_le.2 full)]
  · rw [if_pos fits]

/-- Settles O46: a slice that acts passes each form's checks and has room in its copy counter, so the form's body sends the
descriptor, binds or unbinds the port, or reads its state. -/
theorem copyAndStreamForms : Obligations.CopyAndStreamForms :=
  ⟨copyForm, streamForms⟩

end Sys2Proof.Proofs

/-! The copy engines (08 R207 to R217) and the stream ports (08 R222, R224): what each device step makes of a state that meets its
condition. -/

namespace Sys2Proof.Proofs

open Sys2Proof.Machine Sys2Proof.Claim

/-! ### Requests admitted and refused (R208) -/

/-- The engine that a request under way is bound for. -/
abbrev engineNo (f : Flight) : Nat := f.dst - nodeEngine 0

section
variable {s : State} {f : Flight} {r : CopyReq} (found : s.flight? f.id = some f)
include found

theorem copyArrival_admitted (new : f.pkt = .copy r none) (first : s.first f = true)
    (list : (s.engine (engineNo f)).refused = []) (room : (s.engine (engineNo f)).queue.length < 16) :
    Becomes (.evCopyRequestArrival f.id) s
      ((s.dropFlight f.id).modEngine (engineNo f) fun q => { q with queue := q.queue ++ [r] }) := by
  show execEvCopyRequestArrival f.id s = _
  simp only [execEvCopyRequestArrival, found, new, first, list, room]
  rfl

/-- The state in which the request's message is refused in this cycle. -/
abbrev refusedNow (s : State) (f : Flight) (r : CopyReq) : State :=
  { s with flights := s.flights.map fun (g : Flight) =>
    if g.id == f.id then { g with pkt := .copy r (some s.cycle.toNat) } else g }

theorem copyArrival_refused (new : f.pkt = .copy r none) (first : s.first f = true)
    (full : (s.engine (engineNo f)).refused ≠ [] ∨ 16 ≤ (s.engine (engineNo f)).queue.length) :
    Becomes (.evCopyRequestArrival f.id) s
      (refusedNow (s.modEngine (engineNo f) fun q => { q with refused := q.refused ++ [f.id] }) f r) := by
  show execEvCopyRequestArrival f.id s = _
  have away : ((s.engine (engineNo f)).refused.isEmpty &&
      decide ((s.engine (engineNo f)).queue.length < 16)) = false := by
    simpa [imp_iff_not_or] using full
  simp only [execEvCopyRequestArrival, found, new, first, away]
  rfl

section
variable {since : Nat} (again : f.pkt = .copy r (some since)) (due : since + 64 ≤ s.cycle.toNat)
include again due

theorem copyRetry_admitted (oldest : (s.engine (engineNo f)).refused.head? = some f.id)
    (room : (s.engine (engineNo f)).queue.length < 16) :
    Becomes (.evCopyRequestRetry f.id) s ((s.dropFlight f.id).modEngine (engineNo f) fun q =>
      { q with refused := q.refused.drop 1, queue := q.queue ++ [r] }) := by
  show execEvCopyRequestRetry f.id s = _
  simp only [execEvCopyRequestRetry, found, again, if_neg (Nat.not_lt.2 due)]
  exact if_pos (by simp [oldest, room])

theorem copyRetry_refused (full : (s.engine (engineNo f)).refused.head? ≠ some f.id ∨
    16 ≤ (s.engine (engineNo f)).queue.length) :
    Becomes (.evCopyRequestRetry f.id) s (refusedNow s f r) := by
  show execEvCopyRequestRetry f.id s = _
  simp only [execEvCopyRequestRetry, found, again, if_neg (Nat.not_lt.2 due)]
  exact if_neg (by simpa [imp_iff_not_or] using full)

end

end

/-! ### Requests at work (R207, R214, R215, R217) -/

section
variable {s : State} {e : Nat} {r : CopyReq}

theorem copyStart_steps {rest : List CopyReq} (queue : (s.engine e).queue = r :: rest) (room : (s.engine e).active.length < 4)
    (free : (s.engine e).free r.seq = true) : Becomes (.evCopyRequestStart e) s
      (s.engineStep e r fun r q => { q with queue := rest, active := q.active ++ [r] }) := by
  show execEvCopyRequestStart e s = _
  simp only [execEvCopyRequestStart, queue]
  exact if_pos (by simp [room, free])

section
variable {n : Nat} (active : (s.engine e).active[n]? = some r)
include active

theorem copyEnd_sends (ended : r.ended = true) : Becomes (.evCopyRequestEnd e n) s
    (((s.modEngine e fun q => { q with active := q.active.eraseIdx n }).endClean e r).send (nodeEngine e) r.core r.asid (some r.op)
      (.msg ⟨r.asid, r.doneWords e⟩ false true)) := by
  show execEvCopyRequestEnd e n s = _
  simp only [execEvCopyRequestEnd, active, ended, if_true]

/-- A request that waits for a REPLAY record takes no step, which `unasked` excludes; any other steps. -/
theorem copyEnd_steps (going : r.ended = false) (unasked : ∀ i, r.wait ≠ .replay i) (free : (s.engine e).free r.seq = true) :
    Becomes (.evCopyRequestEnd e n) s (s.engineStep e r fun r q => { q with active := q.active.set n r }) := by
  show execEvCopyRequestEnd e n s = _
  simp only [execEvCopyRequestEnd, active, going, Bool.false_eq_true, if_false]
  exact if_pos free

theorem copyPoolTimeout_ends {since : Nat} (waits : r.wait = .pool since) (late : 100000 ≤ s.time.toNat - since) :
    Becomes (.evCopyPoolTimeout e n) s (s.modEngine e fun q => { q with active := q.active.set n r.poolEnd }) := by
  show execEvCopyPoolTimeout e n s = _
  simp only [execEvCopyPoolTimeout, active, waits]
  exact if_pos late

end

end

theorem copyEvents : CopyEvents := by
  refine ⟨fun s f r found => ⟨fun new first => ?_, fun since again due => ?_⟩, fun s e => ⟨?_, fun n r active => ⟨?_, ?_, ?_⟩⟩⟩
  · exact ⟨copyArrival_admitted found new first, copyArrival_refused found new first⟩
  · exact ⟨copyRetry_admitted found again due, copyRetry_refused found again due⟩
  · exact fun r rest queue room free => copyStart_steps queue room free
  · exact copyEnd_sends active
  · exact fun going unasked free => copyEnd_steps active going unasked free
  · intro since waits late v
    have ended : r.poolEnd = v := by
      cases asked : r.asked <;> simp only [CopyReq.poolEnd, waits, asked, v]
    rw [← ended]
    exact copyPoolTimeout_ends active waits late

/-! ### Stream ports (R222, R224) -/

/-- A port of LOCAL memory waits for no CLUSTER access and touches no block. -/
theorem streamRefill_of_local {s : State} {c t n : Nat} {p : Port} (hp : tget {} (s.slice c t).ports n = p)
    (live : (s.slice c t).live = true) (bound : p.bound = true) (room : p.buf.length < 8) (more : p.fetched < p.total)
    (here : p.space ≠ 2) :
    let key (j : Nat) : Nat := localBase c + (s.localRun (s.slice c t)).1 + (patAddr p.pattern p.fetched j).toNat
    let q : Port := { p with fetched := p.fetched + 1,
                             buf := p.buf ++ [(List.range 8).map fun j => w32 (mread s.mem (key j) 4)] }
    let u := s.modSlice c t fun x => { x with ports := tset x.ports n q }
    Becomes (.evStreamRefill c t n) s (if p.fetched = p.popped then u.endBind c t p else u) := by
  intro key q u
  show execEvStreamRefill c t n s = _
  have outside : (p.space == 2) = false := by simpa using here
  simp only [execEvStreamRefill, hp, outside, Bool.false_and, if_neg here]
  exact if_neg (by simp [live, bound, room, more])

theorem streamBufferReturn_frees {s : State} {o : Op} (under : s.op? o.id = some o) (code : o.code = some 4) (left : o.left = 1)
    (dest : o.dest = .none) (unbind : o.osec = 9) : Becomes (.evStreamBufferReturn o.id) s
      ((s.modCore o.core fun k => { k with streamUsed := k.streamUsed - o.members.length }).finishOp { o with left := 0 }) := by
  show execEvStreamBufferReturn o.id s = _
  simp only [execEvStreamBufferReturn, under]
  exact if_pos (by simp [code, left, dest, unbind])

theorem streamEvents : StreamEvents :=
  ⟨fun _ _ _ _ live bound room more here => streamRefill_of_local rfl live bound room more here,
    fun _ _ under code left dest unbind => streamBufferReturn_frees under code left dest unbind⟩

/-- Settles O56: each step finds its request, port or operation in the condition that its acting branch asks for. -/
theorem copyAndStreamEvents : Obligations.CopyAndStreamEvents :=
  ⟨copyEvents, streamEvents⟩

end Sys2Proof.Proofs

/-! WAITC, FENCE and MRAMP (09 R238, R239; 12 R326) of a slice by itself. -/

namespace Sys2Proof.Proofs

open Sys2Proof.Machine Sys2Proof.Claim

section
variable {s : State} {c t : Nat} {g : BitVec 4}

/-- A uniform form whose body issues nothing leaves the state as it was, its issue uncounted. -/
theorem uniformly_stalls_of_acts {h : Head} {body : State → Nat → Nat → Except Stop State} (acts : Acts s c t g h.srcs)
    (hb : body (begun s c t) c t = .error .stall) (ok : h.ok = true := by rfl) (rdv : h.rdv = false := by rfl)
    (priv : h.priv = false := by rfl) : uniformly h g s body = .next s := by
  have on : ((begun s c t).slice c t).active g ≠ 0 := by rw [slice_begun]; exact acts.on
  unfold uniformly simt
  refine gangwise_stops_of_acts (e := .stall) acts ?_ ok rdv priv
  simp only [begun_slots acts.solo, begun_core acts.solo, gangFault, List.filterMap_cons, List.filterMap_nil, List.foldlM_cons,
    List.foldlM_nil, if_neg on, hb]
  rfl

/-! ### WAITC and MRAMP -/

section
variable {b : BitVec 6}

theorem waitc_eq (k : BitVec 3) (acts : Acts s c t g (sbSrc b 1)) (code : codeOk b = true) :
    exec (.waitc g k b 1) s = if (s.slice c t).count k.toNat ≤ ((s.slice c t).uniform b 1).toNat then
      .next ((begun s c t).advanceAll 4) else .next s := by
  split
  next reached =>
    refine show execWaitc g k b 1 s = _ from uniformly_of_acts (h := { ok := codeOk b, srcs := sbSrc b 1 }) acts ?_ rfl code
    rw [slice_begun]
    exact if_pos reached
  next above =>
    refine show execWaitc g k b 1 s = _ from uniformly_stalls_of_acts (h := { ok := codeOk b, srcs := sbSrc b 1 }) acts ?_ code
    rw [slice_begun]
    exact if_neg above

theorem mramp_completes (acts : Acts s c t g (sbSrc b 1)) (code : codeOk b = true) :
    exec (.mramp g b 1) s = .next (((begun s c t).modMat c fun m =>
      m.ramp s.cycle.toNat (max 64 (min 65535 ((s.slice c t).uniform b 1).toNat))).advanceAll 4) := by
  refine show execMramp g b 1 s = _ from uniformly_of_acts (h := { ok := codeOk b, srcs := sbSrc b 1 }) acts ?_ rfl code
  rw [slice_begun]
  rfl

end

/-! ### FENCE -/

variable {o sc : BitVec 3}

theorem toNat_bne {k : BitVec 3} : (o.toNat != k.toNat) = true ↔ o ≠ k := by
  rw [bne_iff_ne, ne_eq, BitVec.toNat_inj]

/-- A FENCE wider than SLICE waits: its release may not issue yet, or loads that its acquire follows are outstanding (Table 09-3). -/
def fenceWaits (s : State) (c t : Nat) (o sc : BitVec 3) : Bool :=
  (o.toNat != 1 && !s.releaseReady c t sc.toNat) ||
    (o.toNat != 2 && !((s.slice c t).count 0 == 0 && (s.slice c t).count 1 == 0))

theorem fenceWaits_iff : fenceWaits s c t o sc = true ↔
    (o ≠ 1 ∧ s.releaseReady c t sc.toNat = false) ∨ (o ≠ 2 ∧ ((s.slice c t).count 0 ≠ 0 ∨ (s.slice c t).count 1 ≠ 0)) := by
  have acquires : (o.toNat != 2) = true ↔ o ≠ 2 := toNat_bne (k := 2)
  have releases : (o.toNat != 1) = true ↔ o ≠ 1 := toNat_bne (k := 1)
  simp only [fenceWaits, Bool.or_eq_true, Bool.and_eq_true, acquires, releases, Bool.not_eq_true', Bool.and_eq_false_iff,
    beq_eq_false_iff_ne]

theorem fence_slice_completes (acts : Acts s c t g []) : exec (.fence g o 0) s = .next ((begun s c t).advanceAll 4) :=
  show execFence g o 0 s = _ from uniformly_of_acts (h := { mem := true }) acts rfl rfl

/-- The acquire of a FENCE keeps the gang that issues. -/
theorem acquireNow_issuer (s : State) (c scope : Nat) : (s.acquireNow c scope).issuer = s.issuer := by
  unfold State.acquireNow
  split <;> rfl

/-- A FENCE wider than SLICE issues nothing while it waits, and then moves on with its acquire (R239). -/
theorem fence_wide_eq (acts : Acts s c t g []) (wide : sc ≠ 0) :
    exec (.fence g o sc) s = if fenceWaits (begun s c t) c t o sc then .next s
      else .next ((if o = 2 then begun s c t else (begun s c t).acquireNow c sc.toNat).advanceAll 4) := by
  have scope : ¬ (sc == 0) = true := by simpa using wide
  split
  next waits =>
    refine show execFence g o sc s = _ from uniformly_stalls_of_acts (h := { mem := true }) acts ?_
    exact (if_neg scope).trans (if_pos waits)
  next free =>
    refine show execFence g o sc s = _ from uniformly_of_acts (h := { mem := true }) acts ?_ ?_
    · refine (if_neg scope).trans ((if_neg free).trans ?_)
      by_cases release : o = 2
      · subst release; rfl
      · have acquires : (o.toNat != 2) = true := (toNat_bne (k := 2)).2 release
        simp only [if_neg release, acquires, if_true]
    · split
      · rfl
      · exact acquireNow_issuer ..

end

/-- Settles O2: WAITC and MRAMP read the operand of the slice alone, and a FENCE wider than SLICE waits exactly while its release or
its acquire does. -/
theorem fenceForms : Obligations.FenceForms := by
  unfold Obligations.FenceForms
  refine ⟨fun g k b s c t acts code => ⟨waitc_eq k acts code, mramp_completes acts code⟩, fun g o sc s c t acts => ?_⟩
  have waits : fenceWaits (begun s c t) c t o sc = true ↔ _ := fenceWaits_iff
  rw [slice_begun] at waits
  refine ⟨fun narrow => narrow ▸ fence_slice_completes acts, fun wide released loaded => ?_, fun wide held => ?_⟩
  · refine (fence_wide_eq acts wide).trans (if_neg fun held => ?_)
    rcases waits.1 held with ⟨rel, unready⟩ | ⟨acq, outstanding⟩
    · simp [released rel] at unready
    · obtain ⟨local0, global0⟩ := loaded acq
      exact outstanding.elim (· local0) (· global0)
  · exact (fence_wide_eq acts wide).trans (if_pos (waits.2 held))

end Sys2Proof.Proofs

/-! Named barriers and team barriers (10 R249 to R255): the forms of a slice by itself, on its group's or its team's barrier, without one,
and with no lane active. -/

namespace Sys2Proof.Proofs

-- One proof at a time, as in the tests: each proof under way at once takes a thread's stack out of the check's memory.
set_option Elab.async false

open Sys2Proof.Machine Sys2Proof.Claim

/-! ### The frame with another body, with fewer sources, and with no lane active -/

/-- An instruction is what its body makes of the state in which every member has counted the issue. -/
theorem gangwise_congr {h : Head} {s : State} {body body' : State → Except Stop State} (e : body s.countIssue = body' s.countIssue) :
    gangwise h s body = gangwise h s body' := by
  unfold gangwise
  rw [e]

section
variable {s : State} {c t : Nat} {g : BitVec 4} {srcs srcs' : List (Nat × Nat)}

theorem solo_of_subset (solo : Solo s c t srcs) (sub : srcs' ⊆ srcs) : Solo s c t srcs' :=
  { solo with ready := fun r hr => solo.ready r (sub hr) }

theorem acts_of_subset (acts : Acts s c t g srcs) (sub : srcs' ⊆ srcs) : Acts s c t g srcs' :=
  { acts with solo := solo_of_subset acts.solo sub }

theorem idles_of_subset (idle : Idles s c t g srcs) (sub : srcs' ⊆ srcs) : Idles s c t g srcs' :=
  { idle with solo := solo_of_subset idle.solo sub }

theorem taking_begun_of_idle (idle : Idles s c t g srcs) : (begun s c t).taking g = [] := by
  rw [State.taking_solo g (begun_core idle.solo) (begun_slots idle.solo), slice_begun]
  exact if_pos idle.off

variable {h : Head} {body : State → Except Stop State}

/-- With no lane active a form moves on, whether its frame or its body moves the slice. -/
theorem gangwise_of_idle (idle : Idles s c t g h.srcs)
    (hb : body (begun s c t) = .ok (if h.adv then begun s c t else (begun s c t).advanceAll 4)) (ok : h.ok = true := by rfl)
    (len : h.len = 4 := by rfl) (rdv : h.rdv = false := by rfl) (priv : h.priv = false := by rfl) :
    gangwise h s body = .next (s.setSlice c t ((s.slice c t).issued.advance 4)) := by
  rw [gangwise_solo idle.solo.core idle.solo.gang ok (by simp [priv]) ⟨idle.solo.held, fun _ => idle.free, idle.solo.ready⟩
    (by simp [rdv]), show s.setSlice c t (s.slice c t).issued = begun s c t from rfl, hb, len, ← advanceAll_begun idle.solo]
  cases h.adv <;> rfl

/-- A form whose every active member faults takes the fault of the slice's active lanes. -/
theorem gangwise_faultAll (acts : Acts s c t g h.srcs) {code : Nat} (ok : h.ok = true := by rfl) (rdv : h.rdv = false := by rfl)
    (priv : h.priv = false := by rfl) : (gangwise h s fun u => u.faultAll g code) =
      .next (s.gangTrap h.len { code := code, lanes := [(t, (s.slice c t).active g)] }) := by
  refine gangwise_stops_of_acts (e := .fault { code := code, lanes := [(t, (s.slice c t).active g)] }) acts ?_ ok rdv priv
  rw [State.faultAll, begun_slots acts.solo, begun_core acts.solo, List.map_cons, List.map_nil, slice_begun]
  rfl

end

/-! ### The frame of a barrier form -/

section
variable {s : State} {c t : Nat} {g : BitVec 4} {h : Head} {i : BitVec 8} {rel : Bool}
  {body : State → Nat → Nat → List Nat → Except Stop State}

/-- For a slice with a lane active whose group has the barrier, the form is its body on that barrier, once it may release. -/
theorem barForm_of_own {n ret : Nat} (acts : Acts s c t g h.srcs) (own : (begun s c t).barrierOf c t i.toNat = some (n, ret))
    (ready : rel = true → (begun s c t).releaseReady c t 2 = true := by nofun) :
    barForm h g i rel s body = gangwise h s fun u => body u n ret [t] := by
  refine gangwise_congr ?_
  rw [countIssue_of_solo acts.solo]
  simp only [taking_begun acts, begun_core acts.solo, own]
  cases rel with
  | false => rfl
  | true => rw [if_pos rfl, releaseGang_of_ready acts.solo (ready rfl)]; rfl

theorem barForm_of_foreign (acts : Acts s c t g h.srcs) (foreign : (begun s c t).barrierOf c t i.toNat = none) :
    barForm h g i rel s body = gangwise h s fun u => u.faultAll g 0x02 := by
  refine gangwise_congr ?_
  rw [countIssue_of_solo acts.solo]
  simp only [taking_begun acts, begun_core acts.solo, foreign]

theorem barForm_of_idle (idle : Idles s c t g h.srcs) :
    barForm h g i rel s body = gangwise h s fun u => .ok (if h.adv then u else u.advanceAll 4) := by
  refine gangwise_congr ?_
  rw [countIssue_of_solo idle.solo]
  simp only [taking_begun_of_idle idle]

variable {body : State → Nat → List Nat → Except Stop State}

/-- The same for the team's barrier (R255). -/
theorem tbarForm_of_own {n : Nat} (acts : Acts s c t g h.srcs) (own : (begun s c t).teamBarrierOf c t i.toNat = some n) :
    tbarForm h g i s body = gangwise { h with ok := h.ok && decide (i.toNat ≤ 3) } s fun u => body u n [t] := by
  refine gangwise_congr ?_
  rw [countIssue_of_solo acts.solo]
  simp only [taking_begun acts, begun_core acts.solo, own]

theorem tbarForm_of_idle (idle : Idles s c t g h.srcs) : tbarForm h g i s body =
    gangwise { h with ok := h.ok && decide (i.toNat ≤ 3) } s fun u => .ok (if h.adv then u else u.advanceAll 4) := by
  refine gangwise_congr ?_
  rw [countIssue_of_solo idle.solo]
  simp only [taking_begun_of_idle idle]

end

/-! ### Arrivals of one slice (R251, R254) -/

section
variable {s : State} {c t n ret : Nat}

theorem inArrv_eq_contains : s.inArrv c n t = (s.barrier c n).arrived.contains (skey c t) := rfl

theorem arriveParked_of_new (new : s.inArrv c n t = false) : s.arriveParked c n ret [t] =
    (s.modSlice c t fun x => x.parkOn (.barrier c n (s.barrier c n).phase true)).arrive c t n ret := by
  simp [State.arriveParked, new]

theorem arriveParked_of_arrived (arrived : s.inArrv c n t = true) :
    s.arriveParked c n ret [t] = s.modSlice c t fun x => x.parkOn (.barrier c n (s.barrier c n).phase false) := by
  simp [State.arriveParked, arrived]

end

section
variable {s : State} {c t n ret : Nat} {g : BitVec 4} {i : BitVec 8} {srcs : List (Nat × Nat)}

/-- Members that move on leave the barriers as they are. -/
theorem barrier_skipInactive (solo : Solo s c t srcs) : ((begun s c t).skipInactive g).barrier c n = (begun s c t).barrier c n := by
  rw [State.skipInactive, State.foldl_solo _ (begun_slots solo)]
  rfl

theorem inArrv_skipInactive (solo : Solo s c t srcs) : ((begun s c t).skipInactive g).inArrv c n t = (begun s c t).inArrv c n t := by
  rw [inArrv_eq_contains, barrier_skipInactive solo, inArrv_eq_contains]

variable (acts : Acts s c t g []) (own : (begun s c t).barrierOf c t i.toNat = some (n, ret))
include acts own

/-- BARARV and BARSYN of a slice that is not in ARRV: it arrives; BARARV goes on and BARSYN parks on the phase. -/
theorem arrivals_of_new (ready : (begun s c t).releaseReady c t 2 = true) (new : (begun s c t).inArrv c n t = false) :
    exec (.bararv g i) s = .next (((begun s c t).skipInactive g).arriveOn c n ret t) ∧
    exec (.barsyn g i) s = .next ((((begun s c t).skipInactive g).modSlice c t fun x =>
      x.parkOn (.barrier c n ((begun s c t).barrier c n).phase true)).arrive c t n ret) := by
  have new' := (inArrv_skipInactive (n := n) (g := g) acts.solo).trans new
  constructor
  · refine show execBararv g i s = _ from (barForm_of_own acts own fun _ => ready).trans (gangwise_of_acts acts ?_)
    simp only [begun_core acts.solo, State.arriveEach_solo new']
    rfl
  · refine show execBarsyn g i s = _ from (barForm_of_own acts own fun _ => ready).trans (gangwise_of_acts acts ?_)
    rw [begun_core acts.solo, arriveParked_of_new new', barrier_skipInactive acts.solo]
    rfl

/-- BARARV and BARSYN of a slice in ARRV park it until the phase ends. -/
theorem arrivals_of_arrived (ready : (begun s c t).releaseReady c t 2 = true) (arrived : (begun s c t).inArrv c n t = true) :
    let parked := Host.Outcome.next (((begun s c t).skipInactive g).modSlice c t fun x =>
      x.parkOn (.barrier c n ((begun s c t).barrier c n).phase false))
    exec (.bararv g i) s = parked ∧ exec (.barsyn g i) s = parked := by
  have arrived' := (inArrv_skipInactive (n := n) (g := g) acts.solo).trans arrived
  have parks : ((begun s c t).skipInactive g).arriveParked c n ret [t] = ((begun s c t).skipInactive g).modSlice c t fun x =>
      x.parkOn (.barrier c n ((begun s c t).barrier c n).phase false) := by
    rw [arriveParked_of_arrived arrived', barrier_skipInactive acts.solo]
  constructor
  · refine show execBararv g i s = _ from (barForm_of_own acts own fun _ => ready).trans (gangwise_of_acts acts ?_)
    simp only [begun_core acts.solo, State.arriveEach_again arrived']
    exact congrArg Except.ok ((if_pos (by simp [arrived'])).trans parks)
  · refine show execBarsyn g i s = _ from (barForm_of_own acts own fun _ => ready).trans (gangwise_of_acts acts ?_)
    rw [begun_core acts.solo, parks]
    rfl

theorem barwt_of_new (new : (begun s c t).inArrv c n t = false) : exec (.barwt g i) s = .next ((begun s c t).advanceAll 4) := by
  refine show execBarwt g i s = _ from (barForm_of_own acts own).trans (gangwise_of_acts acts ?_)
  rw [begun_core acts.solo]
  exact if_neg (by simp [new])

theorem barwt_of_arrived (arrived : (begun s c t).inArrv c n t = true) : exec (.barwt g i) s =
    .next ((begun s c t).modSlice c t fun x => x.parkOn (.barrier c n ((begun s c t).barrier c n).phase true)) := by
  refine show execBarwt g i s = _ from (barForm_of_own acts own).trans (gangwise_of_acts acts ?_)
  rw [begun_core acts.solo, begun_slots acts.solo]
  exact if_pos (by simp [arrived])

theorem barqry_completes {a : BitVec 6} (ha : a.toNat < 32) :
    let b := (begun s c t).barrier c n
    exec (.barqry g i a) s = .next (((begun s c t).modSlice c t fun x => x.setS a.toNat
      (w32 (b.expect + b.total ret % 2 ^ 11 * 2 ^ 11 + (if b.auto then 2 ^ 30 else 0) + (if b.phase then 2 ^ 31 else 0)))
      ).advanceAll 4) := by
  refine show execBarqry g i a s = _ from (barForm_of_own acts own).trans (gangwise_of_acts acts ?_ (sOk_eq_true ha))
  rw [begun_core acts.solo]
  rfl

end

/-! ### EXPECT (R254, R255) -/

theorem expectOk_iff {v : Word} {limit : Nat} :
    expectOk v limit = true ↔ bits v 11 20 = 0 ∧ bits v 0 11 ≠ 0 ∧ bits v 0 11 ≤ limit := by
  simp [expectOk, and_assoc]

section
variable {s : State} {c t : Nat} {g : BitVec 4} {a : BitVec 6} {srcs : List (Nat × Nat)} {limit : Nat}

theorem checkExpect_of_legal (solo : Solo s c t srcs) (legal : expectOk ((s.slice c t).sr a.toNat) limit = true) :
    (begun s c t).checkExpect g a limit [t] = .ok () := by
  have same : ((begun s c t).slice c t).sr a.toNat = (s.slice c t).sr a.toNat := by rw [slice_begun]; rfl
  simp [State.checkExpect, begun_core solo, same, legal]

theorem checkExpect_of_illegal (solo : Solo s c t srcs) (illegal : expectOk ((s.slice c t).sr a.toNat) limit = false) :
    (begun s c t).checkExpect g a limit [t] =
      .error (.fault { code := 0x02, lanes := [(t, (s.slice c t).active g)] }) := by
  have same : ((begun s c t).slice c t).sr a.toNat = (s.slice c t).sr a.toNat := by rw [slice_begun]; rfl
  have bad : [t].filter (fun i => !expectOk (((begun s c t).slice c i).sr a.toNat) limit) = [t] := by simp [same, illegal]
  simp only [State.checkExpect, begun_core solo, bad, State.faultOf, List.map_cons, List.map_nil, slice_begun]
  rfl

variable {i : BitVec 8} {n ret : Nat} (acts : Acts s c t g [(1, a.toNat)]) (ha : a.toNat < 32)
include acts ha

theorem barinit_completes (own : (begun s c t).barrierOf c t i.toNat = some (n, ret))
    (legal : expectOk ((s.slice c t).sr a.toNat) 120 = true) :
    let v := (s.slice c t).sr a.toNat
    exec (.barinit g i a) s = .next ((((begun s c t).setBarrier c n
      { (begun s c t).barrier c n with expect := bits v 0 11, auto := v.getLsbD 31 }).evalBarrier c n ret).advanceAll 4) := by
  refine show execBarinit g i a s = _ from (barForm_of_own acts own).trans (gangwise_of_acts acts ?_ (sOk_eq_true ha))
  rw [begun_core acts.solo, checkExpect_of_legal acts.solo legal]
  simp only [List.foldl_cons, List.foldl_nil, slice_begun]
  rfl

theorem barinit_misused (own : (begun s c t).barrierOf c t i.toNat = some (n, ret))
    (illegal : expectOk ((s.slice c t).sr a.toNat) 120 = false) :
    exec (.barinit g i a) s = .next (s.gangTrap 4 { code := 0x02, lanes := [(t, (s.slice c t).active g)] }) := by
  refine show execBarinit g i a s = _ from (barForm_of_own acts own).trans
    (gangwise_stops_of_acts (e := .fault { code := 0x02, lanes := [(t, (s.slice c t).active g)] }) acts ?_ (sOk_eq_true ha))
  rw [begun_core acts.solo, checkExpect_of_illegal acts.solo illegal]
  rfl

end

/-! ### The forms -/

theorem barrierForms : BarrierForms := by
  refine ⟨fun g i a s c t idle ha => ?_, ?_⟩
  · have idle0 : Idles s c t g [] := idles_of_subset idle (List.nil_subset _)
    exact ⟨show execBararv g i s = _ from (barForm_of_idle idle0).trans (gangwise_of_idle idle0 rfl),
      show execBarsyn g i s = _ from (barForm_of_idle idle0).trans (gangwise_of_idle idle0 rfl),
      show execBarwt g i s = _ from (barForm_of_idle idle0).trans (gangwise_of_idle idle0 rfl),
      show execBarinit g i a s = _ from (barForm_of_idle idle).trans (gangwise_of_idle idle rfl (sOk_eq_true ha)),
      show execBarqry g i a s = _ from (barForm_of_idle idle0).trans (gangwise_of_idle idle0 rfl (sOk_eq_true ha))⟩
  · intro g i s c t n ret acts u b arrived own
    refine ⟨arrivals_of_new acts own, arrivals_of_arrived acts own, barwt_of_new acts own, barwt_of_arrived acts own,
      fun a ha => ⟨fun ready low high reserved => ?_, barqry_completes acts own ha⟩⟩
    have acts1 : Acts s c t g [(1, a.toNat)] := { acts with solo := { acts.solo with ready := by simpa using ready } }
    exact barinit_completes acts1 ha own (expectOk_iff.2 ⟨reserved, Nat.one_le_iff_ne_zero.1 low, high⟩)

theorem teamBarrierForms : TeamBarrierForms := by
  intro g i s c t hi u
  have named : (true && decide (i.toNat ≤ 3)) = true := by simp [hi]
  refine ⟨fun idle => show execTbarsyn g i s = _ from (tbarForm_of_idle idle).trans (gangwise_of_idle idle rfl named),
    fun n own => ⟨fun acts ready => ?_, fun a ha acts low high reserved => ?_⟩⟩
  · refine show execTbarsyn g i s = _ from (tbarForm_of_own acts own).trans (gangwise_of_acts acts ?_ named)
    rw [releaseGang_of_ready acts.solo ready, begun_core acts.solo]
    rfl
  · refine show execTbarinit g i a s = _ from (tbarForm_of_own acts own).trans
      (gangwise_of_acts acts ?_ (by rw [sOk_eq_true ha]; exact named))
    rw [begun_core acts.solo, checkExpect_of_legal acts.solo (expectOk_iff.2 ⟨reserved, Nat.one_le_iff_ne_zero.1 low, high⟩)]
    simp only [List.foldl_cons, List.foldl_nil, slice_begun]
    rfl

theorem barrierFaults : BarrierFaults := by
  intro g i a s c t acts ha u bad
  have acts0 : Acts s c t g [] := acts_of_subset acts (List.nil_subset _)
  refine ⟨fun foreign => ?_, fun p own range => barinit_misused acts ha own (Bool.eq_false_iff.2 fun legal => ?_)⟩
  · exact ⟨show execBararv g i s = _ from (barForm_of_foreign acts0 foreign).trans (gangwise_faultAll acts0),
      show execBarsyn g i s = _ from (barForm_of_foreign acts0 foreign).trans (gangwise_faultAll acts0),
      show execBarwt g i s = _ from (barForm_of_foreign acts0 foreign).trans (gangwise_faultAll acts0),
      show execBarinit g i a s = _ from (barForm_of_foreign acts foreign).trans (gangwise_faultAll acts (sOk_eq_true ha)),
      show execBarqry g i a s = _ from (barForm_of_foreign acts0 foreign).trans (gangwise_faultAll acts0 (sOk_eq_true ha))⟩
  · obtain ⟨reserved, low, high⟩ := expectOk_iff.1 legal
    rcases range with zero | above | set
    · exact low zero
    · exact absurd high (Nat.not_le.2 above)
    · exact set reserved

/-- Settles O39: the frame of a barrier form finds the group's or the team's barrier, or none; with one the form's body arrives, parks,
sets or reads. -/
theorem namedBarriers : Obligations.NamedBarriers :=
  ⟨barrierForms, teamBarrierForms, barrierFaults⟩

end Sys2Proof.Proofs

/-! Ordered sections (10 R256 to R263): the forms of a gang of any size, which enters, leaves, sets, tickets, frees or reads sections. -/

namespace Sys2Proof.Proofs

-- One proof at a time, as in the tests: each proof under way at once takes a thread's stack out of the check's memory.
set_option Elab.async false

open Sys2Proof.Machine Sys2Proof.Claim

/-! ### A gang whose memory form waits for nothing -/

section
variable {s u : State} {h : Head} {body : State → Except Stop State} (gang : Gang s h.srcs) (free : Free s)
include gang free

/-- A gang that waits for no register and no acquire runs a form that is not privileged, a memory access too. -/
theorem gangwise_of_free (hb : body s.countIssue = .ok u) (ok : h.ok = true := by rfl) (rdv : h.rdv = false := by rfl)
    (priv : h.priv = false := by rfl) : gangwise h s body = .next (if h.adv = true then u.advanceAll h.len else u) :=
  gangwise_next ok (by simp [priv]) (fun i hi => ⟨gang.held i hi, fun _ => free i hi, gang.ready i hi⟩) (by simp [rdv]) hb

/-- A form that says itself where its gang goes on. -/
theorem gangwise_stays_of_free (hb : body s.countIssue = .ok u) (ok : h.ok = true := by rfl) (adv : h.adv = false := by rfl)
    (rdv : h.rdv = false := by rfl) (priv : h.priv = false := by rfl) : gangwise h s body = .next u := by
  rw [gangwise_of_free gang free hb ok rdv priv, if_neg (by simp [adv])]

theorem gangwise_stops_of_free {e : Stop} (hb : body s.countIssue = .error e) (ok : h.ok = true := by rfl)
    (rdv : h.rdv = false := by rfl) (priv : h.priv = false := by rfl) : gangwise h s body = s.stop h.len e := by
  rw [gangwise_eq ok (by simp [priv]) (fun i hi => ⟨gang.held i hi, fun _ => free i hi, gang.ready i hi⟩) (by simp [rdv]), hb]

end

/-! ### Lanes that share a key and a sequence number (R260) -/

theorem length_filter_beq {α β : Type} [BEq β] [LawfulBEq β] (f : α → β) (ls : List α) (k : β) :
    (ls.filter fun y => f y == k).length = (ls.map f).count k := by
  rw [List.count, List.countP_map, List.countP_eq_length_filter]
  rfl

/-- No lane shares its key and its sequence number with another exactly when these are all distinct. -/
theorem dupLanes_eq_nil_iff {ls : List ((Nat × Nat) × Nat × Word)} : dupLanes ls = [] ↔ (ls.map fun x => x.2).Nodup := by
  rw [dupLanes, List.filter_eq_nil_iff, List.nodup_iff_count_eq_one]
  simp only [length_filter_beq (fun y : (Nat × Nat) × Nat × Word => y.2), bne_iff_ne, ne_eq, not_not, List.forall_mem_map]

/-! ### Forms that wait for their answers -/

/-- The fault of lanes that share a key and a sequence number: the key of the lowest, and every such lane. -/
def duplicateFault (ls : List ((Nat × Nat) × Nat × Word)) : FaultRec :=
  { code := 0x0D, addr := ((dupLanes ls).map fun x => x.2.1).headD 0, lanes := laneMasks ((dupLanes ls).map fun x => x.1) }

section
variable {f : R3} {s : State} {n : Nat} (gang : Gang s ((0, f.a.toNat) :: bSrc f.b f.x)) (free : Free s) (hd : f.d.toNat < 8)
  (legal : osecB f.b f.x = true)
include gang free hd legal

/-- OSE and OSEN of a gang with no lane active move on. -/
theorem enterForm_of_idle (off : s.countIssue.osecLanes f.g f.a f.b f.x = []) :
    enterForm n f s = .next (s.countIssue.advanceAll 4) := by
  refine gangwise_stays_of_free gang free ?_ (by rw [pOk_eq_true hd, legal]; rfl)
  simp only [off]

/-- With distinct keys and sequence numbers the gang sends its requests and waits. -/
theorem enterForm_of_distinct (on : s.countIssue.osecLanes f.g f.a f.b f.x ≠ [])
    (distinct : ((s.countIssue.osecLanes f.g f.a f.b f.x).map fun x => x.2).Nodup) : enterForm n f s =
      .next (s.countIssue.osecWait (n - 1) (s.countIssue.osecLanes f.g f.a f.b f.x) n f.d.toNat) := by
  refine gangwise_stays_of_free gang free ?_ (by rw [pOk_eq_true hd, legal]; rfl)
  obtain ⟨l, ls, lanes⟩ := List.exists_cons_of_ne_nil on
  rw [lanes] at distinct ⊢
  simp only [dupLanes_eq_nil_iff.2 distinct]

theorem enterForm_of_duplicates (dup : ¬ ((s.countIssue.osecLanes f.g f.a f.b f.x).map fun x => x.2).Nodup) :
    enterForm n f s = .next (s.gangTrap 4 (duplicateFault (s.countIssue.osecLanes f.g f.a f.b f.x))) := by
  refine gangwise_stops_of_free (e := .fault (duplicateFault (s.countIssue.osecLanes f.g f.a f.b f.x))) gang free ?_
    (by rw [pOk_eq_true hd, legal]; rfl)
  obtain ⟨x, xs, dups⟩ := List.exists_cons_of_ne_nil (mt dupLanes_eq_nil_iff.1 dup)
  rw [duplicateFault, dups]
  split
  next off => rw [off] at dup; exact absurd List.nodup_nil dup
  next l ls lanes =>
    rw [lanes] at dups
    simp only [dups]
    rfl

end

section
variable {g : BitVec 4} {a : BitVec 6} {s : State}

theorem osini_completes {b : BitVec 6} {x : BitVec 1} (gang : Gang s ((0, a.toNat) :: bSrc b x)) (free : Free s)
    (legal : osecB b x = true) : exec (.osini g a b x) s = .next
      (if s.countIssue.osecLanes g a b x = [] then s.countIssue.advanceAll 4
        else s.countIssue.osecWait 3 (s.countIssue.osecLanes g a b x) 4 0) := by
  refine show execOsini g a b x s = _ from gangwise_stays_of_free gang free ?_ legal
  split
  next off => rw [if_pos off]
  next lanes => rw [if_neg fun off => List.cons_ne_nil _ _ (lanes.symm.trans off), lanes]

variable (gang : Gang s [(0, a.toNat)]) (free : Free s)
include gang free

theorem osx_of_idle (off : s.countIssue.osecLanes g a 48 1 = []) : exec (.osx g a) s = .next (s.countIssue.advanceAll 4) := by
  refine show execOsx g a s = _ from gangwise_stays_of_free gang free ?_
  simp only [off]

theorem osx_releases (on : s.countIssue.osecLanes g a 48 1 ≠ []) (ready : s.countIssue.releaseGang g 4 = .ok ()) :
    exec (.osx g a) s = .next (s.countIssue.osecWait 2 (s.countIssue.osecLanes g a 48 1) 3 0) := by
  refine show execOsx g a s = _ from gangwise_stays_of_free gang free ?_
  obtain ⟨l, ls, lanes⟩ := List.exists_cons_of_ne_nil on
  simp only [lanes, ready]
  rfl

theorem ostk_completes (d : BitVec 6) : exec (.ostk ⟨g, d, a⟩) s = .next
    (if s.countIssue.osecLanes g a 48 1 = [] then s.countIssue.advanceAll 4
      else s.countIssue.osecWait 6 (s.countIssue.osecLanes g a 48 1) 5 d.toNat) := by
  refine show execOstk ⟨g, d, a⟩ s = _ from gangwise_stays_of_free gang free ?_
  split
  next off => rw [if_pos off]
  next lanes => rw [if_neg fun off => List.cons_ne_nil _ _ (lanes.symm.trans off), lanes]

/-! ### Forms that go on -/

theorem osfree_completes :
    exec (.osfree g a) s = .next ((s.countIssue.osecSend 4 (s.countIssue.osecLanes g a 48 1) none).advanceAll 4) :=
  show execOsfree g a s = _ from gangwise_of_free gang free rfl

theorem osqry_of_idle {d : BitVec 6} (even : d.toNat % 2 = 0) (off : s.countIssue.osecLanes g a 48 1 = []) :
    exec (.osqry ⟨g, d, a⟩) s = .next (s.countIssue.advanceAll 4) := by
  refine show execOsqry ⟨g, d, a⟩ s = _ from gangwise_of_free (u := s.countIssue) gang free ?_ (alignOk_eq_true even)
  simp only [off]

/-- OSQRY's pair of registers is pending in the members that take part until the answers come. -/
theorem osqry_asks {d : BitVec 6} (even : d.toNat % 2 = 0) (on : s.countIssue.osecLanes g a 48 1 ≠ []) :
    exec (.osqry ⟨g, d, a⟩) s = .next (((s.countIssue.taking g).foldl (fun u t => u.modSlice u.issuer.core t fun x =>
        { x with pending := x.pending ++ [⟨0, d.toNat, s.countIssue.nextId, false⟩, ⟨0, d.toNat + 1, s.countIssue.nextId, false⟩] })
      (s.countIssue.osecOp 5 (s.countIssue.osecLanes g a 48 1) 0 0 (.v d.toNat 2))).advanceAll 4) := by
  refine show execOsqry ⟨g, d, a⟩ s = _ from gangwise_of_free (u := List.foldl _ _ _) gang free ?_ (alignOk_eq_true even)
  obtain ⟨l, ls, lanes⟩ := List.exists_cons_of_ne_nil on
  simp only [lanes]

end

theorem sectionForms : SectionForms := by
  refine ⟨?_, ?_, ?_⟩
  · intro f s gang free hd legal
    refine ⟨fun off => ?_, fun on distinct => ?_⟩
    · exact ⟨show execOse f s = _ from enterForm_of_idle gang free hd legal off,
        show execOsen f s = _ from enterForm_of_idle gang free hd legal off⟩
    · exact ⟨show execOse f s = _ from enterForm_of_distinct gang free hd legal on distinct,
        show execOsen f s = _ from enterForm_of_distinct gang free hd legal on distinct⟩
  · intro g a b x s gang free legal
    exact osini_completes gang free legal
  · intro g a s gang free
    refine ⟨osx_of_idle gang free, osx_releases gang free, osfree_completes gang free,
      fun d => ⟨ostk_completes gang free d, fun even => ?_⟩⟩
    split
    next off => exact osqry_of_idle gang free even off
    next on => exact osqry_asks gang free even on

theorem sectionDuplicates : SectionDuplicates := fun _ _ gang free hd legal dup =>
  ⟨duplicateFault _, rfl, show execOse _ _ = _ from enterForm_of_duplicates gang free hd legal dup,
    show execOsen _ _ = _ from enterForm_of_duplicates gang free hd legal dup⟩

/-- Settles O40: each form sends its requests and waits, or moves on; OSE and OSEN fault exactly where two lanes share a key and a
sequence number. -/
theorem orderedSections : Obligations.OrderedSections :=
  ⟨sectionForms, sectionDuplicates⟩

end Sys2Proof.Proofs

/-! Team-barrier arrivals, section requests, steals, overruns and hangs (10 R255, R259 to R269; 11 R297, R298): what each device step
makes of a message or a condition that is due. -/

namespace Sys2Proof.Proofs

-- One proof at a time, as in the tests: each proof under way at once takes a thread's stack out of the check's memory.
set_option Elab.async false

open Sys2Proof.Machine Sys2Proof.Claim

/-- A slice of the same group is in the same team. -/
theorem teamOf_setSlice {s : State} {c t : Nat} {x : Slice} (same : x.group = (s.slice c t).group) :
    (s.setSlice c t x).teamOf c t = s.teamOf c t := by
  rw [State.teamOf, State.slice_setSlice_self, same]
  rfl

section
variable {s : State} {f : Flight} (due : Due s f)
include due

/-! ### Team barriers (R255) -/

section
variable {team : Option Nat} {t id : Nat} {p : Bool} {b : Barrier}
  (hb : tget {} ((s.dropFlight f.id).cluster (clusterOf f.src)).barriers id = b)
include hb

/-- What comes from a team that does not hold the barrier is lost. -/
theorem teamBarrierArrival_lost {v : Option Word} (hp : f.pkt = .teamArrive team t id p v)
    (lost : b.used = false ∨ team ≠ some b.owner) : Becomes (.evTeamBarrierArrival f.id) s (s.dropFlight f.id) := by
  refine show execEvTeamBarrierArrival f.id s = _ from onFlight_of_due due ?_
  simp only [hp, hb]
  refine if_pos ?_
  rcases lost with unused | other
  · simp [unused]
  · simp [Ne.symm other]

variable (used : b.used = true) (held : team = some b.owner)
include used held

/-- TBARINIT sets EXPECT and AUTO, and the barrier is evaluated. -/
theorem teamBarrierArrival_sets {v : Word} (hp : f.pkt = .teamArrive team t id p (some v)) :
    Becomes (.evTeamBarrierArrival f.id) s
      (((s.dropFlight f.id).modCluster (clusterOf f.src) fun k =>
        { k with barriers := tset k.barriers id { b with expect := bits v 0 11, auto := v.getLsbD 31 } }).evalTeamBarrier
          (clusterOf f.src) id ((s.dropFlight f.id).teamRet b)) := by
  refine show execEvTeamBarrierArrival f.id s = _ from onFlight_of_due due ?_
  simp only [hp, hb]
  exact if_neg (by simp [used, held])

/-- A slice of the team that still waits for the unit's answer, and is not in ARRV, arrives and parks on the phase. -/
theorem teamBarrierArrival_arrives (hp : f.pkt = .teamArrive team t id p none)
    (member : (s.dropFlight f.id).teamOf f.src t = team) {x : Slice} (hx : (s.dropFlight f.id).slice f.src t = x)
    (waits : x.park = some (.answer f.id)) (live : x.live = true) (new : b.arrived.contains (skey f.src t) = false) :
    Becomes (.evTeamBarrierArrival f.id) s
      ((((s.dropFlight f.id).setSlice f.src t (x.parkOn (.teamBarrier (clusterOf f.src) id b.phase true))).modCluster
        (clusterOf f.src) fun k => { k with barriers := tset k.barriers id { b with arrived := bitIns b.arrived (skey f.src t) } }
          ).evalTeamBarrier (clusterOf f.src) id ((s.dropFlight f.id).teamRet b)) := by
  refine show execEvTeamBarrierArrival f.id s = _ from onFlight_of_due due ?_
  have owned : ¬ (!b.used || some b.owner != team) = true := by simp [used, held]
  have awaited : (x.park == some (.answer f.id)) = true := by rw [waits]; exact beq_self_eq_true _
  have parked : ((s.dropFlight f.id).setSlice f.src t (x.parkOn (.teamBarrier (clusterOf f.src) id b.phase true))).teamOf f.src t =
      team := (teamOf_setSlice (by rw [hx]; rfl)).trans member
  simp only [hp, hb, hx, if_neg owned, awaited, new, if_true]
  exact if_neg (by simp [live, parked])

end

/-! ### Sections (R259 to R263) -/

theorem osecRequest_performed {form key : Nat} {lanes : List (Nat × Nat × Word)} (hp : f.pkt = .osec form key lanes) :
    Becomes (.evOsecRequestAtHome f.id) s ((s.dropFlight f.id).osecPerform f form key lanes) :=
  show execEvOsecRequestAtHome f.id s = _ from onFlight_of_due due (by simp only [hp])

/-! ### Steals (11 R297, R298) -/

section
variable {t d v : Nat} {ring : Bool} {o : Op}

/-- The first steal on its way to a core acts there before the core's issues of the cycle. -/
theorem stealArrival_of_fresh (hp : f.pkt = .steal t d v ring) (hop : f.op = some o.id) (ho : s.op? o.id = some o)
    (fresh : s.coreFresh v = true) :
    exec (.evStealArrival f.id) s = .next ((s.dropFlight f.id).stealAt o t d v ring) := by
  refine show execEvStealArrival f.id s = _ from ?_
  simp only [execEvStealArrival, due.under, hp, hop, Option.bind_some, ho, due.first, fresh, Bool.and_self, if_true]

end

end

section
variable {u : State} {t d v : Nat} {o : Op}

theorem stealAt_of_entries {ring : Bool} {b n tag : Nat} {rest : List (Nat × Nat × Nat)} (owner : (u.core v).deque.owner = some o.asid)
    (top : stealTop (u.core v).deque.entries = some ((b, n, tag), rest)) :
    u.stealAt o t d v ring = (u.modCore v fun k => { k with deque := { (u.core v).deque with
      entries := rest, lent := if (u.core v).deque.entries.length = 1 ∧ n = 1 ∧ rest = [] then some ⟨o.id, t, d, ring, b, tag⟩
        else (u.core v).deque.lent } }).answer o.id t d [b, n, tag, v] := by
  have own : ((u.core v).deque.owner == some o.asid) = true := by simp [owner]
  simp only [State.stealAt, own, if_true, top]

/-- A steal that is no ring's and finds no entry of its context takes nothing. -/
theorem stealAt_of_none (absent : (u.core v).deque.owner ≠ some o.asid ∨ (u.core v).deque.entries = []) :
    u.stealAt o t d v false = u.answer o.id t d [0, 0, 0, 0xFFFFFFFF] := by
  have nothing : (if (u.core v).deque.owner == some o.asid then stealTop (u.core v).deque.entries else none) = none := by
    rcases absent with other | empty
    · exact if_neg (by simpa using other)
    · rw [empty]; exact ite_self _
  simp only [State.stealAt, nothing]
  rfl

end

/-! ### Overruns and hangs (R265, R267, R268) -/

theorem sectionOverrun_taken {s u : State} {c t : Nat} (live : (s.slice c t).live = true) (going : (s.slice c t).halted = false)
    (overrun : s.takeOverrun c t = some u) : Becomes (.evSectionOverrun c t) s u := by
  show execEvSectionOverrun c t s = _
  simp [execEvSectionOverrun, live, going, overrun]

/-- A context that has hung for its limit gets its graph stored and a HANG in each of its slices (R268). -/
theorem hang_reported {s : State} {asid : Nat} (limited : (s.ctx asid).hanglim ≠ 0) (reached : (s.ctx asid).hanglim ≤ (s.ctx asid).hang)
    (hangs : s.hangCycle asid = true) :
    let xs := s.ctxSlices asid
    let w := s.reachCtx asid
    let area := w.ctxField asid 16 8 % 2 ^ 52
    let bytes := wordsBytes (w.hangGraph xs)
    let runs := if area = 0 then [] else byteRuns 16 bytes.length bytes
    w.storeWaits asid area runs = false →
    Becomes (.evHang asid) s (((xs.foldl (fun s x => s.trapAlone (x.1 / 128) (x.1 % 128) { code := 0x0E })
      (w.storeGlobal asid area runs)).post [evWord 0x93 0x0E asid, w32 xs.length, 0, 0, 0, 0, 0, 0]).modCtx asid fun c =>
        { c with hang := 0 }) := by
  intro xs w area bytes runs stored
  have due : ¬ ((s.ctx asid).hanglim = 0 || decide ((s.ctx asid).hang < (s.ctx asid).hanglim) || !s.hangCycle asid) = true := by
    simp [limited, reached, hangs]
  exact show execEvHang asid s = _ from (if_neg due).trans (if_neg (by rw [Bool.not_eq_true]; exact stored))

/-- Settles O8: each step finds its message first of its pair, or its condition met, so it acts; a steal takes from the top of its
own context's deque, or nothing. -/
theorem synchronisationEvents : Obligations.SynchronisationEvents := by
  unfold Obligations.SynchronisationEvents
  refine ⟨fun s f due => ?_, fun s u c t live going overrun => sectionOverrun_taken live going overrun, fun s asid => hang_reported⟩
  intro u
  refine ⟨fun team t id p v hp => ⟨teamBarrierArrival_lost due rfl hp, fun used held => teamBarrierArrival_sets due rfl used held hp⟩,
    fun team t id p hp used held member waits live new =>
      teamBarrierArrival_arrives due rfl used held hp member rfl waits live new,
    fun form key lanes hp => osecRequest_performed due hp, fun t d v ring o hp hop ho fresh => ?_⟩
  have taken := stealArrival_of_fresh due hp hop ho fresh
  refine ⟨fun b n tag rest owner top => taken.trans ?_, fun absent ring => taken.trans ?_⟩
  · rw [stealAt_of_entries owner top]
  · rw [ring, stealAt_of_none absent]

end Sys2Proof.Proofs

/-! RETQ (11 R292): its word, and what a gang of slices that the repack unit started, and any other slice, makes of it. -/

namespace Sys2Proof.Proofs

-- One proof at a time, as in the tests: each proof under way at once takes a thread's stack out of the check's memory.
set_option Elab.async false

open Sys2Proof.Machine Sys2Proof.Claim

/-! ### The word -/

/-- A word of RETQ's major and function decodes only where its other fields are zero. -/
theorem not_decodes_of_retq_function {w : Word} (major : fld w 22 6 = 0x23) (function : fld w 0 3 = 4) (other : w &&& 0x3FFFF8 ≠ 0)
    (w1 : Word) (i : Instr) : decodeSimt w w1 ≠ .ok i := by
  intro decodes
  obtain ⟨-, fields, -⟩ := decodeSimt_eq_ok.1 decodes
  have row : fields32 w = zeros 0x3FFFF8 w (.retq (fld w 28 4)) := by unfold fields32 pick; rw [major, function]; rfl
  rw [major, if_pos (by decide), row] at fields
  obtain ⟨none, -⟩ := zeros_eq_ok.1 fields
  exact other none

/-! ### What the count of an issue leaves -/

/-- What a change of one slice leaves of it, it leaves of every slice of the machine. -/
theorem modSlice_keeps {β : Type} {p : Slice → β} {f : Slice → Slice} (kept : ∀ x, p (f x) = p x) (s : State) (c i d t : Nat) :
    p ((s.modSlice c i f).slice d t) = p (s.slice d t) := by
  by_cases same : skey d t = skey c i
  · have at_same (v : State) : v.slice d t = v.slice c i := congrArg (tget ({} : Slice) v.slices) same
    rw [at_same, at_same, State.slice_modSlice_self]
    exact kept _
  · rw [State.modSlice, State.slice_setSlice_of_ne _ _ same]

theorem countIssue_keeps {β : Type} {p : Slice → β} (kept : ∀ x : Slice, p x.issued = p x) (s : State) (d t : Nat) :
    p (s.countIssue.slice d t) = p (s.slice d t) :=
  List.foldlRecOn (motive := fun u : State => p (u.slice d t) = p (s.slice d t)) _ _ rfl fun u hu _ _ =>
    (modSlice_keeps kept u ..).trans hu

/-! ### What EXIT's members leave of the gang -/

theorem abandonIf_issuer (s : State) (p : Holder → Bool) : (s.abandonIf p).issuer = s.issuer :=
  ((KeepsGang.refl s).abandonIf p).issuer

theorem post_issuer (s : State) (ws : List Word) : (s.post ws).issuer = s.issuer :=
  ((KeepsGang.refl s).post ws).issuer

theorem noteLeave_issuer (s : State) (asid : Nat) : (s.noteLeave asid).issuer = s.issuer := by
  unfold State.noteLeave
  split
  · rfl
  · exact State.modCtx_issuer ..

theorem groupGone_issuer (s : State) (grid : Nat) (killed : Bool) : (s.groupGone grid killed).issuer = s.issuer := by
  unfold State.groupGone
  split <;> rfl

theorem groupEnd_issuer (s : State) (n : Nat) : (s.groupEnd n).issuer = s.issuer := by
  unfold State.groupEnd
  split
  · rfl
  · split
    · rfl
    · rw [noteLeave_issuer, State.modCore_issuer, groupGone_issuer, State.modGroup_issuer]

theorem evalRendezvous_issuer (s : State) (c t : Nat) : (s.evalRendezvous c t).issuer = s.issuer := by
  unfold State.evalRendezvous
  dsimp only
  split
  · exact foldl_issuer (fun _ _ => State.modSlice_issuer ..) _ _
  · rfl

theorem retire_issuer (s : State) (c t : Nat) : (s.retire c t).issuer = s.issuer := by
  have returned (l : Tab Port) (u : State) : (l.foldl (fun u p => (u.dropOp p.2.op).modSlice c t fun y =>
      (y.complete p.2.op).unpend p.2.op) u).issuer = u.issuer :=
    foldl_issuer (fun _ _ => (State.modSlice_issuer ..).trans (State.dropOp_issuer ..)) l u
  unfold State.retire
  dsimp only
  split
  · rw [noteLeave_issuer, foldl_issuer fun _ _ => post_issuer .., abandonIf_issuer, returned, State.modCore_issuer,
      State.setSlice_issuer]
  · split
    on_goal 1 => rw [evalRendezvous_issuer]
    all_goals rw [groupEnd_issuer, foldl_issuer fun _ _ => post_issuer .., abandonIf_issuer, returned, State.modCore_issuer,
      State.setSlice_issuer]

theorem exitMember_issuer (s : State) (c t : Nat) (m : Pred) : (s.exitMember c t m).issuer = s.issuer := by
  unfold State.exitMember
  dsimp only
  split
  · rw [retire_issuer, abandonIf_issuer, State.setSlice_issuer]
  · rw [abandonIf_issuer, State.setSlice_issuer]

/-! ### RETQ and EXIT -/

/-- The core of the gang is the same for each member that leaves. -/
theorem foldl_exitMember (g : BitVec 4) (l : List Nat) {s : State} {c : Nat} (core : s.issuer.core = c) :
    l.foldl (fun u t => u.exitMember u.issuer.core t ((u.slice u.issuer.core t).active g)) s =
      l.foldl (fun u t => u.exitMember c t ((u.slice c t).active g)) s := by
  induction l generalizing s with
  | nil => rfl
  | cons t l ih =>
    rw [List.foldl_cons, List.foldl_cons, core]
    exact ih ((congrArg Issuer.core (exitMember_issuer ..)).trans core)

section
variable {s : State} {g : BitVec 4}

/-- Where the repack unit started every member with a lane active, RETQ and EXIT run the same. -/
theorem retq_eq_exit (started : ∀ t ∈ s.issuer.slots, (s.slice s.issuer.core t).active g ≠ 0 →
    (s.slice s.issuer.core t).repacked = true) : exec (.retq g) s = exec (.exit g) s := by
  refine show execRetq g s = execExit g s from gangwise_congr ?_
  refine show ite _ _ _ = Except.ok (List.foldl _ _ _) from (if_neg ?_).trans (congrArg Except.ok (foldl_exitMember g _ rfl).symm)
  rw [Bool.not_eq_true, List.any_eq_false]
  intro t ht
  obtain ⟨member, on⟩ := List.mem_filter.1 ht
  rw [countIssue_issuer] at member on ⊢
  rw [countIssue_keeps (p := (·.active g)) fun _ => rfl, bne_iff_ne] at on
  rw [countIssue_keeps (p := (·.repacked)) fun _ => rfl, started t member on]
  decide

variable {c t : Nat} (solo : Solo s c t [])
include solo

theorem retq_eq_exit_of_solo (started : (s.slice c t).active g ≠ 0 → (s.slice c t).repacked = true) :
    exec (.retq g) s = exec (.exit g) s := by
  refine retq_eq_exit fun i hi => ?_
  rw [solo.gang, List.mem_singleton] at hi
  rw [hi, solo.core]
  exact started

/-- EXIT takes the active lanes of its one slice out. -/
theorem exit_solo : exec (.exit g) s = .next ((begun s c t).exitMember c t ((s.slice c t).active g)) := by
  rw [exit_completes g (gang_of_solo solo), solo.gang, List.foldl_cons, List.foldl_nil, countIssue_of_solo solo, begun_core solo,
    slice_begun]
  rfl

/-- A slice with a lane active that the repack unit did not start takes ILLEGAL_INSTR (R292). -/
theorem retq_illegal (on : (s.slice c t).active g ≠ 0) (user : (s.slice c t).repacked = false) :
    exec (.retq g) s = .next (s.gangTrap 4 { code := 0x01, lanes := [(t, (s.slice c t).active g)] }) := by
  refine show execRetq g s = _ from gangwise_stops (h := { adv := false })
    (e := .fault { code := 0x01, lanes := [(t, (s.slice c t).active g)] }) (gang_of_solo solo) ?_
  have taking : (begun s c t).taking g = [t] := by
    rw [State.taking_solo g (begun_core solo) (begun_slots solo), slice_begun]
    exact if_neg on
  have issued : (s.slice c t).issued.repacked = false := user
  rw [countIssue_of_solo solo]
  simp only [taking, begun_core solo, begun_slots solo, State.faultAll, List.any_cons, List.any_nil, List.map_cons, List.map_nil,
    slice_begun, issued]
  rfl

end

/-! ### A member with no lane active -/

theorem and_not_zero (m : Pred) : m &&& ~~~0 = m := BitVec.and_allOnes

/-- No lane leaves the joins above a path. -/
theorem leaveJoins_zero (x : Slice) (n : Nat) (link : Option Nat) : x.leaveJoins 0 n link = x := by
  induction n generalizing link with
  | zero => rfl
  | succ n ih =>
    cases link with
    | none => rfl
    | some j =>
      have same : x.paths.set j (x.paths.getD j {}) = x.paths := by
        rcases Nat.lt_or_ge j x.paths.length with inside | outside
        · rw [List.getD_eq_getElem _ _ inside, List.set_getElem_self]
        · exact List.set_eq_of_length_le outside
      rw [Slice.leaveJoins]
      simp only [and_not_zero, Slice.setPath, same]
      exact ih _

/-- EXIT of no lane: the path goes on after the instruction (R98). -/
theorem exitLanes_zero {x : Slice} (on : x.path.mask ≠ 0) : x.exitLanes 0 = x.modPath fun p => { p with pc := p.pc + 4 } := by
  unfold Slice.exitLanes
  simp only [leaveJoins_zero, and_not_zero, if_neg on, Slice.modPath]

/-- With no holder to leave, every section stays as it is. -/
theorem abandonIf_of_none {p : Holder → Bool} (none : ∀ h, p h = false) (s : State) : s.abandonIf p = s := by
  refine List.foldlRecOn (motive := fun u : State => u = s) _ _ rfl fun u hu e _ => ?_
  obtain ⟨k, x⟩ := e
  cases h : x.holder <;> simp [h, hu, none]

/-- A slice with a path in use is not empty. -/
theorem empty_eq_false {x : Slice} (cur : x.cur < x.paths.length) (used : x.path.state ≠ .free) : x.empty = false := by
  refine List.all_eq_false.2 ⟨x.path, ?_, by simpa using used⟩
  rw [Slice.path, List.getD_eq_getElem _ _ cur]
  exact List.getElem_mem cur

/-- A member none of whose lanes leaves only goes on. -/
theorem exitMember_zero {s : State} {c t : Nat} {x : Slice} (hx : s.slice c t = x) (cur : x.cur < x.paths.length)
    (runs : x.path.state = .run) (on : x.path.mask ≠ 0) :
    s.exitMember c t 0 = s.setSlice c t (x.modPath fun p => { p with pc := p.pc + 4 }) := by
  subst hx
  have goes : ((s.slice c t).modPath fun p => { p with pc := p.pc + 4 }).empty = false :=
    empty_eq_false (by simpa [Slice.modPath, Slice.setPath] using cur) (by rw [path_modPath cur]; simp [runs])
  unfold State.exitMember
  dsimp only
  rw [abandonIf_of_none (by simp), exitLanes_zero on, State.slice_setSlice_self, goes]
  rfl

/-- Settles O20: RETQ's body is EXIT's once no member that takes part is of another start; EXIT of no lane advances the PC. -/
theorem retqForm : Obligations.RetqForm := by
  unfold Obligations.RetqForm
  refine ⟨by decide, fun w w1 major function other i => not_decodes_of_retq_function major function other w1 i, fun g s => ?_⟩
  refine ⟨fun _ started => retq_eq_exit fun t ht _ => started t ht, ?_⟩
  intro c t solo x
  refine ⟨retq_illegal solo, fun off => ?_, fun off cur runs mask => ?_⟩
  · exact retq_eq_exit_of_solo solo fun on => absurd off on
  · rw [retq_eq_exit_of_solo solo fun on => absurd off on, exit_solo solo]
    refine congrArg Host.Outcome.next ?_
    rw [show (s.slice c t).active g = 0 from off, exitMember_zero (slice_begun s c t) cur runs mask]
    exact State.setSlice_setSlice ..

end Sys2Proof.Proofs

/-! LQPSH, LQSTAT, CALLQ and RETQ (11 R285 to R289, R292) of a slice by itself with a lane active. -/

namespace Sys2Proof.Proofs

-- One proof at a time, as in the tests: each proof under way at once takes a thread's stack out of the check's memory.
set_option Elab.async false

open Sys2Proof.Machine Sys2Proof.Claim

section
variable {s : State} {c t : Nat} {g : BitVec 4} {d qs rs : BitVec 6}

/-! ### The launch unit -/

/-- A record that passes the checks of LQPSH leaves for the launch unit, and the answer is awaited in S[D] (R286). -/
theorem lqpsh_sends {rel : BitVec 1} {q r key : Nat} (acts : Acts s c t g [(1, qs.toNat), (1, rs.toNat)])
    (ok : (sOk d && sOk qs && sOk rs) = true) (hq : (((begun s c t).slice c t).sr qs.toNat).toNat = q)
    (hr : (((begun s c t).slice c t).sr rs.toNat).toNat = r) (found : (begun s c t).lqCheck t q r = .ok key)
    (watched : (begun s c t).watchSpans g [(t, r, 64)] = .ok ())
    (released : rel = 1 → (begun s c t).releaseReady c t 4 = true) :
    let o := (begun s c t).unitOp t d.toNat 1
    exec (.lqpsh g d qs rs rel) s = .next ((((begun s c t).openOp o).send c nodeLaunch o.asid (some o.id)
      (.launch q ((begun s c t).recordWords key 16) (some (t, d.toNat)))).advanceAll 8) := by
  intro o
  refine show execLqpsh g d qs rs rel s = _ from gangwise_of_acts
    (h := { len := 8, mem := true, ok := sOk d && sOk qs && sOk rs, srcs := [(1, qs.toNat), (1, rs.toNat)] }) acts ?_ ok
  simp only [taking_begun acts, begun_core acts.solo, List.filterMap_cons, List.filterMap_nil, List.map_cons, List.map_nil,
    List.foldl_cons, List.foldl_nil, hq, hr, found, watched]
  rcases BitVec.eq_zero_or_eq_one rel with rfl | rfl
  · rfl
  · simp only [releaseGang_of_ready acts.solo (released rfl)]
    rfl

theorem lqstat_asks {q : Nat} (acts : Acts s c t g [(1, qs.toNat)]) (ok : (sOk d && sOk qs) = true)
    (hq : (((begun s c t).slice c t).sr qs.toNat).toNat = q) (legal : q ≤ 127) :
    let o := (begun s c t).unitOp t d.toNat 1
    exec (.lqstat g d qs) s = .next ((((begun s c t).openOp o).send c nodeLaunch o.asid (some o.id)
      (.lqstat q t d.toNat)).advanceAll 8) := by
  intro o
  refine show execLqstat g d qs s = _ from gangwise_of_acts
    (h := { len := 8, mem := true, ok := sOk d && sOk qs, srcs := [(1, qs.toNat)] }) acts ?_ ok
  simp only [taking_begun acts, begun_core acts.solo, List.filter_cons, List.filter_nil, hq, Nat.not_lt.2 legal, decide_false,
    List.foldl_cons, List.foldl_nil]
  rfl

end

theorem launchQueueForms : LaunchQueueForms := by
  intro g d qs rs rel s c t acts ok u x q o
  refine ⟨fun key found watched released => lqpsh_sends acts ok rfl rfl found watched released, fun legal => ?_⟩
  have stat : (sOk d && sOk qs) = true := (Bool.and_eq_true_iff.1 ok).1
  exact lqstat_asks (acts_of_subset acts (by simp)) stat rfl legal

/-! ### CALLQ -/

namespace KeepsGang

variable {s t : State}

theorem comeTo (h : KeepsGang s t) (asid key n : Nat) : KeepsGang s (t.comeTo asid key n) := by
  unfold State.comeTo
  dsimp only
  split
  · exact h
  · split
    · exact h.settleRange ..
    · exact (h.settleRange ..).findErrors ..

theorem reachTarget (h : KeepsGang s t) (asid n : Nat) : KeepsGang s (t.reachTarget asid n) :=
  (h.comeTo ..).comeTo ..

theorem setQueue (h : KeepsGang s t) (core q : Nat) (es : List (List Word)) : KeepsGang s (t.setQueue core q es) :=
  (h.modCore ..).wake _

theorem discardLanes (h : KeepsGang s t) (core asid : Nat) (rs : List (Nat × List Word)) :
    KeepsGang s (t.discardLanes core asid rs) := by
  unfold State.discardLanes
  split
  · exact h
  · exact h.post _

end KeepsGang

theorem SameButWoken.asid {x y : Slice} (h : SameButWoken x y) : y.asid = x.asid := by
  obtain ⟨r, w, rfl⟩ := h
  rfl

/-- Reading B changes nothing, or it pops a queue register or a stream port (02 R36). -/
theorem operandB_cases {s s1 : State} {c t : Nat} {g : BitVec 4} {b : BitVec 6} {x : BitVec 1} {bv : Nat → Word}
    (hb : s.operandB c t g b x = .ok (s1, bv)) :
    s1 = s ∨ ∃ n e, s.popQ c t n = .ok (s1, e) ∨ s.popN c t n = .ok (s1, e) := by
  have popped {y : Slice} {r : Except Stop (State × List Word)}
      (h : (y.laned t g r).map (fun p => (p.1, fun l => p.2.getD l 0)) = .ok (s1, bv)) : ∃ e, r = .ok (s1, e) := by
    cases r with
    | error stop => cases stop <;> cases h
    | ok p => cases h; exact ⟨p.2, rfl⟩
  unfold State.operandB at hb
  dsimp only at hb
  split at hb
  · exact .inl (by cases hb; rfl)
  split at hb
  · exact .inl (by cases hb; rfl)
  split at hb
  · split at hb
    · exact .inl (by cases hb; rfl)
    · obtain ⟨e, he⟩ := popped hb
      exact .inr ⟨_, e, .inl he⟩
  split at hb
  · split at hb
    · exact .inl (by cases hb; rfl)
    · obtain ⟨e, he⟩ := popped hb
      exact .inr ⟨_, e, .inr he⟩
  split at hb
  · exact .inl (by cases hb; rfl)
  split at hb <;> exact .inl (by cases hb; rfl)

theorem operandB_asid {s s1 : State} {c t : Nat} {g : BitVec 4} {b : BitVec 6} {x : BitVec 1} {bv : Nat → Word}
    (hb : s.operandB c t g b x = .ok (s1, bv)) : (s1.slice c t).asid = (s.slice c t).asid := by
  rcases operandB_cases hb with rfl | ⟨n, e, queue | port⟩
  · rfl
  · unfold State.popQ at queue
    split at queue
    · cases queue
    · split at queue
      · cases queue
      · cases queue
        exact (((KeepsGang.refl s).setQueue ..).slice c t).asid
  · unfold State.popN at port
    dsimp only at port
    split at port
    · cases port
    · split at port
      · cases port; rfl
      · split at port
        · cases port
        · cases port
          rw [State.slice_setSlice_self]

/-- The context of the slice stays through the unit's reads of the target table. -/
theorem foldl_reachTarget_asid {c t asid : Nat} (l : List Nat) {s : State} (ctx : (s.slice c t).asid = asid) :
    l.foldl (fun v n => v.reachTarget (v.slice c t).asid n) s = l.foldl (fun v n => v.reachTarget asid n) s := by
  induction l generalizing s with
  | nil => rw [List.foldl_nil, List.foldl_nil]
  | cons n l ih =>
    rw [List.foldl_cons, List.foldl_cons, ctx]
    exact ih ((((KeepsGang.refl s).reachTarget asid n).slice c t).asid.trans ctx)

section
variable {s s1 u : State} {c t : Nat} {g : BitVec 4} {a b : BitVec 6} {x : BitVec 1} {bv : Nat → Word}

/-- The B operand of a gang of one is its member's. -/
theorem gangOperandB_solo {srcs : List (Nat × Nat)} (solo : Solo s c t srcs)
    (hb : (begun s c t).operandB c t g b x = .ok (s1, bv)) : (begun s c t).gangOperandB g b x = .ok (s1, [(t, bv)]) := by
  unfold State.gangOperandB
  simp only [begun_core solo, begun_slots solo, gangFault, List.filterMap_cons, List.filterMap_nil, hb, Except.map, List.head?_nil,
    Option.map_none, List.foldlM_cons, List.foldlM_nil]
  rfl

section
variable (core : u.issuer.core = c) (slots : u.issuer.slots = [t])
include core slots

theorem gangLanes_solo : u.gangLanes g = ((u.slice c t).lanes g).map fun l => (t, l) := by
  rw [State.gangLanes, slots, core, List.flatMap_cons, List.flatMap_nil, List.append_nil]

theorem releaseGang_solo {scope : Nat} (ready : u.releaseReady c t scope = true) : u.releaseGang g scope = .ok () := by
  rw [State.releaseGang, slots, core]
  exact if_pos (by simp [ready])

end

/-- The target that B names for a lane, in the B operands of the members. -/
abbrev namedTarget (bs : List (Nat × (Nat → Word))) (p : Nat × Nat) : Nat :=
  (((bs.lookup p.1).map fun (f : Nat → Word) => f p.2).getD 0).toNat

/-- What CALLQ appends: for each active lane the target that it names, and V[A] to V[A+7] (R288, R289). -/
abbrev laneRecords (y : Slice) (g : BitVec 4) (a : Nat) (bv : Nat → Word) : List (Nat × List Word) :=
  (y.lanes g).map fun l => ((bv l).toNat, (List.range 8).map fun i => y.vr (a + i) l)

/-- The records of the lanes with a set target are appended, the others discarded, and the lanes end (R288, R289). -/
theorem callq_appends {k : Core} {asid : Nat} {rs : List (Nat × List Word)} (acts : Acts s c t g (group 0 a.toNat 8 ++ bSrc b x))
    (aligned : a.toNat % 8 = 0) (ok : vbOk b x = true) (hb : (begun s c t).operandB c t g b x = .ok (s1, bv))
    (ctx : (s.slice c t).asid = asid) (records : laneRecords (s1.slice c t) g a.toNat bv = rs) (legal : ∀ r ∈ rs, r.1 ≤ 31)
    (reached : ((rs.map (·.1)).eraseDups).foldl (fun v n => v.reachTarget asid n) s1 = u)
    (room : (u.core c).repackAll asid u.cycle.toNat (rs.filter fun r => !(u.target asid r.1).entry == 0) = some k)
    (released : u.releaseReady c t 4 = true) :
    let w := (u.modCore c fun _ => k).discardLanes c asid (rs.filter fun r => (u.target asid r.1).entry == 0)
    exec (.callq g a b x) s = .next (w.exitMember c t ((w.slice c t).active g)) := by
  intro w
  have read : s1.issuer = s.issuer := issuer_of_operandB hb
  have issuer : u.issuer = s.issuer := by
    rw [← reached, ← read]
    exact ((KeepsGang.refl s1).foldl _ fun _ _ kept => kept.reachTarget ..).issuer
  have left : w.issuer = u.issuer := ((KeepsGang.refl (u.modCore c fun _ => k)).discardLanes ..).issuer
  have all : (s1.gangLanes g).map (fun p => (namedTarget [(t, bv)] p,
      (List.range 8).map fun i => (s1.slice c p.1).vr (a.toNat + i) p.2)) = rs := by
    rw [gangLanes_solo (read ▸ acts.solo.core) (read ▸ acts.solo.gang), List.map_map, ← records]
    exact List.map_congr_left fun l _ => by simp [namedTarget]
  have named : (s1.gangLanes g).filter (fun p => decide (31 < namedTarget [(t, bv)] p)) = [] := by
    rw [List.filter_eq_nil_iff]
    intro p hp
    simpa using legal _ (all ▸ List.mem_map_of_mem hp)
  have release : u.releaseGang g 4 = .ok () := releaseGang_solo (issuer ▸ acts.solo.core) (issuer ▸ acts.solo.gang) released
  have same : ((begun s c t).slice c t).asid = asid := by rw [slice_begun]; exact ctx
  refine show execCallq g a b x s = _ from gangwise_of_acts (u := w.exitMember c t ((w.slice c t).active g))
    (h := { mem := true, adv := false, ok := alignOk a 8 && vbOk b x, srcs := group 0 a.toNat 8 ++ bSrc b x }) acts ?_
    (by rw [alignOk_eq_true aligned, ok]; rfl)
  simp only [begun_core acts.solo, begun_slots acts.solo, List.headD_cons, gangOperandB_solo acts.solo hb, bind, Except.bind, named,
    all, same, reached, room, release]
  exact congrArg Except.ok (State.foldl_solo _ ((congrArg Issuer.slots (left.trans issuer)).trans acts.solo.gang))

end

theorem repackForms : RepackForms := by
  refine ⟨?_, fun g s c t solo on => ⟨fun started => ?_, fun user => retq_illegal solo on user⟩⟩
  · intro g a b x s s1 c t bv k acts aligned ok hb y rs u unset legal room released
    have ctx : (s1.slice c t).asid = (s.slice c t).asid := (operandB_asid hb).trans (by rw [slice_begun]; rfl)
    exact callq_appends acts aligned ok hb rfl rfl legal (foldl_reachTarget_asid _ ctx).symm room released
  · rw [retq_eq_exit_of_solo solo fun _ => started, exit_solo solo]

/-- Settles O43: what the slice sends passes its checks, so the form's body sends it; CALLQ's reads of the target table leave the
gang, so its one member appends and ends; RETQ is EXIT, or faults. -/
theorem launchAndRepackForms : Obligations.LaunchAndRepackForms :=
  ⟨launchQueueForms, repackForms⟩

end Sys2Proof.Proofs

/-! The range deque (11 R294 to R298): the owner's forms, and the steal that leaves for another core. -/

namespace Sys2Proof.Proofs

-- One proof at a time, as in the tests: each proof under way at once takes a thread's stack out of the check's memory.
set_option Elab.async false

open Sys2Proof.Machine Sys2Proof.Claim

/-! ### An entry taken back (R298) -/

theorem stealNone_issuer (s : State) (o : Op) (slot d v : Nat) (ring : Bool) : (s.stealNone o slot d v ring).issuer = s.issuer := by
  unfold State.stealNone
  dsimp only
  split <;> rfl

theorem stealNone_core (s : State) (o : Op) (slot d v : Nat) (ring : Bool) (k : Nat) :
    (s.stealNone o slot d v ring).core k = s.core k := by
  unfold State.stealNone
  dsimp only
  split <;> rfl

@[simp] theorem modOp_core (s : State) (i : Nat) (f : Op → Op) (k : Nat) : (s.modOp i f).core k = s.core k := rfl

theorem takeBack_issuer (s : State) (c : Nat) : (s.takeBack c).issuer = s.issuer := by
  unfold State.takeBack
  dsimp only
  split
  · split
    · rw [stealNone_issuer]; rfl
    · rfl
  · rfl

theorem takeBack_owner (s : State) (c : Nat) : ((s.takeBack c).core c).deque.owner = (s.core c).deque.owner := by
  unfold State.takeBack
  dsimp only
  split
  · split
    · rw [stealNone_core, modOp_core, State.modCore_core_self]
    · rw [State.modCore_core_self]
  · rfl

/-- A core's deque with other entries. -/
abbrev withEntries (s : State) (c : Nat) (es : List (Nat × Nat × Nat)) : State :=
  s.modCore c fun k => { k with deque := { (s.core c).deque with entries := es } }

/-! ### The frame of an owner form -/

section
variable {s u : State} {h : Head} {c t : Nat} {g : BitVec 4}

/-- A slice by itself with a lane active runs the body of a uniform form that is no memory access. -/
theorem uniformly_of_solo {body : State → Nat → Nat → Except Stop State} (solo : Solo s c t h.srcs) (on : (s.slice c t).active g ≠ 0)
    (hb : body (begun s c t) c t = .ok u) (hu : u.issuer = s.issuer) (ok : h.ok = true := by rfl) (adv : h.adv = true := by rfl)
    (mem : h.mem = false := by rfl) (rdv : h.rdv = false := by rfl) (priv : h.priv = false := by rfl) :
    uniformly h g s body = .next (u.advanceAll h.len) := by
  rw [uniformly_solo solo.core solo.gang ok (by simp [priv]) ⟨solo.held, by simp [mem], solo.ready⟩ (by simp [rdv])
    (by rw [if_neg on]; exact hb) hu, State.advanceAll_solo h.len (hu ▸ solo.core) (hu ▸ solo.gang), if_pos adv]

/-- The context that owns the core's deque acts on its entries, once a form that takes has taken back what is lent (R296, R298). -/
theorem dequeForm_completes {pop : Bool} {body : Slice → List (Nat × Nat × Nat) → Option (List (Nat × Nat × Nat) × Slice)} {v : State}
    {es : List (Nat × Nat × Nat)} {y : Slice} (solo : Solo s c t h.srcs) (on : (s.slice c t).active g ≠ 0)
    (owner : (s.core c).deque.owner = some (s.slice c t).asid) (back : (if pop then (begun s c t).takeBack c else begun s c t) = v)
    (run : body (s.slice c t).issued (v.core c).deque.entries = some (es, y)) (ok : h.ok = true := by rfl)
    (adv : h.adv = true := by rfl) (mem : h.mem = false := by rfl) (rdv : h.rdv = false := by rfl) (priv : h.priv = false := by rfl) :
    dequeForm h g pop s body = .next (((withEntries v c es).setSlice c t y).advanceAll h.len) := by
  have issuer : v.issuer = s.issuer := by
    rw [← back]
    split
    · exact takeBack_issuer ..
    · rfl
  have kept : ((v.core c).deque.owner != some (s.slice c t).issued.asid) = false := by
    rw [bne_eq_false_iff_eq, ← back]
    refine Eq.trans ?_ owner
    split
    · exact takeBack_owner ..
    · rfl
  have owned : ((begun s c t).core c).deque.owner = some (s.slice c t).issued.asid := owner
  refine uniformly_of_solo solo on ?_ issuer ok adv mem rdv priv
  simp only [slice_begun, owned, beq_self_eq_true, Bool.and_true, back, kept, run]
  rfl

/-- DQPOP and DQSPL take back what is lent. -/
theorem dequeForm_takes {body : Slice → List (Nat × Nat × Nat) → Option (List (Nat × Nat × Nat) × Slice)} {v : State}
    {es : List (Nat × Nat × Nat)} {y : Slice} (solo : Solo s c t h.srcs) (on : (s.slice c t).active g ≠ 0)
    (owner : (s.core c).deque.owner = some (s.slice c t).asid) (back : (begun s c t).takeBack c = v)
    (run : body (s.slice c t).issued (v.core c).deque.entries = some (es, y)) (ok : h.ok = true := by rfl)
    (adv : h.adv = true := by rfl) (mem : h.mem = false := by rfl) (rdv : h.rdv = false := by rfl) (priv : h.priv = false := by rfl) :
    dequeForm h g true s body = .next (((withEntries v c es).setSlice c t y).advanceAll h.len) :=
  dequeForm_completes solo on owner ((if_pos rfl).trans back) run ok adv mem rdv priv

end

theorem quadOk_eq_true {d : BitVec 6} (low : d.toNat < 32) (aligned : d.toNat % 4 = 0) : quadOk d = true := by
  rw [quadOk, sOk_eq_true low, alignOk_eq_true aligned]
  rfl

/-! ### The owner's forms -/

section
variable {s v : State} {c t : Nat} {g : BitVec 4} {d : BitVec 6} {f : RB}

theorem dqpsh_pushes {f : R3} (solo : Solo s c t ((1, f.d.toNat) :: (1, f.a.toNat) :: sbSrc f.b f.x))
    (on : (s.slice c t).active f.g ≠ 0) (owner : (s.core c).deque.owner = some (s.slice c t).asid)
    (ok : (sOk f.d && sOk f.a && sbOk f.b f.x) = true) (items : (s.slice c t).sr f.a.toNat ≠ 0)
    (room : (s.core c).deque.entries.length < 64) :
    exec (.dqpsh f) s = .next (((withEntries (begun s c t) c ((((s.slice c t).sr f.d.toNat).toNat, ((s.slice c t).sr f.a.toNat).toNat,
      ((s.slice c t).uniform f.b f.x).toNat) :: (s.core c).deque.entries)).setSlice c t (s.slice c t).issued).advanceAll 4) := by
  refine show execDqpsh f s = _ from dequeForm_completes (es := _ :: _) solo on owner rfl (if_neg ?_) ok
  rintro (none | full)
  · exact items (BitVec.eq_of_toNat_eq none)
  · exact absurd room (Nat.not_lt.2 full)

section
variable (solo : Solo s c t []) (on : (s.slice c t).active g ≠ 0) (owner : (s.core c).deque.owner = some (s.slice c t).asid)
include solo on owner

theorem dqpop_takes (low : d.toNat < 32) (aligned : d.toNat % 4 = 0) (back : (begun s c t).takeBack c = v) :
    exec (.dqpop g d) s = .next (((withEntries v c ((v.core c).deque.entries.drop 1)).setSlice c t
      ((s.slice c t).issued.setQuad d.toNat (v.core c).deque.entries.head? c)).advanceAll 4) := by
  change execDqpop g d s = _
  rw [execDqpop]
  refine dequeForm_takes (h := { ok := quadOk d }) solo on owner back ?_ (quadOk_eq_true low aligned)
  rw [solo.core]

theorem dqcnt_counts (low : d.toNat < 32) :
    exec (.dqcnt g d) s = .next (((withEntries (begun s c t) c (s.core c).deque.entries).setSlice c t
      ((s.slice c t).issued.setS d.toNat (w32 (s.core c).deque.entries.length))).advanceAll 4) :=
  show execDqcnt g d s = _ from dequeForm_completes (h := { ok := sOk d }) solo on owner rfl rfl (sOk_eq_true low)

theorem dqclr_empties :
    exec (.dqclr g) s = .next (((withEntries (begun s c t) c []).setSlice c t (s.slice c t).issued).advanceAll 4) :=
  show execDqclr g s = _ from dequeForm_completes (h := {}) solo on owner rfl rfl

end

section
variable {k : Nat} (solo : Solo s c t (sbSrc f.b f.x)) (on : (s.slice c t).active f.g ≠ 0)
  (owner : (s.core c).deque.owner = some (s.slice c t).asid) (low : f.d.toNat < 32) (aligned : f.d.toNat % 4 = 0)
  (ok : sbOk f.b f.x = true) (hk : ((s.slice c t).uniform f.b f.x).toNat = k) (pos : 0 < k)
  (back : (begun s c t).takeBack c = v)
include solo on owner low aligned ok hk pos back

theorem dqspl_of_empty (empty : (v.core c).deque.entries = []) :
    exec (.dqspl f) s = .next (((withEntries v c []).setSlice c t
      ((s.slice c t).issued.setQuad f.d.toNat none c)).advanceAll 4) := by
  change execDqspl f s = _
  rw [execDqspl]
  refine dequeForm_takes (h := { ok := quadOk f.d && sbOk f.b f.x, srcs := sbSrc f.b f.x })
    solo on owner back ?_ (by rw [quadOk_eq_true low aligned, ok]; rfl)
  have takes : ((s.slice c t).issued.uniform f.b f.x).toNat ≠ 0 := hk ▸ Nat.ne_of_gt pos
  rw [empty, solo.core]
  exact if_neg takes

/-- DQSPL takes at most `k` items of the bottom entry, and leaves the rest of it (R296). -/
theorem dqspl_splits {b n tag : Nat} {rest : List (Nat × Nat × Nat)} (entries : (v.core c).deque.entries = (b, n, tag) :: rest) :
    exec (.dqspl f) s = .next (((withEntries v c (if n ≤ k then rest else ((b + k) % 2 ^ 32, n - k, tag) :: rest)).setSlice c t
      ((s.slice c t).issued.setQuad f.d.toNat (some (b, min k n, tag)) c)).advanceAll 4) := by
  change execDqspl f s = _
  rw [execDqspl]
  refine dequeForm_takes (h := { ok := quadOk f.d && sbOk f.b f.x, srcs := sbSrc f.b f.x })
    solo on owner back ?_ (by rw [quadOk_eq_true low aligned, ok]; rfl)
  have items : ((s.slice c t).issued.uniform f.b f.x).toNat = k := hk
  have left : (if n = min k n then rest else ((b + min k n) % 2 ^ 32, n - min k n, tag) :: rest) =
      if n ≤ k then rest else ((b + k) % 2 ^ 32, n - k, tag) :: rest := by
    rcases Nat.le_total n k with all | part
    · rw [Nat.min_eq_right all, if_pos rfl, if_pos all]
    · rw [Nat.min_eq_left part]
      exact if_congr (by omega) rfl rfl
  simp only [entries, solo.core, items, left]
  exact if_neg (Nat.ne_of_gt pos)

end

end

theorem dequeForms : DequeForms := by
  refine ⟨?_, ?_, ?_⟩
  · rintro f s c t ⟨solo, on, owner⟩ ok x items room
    exact dqpsh_pushes solo on owner ok items room
  · rintro g d s c t ⟨solo, on, owner⟩ low es v vs
    exact ⟨fun aligned => dqpop_takes solo on owner low aligned rfl, dqcnt_counts solo on owner low, dqclr_empties solo on owner⟩
  · rintro f s c t ⟨solo, on, owner⟩ low aligned ok k pos v
    exact ⟨dqspl_of_empty solo on owner low aligned ok rfl pos rfl,
      fun b n tag rest => dqspl_splits solo on owner low aligned ok rfl pos rfl⟩

/-! ### Steals -/

section
variable {s : State} {c t : Nat}

/-- A fault of a uniform form's body that names no lane is that of the slice's active lanes (04 R92). -/
theorem uniformly_faults_of_acts {h : Head} {g : BitVec 4} {body : State → Nat → Nat → Except Stop State} {r : FaultRec}
    (acts : Acts s c t g h.srcs) (hb : body (begun s c t) c t = .error (.fault r)) (unnamed : r.lanes = []) (ok : h.ok = true := by rfl)
    (rdv : h.rdv = false := by rfl) (priv : h.priv = false := by rfl) :
    uniformly h g s body = .next (s.gangTrap h.len { r with lanes := [(t, (s.slice c t).active g)] }) := by
  have on : (s.slice c t).issued.active g ≠ 0 := acts.on
  have run : ((s.slice c t).issued.laned t g (body (begun s c t) c t)) =
      .error (.fault { r with lanes := [(t, (s.slice c t).active g)] }) := by
    rw [hb, Slice.laned, unnamed]
    rfl
  unfold uniformly simt
  refine gangwise_stops_of_acts (e := .fault { r with lanes := [(t, (s.slice c t).active g)] }) acts ?_ ok rdv priv
  simp only [begun_slots acts.solo, begun_core acts.solo, gangFault, List.filterMap_cons, List.filterMap_nil, slice_begun, if_neg on,
    run, List.head?_cons, Option.map_some, List.map_cons, List.map_nil, tget, if_true]

variable {f : RB} (acts : Acts s c t f.g (sbSrc f.b f.x)) (low : f.d.toNat < 32) (aligned : f.d.toNat % 4 = 0)
  (ok : sbOk f.b f.x = true) {v : Nat} (hv : ((s.slice c t).uniform f.b f.x).toNat = v)
include acts low aligned ok hv

/-- A steal leaves for the core of that number, or for the next of the ring, and its answer is awaited in the quad (R297). -/
theorem dqstl_sends (legal : v ≤ 255 ∨ v = 0xFFFF) :
    let u := begun s c t
    let dst := if v = 0xFFFF then (c + 1) % 256 else v
    exec (.dqstl f) s = .next (((u.openOp
        { id := u.nextId, core := c, asid := (s.slice c t).asid, pc := u.issuer.pc, members := [t], left := 1,
          dest := .s f.d.toNat 4 }).send c dst (s.slice c t).asid (some u.nextId)
        (.steal t f.d.toNat dst (v == 0xFFFF))).advanceAll 4) := by
  intro u dst
  refine show execDqstl f s = _ from uniformly_of_acts (h := { ok := quadOk f.d && sbOk f.b f.x, srcs := sbSrc f.b f.x, mem := true })
    acts ?_ rfl (by rw [quadOk_eq_true low aligned, ok]; rfl)
  have number : ((s.slice c t).issued.uniform f.b f.x).toNat = v := hv
  have inRange : ¬ (255 < v ∧ v ≠ 0xFFFF) := by omega
  simp only [slice_begun, number, if_neg inRange, beq_iff_eq]
  rfl

theorem dqstl_out_of_range (high : 255 < v) (other : v ≠ 0xFFFF) :
    exec (.dqstl f) s = .next (s.gangTrap 4 { code := 0x05, addr := v, lanes := [(t, (s.slice c t).active f.g)] }) := by
  refine show execDqstl f s = _ from uniformly_faults_of_acts
    (h := { ok := quadOk f.d && sbOk f.b f.x, srcs := sbSrc f.b f.x, mem := true }) (r := { code := 0x05, addr := v }) acts ?_ rfl
    (by rw [quadOk_eq_true low aligned, ok]; rfl)
  have number : ((s.slice c t).issued.uniform f.b f.x).toNat = v := hv
  simp only [slice_begun, number]
  exact if_pos ⟨high, other⟩

end

theorem stealForm : StealForm := fun _ _ _ _ acts low aligned ok =>
  ⟨dqstl_sends acts low aligned ok rfl, dqstl_out_of_range acts low aligned ok rfl⟩

/-- Settles O41: the owner's form finds its own context's deque, with a lent entry taken back where it takes, and its body changes the
entries; a steal leaves, or faults on its core number. -/
theorem rangeDeque : Obligations.RangeDeque :=
  ⟨dequeForms, stealForm⟩

end Sys2Proof.Proofs

/-! The launch controller (11 R270 to R282): what each of its device steps makes of a record, a head, a cluster or a grid that is due. -/

namespace Sys2Proof.Proofs

-- One proof at a time, as in the tests: each proof under way at once takes a thread's stack out of the check's memory.
set_option Elab.async false

open Sys2Proof.Machine Sys2Proof.Claim

section
variable {s : State} {q : Nat}

/-! ### Records (R272; 18 R436) -/

/-- A queue's window once the host has written words that end at its last. -/
abbrev windowWritten (s : State) (q : Nat) (ws : List Word) : State :=
  s.modQueue q fun c => { c with buffer := (indexed ws).foldl (fun b p => tset b (16 - ws.length + p.1) p.2) c.buffer }

theorem launchRecordSubmit_sends {ws : List Word} (hq : q < 128) (written : ws ≠ []) (fits : ws.length ≤ 16) :
    Becomes (.evLaunchRecordSubmit q ws) s ((windowWritten s q ws).send nodeHost nodeLaunch hostAsid none
      (.launch q ((List.range 16).map (tget 0 ((windowWritten s q ws).queue q).buffer)) none)) := by
  refine show execEvLaunchRecordSubmit q ws s = _ from if_neg ?_
  rintro (high | none | long)
  · exact absurd hq (Nat.not_lt.2 high)
  · exact written none
  · exact absurd fits (Nat.not_le.2 long)

section
variable {f : Flight} {ws : List Word} (due : Due s f)
include due

/-- A record of the host for an enabled queue is admitted, or counted as dropped. -/
theorem recordAdmission_of_enabled (hp : f.pkt = .launch q ws none) (enabled : ((s.dropFlight f.id).queue q).enable = true) :
    let r := (s.dropFlight f.id).admitRecord q ws
    Becomes (.evRecordAdmission f.id) s (if r.2 = 1 then r.1.modQueue q fun c => { c with drops := c.drops + 1 } else r.1) := by
  refine show execEvRecordAdmission f.id s = _ from onFlight_of_due due ?_
  simp only [State.arriveRecord, hp, enabled, Option.isNone_none, Bool.true_or, Bool.and_self, if_true]

theorem recordAdmission_of_disabled (hp : f.pkt = .launch q ws none) (disabled : ((s.dropFlight f.id).queue q).enable = false) :
    Becomes (.evRecordAdmission f.id) s ((s.dropFlight f.id).modQueue q fun c => { c with drops := c.drops + 1 }) := by
  refine show execEvRecordAdmission f.id s = _ from onFlight_of_due due ?_
  simp only [State.arriveRecord, hp, disabled, Bool.false_and]
  rfl

/-- A slice's record for an enabled queue of its context is answered with its admission (R286). -/
theorem recordAdmission_answers {t d : Nat} (hp : f.pkt = .launch q ws (some (t, d)))
    (enabled : ((s.dropFlight f.id).queue q).enable = true) (own : ((s.dropFlight f.id).queue q).asid = some f.asid) :
    let r := (s.dropFlight f.id).admitRecord q ws
    Becomes (.evRecordAdmission f.id) s (r.1.answer (f.op.getD 0) t d [r.2]) := by
  refine show execEvRecordAdmission f.id s = _ from onFlight_of_due due ?_
  simp only [State.arriveRecord, hp, enabled, own, beq_self_eq_true, Bool.or_true, Bool.and_self, if_true]

end

/-! ### Heads (R276, R277, R279, R281) -/

section
variable {asid : Nat} {r : LRec} {rest : List LRec} (records : (s.queue q).records = r :: rest) (ctx : (s.queue q).asid = some asid)
include records ctx

/-- A checked head whose dependency's word has reached DEPVAL is met from then on. -/
theorem dependencyPoll_meets {v u : State} {k : Nat} (checked : r.checked = true) (waits : r.depOk = false) (dep : recDep r.words ≠ 0)
    (found : s.translateNow asid (recDep r.words) .load = (v, .ok k)) (free : v.unitWaits k = false)
    (read : (v.reachHome k 4).findErrors asid [k / 64] = u) (sound : u.poisonedAt (k / 64) = false)
    (met : (recW r.words 10).toNat ≤ mread u.mem k 4) :
    Becomes (.evDependencyPoll q) s (u.modQueue q fun c => { c with
      records := { r with depOk := true } :: rest, since := if c.enable then some u.cycle.toNat else none, aged := u.cycle.toNat }) := by
  refine show execEvDependencyPoll q s = _ from congrArg Host.Outcome.next ?_
  have asked : (!r.checked || r.depOk || recDep r.words == 0) = false := by simp [checked, waits, dep]
  have reached : (u.poisonedAt (k / 64) || decide (mread u.mem k 4 < (recW r.words 10).toNat)) = false := by
    simp [sound, met]
  simp only [State.pollDep, records, ctx, asked, found, free, read, reached]
  rfl

/-- The chosen head's team is placed where it fits (R279, R281, R284). -/
theorem teamPlacement_places {cs : List Nat} {u : State} {cl : Nat} (heads : s.reachHeads = u) (cluster : clusterOf (cs.headD 0) = cl)
    (chosen : u.chosenQueue = some q) (size : cs.length = recTeamSize r.words) (distinct : cs.eraseDups = cs)
    (allotted : ∀ k ∈ cs, clusterOf k = cl ∧ (u.allot asid k r.words).isSome = true) (inside : cl < 16)
    (fits : u.clusterFits asid cl (u.effLevel q) q r.words = true) (first : u.resumeFirst (u.effLevel q) = false) :
    Becomes (.evTeamPlacement q cs) s (u.placeTeam q asid r cs) := by
  have each : cs.all (fun k => clusterOf k == cl && (u.allot asid k r.words).isSome) = true := by
    rw [List.all_eq_true]
    intro k hk
    obtain ⟨same, room⟩ := allotted k hk
    simp [same, room]
  refine show execEvTeamPlacement q cs s = _ from ?_
  simp only [execEvTeamPlacement, records, ctx, heads, cluster]
  exact if_pos (by simp [chosen, size, distinct, each, inside, fits, first])

end

/-- A head that has waited 2^20 cycles since its level last rose rises by one (R277). -/
theorem levelAging_raises (waits : (s.queue q).since ≠ none) (late : (s.queue q).aged + 2 ^ 20 ≤ s.cycle.toNat)
    (low : (s.queue q).eff < 63) :
    Becomes (.evLevelAging q) s (s.modQueue q fun c => { c with eff := c.eff + 1, aged := c.aged + 2 ^ 20 }) :=
  show execEvLevelAging q s = _ from if_pos ⟨Option.isSome_iff_ne_none.2 waits, late, low⟩

/-! ### Drains (R280, R281) -/

section
variable {c since : Nat} (waits : (s.queue q).since = some since) (late : since + s.drainDly ≤ s.cycle.toNat) (inside : c < 16)
  (idle : ∀ k ∈ s.clusters, k.2.drain.any (·.1 == q) = false)

include late inside idle in
/-- Nothing holds a head back that has waited for the drain delay and for which no cluster drains yet. -/
theorem drain_not_held_back :
    ¬ (s.cycle.toNat < since + s.drainDly ∨ 16 ≤ c ∨ (s.clusters.any fun k => k.2.drain.any (·.1 == q)) = true) := by
  rintro (early | outside | drains)
  · exact absurd late (Nat.not_le.2 early)
  · exact absurd inside (Nat.not_lt.2 outside)
  · obtain ⟨k, hk, mine⟩ := List.any_eq_true.1 drains
    rw [idle k hk] at mine
    cases mine

include waits late inside idle

/-- A cluster that drains for no head, or for one of a lower level, is drained for this one. -/
theorem drainDelayExpiry_drains (below : ∀ d l, (s.cluster c).drain = some (d, l) → l < s.effLevel q) :
    Becomes (.evDrainDelayExpiry q c) s (s.modCluster c fun k => { k with drain := some (q, s.effLevel q) }) := by
  refine show execEvDrainDelayExpiry q c s = _ from ?_
  simp only [execEvDrainDelayExpiry, waits, if_neg (drain_not_held_back late inside idle)]
  cases drain : (s.cluster c).drain with
  | none => rfl
  | some p => exact if_pos (decide_eq_true (below p.1 p.2 drain))

theorem drainDelayExpiry_refused {d l : Nat} (drains : (s.cluster c).drain = some (d, l)) (above : s.effLevel q ≤ l) :
    Becomes (.evDrainDelayExpiry q c) s (s.policyRefused 4 q) := by
  refine show execEvDrainDelayExpiry q c s = _ from ?_
  simp only [execEvDrainDelayExpiry, waits, if_neg (drain_not_held_back late inside idle), drains]
  exact if_neg (by simpa using above)

end

/-! ### Grids (R282) -/

theorem gridCompletion_completes {n : Nat} {g : Grid} (grid : s.grids.lookup n = some g) (placed : g.allPlaced = true)
    (gone : g.groupsLeft = 0) (performed : s.gridPerformed n = true) :
    Becomes (.evGridCompletion n) s (({ s with grids := tdel s.grids n } : State).completeRec g.queue g.asid g.words
      (if g.killed then stKilled else stDone) n) := by
  refine show execEvGridCompletion n s = _ from ?_
  simp only [execEvGridCompletion, grid, placed, gone, performed]
  rfl

end

/-- Settles O9: each step finds its record, head, cluster or grid due, so it acts on it. -/
theorem launchEvents : Obligations.LaunchEvents := by
  unfold Obligations.LaunchEvents
  refine ⟨fun s q ws hq written fits => launchRecordSubmit_sends hq written fits, ?_, ?_, fun s q => levelAging_raises, ?_, ?_,
    fun s n g grid placed gone performed => gridCompletion_completes grid placed gone performed⟩
  · intro s f q ws due u r
    exact ⟨recordAdmission_of_enabled due, recordAdmission_of_disabled due, fun t d => recordAdmission_answers due⟩
  · intro s v q asid k r rest records ctx checked waits dep found free u sound met
    exact dependencyPoll_meets records ctx checked waits dep found free rfl sound met
  · intro s q asid cs r rest records ctx cl u chosen size distinct allotted inside fits first
    exact teamPlacement_places records ctx rfl rfl chosen size distinct allotted inside fits first
  · intro s q c since waits late inside idle
    exact ⟨drainDelayExpiry_drains waits late inside idle, fun d l => drainDelayExpiry_refused waits late inside idle⟩

end Sys2Proof.Proofs

/-! The matrix unit's device steps (12 R303 to R326): commands that start, go on and end, filler and holds, MCAP, and what arrives from
other cores. -/

namespace Sys2Proof.Proofs

-- One proof at a time, as in the tests: each proof under way at once takes a thread's stack out of the check's memory.
set_option Elab.async false

open Sys2Proof.Machine Sys2Proof.Claim

/-! ### A command starts (R304, R305, R325) -/

section
variable {s : State} {c : Nat} {m : MCmd} (idle : (s.core c).mat.running = none)
  (chosen : (s.core c).mat.next s.cycle.toNat = some m) (unfilled : (s.core c).mat.filler = none)
include idle chosen unfilled

/-- The head of a class that no filler has served yet waits for filler, once the unit has been idle for 256 cycles. -/
theorem matrixCommandStart_fills (mma : m.kind.isMma = true) (unserved : m.cls ∉ (s.core c).mat.served)
    (long : 256 ≤ (s.core c).mat.idle s.cycle.toNat) :
    Becomes (.evMatrixCommandStart c) s (s.modMat c fun u =>
      { u with filler := some (s.cycle.toNat + 47), fillerCmd := true, served := u.served ++ [m.cls] }) := by
  refine show execEvMatrixCommandStart c s = _ from ?_
  simp [execEvMatrixCommandStart, idle, chosen, unfilled, mma, unserved, long]

theorem matrixCommandStart_starts
    (due : m.kind.isMma = false ∨ m.cls ∈ (s.core c).mat.served ∨ (s.core c).mat.idle s.cycle.toNat < 256) :
    Becomes (.evMatrixCommandStart c) s (s.modMat c fun u =>
      { (u.take m).1 with running := some ((u.take m).2, s.cycle.toNat + (u.take m).2.cycles - 1),
                          served := if m.kind.isMma then u.served.filter (· != m.cls) else u.served }) := by
  have unfit : (m.kind.isMma && !(s.core c).mat.served.contains m.cls &&
      decide (256 ≤ (s.core c).mat.idle s.cycle.toNat)) = false := by
    rcases due with other | served | short
    · simp [other]
    · simp [served]
    · simp [Nat.not_le.2 short]
  refine show execEvMatrixCommandStart c s = _ from ?_
  simp only [execEvMatrixCommandStart, idle, chosen, unfilled, unfit]
  rfl

end

/-! ### The running command (R304, R305, R312, R317 to R320) -/

section
variable {s : State} {c e : Nat} {m : MCmd} (runs : (s.core c).mat.running = some (m, e))
include runs

/-- The next word of an MLD or MST moves (R318). -/
theorem matrixStepEnd_moves (moves : ∃ a, m.kind = .mld a ∨ m.kind = .mst a) (more : m.step + 1 < 2048) :
    Becomes (.evMatrixStepEnd c) s ((s.moveWords c m 1).modMat c fun u =>
      { u with running := some ({ m with step := m.step + 1 }, e) }) := by
  refine show execEvMatrixStepEnd c s = _ from ?_
  obtain ⟨a, load | store⟩ := moves
  · simp [execEvMatrixStepEnd, runs, load, MKind.isMma, more]
  · simp [execEvMatrixStepEnd, runs, store, MKind.isMma, more]

variable (past : e < s.cycle.toNat)
include past

/-- An MMA-class command with steps left goes on, or gives way to a higher class (R304). -/
theorem matrixStepEnd_steps (mma : m.kind.isMma = true) (more : m.step + 1 < m.steps) :
    let m1 := { m with step := m.step + 1, entered := e }
    Becomes (.evMatrixStepEnd c) s ((s.modCore c fun k => k.mmaStep m).modMat c fun u =>
      if u.higher s.cycle.toNat m1 then { u.setQ m1.cls (m1 :: u.q m1.cls) with running := none, since := max u.since (e + 1) }
      else { u with running := some (m1, e + m1.cycles) }) := by
  intro m1
  refine show execEvMatrixStepEnd c s = _ from ?_
  simp only [execEvMatrixStepEnd, runs]
  exact if_pos (by simp [mma, more, past])

theorem matrixCommandEnd_mma (mma : m.kind.isMma = true) (last : m.steps ≤ m.step + 1) :
    Becomes (.evMatrixCommandEnd c) s (((s.modCore c fun k => k.mmaStep m).modMat c fun u =>
      { u with running := none, since := max u.since (e + 1) }).endTiles c m.group) := by
  refine show execEvMatrixCommandEnd c s = _ from ?_
  simp [execEvMatrixCommandEnd, runs, past, mma, last]

theorem matrixCommandEnd_other (other : m.kind.isMma = false) :
    Becomes (.evMatrixCommandEnd c) s (((s.performTile c m).modMat c fun u => { u with running := none }).endTiles c m.group) := by
  refine show execEvMatrixCommandEnd c s = _ from ?_
  simp [execEvMatrixCommandEnd, runs, past, other]

end

/-! ### Filler, holds and MCAP (R321, R325, R326) -/

section
variable {s : State} {c e : Nat}

theorem fillerEnd_ends (filled : (s.core c).mat.filler = some e) (past : e < s.cycle.toNat) :
    Becomes (.evFillerEnd c) s (s.modMat c fun u =>
      { u with filler := none, fillerCmd := false, since := max u.since (e + 1) }) := by
  refine show execEvFillerEnd c s = _ from ?_
  simp only [execEvFillerEnd, filled, if_pos past]

theorem rampHoldEnd_ends (held : (s.core c).mat.holdEnd = some e) (past : e < s.cycle.toNat) :
    Becomes (.evRampHoldEnd c) s (s.modMat c fun u => { u with holdEnd := none, since := max u.since (e + 1) }) := by
  refine show execEvRampHoldEnd c s = _ from ?_
  simp only [execEvRampHoldEnd, held, if_pos past]

theorem mcapWrite_writes {t : Nat} {hi : Bool} {v : Word} {w : State} (live : (s.slice c t).live = true)
    (written : s.mcapWrite c t hi v = some w) : Becomes (.evMcapWrite c t hi v) s w := by
  refine show execEvMcapWrite c t hi v s = _ from ?_
  rw [execEvMcapWrite, if_pos live, written, Option.getD_some]

end

/-! ### A partner's fragment (R314) -/

section
variable {s : State} {f : Flight} {g j : Nat} {a : Tab Word} (due : Due s f) (hp : f.pkt = .afrag g j a)
include due hp

theorem teamFragmentArrival_kept {x : Group} (there : (s.dropFlight f.id).group? g = some x) (going : x.retired = false) :
    Becomes (.evTeamFragmentArrival f.id) s
      ((s.dropFlight f.id).modMat f.dst fun m => { m with afrags := m.afrags ++ [(g, j, a)] }) := by
  refine show execEvTeamFragmentArrival f.id s = _ from onFlight_of_due due ?_
  simp [hp, there, going]

theorem teamFragmentArrival_dropped (gone : (s.dropFlight f.id).group? g = none)
    (done : ((s.dropFlight f.id).core f.dst).mat.has g = false) : Becomes (.evTeamFragmentArrival f.id) s (s.dropFlight f.id) := by
  refine show execEvTeamFragmentArrival f.id s = _ from onFlight_of_due due ?_
  simp [hp, gone, done]

end

/-! ### A remote command (R323) -/

/-- A core lists the refused commands that are still under way. -/
abbrev listed (c : Nat) (s : State) : State :=
  s.modMat c fun v => { v with refused := v.refused.filter fun r => (s.flight? r.1).isSome }

section
variable {s : State} {f : Flight} {m : MCmd} {cap : BitVec 64} {name : Nat}

/-- The step is what the core does with the command, once its issues of the cycle are made. -/
theorem remoteMmaArrival_of_due {ts : List Nat} {u : State} (due : Due s f) (hp : f.pkt = .mreq m cap name ts)
    (issued : s.coreDone f.dst = true) (arrived : s.arriveRemote f m cap name = u) :
    Becomes (.evRemoteMmaArrival f.id) s (listed f.dst u) := by
  refine show execEvRemoteMmaArrival f.id s = _ from ?_
  simp only [execEvRemoteMmaArrival, due.under, hp, due.first, issued, arrived]
  rfl

theorem arriveRemote_of_unowned {o : Op} (hop : f.op = some o.id) (ho : (s.dropFlight f.id).op? o.id = some o)
    (unowned : s.mcapOwner f.dst = none) :
    s.arriveRemote f m cap name = (s.dropFlight f.id).finishOp { o with fault := some (0x15, f.dst) } := by
  simp only [State.arriveRemote, unowned, hop, Option.bind_some, ho]

section
variable {g d : Nat} {x : Group} (owner : s.mcapOwner f.dst = some (g, x)) (same : (s.core f.dst).mat.mcap = cap) (nonzero : cap ≠ 0)
  (tile : (s.core f.dst).allocTile g name = some d)
include owner same nonzero tile

theorem arriveRemote_of_room (room : (s.core f.dst).mat.remoteRoom f.id x.mclass = true) :
    s.arriveRemote f m cap name = ((s.dropFlight f.id).enterMat f.dst { m with group := g, cls := x.mclass, d := d }
      s.doneCycle).dropOp (f.op.getD 0) := by
  simp only [State.arriveRemote, owner, same, tile, room, bne_self_eq_false, Bool.false_or, beq_iff_eq, if_neg nonzero, if_true]

theorem arriveRemote_of_full (full : (s.core f.dst).mat.remoteRoom f.id x.mclass = false)
    (new : (s.core f.dst).mat.refused.contains (f.id, x.mclass) = false) :
    s.arriveRemote f m cap name =
      s.modMat f.dst fun v => { v with refused := v.refused.filter (·.1 != f.id) ++ [(f.id, x.mclass)] } := by
  simp only [State.arriveRemote, owner, same, tile, full, new, bne_self_eq_false, Bool.false_or, beq_iff_eq, if_neg nonzero,
    Bool.false_eq_true, if_false]

end

end

/-- Settles O11: each step finds its command, filler, hold or message due, so it acts on it. -/
theorem matrixEvents : Obligations.MatrixEvents := by
  unfold Obligations.MatrixEvents
  refine ⟨fun s c => ⟨?_, ?_, ?_, ?_, ?_, ?_⟩, fun s f due => ⟨?_, ?_⟩⟩
  · intro m idle chosen
    exact ⟨matrixCommandStart_fills idle chosen, matrixCommandStart_starts idle chosen⟩
  · intro m e runs
    exact matrixStepEnd_moves runs
  · intro m e runs past
    exact ⟨matrixStepEnd_steps runs past, matrixCommandEnd_mma runs past, matrixCommandEnd_other runs past⟩
  · intro e
    exact fillerEnd_ends
  · intro e
    exact rampHoldEnd_ends
  · intro t hi v w
    exact mcapWrite_writes
  · intro g j a hp
    refine ⟨fun going there => ?_, teamFragmentArrival_dropped due hp⟩
    obtain ⟨x, hx⟩ := Option.isSome_iff_exists.1 there
    exact teamFragmentArrival_kept due hp hx (going x hx)
  · intro m cap name ts hp issued
    refine ⟨fun o hop ho unowned => remoteMmaArrival_of_due due hp issued (arriveRemote_of_unowned hop ho unowned), ?_⟩
    intro g x d owner same nonzero tile
    exact ⟨fun room => remoteMmaArrival_of_due due hp issued (arriveRemote_of_room owner same nonzero tile room),
      fun full new => remoteMmaArrival_of_due due hp issued (arriveRemote_of_full owner same nonzero tile full new)⟩

end Sys2Proof.Proofs

/-! MMA, MMAS and MREQ (12 R306 to R314, R322, R323) of a whole warp: the command that a gang captures, and where it goes. -/

namespace Sys2Proof.Proofs

-- One proof at a time, as in the tests: each proof under way at once takes a thread's stack out of the check's memory.
set_option Elab.async false

open Sys2Proof.Machine Sys2Proof.Claim

/-! ### What the count of an issue leaves of the gang -/

theorem countIssue_cycle (s : State) : s.countIssue.cycle = s.cycle :=
  List.foldlRecOn (motive := fun u : State => u.cycle = s.cycle) _ _ rfl fun _ same _ _ => same

theorem countIssue_gangHandler (s : State) :
    s.countIssue.gangHandler = (s.slice s.issuer.core (s.issuer.slots.headD 0)).handler := by
  rw [State.gangHandler, countIssue_issuer]
  exact countIssue_keeps (p := Slice.handler) (fun _ => rfl) ..

theorem gang_of_subset {s : State} {srcs srcs' : List (Nat × Nat)} (gang : Gang s srcs) (sub : srcs' ⊆ srcs) : Gang s srcs' :=
  { gang with ready := fun t ht r hr => gang.ready t ht r (sub hr) }

/-! ### The frame of MMA and MMAS (R306, R311) -/

theorem groupRegs_subset {gs gs' : List (Nat × Nat × Nat)} (sub : gs' ⊆ gs) : groupRegs gs' ⊆ groupRegs gs :=
  fun _ hr => List.mem_flatMap.2 ((List.mem_flatMap.1 hr).imp fun _ h => ⟨sub h.1, h.2⟩)

theorem drop_if_subset (odd : Bool) (gs : List (Nat × Nat × Nat)) : (if odd then gs.drop 1 else gs) ⊆ gs := by
  cases odd
  · exact List.Subset.refl gs
  · exact List.drop_subset 1 gs

/-- The register groups of MMA or MMAS. -/
abbrev mmaGroups (f : MmaF) (sparse : Bool) : List (Nat × Nat × Nat) :=
  matGroups f.a.toNat f.b.toNat f.sc.toNat f.mt.toNat f.etype.toNat sparse f.spn.toNat

/-- A whole warp with no lane active does nothing, and one with a lane active enters its command. -/
theorem mmaForm_completes {f : MmaF} {sparse : Bool} {s v : State}
    (gang : Gang s ((groupRegs (mmaGroups f sparse)).map fun r => (0, r)))
    (low : f.d.toNat < 16) (legal : groupsOk (mmaGroups f sparse) = true)
    (met : ((s.slice s.issuer.core (s.issuer.slots.headD 0)).frame.act &&
      !(s.slice s.issuer.core (s.issuer.slots.headD 0)).frame.susp) = false → Met s 1)
    (outside : (s.slice s.issuer.core (s.issuer.slots.headD 0)).handler = false) (whole : s.countIssue.wholeWarp = true)
    (run : (if (s.countIssue.taking f.g).isEmpty then .ok s.countIssue else s.countIssue.enterMma f sparse) = .ok v) :
    mmaForm sparse f s = .next (v.advanceAll 8) := by
  rw [mmaForm]
  refine gangwise_of_gang (gang_of_subset gang (List.map_subset _ (groupRegs_subset ?_))) ?_ (by simp [low, legal]) ?_
  · exact drop_if_subset ..
  · rw [countIssue_gangHandler, outside, whole]
    exact run
  · intro rdv
    exact met ((Bool.not_eq_true' _).mp rdv) rfl

/-! ### The entry of an MMA command (R311, R314) -/

theorem mmaCmd_team (u : State) (f : MmaF) (sparse : Bool) (g : Nat) (y : Group) (d k : Nat) :
    (u.mmaCmd f sparse g y d k).team = if f.team = 0 then 0 else if y.ix % 2 = 1 then 2 else 1 := by
  rcases BitVec.eq_zero_or_eq_one f.team with alone | team
  · simp [State.mmaCmd, alone]
  · simp [State.mmaCmd, team]

/-- The tile that C names where CSRC = 2, and no tile otherwise. -/
theorem addend_eq {u : State} {f : MmaF} {k : Nat}
    (source : if f.csrc = 2 then (u.core u.issuer.core).allocTile u.gangGroup f.ct.toNat = some k else k = 0) :
    (if f.csrc == 2 then (u.core u.issuer.core).allocTile u.gangGroup f.ct.toNat else some 0) = some k := by
  split at source
  next tile => rw [if_pos (beq_iff_eq.2 tile), source]
  next other => rw [if_neg (mt beq_iff_eq.1 other), source]

section
variable {u : State} {f : MmaF} {sparse : Bool} {y : Group} {d k : Nat} (group : u.group? u.gangGroup = some y)
  (tile : (u.core u.issuer.core).allocTile u.gangGroup f.d.toNat = some d)
  (source : if f.csrc = 2 then (u.core u.issuer.core).allocTile u.gangGroup f.ct.toNat = some k else k = 0)
  (room : (u.core u.issuer.core).mat.room y.mclass = true)
include group tile source room

theorem enterMma_alone (alone : f.team = 0) :
    u.enterMma f sparse = .ok (u.enterMat u.issuer.core (u.mmaCmd f sparse u.gangGroup y d k) u.cycle.toNat) := by
  have added := addend_eq source
  have team := mmaCmd_team u f sparse u.gangGroup y d k
  rw [if_pos alone] at team
  simp only [State.enterMma, group, tile, added, room, alone, team]
  rfl

section
variable {v : State} (team : f.team = 1) (even : y.teamSize % 2 = 0)
  (entered : (u.enterMat u.issuer.core (u.mmaCmd f sparse u.gangGroup y d k) u.cycle.toNat).modGroup u.gangGroup
    (fun z => { z with frags := z.frags + 1 }) = v)
include team even entered

theorem enterMma_odd (odd : y.ix % 2 = 1) : u.enterMma f sparse = .ok v := by
  have added := addend_eq source
  have receives := mmaCmd_team u f sparse u.gangGroup y d k
  rw [team, if_neg (by decide), if_pos odd] at receives
  simp only [State.enterMma, group, tile, added, room, team, even, receives, entered]
  rfl

theorem enterMma_even {pk : Nat} {z : Group} (first : y.ix % 2 = 0) (partner : v.partner y = some (pk, z)) :
    let cmd := u.mmaCmd f sparse u.gangGroup y d k
    u.enterMma f sparse = .ok (v.send u.issuer.core z.core y.asid none (.afrag pk cmd.j
      ((cmd.frag.filter fun e => (groupRegs [(f.a.toNat, aRegs cmd.etype, 1)]).contains (e.1 / 64)).map fun e =>
        (e.1 - 64 * f.a.toNat, e.2)))) := by
  have added := addend_eq source
  have sends := mmaCmd_team u f sparse u.gangGroup y d k
  rw [team, if_neg (by decide), if_neg (by omega)] at sends
  simp only [State.enterMma, group, tile, added, room, team, even, sends, entered, partner, beq_self_eq_true, if_true]
  rfl

end

end

theorem exec_mma {p : (MmaF → Instr) × Bool} (hp : p ∈ ([(.mma, false), (.mmas, true)] : List ((MmaF → Instr) × Bool)))
    (f : MmaF) (s : State) : exec (p.1 f) s = mmaForm p.2 f s := by
  simp only [List.mem_cons, List.not_mem_nil, or_false] at hp
  rcases hp with rfl | rfl <;> rfl

theorem matrixMultiplyForms : MatrixMultiplyForms := by
  intro p hp f s gs u c x gang low legal met outside whole
  rw [exec_mma hp]
  refine ⟨fun off => mmaForm_completes gang low legal met outside whole ?_, ?_⟩
  · rw [if_pos (by simpa using off)]
  intro y d k on group tile source room cmd w
  have core : u.issuer.core = c := by rw [countIssue_issuer]
  have cycle : u.cycle = s.cycle := countIssue_cycle s
  have completes {v : State} (enters : u.enterMma f p.2 = .ok v) : mmaForm p.2 f s = .next (v.advanceAll 8) :=
    mmaForm_completes gang low legal met outside whole (by rw [if_neg (by simpa using on)]; exact enters)
  rw [← core] at tile source room
  have entered : u.enterMat u.issuer.core cmd u.cycle.toNat = w := by rw [core, cycle]
  refine ⟨fun alone => ?_, ?_⟩
  · rw [← entered]
    exact completes (enterMma_alone group tile source room alone)
  intro team even v
  refine ⟨fun odd => ?_, fun pk z first partner => ?_⟩
  · exact completes (enterMma_odd group tile source room team even (by rw [entered]) odd)
  · have sent := enterMma_even (sparse := p.2) group tile source room team even (by rw [entered]) first partner
    rw [core] at sent
    exact completes sent

/-! ### MREQ (R322, R323) -/

section
variable {s : State} {g : BitVec 4} {d a b : BitVec 6} {csrc : BitVec 2} {sc : BitVec 6} {ks : BitVec 5} {etype : BitVec 3}
  {cs : BitVec 5} {gs : List (Nat × Nat × Nat)} (groups : matGroups a.toNat b.toNat sc.toNat 0 etype.toNat false 0 = gs)
  (gang : Gang s ((groupRegs gs).map (fun r => (0, r)) ++ [(1, cs.toNat), (1, ks.toNat), (1, ks.toNat + 1)])) (free : Free s)
  (low : d.toNat < 16) (legal : groupsOk gs = true) (even : ks.toNat % 2 = 0) (whole : s.countIssue.wholeWarp = true)
include groups gang free low legal even whole

theorem mreq_of_idle (off : s.countIssue.taking g = []) :
    exec (.mreq g d a b csrc sc ks etype cs) s = .next (s.countIssue.advanceAll 8) := by
  subst groups
  change execMreq g d a b csrc sc ks etype cs s = _
  rw [execMreq]
  refine gangwise_of_free gang free ?_ (by simp [low, legal, even])
  simp [whole, off]

theorem mreq_sends {x : Slice} {c h : Nat} (on : s.countIssue.taking g ≠ []) (core : s.issuer.core = c)
    (lead : s.countIssue.slice c (s.issuer.slots.headD 0) = x)
    (target : (x.sr cs.toNat).toNat = h) (inside : h ≤ 255) (reach : s.countIssue.reach x.asid h = true)
    (room : s.countIssue.outbound c < 16) :
    let u := s.countIssue
    let o : Op := { id := u.nextId, core := c, asid := x.asid, pc := s.issuer.pc, members := s.issuer.slots, left := 1,
                    lanes := u.gangLanes g }
    exec (.mreq g d a b csrc sc ks etype cs) s = .next (((u.openOp o).send c h x.asid (some o.id)
      (.mreq { kind := .mma, group := 0, cls := 0, d := d.toNat, csrc := csrc.toNat, etype := etype.toNat, a := a.toNat,
               b := b.toNat, sc := sc.toNat, frag := u.captureFrag (groupRegs gs), ftz := ftzOf x.fpctl,
               zskip := zskipOf x.fpctl } (BitVec.ofNat 64 (x.spair ks.toNat)) d.toNat s.issuer.slots)).advanceAll 8) := by
  intro u o
  subst groups core
  change execMreq g d a b csrc sc ks etype cs s = _
  rw [execMreq]
  refine gangwise_of_free gang free ?_ (by simp [low, legal, even])
  simp only [whole, countIssue_issuer, lead, target, reach, Nat.not_lt.2 inside, Nat.not_le.2 room]
  simp [on, o, u]

end

theorem matrixRequestForm : MatrixRequestForm := by
  intro g d a b csrc sc ks etype cs s gs u c x h gang free low legal even whole
  exact ⟨mreq_of_idle rfl gang free low legal even whole,
    fun on inside reach room => mreq_sends rfl gang free low legal even whole on rfl rfl rfl inside reach room⟩

/-- Settles O47: a whole warp that waits for nothing captures its command, which enters its group's class queue or leaves for its target
core; with no lane active it only moves on. -/
theorem matrixForms : Obligations.MatrixForms :=
  ⟨matrixMultiplyForms, matrixRequestForm⟩

end Sys2Proof.Proofs

/-! The tile forms (12 R300 to R305, R316 to R320) of a slice by itself: on tiles that are allocated, and on names that are not. -/

namespace Sys2Proof.Proofs

-- One proof at a time, as in the tests: each proof under way at once takes a thread's stack out of the check's memory.
set_option Elab.async false

open Sys2Proof.Machine Sys2Proof.Claim

/-! ### The gang of one -/

section
variable {s : State} {c t : Nat} {srcs : List (Nat × Nat)}

theorem core_begun (k : Nat) : (begun s c t).core k = s.core k := rfl

theorem gangGroup_begun (solo : Solo s c t srcs) : (begun s c t).gangGroup = (s.slice c t).group := by
  rw [State.gangGroup, begun_core solo, begun_slots solo, List.headD_cons, slice_begun]
  rfl

theorem gangHandler_begun (solo : Solo s c t srcs) : (begun s c t).gangHandler = (s.slice c t).handler := by
  rw [State.gangHandler, begun_core solo, begun_slots solo, List.headD_cons, slice_begun]
  rfl

end

/-! ### The frame of a tile form (R316) -/

section
variable {s v : State} {h : Head} {c t : Nat} {g : BitVec 4} {srcs : List (Nat × Nat)} {body : State → Nat → Except Stop State}

/-- For a slice with a lane active and in no handler, a tile form is its body. -/
theorem tileForm_eq (solo : Solo s c t srcs) (on : (s.slice c t).active g ≠ 0) (outside : (s.slice c t).handler = false) :
    tileForm h g s body = gangwise { h with len := 8 } s fun u => body u t := by
  refine gangwise_congr ?_
  have member : (begun s c t).taking g = [t] := by
    rw [State.taking_solo g (begun_core solo) (begun_slots solo), slice_begun]
    exact if_neg on
  rw [countIssue_of_solo solo]
  simp only [member, gangHandler_begun solo, outside]
  rfl

theorem tileForm_completes (acts : Acts s c t g h.srcs) (outside : (s.slice c t).handler = false)
    (hb : body (begun s c t) t = .ok v) (ok : h.ok = true := by rfl) (adv : h.adv = true := by rfl) (rdv : h.rdv = false := by rfl)
    (priv : h.priv = false := by rfl) : tileForm h g s body = .next (v.advanceAll 8) := by
  rw [tileForm_eq acts.solo acts.on outside,
    gangwise_of_acts (h := { h with len := 8 }) acts hb ok rdv priv, if_pos adv]

theorem tileForm_faults {r : FaultRec} (solo : Solo s c t h.srcs) (on : (s.slice c t).active g ≠ 0)
    (outside : (s.slice c t).handler = false) (free : h.mem = true → (s.slice c t).acquires = [])
    (hb : body (begun s c t) t = .error (.fault r)) (ok : h.ok = true := by rfl) (rdv : h.rdv = false := by rfl)
    (priv : h.priv = false := by rfl) : tileForm h g s body = .next (s.gangTrap 8 r) := by
  rw [tileForm_eq solo on outside, gangwise_solo (h := { h with len := 8 }) solo.core solo.gang ok (by simp [priv])
    ⟨solo.held, free, solo.ready⟩ (by simp [rdv]), show s.setSlice c t (s.slice c t).issued = begun s c t from rfl, hb]
  rfl

end

/-! ### Names that are not allocated (R301) -/

section
variable {s : State} {c t : Nat} {g : BitVec 4} {name : Nat}

theorem tile_of_unallocated {srcs : List (Nat × Nat)} (solo : Solo s c t srcs)
    (absent : (s.core c).allocTile (s.slice c t).group name = none) : (begun s c t).tile g name =
      .error (.fault { code := 0x16, addr := name, lanes := [(t, (s.slice c t).active g)] }) := by
  have lanes : ((begun s c t).slice c t).active g = (s.slice c t).active g := by rw [slice_begun]; rfl
  simp only [State.tile, begun_core solo, gangGroup_begun solo, core_begun, absent, State.faultAll, begun_slots solo, List.map_cons,
    List.map_nil, lanes]
  cases (begun s c t).group? (s.slice c t).group <;> rfl

variable {n : BitVec 6} (on : (s.slice c t).active g ≠ 0) (outside : (s.slice c t).handler = false) (low : n.toNat < 16)
  (absent : (s.core c).allocTile (s.slice c t).group n.toNat = none)
include on outside low absent

theorem mzero_faults (solo : Solo s c t []) : exec (.mzero g n) s =
    .next (s.gangTrap 8 { code := 0x16, addr := n.toNat, lanes := [(t, (s.slice c t).active g)] }) := by
  refine show execMzero g n s = _ from tileForm_faults (h := { ok := decide (n.toNat < 16) }) solo on outside nofun ?_
    (decide_eq_true low)
  simp only [tile_of_unallocated solo absent]
  rfl

theorem mrdv_faults {d : BitVec 6} {part : BitVec 2} (solo : Solo s c t []) (aligned : d.toNat % 8 = 0) :
    exec (.mrdv g d n part) s =
      .next (s.gangTrap 8 { code := 0x16, addr := n.toNat, lanes := [(t, (s.slice c t).active g)] }) := by
  refine show execMrdv g d n part s = _ from tileForm_faults (h := { ok := alignOk d 8 && decide (n.toNat < 16) }) solo on outside
    nofun ?_ (by rw [alignOk_eq_true aligned, decide_eq_true low]; rfl)
  simp only [tile_of_unallocated solo absent]
  rfl

/-- MLD and MST find their tile before they check their address. -/
theorem tileMove_faults {store : Bool} {a : BitVec 6} {off : BitVec 16} (solo : Solo s c t [(1, a.toNat)])
    (free : (s.slice c t).acquires = []) (ha : a.toNat < 32) : tileMove store g a n off s =
      .next (s.gangTrap 8 { code := 0x16, addr := n.toNat, lanes := [(t, (s.slice c t).active g)] }) := by
  refine tileForm_faults (h := { mem := true, ok := sOk a && decide (n.toNat < 16), srcs := [(1, a.toNat)] }) solo on outside
    (fun _ => free) ?_ (by rw [sOk_eq_true ha, decide_eq_true low]; rfl)
  simp only [tile_of_unallocated solo absent]
  rfl

end

theorem tileFaults : TileFaults := by
  intro g n s c t d part solo on outside low absent f
  refine ⟨mzero_faults on outside low absent solo, mrdv_faults on outside low absent solo, fun free a off ha ready => ?_⟩
  have reads : Solo s c t [(1, a.toNat)] := { solo with ready := by simpa using ready }
  exact ⟨show execMld g a n off s = _ from tileMove_faults on outside low absent reads free ha,
    show execMst g a n off s = _ from tileMove_faults on outside low absent reads free ha⟩

/-! ### MALLOC and MFREE (R300, R316) -/

theorem find?_not_allotted {k : Core} {grp : Nat} {ms : List Nat} (allotted : ∀ n ∈ ms, n < k.allotment grp) :
    (ms.find? fun n => decide (k.allotment grp ≤ n)) = none := by
  rw [List.find?_eq_none]
  intro n hn
  simpa using allotted n hn

/-- A command of the gang's group enters its class queue while that has room (R303). -/
theorem tileCmd_of_room {v : State} {c n grp : Nat} {y : Group} (core : v.issuer.core = c) (cycle : v.cycle.toNat = n)
    (group : v.gangGroup = grp) (room : (v.core c).mat.room y.mclass = true) (m : MCmd) :
    v.tileCmd y m = .ok (v.enterMat c { m with group := grp, cls := y.mclass } n) := by
  subst core cycle group
  exact if_pos room


section
variable {s : State} {c t : Nat} {g : BitVec 4} {a d : BitVec 6} {ms : List Nat} (acts : Acts s c t g [(1, a.toNat)])
  (ha : a.toNat < 32) (outside : (s.slice c t).handler = false) (names : maskNames ((s.slice c t).sr a.toNat) = ms)

include names in
theorem names_begun : maskNames (((begun s c t).slice c t).sr a.toNat) = ms := by rw [slice_begun]; exact names

include acts ha outside names

theorem mfree_frees (allocated : ∀ n ∈ ms, ((s.core c).allocTile (s.slice c t).group n).isSome = true) :
    exec (.mfree g a) s =
      .next (((begun s c t).modCore c fun k => k.markTiles (s.slice c t).group ms false).advanceAll 8) := by
  refine show execMfree g a s = _ from tileForm_completes (h := { ok := sOk a, srcs := [(1, a.toNat)] }) acts outside ?_
    (sOk_eq_true ha)
  have found : (ms.find? fun n => (((begun s c t).core c).allocTile (s.slice c t).group n).isNone) = none := by
    rw [List.find?_eq_none]
    intro n hn
    rw [core_begun, ← Option.not_isSome, allocated n hn]
    exact nofun
  simp only [begun_core acts.solo, gangGroup_begun acts.solo, names_begun names, found]

section
variable (low : d.toNat < 8)
include low

/-- MALLOC of no name succeeds. -/
theorem malloc_of_no_name (empty : ms = []) :
    exec (.malloc g d a) s = .next (((begun s c t).gangPred g d.toNat fun _ => true).advanceAll 8) := by
  refine show execMalloc g d a s = _ from tileForm_completes (h := { ok := pOk d && sOk a, srcs := [(1, a.toNat)] }) acts outside ?_
    (by rw [pOk_eq_true low, sOk_eq_true ha]; rfl)
  simp only [begun_core acts.solo, gangGroup_begun acts.solo, names_begun names, empty]
  rfl

variable (allotted : ∀ n ∈ ms, n < (s.core c).allotment (s.slice c t).group) (nonempty : ms ≠ [])
include allotted nonempty

/-- MALLOC fails where one of its names is allocated. -/
theorem malloc_of_allocated (taken : ∃ n ∈ ms, ((s.core c).allocTile (s.slice c t).group n).isSome = true) :
    exec (.malloc g d a) s = .next (((begun s c t).gangPred g d.toNat fun _ => false).advanceAll 8) := by
  refine show execMalloc g d a s = _ from tileForm_completes (h := { ok := pOk d && sOk a, srcs := [(1, a.toNat)] }) acts outside ?_
    (by rw [pOk_eq_true low, sOk_eq_true ha]; rfl)
  simp only [begun_core acts.solo, gangGroup_begun acts.solo, names_begun names, find?_not_allotted allotted, core_begun,
    List.isEmpty_eq_false_iff.2 nonempty, List.any_eq_true.2 taken]
  rfl

/-- MALLOC of names that are free enters the command that zeroes their tiles, and marks them. -/
theorem malloc_enters {y : Group} (group : (begun s c t).group? (s.slice c t).group = some y)
    (unallocated : ∀ n ∈ ms, (s.core c).allocTile (s.slice c t).group n = none) (room : (s.core c).mat.room y.mclass = true) :
    exec (.malloc g d a) s = .next ((((((begun s c t).enterMat c
      { kind := .zero (ms.filterMap fun n => ((s.core c).tileOf (s.slice c t).group n).map (·.1)), group := (s.slice c t).group,
        cls := y.mclass, d := 0 } s.cycle.toNat).modCore c fun k => k.markTiles (s.slice c t).group ms true)).gangPred g d.toNat
          fun _ => true).advanceAll 8) := by
  refine show execMalloc g d a s = _ from tileForm_completes (h := { ok := pOk d && sOk a, srcs := [(1, a.toNat)] }) acts outside ?_
    (by rw [pOk_eq_true low, sOk_eq_true ha]; rfl)
  have untaken : (ms.any fun n => ((s.core c).allocTile (s.slice c t).group n).isSome) = false := by
    rw [List.any_eq_false]
    intro n hn
    simp [unallocated n hn]
  simp only [begun_core acts.solo, gangGroup_begun acts.solo, names_begun names, find?_not_allotted allotted, core_begun,
    List.isEmpty_eq_false_iff.2 nonempty, untaken, group,
    tileCmd_of_room (v := begun s c t) (begun_core acts.solo) rfl (gangGroup_begun acts.solo) room]
  rfl

end
end

/-! ### What a command's operation leaves of the gang -/

/-- Opening an operation changes slices, operations and the next number alone. -/
theorem openOp_keeps {β : Type} {p : State → β} (kept : ∀ u i o n, p { u with slices := i, ops := o, nextId := n } = p u)
    (u : State) (o : Op) : p (u.openOp o) = p u :=
  List.foldlRecOn (motive := fun v : State => p v = p u) _ _ (kept u u.slices _ _) fun v hv _ _ => (kept v _ v.ops v.nextId).trans hv

theorem openMat_keeps {β : Type} {p : State → β} (kept : ∀ u i o n, p { u with slices := i, ops := o, nextId := n } = p u)
    (u : State) (g : BitVec 4) (dest : Dest) (all : Bool) : p (u.openMat g dest all).1 = p u := by
  cases all with
  | false => exact openOp_keeps kept u _
  | true =>
    exact List.foldlRecOn (motive := fun v : State => p v = p u) _ _ (openOp_keeps kept u _) fun v hv _ _ =>
      (kept v _ v.ops v.nextId).trans hv

theorem foldl_modSlice_group {f : Slice → Slice} (kept : ∀ x, (f x).group = x.group) (l : List Nat) (u : State) (k c t : Nat) :
    ((l.foldl (fun v i => v.modSlice k i f) u).slice c t).group = (u.slice c t).group :=
  List.foldlRecOn (motive := fun v : State => (v.slice c t).group = (u.slice c t).group) _ _ rfl fun v hv _ _ =>
    (modSlice_keeps (p := Slice.group) kept v ..).trans hv

/-- Every slice stays in its group. -/
theorem openMat_slice_group (u : State) (g : BitVec 4) (dest : Dest) (all : Bool) (c t : Nat) :
    ((u.openMat g dest all).1.slice c t).group = (u.slice c t).group := by
  have opened (o : Op) : ((u.openOp o).slice c t).group = (u.slice c t).group := by
    refine foldl_modSlice_group ?_ ..
    exact fun _ => rfl
  cases all with
  | false => exact opened _
  | true =>
    refine (foldl_modSlice_group ?_ ..).trans (opened _)
    exact fun _ => rfl

theorem openMat_issuer (u : State) (g : BitVec 4) (dest : Dest) (all : Bool) : (u.openMat g dest all).1.issuer = u.issuer :=
  openMat_keeps (p := State.issuer) (fun _ _ _ _ => rfl) ..

theorem openMat_gangGroup (u : State) (g : BitVec 4) (dest : Dest) (all : Bool) : (u.openMat g dest all).1.gangGroup = u.gangGroup := by
  rw [State.gangGroup, openMat_issuer]
  exact openMat_slice_group ..

/-! ### Commands on an allocated tile (R303, R317 to R320) -/

section
variable {s : State} {c t d grp : Nat} {g : BitVec 4} {n : BitVec 6} {y : Group} {srcs : List (Nat × Nat)}

/-- The tile of an allocated name (R301). -/
theorem tile_of_allocated (solo : Solo s c t srcs) (own : (s.slice c t).group = grp)
    (group : (begun s c t).group? grp = some y) (tile : (s.core c).allocTile grp n.toNat = some d) :
    (begun s c t).tile g n.toNat = .ok (d, y) := by
  simp only [State.tile, begun_core solo, gangGroup_begun solo, core_begun, own, group, tile]

/-- A command whose operation is open enters the class queue as one without an operation does. -/
theorem tileCmd_of_openMat (solo : Solo s c t srcs) (own : (s.slice c t).group = grp)
    (room : (s.core c).mat.room y.mclass = true) (dest : Dest) (all : Bool) (m : MCmd) :
    ((begun s c t).openMat g dest all).1.tileCmd y m =
      .ok (((begun s c t).openMat g dest all).1.enterMat c { m with group := grp, cls := y.mclass } s.cycle.toNat) := by
  refine tileCmd_of_room ?_ ?_ ?_ ?_ m
  · rw [openMat_issuer, begun_core solo]
  · exact openMat_keeps (p := fun u => u.cycle.toNat) (fun _ _ _ _ => rfl) ..
  · rw [openMat_gangGroup, gangGroup_begun solo, own]
  · exact (openMat_keeps (p := fun u => (u.core c).mat.room y.mclass) (fun _ _ _ _ => rfl) ..).trans room

theorem acts_of_ready (acts : Acts s c t g []) (ready : ∀ r ∈ srcs, (s.slice c t).pendingReg r.1 r.2 = false) :
    Acts s c t g srcs :=
  { acts with solo := { acts.solo with ready := ready } }

variable (acts : Acts s c t g []) (low : n.toNat < 16) (outside : (s.slice c t).handler = false) (own : (s.slice c t).group = grp)
  (group : (begun s c t).group? grp = some y) (tile : (s.core c).allocTile grp n.toNat = some d)
  (room : (s.core c).mat.room y.mclass = true)
include acts low outside own group tile room

theorem mzero_enters : exec (.mzero g n) s = .next (((begun s c t).enterMat c
    { kind := .zero [d], group := grp, cls := y.mclass, d := d } s.cycle.toNat).advanceAll 8) := by
  refine show execMzero g n s = _ from tileForm_completes (h := { ok := decide (n.toNat < 16) }) acts outside ?_ (decide_eq_true low)
  simp only [tile_of_allocated acts.solo own group tile, bind, Except.bind]
  exact tileCmd_of_room (begun_core acts.solo) rfl ((gangGroup_begun acts.solo).trans own) room _

/-- MLD and MST of an aligned span inside the group's LOCAL memory that no watchpoint covers (R318; 15 R418). -/
theorem tileMove_enters {store : Bool} {a : BitVec 6} {off : BitVec 16} {ea base len : Nat} (ha : a.toNat < 32)
    (ready : (s.slice c t).pendingReg 1 a.toNat = false)
    (address : (((s.slice c t).sr a.toNat).toNat : Int) + off.toInt = ea) (aligned : ea % 16 = 0)
    (run : (begun s c t).localRun ((begun s c t).slice c t) = (base, len)) (inside : ea + 8192 ≤ len)
    (unwatched : (begun s c t).spanHit t (if store then 2 else 1) ea 8192 = false) :
    let o := (begun s c t).openMat g .none true
    let at_ := localBase c + base + ea
    tileMove store g a n off s = .next ((o.1.enterMat c
      { kind := if store then .mst at_ else .mld at_, group := grp, cls := y.mclass, d := d, op := o.2 }
      s.cycle.toNat).advanceAll 8) := by
  intro o at_
  refine tileForm_completes (h := { mem := true, ok := sOk a && decide (n.toNat < 16), srcs := [(1, a.toNat)] })
    (acts_of_ready acts (by simpa using ready)) outside ?_ (by rw [sOk_eq_true ha, decide_eq_true low]; rfl)
  have placed : ((((begun s c t).slice c t).sr a.toNat).toNat : Int) + off.toInt = ea := by rw [slice_begun]; exact address
  have divides : ¬ ((ea : Int) % 16 ≠ 0) := by omega
  have fits : ¬ ((ea : Int) < 0 ∨ len < ea + 8192) := by omega
  simp only [tile_of_allocated acts.solo own group tile, bind, Except.bind, begun_core acts.solo, run, placed, if_neg divides,
    if_neg fits, Int.toNat_natCast, unwatched, Bool.false_eq_true, if_false]
  exact tileCmd_of_openMat acts.solo own room .none true _

section
variable {r : BitVec 6} {part : BitVec 2} (aligned : r.toNat % 8 = 0)
include aligned

theorem mrdv_enters :
    let o := (begun s c t).openMat g (.v r.toNat 8) false
    exec (.mrdv g r n part) s = .next ((o.1.enterMat c
      { kind := .mrdv r.toNat part.toNat, group := grp, cls := y.mclass, d := d, op := o.2, lanes := (begun s c t).laneList g }
      s.cycle.toNat).advanceAll 8) := by
  intro o
  refine show execMrdv g r n part s = _ from tileForm_completes (h := { ok := alignOk r 8 && decide (n.toNat < 16) }) acts outside ?_
    (by rw [alignOk_eq_true aligned, decide_eq_true low]; rfl)
  simp only [tile_of_allocated acts.solo own group tile, bind, Except.bind]
  exact tileCmd_of_openMat acts.solo own room _ false _

theorem mcvts_enters {fmt : BitVec 2} {rsel : BitVec 3} {sat : BitVec 1} :
    let o := (begun s c t).openMat g (.v r.toNat 8) false
    exec (.mcvts g r n part fmt rsel sat) s = .next ((o.1.enterMat c
      { kind := .mcvts r.toNat part.toNat fmt.toNat rsel.toNat (sat == 1), group := grp, cls := y.mclass, d := d, op := o.2,
        lanes := (begun s c t).laneList g, rms := [(t, bits (s.slice c t).fpctl 0 2)] } s.cycle.toNat).advanceAll 8) := by
  intro o
  refine show execMcvts g r n part fmt rsel sat s = _ from tileForm_completes (h := { ok := alignOk r 8 && decide (n.toNat < 16) })
    acts outside ?_ (by rw [alignOk_eq_true aligned, decide_eq_true low]; rfl)
  have mode : ((begun s c t).slice c t).fpctl = (s.slice c t).fpctl := by rw [slice_begun]; rfl
  simp only [tile_of_allocated acts.solo own group tile, bind, Except.bind, taking_begun acts, begun_core acts.solo, List.map_cons,
    List.map_nil, mode]
  exact tileCmd_of_openMat acts.solo own room _ false _

theorem mwrv_enters (ready : ∀ q ∈ Machine.group 0 r.toNat 8, (s.slice c t).pendingReg q.1 q.2 = false) :
    exec (.mwrv g r n part) s = .next (((begun s c t).enterMat c
      { kind := .mwrv part.toNat, group := grp, cls := y.mclass, d := d, a := r.toNat,
        frag := (begun s c t).captureFrag ((List.range 8).map (r.toNat + ·)), lanes := (begun s c t).laneList g }
      s.cycle.toNat).advanceAll 8) := by
  refine show execMwrv g r n part s = _ from tileForm_completes
    (h := { ok := alignOk r 8 && decide (n.toNat < 16), srcs := Machine.group 0 r.toNat 8 }) (acts_of_ready acts ready) outside ?_
    (by rw [alignOk_eq_true aligned, decide_eq_true low]; rfl)
  simp only [tile_of_allocated acts.solo own group tile, bind, Except.bind]
  exact tileCmd_of_room (begun_core acts.solo) rfl ((gangGroup_begun acts.solo).trans own) room _

end

end

theorem tileForms : TileForms := by
  refine ⟨?_, ?_⟩
  · intro g d a s c t y acts ha outside u grp k ms
    refine ⟨fun low group allotted => ⟨?_, ?_, ?_⟩, mfree_frees acts ha outside rfl⟩
    · exact malloc_of_no_name acts ha outside rfl low
    · exact malloc_of_allocated acts ha outside rfl low allotted
    · exact fun nonempty free room => malloc_enters acts ha outside rfl low allotted nonempty group free room
  · intro g n s c t d y acts low outside u x
    have begins : x = (s.slice c t).issued := slice_begun s c t
    have own : (s.slice c t).group = x.group := by rw [begins]; rfl
    have mode : (s.slice c t).fpctl = x.fpctl := by rw [begins]; rfl
    intro group tile room enter
    refine ⟨mzero_enters acts low outside own group tile room, ?_, ?_⟩
    · intro a off ea ha ready address aligned inside o at_
      rw [begins] at ready address
      exact ⟨tileMove_enters (store := false) acts low outside own group tile room ha ready address aligned rfl inside,
        tileMove_enters (store := true) acts low outside own group tile room ha ready address aligned rfl inside⟩
    · intro r part fmt rsel sat aligned o
      refine ⟨mrdv_enters acts low outside own group tile room aligned, ?_, ?_⟩
      · rw [← mode]
        exact mcvts_enters acts low outside own group tile room aligned
      · intro ready
        rw [begins] at ready
        exact mwrv_enters acts low outside own group tile room aligned ready

/-- Settles O48: a tile form finds its tile, enters its command where its class queue has room, or faults where the name has none. -/
theorem matrixTiles : Obligations.MatrixTiles :=
  ⟨tileForms, tileFaults⟩

end Sys2Proof.Proofs

/-! Traversal words: what the decoder reads in the word of a traversal instruction (13 R332 to R334). -/

namespace Sys2Proof.Proofs

-- One proof at a time, as in the tests: each proof under way at once takes a thread's stack out of the check's memory.
set_option Elab.async false

open Sys2Proof Sys2Proof.Claim
open BitVec (extractLsb'_append_eq_of_le extractLsb'_append_eq_of_add_le extractLsb'_eq_self)

/-- The traversal decoder reads the word `w` as `i`, but for the check of reserved codes. -/
def ReadsTrav (i : Instr) (w : Word) : Prop := fieldsTrav w = .ok i

theorem ReadsTrav.decodeTrav_eq {i : Instr} {w : Word} (h : ReadsTrav i w) (hwf : i.wf = true) : decodeTrav w = .ok i :=
  checked_eq_ok.2 ⟨h, hwf⟩

section
variable {i j k : Instr} {w : Word} {op : BitVec 6} {M : Nat}

/-- An opcode of one form: its word's opcode, zeros and fields. -/
theorem readsTrav_of_op
    (head : fld w 26 6 = op := by
      simp (disch := decide) only [fld, extractLsb'_append_eq_of_le, extractLsb'_append_eq_of_add_le, extractLsb'_eq_self,
        Nat.reduceSub] <;> rfl)
    (row : fld w 26 6 = op → fieldsTrav w = zeros M w j)
    (hz : NoneUnder w M := by
      simp (disch := decide) only [noneUnder_append, noneUnder_zero, noneUnder_ofNat, Nat.reduceShiftRight, Nat.reduceMod,
        Nat.reducePow, and_self])
    (e : j = i := by
      simp (disch := decide) only [fld, extractLsb'_append_eq_of_le, extractLsb'_append_eq_of_add_le, extractLsb'_eq_self,
        Nat.reduceSub] <;> rfl) : ReadsTrav i w :=
  (row head).trans (zeros_eq hz e)

theorem not_noneUnder_ofNat {n a m : Nat} (h : a % 2 ^ n &&& m % 2 ^ n ≠ 0) : ¬ NoneUnder (BitVec.ofNat n a) m :=
  fun hz => h (by simpa using congrArg BitVec.toNat hz)

/-- An opcode of two forms chooses the first where bit `b` of the word is zero. -/
theorem bit_clear (b : Nat) {r r' : Except Reject Instr}
    (hb : NoneUnder w (2 ^ b) := by
      simp (disch := decide) only [noneUnder_append, noneUnder_zero, noneUnder_ofNat, Nat.reduceShiftRight, Nat.reduceMod,
        Nat.reducePow, and_self]) :
    (if w &&& BitVec.ofNat 32 (2 ^ b) = 0 then r else r') = r := if_pos hb

/-- It chooses the second where the bit is one. -/
theorem bit_set (b : Nat) {r r' : Except Reject Instr}
    (hb : ¬ NoneUnder w (2 ^ b) := by
      simp (disch := decide) only [noneUnder_append, noneUnder_zero, not_noneUnder_ofNat, Nat.reduceShiftRight, Nat.reduceMod,
        Nat.reducePow, and_true, and_false, false_and, not_false_eq_true]) :
    (if w &&& BitVec.ofNat 32 (2 ^ b) = 0 then r else r') = r' := if_neg hb

end

/-- A traversal instruction is one word, which reads as it. -/
theorem readsTrav_encode {i : Instr} (trav : travForm i = true) : ∃ w, encode i = [w] ∧ ReadsTrav i w := by
  cases i with
  | tNfch _ | tNqbx _ _ | tBox8 _ _ | tSbox8 _ _ | tTri _ _ _ _ | tSphd _ _ _ | tKcmp8 _ _ _ | tVdist _ | tPop _ | tStkq _ _
  | tBrc _ _ | tJmp _ _ | tEnd | tEmit _ _ _ | tMigr _ | tYld | tFadd _ | tFsub _ | tFmul _ | tFmin _ | tFmax _ | tFcmp _ _
  | tSel _ _ _ _ =>
    exact ⟨_, rfl, readsTrav_of_op (row := fun h => by unfold fieldsTrav; rewrite [h]; rfl)⟩
  | tNdec _ _ _ => exact ⟨_, rfl, readsTrav_of_op (row := fun h => by unfold fieldsTrav; rewrite [h]; exact bit_clear 5)⟩
  | tNdecX _ => exact ⟨_, rfl, readsTrav_of_op (row := fun h => by unfold fieldsTrav; rewrite [h]; exact bit_set 5)⟩
  | tPushm _ => exact ⟨_, rfl, readsTrav_of_op (row := fun h => by unfold fieldsTrav; rewrite [h]; exact bit_clear 0)⟩
  | tPushmE _ _ => exact ⟨_, rfl, readsTrav_of_op (row := fun h => by unfold fieldsTrav; rewrite [h]; exact bit_set 0)⟩
  | tAdd _ | tSub _ | tMul _ | tAnd _ | tOr _ | tXor _ | tShl _ | tShr _ | tMin _ | tMax _ =>
    exact ⟨_, rfl, readsTrav_of_op (row := fun h => by unfold fieldsTrav; rewrite [h]; exact bit_clear 10)⟩
  | tAddImm _ | tSubImm _ | tMulImm _ | tAndImm _ | tOrImm _ | tXorImm _ | tShlImm _ | tShrImm _ | tMinImm _ | tMaxImm _ =>
    exact ⟨_, rfl, readsTrav_of_op (row := fun h => by unfold fieldsTrav; rewrite [h]; exact bit_set 10)⟩
  | tMovi _ _ => exact ⟨_, rfl, readsTrav_of_op (row := fun h => by unfold fieldsTrav; rewrite [h]; exact bit_clear 16)⟩
  | tMoviHi _ _ => exact ⟨_, rfl, readsTrav_of_op (row := fun h => by unfold fieldsTrav; rewrite [h]; exact bit_set 16)⟩
  | _ => cases trav

/-- Settles O14: the fields of each word compute. -/
theorem wordsDecode : Obligations.WordsDecode :=
  ⟨rfl, rfl, rfl, rfl, rfl, rfl, rfl, rfl, rfl, rfl, rfl, rfl, rfl, rfl, rfl, rfl, rfl, rfl, rfl, rfl, rfl, rfl, rfl, rfl, rfl, rfl⟩

/-- Settles O16: the word of a traversal instruction has its opcode, zeros and fields where the decoder looks for them. -/
theorem traversalEncodeDecode : Obligations.TraversalEncodeDecode := by
  unfold Obligations.TraversalEncodeDecode
  intro i hwf trav
  obtain ⟨w, he, hw⟩ := readsTrav_encode trav
  exact ⟨w, he, hw.decodeTrav_eq hwf⟩

end Sys2Proof.Proofs

/-! The frame of a traversal instruction (13 R329, R333): when it completes, when it ends its thread. -/

namespace Sys2Proof.Proofs

-- One proof at a time, as in the tests: each proof under way at once takes a thread's stack out of the check's memory.
set_option Elab.async false

open Sys2Proof.Machine Sys2Proof.Claim

section
variable {s : State} {ok : Bool}

theorem dstOk_eq_true {d : BitVec 5} {n : Nat} (h : d.toNat + n ≤ 30) : dstOk d n = true := decide_eq_true h

theorem dstOk_eq_false {d : BitVec 5} {n : Nat} (h : 30 < d.toNat + n) : dstOk d n = false := decide_eq_false (Nat.not_le.2 h)

theorem srcOk_eq_true {a : BitVec 5} {n : Nat} (h : a.toNat + n ≤ 32) : srcOk a n = true := decide_eq_true h

theorem travForm_of_ok {body : Thread → Except TStop State} {u : State} (hok : ok = true) (hb : body (running s) = .ok u) :
    Machine.travForm s ok body = .next u := by
  subst hok
  exact congrArg (fun r => Host.Outcome.next (s.threadDone s.rakeCore s.rakeThread r)) hb

theorem travForm_of_status {body : Thread → Except TStop State} {n : Nat} (hok : ok = true)
    (hb : body (running s) = s.tstatus n) :
    Machine.travForm s ok body = .next (s.endThread s.rakeCore s.rakeThread n) := by
  subst hok
  exact congrArg (fun r => Host.Outcome.next (s.threadDone s.rakeCore s.rakeThread r)) hb

/-- An operand out of its range ends the thread with ILLEGAL (R333). -/
theorem travForm_of_not_ok {body : Thread → Except TStop State} (hok : ok = false) :
    Machine.travForm s ok body = .next (s.endThread s.rakeCore s.rakeThread 1) := by
  subst hok
  rfl

theorem travOp_of_ok {body : Thread → Except TStop Thread} {t : Thread} (hok : ok = true) (hb : body (running s) = .ok t) :
    travOp s ok body =
      .next ((s.modThread s.rakeCore s.rakeThread fun _ => t).goNext s.rakeCore s.rakeThread) :=
  travForm_of_ok hok (by rw [hb]; rfl)

theorem travOp_of_status {body : Thread → Except TStop Thread} {n : Nat} (hok : ok = true)
    (hb : body (running s) = s.tstatus n) :
    travOp s ok body = .next (s.endThread s.rakeCore s.rakeThread n) :=
  travForm_of_status hok (by rw [hb]; rfl)

theorem travOp_of_not_ok {body : Thread → Except TStop Thread} (hok : ok = false) :
    travOp s ok body = .next (s.endThread s.rakeCore s.rakeThread 1) :=
  travForm_of_not_ok hok

end

end Sys2Proof.Proofs

/-! Arithmetic of traversal threads (13 R335 to R337). -/

namespace Sys2Proof.Proofs

-- One proof at a time, as in the tests: each proof under way at once takes a thread's stack out of the check's memory.
set_option Elab.async false

open Sys2Proof.Machine Sys2Proof.Claim

theorem minS_eq (a b : Word) : minS a b = if a.toInt ≤ b.toInt then a else b := by
  unfold minS
  split <;> split <;> first | rfl | omega

theorem maxS_eq (a b : Word) : maxS a b = if b.toInt ≤ a.toInt then a else b := by
  unfold maxS
  split <;> split <;> first | rfl | omega

theorem exec_travInts {p : (T3 → Instr) × (TI → Instr) × (Word → Word → Word)} (hp : p ∈ travInts) (s : State) :
    (∀ f, exec (p.1 f) s = travInt f s p.2.2) ∧ ∀ f, exec (p.2.1 f) s = travIntImm f s p.2.2 := by
  simp only [travInts, ← minS_eq, ← maxS_eq] at hp
  fin_cases hp <;> exact ⟨fun _ => rfl, fun _ => rfl⟩

theorem traversalIntegerForms : TraversalIntegerForms := by
  unfold TraversalIntegerForms
  intro p hp s t put
  obtain ⟨regs, imms⟩ := exec_travInts hp s
  refine ⟨fun f => ⟨fun hd => ?_, fun hd => ?_⟩, fun f => ⟨fun hd => ?_, fun hd => ?_⟩⟩
  · exact (regs f).trans (travOp_of_ok (dstOk_eq_true hd) rfl)
  · exact (regs f).trans (travOp_of_not_ok (dstOk_eq_false (Nat.lt_succ_of_le hd)))
  · exact (imms f).trans (travOp_of_ok (dstOk_eq_true hd) rfl)
  · exact (imms f).trans (travOp_of_not_ok (dstOk_eq_false (Nat.lt_succ_of_le hd)))

/-- A word's low 31 bits are those that Z looks at (R336). -/
theorem low31_eq_zero (r : Word) : (bits r 0 31 == 0) = (r.setWidth 31 == 0) := by
  have low : (r.setWidth 31).toNat = bits r 0 31 := by
    rw [BitVec.toNat_setWidth, bits, Nat.pow_zero, Nat.div_one]
  rw [Bool.eq_iff_iff, beq_iff_eq, beq_iff_eq, ← low]
  exact BitVec.toNat_inj (y := 0#31)

theorem exec_travFloats {p : (T3 → Instr) × (Nat → Nat → Nat × BitVec 5)} (hp : p ∈ travFloats) (f : T3) (s : State) :
    exec (p.1 f) s = travFloat f s p.2 := by
  fin_cases hp <;> rfl

theorem travFloat_walks {f : T3} (s : State) (op : Nat → Nat → Nat × BitVec 5) (hd : f.d.toNat < 30) :
    let r := w32 (op ((running s).wr f.a.toNat).toNat ((running s).wr f.b.toNat).toNat).1
    travFloat f s op = .next ((s.modThread s.rakeCore s.rakeThread fun _ => (((running s).setW f.d.toNat r).setZ
      (r.setWidth 31 == 0)).setN (r.getLsbD 31 && !(f32.decode r.toNat).isNan)).goNext s.rakeCore s.rakeThread) := by
  intro r
  rw [← low31_eq_zero]
  exact travOp_of_ok (dstOk_eq_true hd) rfl

theorem traversalFloatForms : TraversalFloatForms := by
  unfold TraversalFloatForms
  intro s t
  refine ⟨fun p hp f => ⟨fun hd => ?_, fun hd => ?_⟩, fun a b => ?_, fun d hd => ⟨fun i => ⟨?_, ?_⟩, fun a b c => ?_⟩⟩
  · exact (exec_travFloats hp f s).trans (travFloat_walks s p.2 hd)
  · exact (exec_travFloats hp f s).trans (travOp_of_not_ok (dstOk_eq_false (Nat.lt_succ_of_le hd)))
  · exact show execTFcmp a b s = _ from travOp_of_ok rfl rfl
  · exact show execTMovi d i s = _ from travOp_of_ok (dstOk_eq_true hd) rfl
  · exact show execTMoviHi d i s = _ from travOp_of_ok (dstOk_eq_true hd) rfl
  · exact show execTSel d a b c s = _ from travOp_of_ok (dstOk_eq_true hd) rfl

/-- Settles O50: each form is one of the shapes that change the running thread alone, with the operation of its row. -/
theorem traversalArithmetic : Obligations.TraversalArithmetic :=
  ⟨traversalIntegerForms, traversalFloatForms⟩

end Sys2Proof.Proofs

/-! Flow, results and migration of traversal threads (13 R333, R338 to R341, R356). -/

namespace Sys2Proof.Proofs

-- One proof at a time, as in the tests: each proof under way at once takes a thread's stack out of the check's memory.
set_option Elab.async false

open Sys2Proof.Machine Sys2Proof.Claim

/-- The bits of a word from bit 11 up are zero where the word is below 2^11. -/
theorem high21_eq_zero_iff (x : Word) : bits x 11 21 = 0 ↔ x.toNat < 2 ^ 11 := by
  rw [bits]
  omega

theorem traversalFlowForms : TraversalFlowForms := by
  unfold TraversalFlowForms
  intro s t c n
  refine ⟨fun k i => show execTBrc k i s = _ from travForm_of_ok rfl rfl, fun d a hd => ?_,
    show execTEnd s = _ from travForm_of_status rfl rfl, show execTYld s = _ from travForm_of_ok rfl rfl⟩
  have ok : (d == 31 || dstOk d 1) = true := by
    obtain below | rfl := hd
    · rw [dstOk_eq_true below, Bool.or_true]
    · rfl
  refine ⟨fun far => show execTJmp d a s = _ from travForm_of_status ok (if_pos ?_),
    fun near => show execTJmp d a s = _ from travForm_of_ok ok ?_⟩
  · rw [Ne, high21_eq_zero_iff]; exact Nat.not_lt.2 far
  · dsimp only
    rw [if_neg (not_not.2 ((high21_eq_zero_iff _).2 near))]
    split <;> rfl

/-! ### The PC -/

/-- The 11 bits of the PC in W30 read back what was written. -/
theorem bits_putBits_pc (w : Word) (pc : Nat) : bits (putBits w 9 11 pc) 9 11 = pc % 2 ^ 11 := by
  unfold putBits bits w32
  rw [BitVec.toNat_ofNat]
  omega

theorem pc_setPc (t : Thread) (pc : Nat) : (t.setPc pc).pc = pc % 2 ^ 11 := by
  rw [Thread.pc, Thread.setPc, Thread.set30, Thread.setW, Thread.wr, tget_tset_self]
  exact bits_putBits_pc _ _

theorem wr_setPc_of_ne (t : Thread) (pc : Nat) {j : Nat} (h : j ≠ 30) : (t.setPc pc).wr j = t.wr j :=
  tget_tset_of_ne _ _ _ h

theorem thread_modThread_self (s : State) (c n : Nat) (f : Thread → Thread) : (s.modThread c n f).thread c n = f (s.thread c n) := by
  simp [State.modThread, State.modRake, State.modCore, State.thread, State.rake, State.core]

theorem traversalPcRange : TraversalPcRange := by
  unfold TraversalPcRange
  intro s k i t pc inside
  have branch : exec (.tBrc k i) s = .next (s.goto s.rakeCore s.rakeThread pc) :=
    show execTBrc k i s = _ from travForm_of_ok rfl rfl
  refine ⟨fun h => ⟨_, branch.trans (congrArg _ (if_pos h)), ?_⟩, fun h => branch.trans (congrArg _ (if_neg h))⟩
  rw [show ∀ u : State, running u = u.thread u.rakeCore u.rakeThread from fun _ => rfl, State.modThread_rakeCore,
    State.modThread_rakeThread, thread_modThread_self]
  refine ⟨?_, rfl, fun j hj => wr_setPc_of_ne _ _ (Nat.ne_of_lt hj)⟩
  have moved : ((running s).setPc pc.toNat).pc = pc.toNat % 2 ^ 11 := pc_setPc _ _
  have nonneg : 0 ≤ pc := h.1
  exact (congrArg Int.ofNat moved).trans (by rw [Int.ofNat_eq_natCast]; omega)

/-! ### EMIT and MIGR -/

/-- A word below 2^11 splits into a core's number and a device's (R356). -/
theorem core_device_of_lt {x : Word} (h : x.toNat < 2 ^ 11) : bits x 0 8 = x.toNat % 256 ∧ bits x 8 3 = x.toNat / 256 := by
  unfold bits
  omega

theorem emit_sends {s v : State} {a b : BitVec 5} {k : BitVec 3} {ps : List (Nat × Nat)}
    (ha : a.toNat + k.toNat + 1 ≤ 32) (even : b.toNat % 2 = 0) (hb : b.toNat ≤ 28)
    (below : ((running s).wr b.toNat).toNat + ((running s).wr (b.toNat + 1)).toNat * 2 ^ 32 < 2 ^ 52)
    (aligned : (((running s).wr b.toNat).toNat + ((running s).wr (b.toNat + 1)).toNat * 2 ^ 32) % 4 = 0)
    (places : s.threadPlaces (running s).asid .store 2
      (((running s).wr b.toNat).toNat + ((running s).wr (b.toNat + 1)).toNat * 2 ^ 32) (4 * (k.toNat + 1)) = .ok (v, ps)) :
    let up := (((running s).wr b.toNat).toNat + ((running s).wr (b.toNat + 1)).toNat * 2 ^ 32 + 4 * (k.toNat + 1)) % 2 ^ 52
    let w := v.emitStores v.rakeCore v.rakeThread (running s).asid ps (wordsBytes ((running s).group a.toNat (k.toNat + 1)))
    exec (.tEmit a b k) s = .next ((w.modThread w.rakeCore w.rakeThread
      fun t => t.setGroup b.toNat [w32 up, w32 (up / 2 ^ 32)]).goNext w.rakeCore w.rakeThread) := by
  intro up w
  have high : bits ((running s).wr (b.toNat + 1)) 20 12 = 0 := by unfold bits; omega
  refine show execTEmit a b k s = _ from travForm_of_ok ?_ ?_
  · rw [srcOk_eq_true (by omega), even, decide_eq_true hb]; rfl
  · simp only [high, aligned, places, ne_eq, not_true_eq_false, if_false]
    rfl

theorem migr_of_own_core {s : State} {a : BitVec 5} (near : ((running s).wr a.toNat).toNat < 2 ^ 11)
    (core : ((running s).wr a.toNat).toNat % 256 = s.rakeCore) (dev : ((running s).wr a.toNat).toNat / 256 = s.mgmt.devnum) :
    Walks (.tMigr a) s ((running s).setZ false) := by
  obtain ⟨hc, hd⟩ := core_device_of_lt near
  refine show execTMigr a s = _ from travForm_of_ok rfl ((if_neg ?_).trans (if_pos ⟨hc.trans core, hd.trans dev⟩))
  rw [not_not, high21_eq_zero_iff]; exact near

theorem migr_of_other_core {s : State} {a : BitVec 5} {u : State} (near : ((running s).wr a.toNat).toNat < 2 ^ 11)
    (other : ((running s).wr a.toNat).toNat % 256 ≠ s.rakeCore ∨ ((running s).wr a.toNat).toNat / 256 ≠ s.mgmt.devnum)
    (out : s.migrate s.rakeCore s.rakeThread false (((running s).wr a.toNat).toNat % 256) (((running s).wr a.toNat).toNat / 256) =
      .ok u) : exec (.tMigr a) s = .next u := by
  obtain ⟨hc, hd⟩ := core_device_of_lt near
  refine show execTMigr a s = _ from travForm_of_ok rfl ((if_neg ?_).trans ((if_neg ?_).trans ?_))
  · rw [not_not, high21_eq_zero_iff]; exact near
  · rw [hc, hd]; exact fun h => other.elim (· h.1) (· h.2)
  · rw [hc, hd]; exact out

/-- The stores of a thread that sets out are those that it had. -/
theorem emits_setOut (s : State) (c n : Nat) (w : TWait) :
    ((s.modThread c n fun t => { t with wait := w }).thread c n).emits = (s.thread c n).emits := by
  rw [thread_modThread_self]

theorem traversalEmitMigrate : TraversalEmitMigrate := by
  unfold TraversalEmitMigrate
  intro s t c n
  refine ⟨fun a b k v ps ha even hb => ?_, fun a => ⟨fun far => ?_, fun near core dev => ?_, fun near other busy => ?_,
    fun near other u sent idle => ?_⟩⟩
  · exact fun below aligned places => emit_sends ha even hb below aligned places
  · exact show execTMigr a s = _ from
      travForm_of_status rfl (if_pos (by rw [Ne, high21_eq_zero_iff]; exact Nat.not_lt.2 far))
  · exact migr_of_own_core near core dev
  · exact migr_of_other_core near other (if_neg (by rw [emits_setOut]; exact busy))
  · exact migr_of_other_core near other ((if_pos (by rw [emits_setOut]; exact idle)).trans sent)

/-- Settles O51: each form is a change of the running thread, then the PC's move or the thread's end. -/
theorem traversalFlow : Obligations.TraversalFlow :=
  ⟨traversalFlowForms, traversalPcRange, traversalEmitMigrate⟩

end Sys2Proof.Proofs

/-! Node access and the node tests of traversal threads (13 R342 to R351). -/

namespace Sys2Proof.Proofs

-- One proof at a time, as in the tests: each proof under way at once takes a thread's stack out of the check's memory.
set_option Elab.async false

open Sys2Proof.Machine Sys2Proof.Claim

/-! ### NFCH -/

section
variable {s : State} {a : BitVec 5} {lw : Bool} {addr : Nat}

theorem nodePair_of_none {lo hi : Word} (h : pairFault lo hi = none) :
    s.nodePair lo hi = .ok (hi.getLsbD 31, lo.toNat + if hi.getLsbD 31 then 0 else bits hi 0 20 * 2 ^ 32) := by
  rw [State.nodePair, h]

/-- A pair that NFCH cannot take ends the thread (R342). -/
theorem nfch_of_pairFault (ha : a.toNat ≤ 30) {code n : Nat}
    (fault : pairFault ((running s).wr a.toNat) ((running s).wr (a.toNat + 1)) = some code) (hn : n = if code = 5 then 3 else 2) :
    Ends (.tNfch a) s n := by
  refine show execTNfch a s = _ from travForm_of_status (srcOk_eq_true (by omega)) ?_
  have stops : s.nodePair ((running s).wr a.toNat) ((running s).wr (a.toNat + 1)) = s.tstatus n := by
    rw [State.nodePair, fault, hn]
    split <;> simp_all
  rw [stops]
  rfl

/-- A pair of the form of NFCH sets out for its node's core or, with none to go to, waits for the node (R342, R356). -/
theorem nfch_of_pair (ha : a.toNat ≤ 30) {u v : State} {r : Option (Nat × Nat)}
    (pair : s.nodePair ((running s).wr a.toNat) ((running s).wr (a.toNat + 1)) = .ok (lw, addr))
    (inside : lw = true → lwinNode addr = true) (target : s.nodeTarget (running s) lw addr = .ok (v, r))
    (goes : ∀ h d, r = some (h, d) → v.migrate v.rakeCore v.rakeThread true h d = .ok u)
    (stays : r = none → (lw && !v.reach (running s).asid (addr / 2 ^ 18)) = false ∧
      u = v.modThread v.rakeCore v.rakeThread fun t => { t with wait := .node lw addr }) :
    exec (.tNfch a) s = .next u := by
  refine show execTNfch a s = _ from travForm_of_ok (srcOk_eq_true (by omega)) ?_
  have legal : (lw && !lwinNode addr) = false := by cases lw <;> simp_all
  rw [pair]
  simp only [bind, Except.bind, legal, target]
  rcases r with _ | ⟨h, d⟩
  · obtain ⟨reached, rfl⟩ := stays rfl
    simp only [reached]
    rfl
  · exact goes h d rfl

end

theorem nodeFetchForm : NodeFetchForm := by
  unfold NodeFetchForm
  intro s a ha t lo hi lw addr
  refine ⟨fun fault => nfch_of_pairFault ha fault rfl, fun fault => nfch_of_pairFault ha fault rfl, fun legal inside v => ?_⟩
  have pair := nodePair_of_none (s := s) legal
  refine ⟨fun target near => nfch_of_pair ha pair inside target nofun fun _ => ⟨?_, rfl⟩,
    fun h d target busy => nfch_of_pair ha pair inside target (fun h' d' same => ?_) nofun⟩
  · rw [Bool.and_eq_false_iff, Bool.not_eq_false']
    exact (Bool.eq_false_or_eq_true lw).symm.imp id near
  · cases same
    exact if_neg (by rw [emits_setOut]; exact busy)

/-! ### Instructions that need a node -/

section
variable {s : State} {ok : Bool} {fmt : List Word → Bool} {body : List Word → Thread → Thread} {ws : List Word}

theorem travNode_walks (hok : ok = true) (node : (running s).node = some ws) (hf : fmt ws = true) :
    travNode s ok fmt body =
      .next ((s.modThread s.rakeCore s.rakeThread fun _ => body ws (running s)).goNext s.rakeCore s.rakeThread) :=
  travOp_of_ok hok (by rw [node]; exact if_pos hf)

theorem travNode_walks_of_eq {t : Thread} (hok : ok = true) (node : (running s).node = some ws) (hf : fmt ws = true)
    (hb : body ws (running s) = t) : travNode s ok fmt body =
      .next ((s.modThread s.rakeCore s.rakeThread fun _ => t).goNext s.rakeCore s.rakeThread) :=
  hb ▸ travNode_walks hok node hf

theorem travNode_of_none (hok : ok = true) (node : (running s).node = none) :
    travNode s ok fmt body = .next (s.endThread s.rakeCore s.rakeThread 7) :=
  travOp_of_status hok (by rw [node])

theorem travNdec_walks {d b : BitVec 5} {w : Thread → Nat} (hd : d.toNat < 30) (node : (running s).node = some ws) :
    travNdec d b w s = .next ((s.modThread s.rakeCore s.rakeThread fun _ =>
      (running s).setW d.toNat (bfx (ws.getD (w (running s)) 0) ((running s).wr b.toNat))).goNext s.rakeCore s.rakeThread) :=
  travOp_of_ok (dstOk_eq_true hd) (by rw [node])

theorem travNdec_of_none {d b : BitVec 5} {w : Thread → Nat} (hd : d.toNat < 30) (node : (running s).node = none) :
    travNdec d b w s = .next (s.endThread s.rakeCore s.rakeThread 7) :=
  travOp_of_status (dstOk_eq_true hd) (by rw [node])

theorem testsOk {d a : BitVec 5} {n : Nat} (hd : d.toNat < 30) (ha : a.toNat + n ≤ 32) : (dstOk d 1 && srcOk a n) = true := by
  rw [dstOk_eq_true hd, srcOk_eq_true ha]
  rfl

theorem travTests_walks {d a : BitVec 5} {n : Nat} {test : List Word → List Word → Nat → Bool × Word} (hd : d.toNat < 30)
    (ha : a.toNat + n ≤ 32) (node : (running s).node = some ws) (hf : isWn8 ws = true) :
    let rs := (List.range 8).map (test ((running s).group a.toNat n) ws)
    let mask := (((List.range 8).filter fun j => (rs.getD j (false, 0)).1).map (2 ^ ·)).sum
    travTests s d a n test = .next ((s.modThread s.rakeCore s.rakeThread fun _ =>
      { ((running s).setW d.toNat (BitVec.ofNat 32 mask)).setHit (mask != 0) with test := some rs }).goNext
        s.rakeCore s.rakeThread) :=
  travNode_walks (testsOk hd ha) node hf

/-- VDIST of a legal descriptor on a graph node waits for its vectors (R351). -/
theorem vdist_waits {f : T3} (hd : f.d.toNat < 30) (ha : f.a.toNat ≤ 30) (node : (running s).node = some ws)
    (legal : vdistOk ((running s).wr f.b.toNat) = true) (graph : isGraph ws = true)
    (query : bits ((running s).wr (f.a.toNat + 1)) 20 12 = 0) (high : bits (ws.getD 2 0) 20 12 = 0)
    (low : bits (ws.getD 1 0) 0 5 = 0) : Awaits (.tVdist f) s (.vector f.d.toNat f.a.toNat f.b.toNat) := by
  refine show execTVdist f s = _ from travForm_of_ok ?_ ?_
  · rw [dstOk_eq_true hd, srcOk_eq_true (by omega)]
    rfl
  · simp only [node, legal, graph, query, high, low]
    rfl

end

theorem nodeForms : NodeForms := by
  unfold NodeForms
  intro s t
  refine ⟨fun ws node => ⟨fun d b w hd => ?_, fun f hd => ?_, fun d j hd fmt => ?_, fun d a hd fmt => ?_, fun d a b j hd ha fmt => ?_,
    fun d a j hd ha fmt => ?_, fun d a k hd fmt => ?_, fun f hd ha legal graph query high low => ?_⟩, fun node d a b w hd ha => ?_⟩
  · exact show execTNdec d b w s = _ from travNdec_walks hd node
  · exact show execTNdecX f s = _ from travNdec_walks hd node
  · exact show execTNqbx d j s = _ from travNode_walks (dstOk_eq_true (by omega)) node fmt
  · exact ⟨fun ha => show travTests s d a 8 boxTest = _ from travTests_walks hd (by omega) node fmt,
      fun ha => show travTests s d a 4 sphereTest = _ from travTests_walks hd (by omega) node fmt⟩
  · have ok : (decide (d.toNat ≤ 25) && decide (a.toNat ≤ 22)) = true := by rw [decide_eq_true hd, decide_eq_true ha]; rfl
    intro r
    refine ⟨fun miss => show execTTri d a b j s = _ from travNode_walks_of_eq ok node fmt ?_, fun tt b1 b2 hit => ?_⟩
    · dsimp only
      split
      · rfl
      · rw [show triHit _ _ = none from (if_neg ‹_›).symm.trans miss]
    · intro old id inst first
      refine show execTTri d a b j s = _ from travNode_walks_of_eq ok node fmt ?_
      dsimp only
      split
      · exact nomatch (if_pos ‹_›).symm.trans hit
      · rw [show triHit _ _ = _ from (if_neg ‹_›).symm.trans hit]
  · have ok : (decide (d.toNat ≤ 28) && srcOk a 4) = true := by rw [decide_eq_true hd, srcOk_eq_true (by omega)]; rfl
    exact ⟨fun empty => show execTSphd d a j s = _ from travNode_walks_of_eq ok node fmt (if_pos empty),
      fun full => show execTSphd d a j s = _ from travNode_walks_of_eq ok node fmt (if_neg (by rw [full]; exact Bool.false_ne_true))⟩
  · exact show execTKcmp8 d a k s = _ from travNode_walks (dstOk_eq_true (by omega)) node fmt
  · exact vdist_waits hd ha node legal graph query high low
  · refine ⟨show execTNdec d b w s = _ from travNdec_of_none (by omega) node,
      show execTNdecX ⟨d, a, b⟩ s = _ from travNdec_of_none (d := d) (by omega) node,
      fun j => show execTNqbx d j s = _ from travNode_of_none (dstOk_eq_true (by omega)) node,
      show travTests s d a 8 boxTest = _ from travNode_of_none (testsOk (by omega) (by omega)) node,
      show travTests s d a 4 sphereTest = _ from travNode_of_none (testsOk (by omega) (by omega)) node, fun j => ⟨?_, ?_, ?_⟩⟩
    · refine show execTTri d a b j s = _ from travNode_of_none ?_ node
      rw [decide_eq_true (by omega), decide_eq_true ha]; rfl
    · refine show execTSphd d a j s = _ from travNode_of_none ?_ node
      rw [decide_eq_true (by omega), srcOk_eq_true (by omega)]; rfl
    · exact show execTKcmp8 d a j s = _ from travNode_of_none (dstOk_eq_true (by omega)) node

/-- Settles O52: NFCH's pair and target choose its end; the other forms have a node of their format, or none. -/
theorem nodeAccess : Obligations.NodeAccess :=
  ⟨nodeFetchForm, nodeForms⟩

end Sys2Proof.Proofs

/-! What traversal threads wait for, and the rakes' other steps (13 R328, R331, R340 to R342, R351 to R362, R367). -/

namespace Sys2Proof.Proofs

-- One proof at a time, as in the tests: each proof under way at once takes a thread's stack out of the check's memory.
set_option Elab.async false

open Sys2Proof.Machine Sys2Proof.Claim

/-! ### The waits of a thread -/

theorem bind_of_ok {ε α β : Type} {x : Except ε α} {a : α} {f : α → Except ε β} {r : Except ε β} (hx : x = .ok a) (hf : f a = r) :
    (x >>= f) = r := by
  subst hx
  exact hf

section
variable {s : State} {c n : Nat}

theorem runThread_of_ok {body : Thread → Except TStop State} {u : State} (hb : body (s.thread c n) = .ok u) :
    s.runThread c n body = .next u :=
  congrArg (fun r => Host.Outcome.next (s.threadDone c n r)) hb

theorem nodeFetch_own {a : Nat} (wait : (s.thread c n).wait = .node true a)
    (own : s.ownsSpan (a / 2 ^ 18) (s.thread c n).asid (a % 2 ^ 18) 128 = true) :
    Becomes (.evNodeFetchComplete c n) s (s.putNode c n (mbytes s.mem (localBase (a / 2 ^ 18) + a % 2 ^ 18) 128)) := by
  refine show execEvNodeFetchComplete c n s = _ from runThread_of_ok ?_
  simp only [wait, own, if_true]

theorem nodeFetch_global {a : Nat} {u : State} {bs : List Byte} (wait : (s.thread c n).wait = .node false a)
    (read : s.threadLoad c n (s.thread c n).asid a 128 = .ok (u, bs)) :
    Becomes (.evNodeFetchComplete c n) s (u.putNode c n bs) := by
  refine show execEvNodeFetchComplete c n s = _ from runThread_of_ok ?_
  simp only [wait, read]
  rfl

theorem vectorRead_completes {d a b : Nat} {u v : State} {q x : List Byte} (wait : (s.thread c n).wait = .vector d a b) :
    let t := s.thread c n
    let w := t.wr b
    let len := bits w 0 12 * (vdistFmt w).2
    let ws := t.node.getD []
    s.threadLoad c n t.asid ((t.wr a).toNat + bits (t.wr (a + 1)) 0 20 * 2 ^ 32) len = .ok (u, q) →
    u.threadLoad c n t.asid ((ws.getD 1 0).toNat + bits (ws.getD 2 0) 0 20 * 2 ^ 32) len = .ok (v, x) →
    Becomes (.evVectorReadComplete c n) s ((v.modThread c n fun t => t.setW d (vdist w q x)).goNext c n) := by
  intro t w len ws query vector
  refine show execEvVectorReadComplete c n s = _ from runThread_of_ok ?_
  simp only [wait]
  exact bind_of_ok query (bind_of_ok vector rfl)

theorem stackReload_completes {d : Nat} {stkq : Bool} {u : State} {es : List Nat} {v : Thread}
    (wait : (s.thread c n).wait = .reload d stkq)
    (read : s.spilled c n (s.thread c n) ((s.thread c n).spb - 1) 1 = .ok (u, es))
    (hv : v = if stkq then ((s.thread c n).setW d (w32 (es.getD 3 0 / 2 ^ 46 * 2 ^ 14))).setEmpty false
      else (((s.thread c n).setStack (es.reverse.map (·, false))).setSpb ((s.thread c n).spb - 1)).popNow d) :
    Becomes (.evStackReloadComplete c n) s ((u.modThread c n fun _ => v).goNext c n) := by
  refine show execEvStackReloadComplete c n s = _ from runThread_of_ok ?_
  simp only [wait, read, hv]
  rfl

theorem stackRestore_completes {u : State} {es : List Nat} (wait : (s.thread c n).wait = .restore)
    (inPlace : (s.thread c n).inPlace = true)
    (read : s.spilled c n (s.thread c n) (s.thread c n).spb (((s.thread c n).depth + 3) / 4) = .ok (u, es)) :
    Becomes (.evStackReloadComplete c n) s (u.modThread c n fun t =>
      { t with stack := (es.take t.depth).reverse.map (·, false), wait := .ready }) := by
  refine show execEvStackReloadComplete c n s = _ from runThread_of_ok ?_
  simp only [wait, read, inPlace, if_true]
  rfl

theorem stackEntry_own {i e : Nat} (entry : (s.thread c n).stack[i]? = some (e, false)) (near : bitAt e 45 = true) :
    Becomes (.evStackEntryReady c n i) s (s.modThread c n fun t => { t with stack := t.stack.set i (e, true) }) := by
  show execEvStackEntryReady c n i s = _
  simp only [execEvStackEntryReady, entry, near, if_true]

theorem stackEntry_global {i e k : Nat} {u : State} (entry : (s.thread c n).stack[i]? = some (e, false))
    (far : bitAt e 45 = false) (walk : s.translateNow (s.thread c n).asid (e % 2 ^ 45 * 128) .load = (u, .ok k))
    (dram : k < 2 ^ 52) :
    Becomes (.evStackEntryReady c n i) s ((u.dcacheFor (k / 256) 0 false).modThread c n fun t =>
      { t with stack := t.stack.set i (e, true) }) := by
  show execEvStackEntryReady c n i s = _
  simp only [execEvStackEntryReady, entry, far, walk, dram, if_true]
  rfl

/-! ### The stores of a thread -/

variable {u v : State}

theorem emitsOver_of_busy (busy : (u.thread c n).emits ≠ 0) : u.emitsOver c n = u := if_pos busy

theorem emitsOver_of_stays (idle : (u.thread c n).emits = 0)
    (stays : ∀ a h d o, (u.thread c n).wait ≠ .migrating a h d false o) : u.emitsOver c n = u.tryFinish c n := by
  refine (if_neg (not_not.2 idle)).trans ?_
  split
  next a h d o wait => exact absurd wait (stays a h d o)
  next => rfl

theorem emitsOver_of_migrating {a : Bool} {h d : Nat} {o : Option (Nat × Nat)} (idle : (u.thread c n).emits = 0)
    (wait : (u.thread c n).wait = .migrating a h d false o) (sent : u.sendContext c n = .ok v) : u.emitsOver c n = v := by
  refine (if_neg (not_not.2 idle)).trans ?_
  simp only [wait, sent]
  rfl

/-- With `u` left by its last store, a thread goes on to its end, sends its context, or waits for its other stores. -/
theorem emitAcknowledge_goesOn (step : exec (.evEmitAcknowledge c n) s = .next (u.emitsOver c n)) :
    ((u.thread c n).emits ≠ 0 → Becomes (.evEmitAcknowledge c n) s u) ∧
    ((u.thread c n).emits = 0 →
      ((∀ a h d o, (u.thread c n).wait ≠ .migrating a h d false o) → Becomes (.evEmitAcknowledge c n) s (u.tryFinish c n)) ∧
      ∀ a h d o v, (u.thread c n).wait = .migrating a h d false o → u.sendContext c n = .ok v →
        Becomes (.evEmitAcknowledge c n) s v) := by
  refine ⟨fun busy => ?_, fun idle => ⟨fun stays => ?_, fun a h d o v wait sent => ?_⟩⟩
  · exact step.trans (congrArg _ (emitsOver_of_busy busy))
  · exact step.trans (congrArg _ (emitsOver_of_stays idle stays))
  · exact step.trans (congrArg _ (emitsOver_of_migrating idle wait sent))

theorem emitAcknowledge_of_none (last : s.emitOf c n = none) : exec (.evEmitAcknowledge c n) s = .next (s.emitsOver c n) := by
  show execEvEmitAcknowledge c n s = _
  rw [execEvEmitAcknowledge, last]

theorem emitAcknowledge_of_some {f : Flight} {k : Nat} {bs : List Byte} (store : s.emitOf c n = some (f, k, bs))
    (free : s.unitWaits k = false) : exec (.evEmitAcknowledge c n) s = .next ((((s.dropFlight f.id).threadStore f.asid k bs).modThread
      c n fun t => { t with emits := t.emits - 1 }).emitsOver c n) := by
  show execEvEmitAcknowledge c n s = _
  rw [execEvEmitAcknowledge, store]
  simp only [free]
  rfl

end

theorem threadWaitEvents : ThreadWaitEvents := by
  unfold ThreadWaitEvents
  intro s c n t
  refine ⟨fun a wait own => nodeFetch_own wait own, fun a u bs wait read => nodeFetch_global wait read,
    fun d a b u v q x wait => vectorRead_completes wait, fun d u es wait read => stackReload_completes wait read rfl,
    fun d u es wait read => stackReload_completes wait read rfl, fun u es wait here read => stackRestore_completes wait here read,
    fun i e entry near => stackEntry_own entry near, fun i e u k entry far walk dram => stackEntry_global entry far walk dram, ?_⟩
  intro goesOn
  exact ⟨fun last => emitAcknowledge_goesOn (emitAcknowledge_of_none last),
    fun f k bs store free => emitAcknowledge_goesOn (emitAcknowledge_of_some store free)⟩

/-! ### Slots -/

section
variable {s : State} {c n : Nat}

/-- The slot that is filled is the first that is free (R328). -/
theorem freeThread_eq_some (hn : n < 32) (free : (tget {} (s.rake c).threads n).used = false)
    (taken : ∀ i < n, (tget {} (s.rake c).threads i).used = true) :
    ((List.range 32).find? fun i => !(tget {} (s.rake c).threads i).used) = some n :=
  List.find?_range_eq_some.2 ⟨by simp [free], by simpa using hn, fun i hi => by simp [taken i hi]⟩

variable (slot : ((List.range 32).find? fun i => !(tget {} (s.rake c).threads i).used) = some n)
include slot

theorem slotFill_inbound {x : Inbound} (next : (s.rake c).nextInbound = some x)
    (turn : (s.rake c).nextLocal = none ∨ (s.rake c).lastInbound = false) :
    Becomes (.evThreadSlotFill c) s (s.startInbound c n x) := by
  show execEvThreadSlotFill c s = _
  simp only [execEvThreadSlotFill, slot, next]
  rcases turn with none | first
  · rw [none]
  · split <;> simp_all

theorem slotFill_local {e : Nat} (next : (s.rake c).nextLocal = some e)
    (turn : (s.rake c).nextInbound = none ∨ (s.rake c).lastInbound = true) :
    Becomes (.evThreadSlotFill c) s (s.startLocal c n e) := by
  show execEvThreadSlotFill c s = _
  simp only [execEvThreadSlotFill, slot, next]
  rcases turn with none | second
  · rw [none]
  · split <;> simp_all

end

/-! ### Contexts that come -/

/-- What a message from a peer does on its way in: it takes the next number, which is acknowledged (18 R439). -/
def fromLink (s : State) (f : Flight) : State :=
  if toPeer f.src then s.modPeer (f.src - nodePeer 0) fun p =>
    { p with recvSeq := (p.recvSeq + 1) % 2 ^ 32, acks := p.acks ++ [p.recvSeq] } else s

section
variable {s : State} {f : Flight}

theorem fromLink_rake (c : Nat) : (fromLink s f).rake c = s.rake c := by unfold fromLink; split <;> rfl

theorem fromLink_threadKilled (w : Word) : (fromLink s f).threadKilled w = s.threadKilled w := by unfold fromLink; split <;> rfl

theorem overLink_of_here (here : toPeer f.dst = false) (up : toPeer f.src = true → s.portUp (f.src - nodePeer 0) = true) :
    s.overLink f = some (fromLink s f) := by
  unfold State.overLink fromLink
  cases hs : toPeer f.src
  · simp [here]
  · simp [here, up hs]

theorem overLink_of_down (here : toPeer f.dst = false) (peer : toPeer f.src = true)
    (down : s.portUp (f.src - nodePeer 0) = false) : s.overLink f = none := by
  simp [State.overLink, here, peer, down]

theorem overLink_out_waits (out : toPeer f.dst = true)
    (wait : (s.peer (f.dst - nodePeer 0)).held = true ∨ s.portUp (f.dst - nodePeer 0) = false) : s.overLink f = none := by
  rcases wait with held | down <;> simp [State.overLink, *]

theorem overLink_out (out : toPeer f.dst = true) (free : (s.peer (f.dst - nodePeer 0)).held = false)
    (up : s.portUp (f.dst - nodePeer 0) = true) : s.overLink f =
      some (s.modPeer (f.dst - nodePeer 0) fun p => { p with nextSeq := (p.nextSeq + 1) % 2 ^ 32 }) := by
  simp [State.overLink, out, free, up]

variable {x : Inbound} {n : Nat} {retry : Bool}

theorem contextComes_here (here : toPeer f.dst = false) (up : toPeer f.src = true → s.portUp (f.src - nodePeer 0) = true) :
    s.contextComes f x n retry = (fromLink s f).arriveContext f x n retry := by
  simp [State.contextComes, here, overLink_of_here here up]

theorem contextComes_of_waits (wait : s.overLink f = none)
    (kept : toPeer f.dst = false ∨ (s.peer (f.dst - nodePeer 0)).held = true ∨ s.hasPath (f.dst - nodePeer 0) = true) :
    s.contextComes f x n retry = s := by
  rcases kept with here | held | path <;> simp [State.contextComes, *]

theorem contextComes_of_no_path (out : toPeer f.dst = true) (free : (s.peer (f.dst - nodePeer 0)).held = false)
    (lost : s.hasPath (f.dst - nodePeer 0) = false) : s.contextComes f x n retry = s.noKernel f x n := by
  simp [State.contextComes, out, free, lost]

theorem contextComes_out (out : toPeer f.dst = true) (free : (s.peer (f.dst - nodePeer 0)).held = false)
    (path : s.hasPath (f.dst - nodePeer 0) = true) (up : s.portUp (f.dst - nodePeer 0) = true) :
    s.contextComes f x n retry =
      (s.modPeer (f.dst - nodePeer 0) fun p => { p with nextSeq := (p.nextSeq + 1) % 2 ^ 32 }).arriveContext f x n retry := by
  simp [State.contextComes, out, free, path, overLink_out out free up]

/-! ### Admission at a rake -/

theorem reqs_modThread (c t : Nat) (g : Thread → Thread) (k : Nat) : ((s.modThread c t g).rake k).reqs = (s.rake k).reqs := by
  simp only [State.modThread, State.modRake, State.modCore, State.rake, State.core, tget_tset]
  split
  · subst_vars; rfl
  · rfl

/-- Freeing the sender's slot leaves every request entry. -/
theorem threadKilled_freeSender (w : Word) : (s.freeSender f n).threadKilled w = s.threadKilled w := by
  unfold State.freeSender
  dsimp only
  split
  · unfold State.threadKilled
    rw [reqs_modThread]
    rfl
  · rfl

theorem arriveContext_admits (rake : nodeRake 0 ≤ f.dst) (alive : s.threadKilled (x.w.getD 31 0) = false)
    (kernel : ((s.rake (f.dst - nodeRake 0)).kernel x.asid (bits (x.w.getD 31 0) 9 4)).isSome = true)
    (room : (s.rake (f.dst - nodeRake 0)).inbound.length < 16) (first : (s.rake (f.dst - nodeRake 0)).refused = []) :
    s.arriveContext f x n retry =
      (s.freeSender f n).modRake (f.dst - nodeRake 0) fun r => { r with inbound := r.inbound ++ [x] } := by
  have known : ((s.rake (f.dst - nodeRake 0)).kernel x.asid (bits (x.w.getD 31 0) 9 4)).isNone = false := by
    rw [← Option.not_isSome, kernel]; rfl
  simp only [State.arriveContext, if_pos rake, known, room, first, threadKilled_freeSender, alive, Bool.false_eq_true, if_false,
    List.isEmpty_nil, Bool.or_true, and_self, if_true]

/-! ### The device steps -/

variable (due : Due s f) (hp : f.pkt = .inbound x n)
include due hp

theorem onContext_of_due (g : Flight → Inbound → Nat → State) : s.onContext f.id g = .next (g f x n) := by
  simp only [State.onContext, due.under, hp, due.first, if_true]

theorem inboundArrival_comes (new : (s.rake (f.dst - nodeRake 0)).refused.contains f.id = false)
    (fresh : s.refusedSince f n = none) {u : State} (come : s.contextComes f x n false = u) :
    Becomes (.evInboundContextArrival f.id) s u := by
  show execEvInboundContextArrival f.id s = _
  rw [execEvInboundContextArrival, onContext_of_due due hp, new, fresh, ← come]
  rfl

theorem inboundArrival_admits (rake : nodeRake 0 ≤ f.dst) (up : toPeer f.src = true → s.portUp (f.src - nodePeer 0) = true)
    (alive : s.threadKilled (x.w.getD 31 0) = false)
    (kernel : ((s.rake (f.dst - nodeRake 0)).kernel x.asid (bits (x.w.getD 31 0) 9 4)).isSome = true)
    (room : (s.rake (f.dst - nodeRake 0)).inbound.length < 16) (first : (s.rake (f.dst - nodeRake 0)).refused = [])
    (fresh : s.refusedSince f n = none) : Becomes (.evInboundContextArrival f.id) s
      (((fromLink s f).freeSender f n).modRake (f.dst - nodeRake 0) fun r => { r with inbound := r.inbound ++ [x] }) := by
  have here : toPeer f.dst = false := toPeer_eq_false fun h => absurd rake (Nat.not_le.2 (h.2.trans (by decide)))
  refine inboundArrival_comes due hp (by simp [first]) fresh ?_
  rw [contextComes_here here up, arriveContext_admits rake] <;>
    simpa only [fromLink_rake, fromLink_threadKilled]

theorem migrationRetry_comes (rake : nodeRake 0 ≤ f.dst) (up : toPeer f.src = true → s.portUp (f.src - nodePeer 0) = true)
    (room : (s.rake (f.dst - nodeRake 0)).inbound.length < 16)
    (oldest : (s.rake (f.dst - nodeRake 0)).refused.head? = some f.id)
    (refused : f.fromRake = true → s.refusedSince f n ≠ none)
    (inTime : ∀ since, s.refusedSince f n = some since → since.2 + 64 ≤ s.cycle.toNat ∧ s.cycle.toNat < since.1 + 2048) :
    Becomes (.evMigrationRetry f.id) s ((fromLink (s.modRake (f.dst - nodeRake 0) fun r =>
      { r with refused := r.refused.filter (· != f.id) }) f).arriveContext f x n true) := by
  have here : toPeer f.dst = false := toPeer_eq_false fun h => absurd rake (Nat.not_le.2 (h.2.trans (by decide)))
  have early : (s.refusedSince f n).any (fun p => decide (p.1 + 2048 ≤ s.cycle.toNat)) = false := by
    rw [Option.any_eq_false]
    intro p hp
    have := inTime p hp
    rw [decide_eq_false_iff_not]; omega
  have waited : (s.refusedSince f n).any (fun p => decide (s.cycle.toNat < p.2 + 64)) = false := by
    rw [Option.any_eq_false]
    intro p hp
    have := inTime p hp
    rw [decide_eq_false_iff_not]; omega
  have known : (f.fromRake && (s.refusedSince f n).isNone) = false := by
    rw [Bool.and_eq_false_iff, ← Option.not_isSome, Bool.not_eq_false', Option.isSome_iff_ne_none]
    exact (Bool.eq_false_or_eq_true f.fromRake).symm.imp id refused
  have link : (toPeer f.src && !s.portUp (f.src - nodePeer 0)) = false := by
    rw [Bool.and_eq_false_iff, Bool.not_eq_false']
    exact (Bool.eq_false_or_eq_true (toPeer f.src)).symm.imp id up
  show execEvMigrationRetry f.id s = _
  rw [execEvMigrationRetry, onContext_of_due due hp]
  simp only [early, waited, known, link, oldest, Nat.not_le.2 room, Bool.false_eq_true, if_false, Bool.or_false, bne_self_eq_false,
    decide_false, Bool.and_false]
  exact congrArg _ (contextComes_here here up)

end

section
variable {s : State} {f : Flight} {x : Inbound} {n : Nat}

theorem migrationRefusalLimit_abandons (under : s.flight? f.id = some f) (hp : f.pkt = .inbound x n) {since : Nat × Nat}
    (refused : s.refusedSince f n = some since) (late : since.1 + 2048 ≤ s.cycle.toNat) :
    Becomes (.evMigrationRefusalLimit f.id) s ((s.modRake (f.dst - nodeRake 0) fun r =>
      { r with refused := r.refused.filter (· != f.id) }).noKernel f x n) := by
  show execEvMigrationRefusalLimit f.id s = _
  simp only [execEvMigrationRefusalLimit, under, hp, refused, if_neg (Nat.not_lt.2 late)]

end

/-! ### Completions -/

/-- A core or a rake is no peer. -/
theorem toPeer_dst {n : Nat} (near : n < 256 ∨ nodeRake 0 ≤ n) : toPeer n = false :=
  toPeer_eq_false fun h => by unfold nodePeer at h; unfold nodeRake at near; omega

theorem toPeer_of_nodePeer {n p : Nat} (eq : n = nodePeer p) (inside : p ≤ 7) : toPeer n = true ∧ n - nodePeer 0 = p := by
  subst eq
  constructor
  · rw [toPeer, Bool.and_eq_true]
    exact ⟨decide_eq_true (by unfold nodePeer; omega), decide_eq_true (by unfold nodePeer; omega)⟩
  · unfold nodePeer; omega

section
variable {s u : State} {f : Flight} {d : TDone} (due : Due s f) (hp : f.pkt = .tdone d) (near : f.dst < 256 ∨ nodeRake 0 ≤ f.dst)
include due hp near

theorem completion_reaches {v : State} (come : (s.dropFlight f.id).overLink f = some v)
    (used : (tget ({} : TReq) (v.rake (if f.dst < 256 then f.dst else f.dst - nodeRake 0)).reqs d.rqe).used = true)
    (own : (tget ({} : TReq) (v.rake (if f.dst < 256 then f.dst else f.dst - nodeRake 0)).reqs d.rqe).asid = f.asid)
    (free : (tget ({} : TReq) (v.rake (if f.dst < 256 then f.dst else f.dst - nodeRake 0)).reqs d.rqe).held = none)
    (delivered : v.deliver (if f.dst < 256 then f.dst else f.dst - nodeRake 0) d.rqe d.words d.status = some u) :
    Becomes (.evTraversalCompletion f.id) s u := by
  have here := toPeer_dst near
  show execEvTraversalCompletion f.id s = _
  simp only [execEvTraversalCompletion, due.under, here, Bool.false_eq_true, if_false]
  refine onFlight_of_due due ?_
  simp only [hp, come, Option.bind_some, used, own, free, delivered, Bool.not_true, bne_self_eq_false, Option.isSome_none,
    Bool.or_self, Bool.false_eq_true, if_false]

theorem completion_waits (peer : toPeer f.src = true) (down : (s.dropFlight f.id).portUp (f.src - nodePeer 0) = false) :
    Becomes (.evTraversalCompletion f.id) s s := by
  have here := toPeer_dst near
  show execEvTraversalCompletion f.id s = _
  simp only [execEvTraversalCompletion, due.under, here, Bool.false_eq_true, if_false, State.onFlight, due.first, hp, if_true,
    overLink_of_down here peer down, Option.bind_none, Option.getD_none]

end

section
variable {s : State} {f : Flight} {t d kid o n addr c : Nat} (due : Due s f) (hp : f.pkt = .kload t d kid o n addr c)
  (known : s.waitsReplay (.flight f.id) = false) {x : Nat × Nat × Nat × Nat}
  (region : (s.rake c).regions.find? (fun x => x.2.1 == f.asid) = some x)
include due hp known region

theorem kernelLoad_outside (out : x.2.2.2 < o + n) : Becomes (.evKernelLoadRequest f.id) s (s.loadDone f c t d kid 2) := by
  show execEvKernelLoadRequest f.id s = _
  simp [execEvKernelLoadRequest, due.under, hp, due.first, known, region, out]

theorem kernelLoad_live (inside : o + n ≤ x.2.2.2) (live : (s.rake c).kernelLive f.asid kid = true) :
    Becomes (.evKernelLoadRequest f.id) s (s.loadDone f c t d kid 1) := by
  show execEvKernelLoadRequest f.id s = _
  simp [execEvKernelLoadRequest, due.under, hp, due.first, known, region, Nat.not_lt.2 inside, live]

theorem kernelLoad_loads (inside : o + n ≤ x.2.2.2) (idle : (s.rake c).kernelLive f.asid kid = false) {v : State} {bs : List Byte}
    (load : (s.modRake c fun r =>
      { r with kernels := r.kernels.filter fun k => !(k.1 == f.asid && k.2.1 == kid),
               loading := (f.asid, kid) :: r.loading.filter (· != (f.asid, kid)) }).rakeLoad f.asid addr (4 * n) = .ok (v, bs)) :
    Becomes (.evKernelLoadRequest f.id) s ((v.modRake c fun r =>
      { r with program := (List.range n).foldl (fun p i => tset p (x.2.2.1 + o + i) (wordAt bs i)) r.program,
               kernels := r.kernels ++ [(f.asid, kid, o, n)] }).loadDone f c t d kid 0) := by
  show execEvKernelLoadRequest f.id s = _
  simp only [execEvKernelLoadRequest, due.under, hp, due.first, known, region, Option.map_some, Option.getD_some,
    Nat.not_lt.2 inside, idle, Bool.not_true, Bool.or_self, Bool.false_eq_true, if_false, load]

end

theorem rakeEvents : RakeEvents := by
  refine ⟨fun s c n inside free first => ⟨fun x next turn => ?_, fun e next turn => ?_⟩, fun s f x n due hp => ?_,
    fun s u f d due hp near used own free => ?_, fun s f t d kid o n addr c due hp known x region => ?_⟩
  · exact slotFill_inbound (freeThread_eq_some inside free first) next turn
  · exact slotFill_local (freeThread_eq_some inside free first) next turn
  · refine ⟨fun new fresh => ⟨fun here up => ?_, fun here peer down => ?_, fun out => ⟨fun wait => ?_, fun free lost => ?_,
      fun free path up => ?_⟩⟩, fun rake up alive kernel room => ⟨fun first fresh => ?_, fun oldest refused inTime => ?_⟩,
      fun since refused late => migrationRefusalLimit_abandons due.under hp refused late⟩
    · exact inboundArrival_comes due hp new fresh (contextComes_here here up)
    · exact inboundArrival_comes due hp new fresh (contextComes_of_waits (overLink_of_down here peer down) (.inl here))
    · exact inboundArrival_comes due hp new fresh (contextComes_of_waits (overLink_out_waits out (wait.imp_right And.right))
        (.inr (wait.imp_right And.left)))
    · exact inboundArrival_comes due hp new fresh (contextComes_of_no_path out free lost)
    · exact inboundArrival_comes due hp new fresh (contextComes_out out free path up)
    · exact inboundArrival_admits due hp rake up alive kernel room first fresh
    · exact migrationRetry_comes due hp rake up room oldest refused inTime
  · refine ⟨fun far delivered => ?_, fun p src inside => ⟨fun up delivered => ?_, fun down => ?_⟩⟩
    · have src : toPeer f.src = false := toPeer_eq_false fun h => by omega
      exact completion_reaches due hp near ((overLink_of_here (toPeer_dst near) fun h => absurd h (by simp [src])).trans
        (congrArg _ (by simp [fromLink, src]))) used own free delivered
    · obtain ⟨peer, sub⟩ := toPeer_of_nodePeer src inside
      have come := overLink_of_here (toPeer_dst near) fun _ => sub ▸ up
      rw [fromLink, if_pos peer, sub] at come
      exact completion_reaches due hp near come used own free delivered
    · obtain ⟨peer, sub⟩ := toPeer_of_nodePeer src inside
      exact completion_waits due hp near peer (sub ▸ down)
  · exact ⟨kernelLoad_outside due hp known region, fun inside live => kernelLoad_live due hp known region inside live,
      fun inside idle v bs load => kernelLoad_loads due hp known region inside idle load⟩

/-- Settles O57: each wait's step reads what the thread waits for and lets it go on; each rake step follows its message. -/
theorem traversalDeviceEvents : Obligations.TraversalDeviceEvents := ⟨threadWaitEvents, rakeEvents⟩

end Sys2Proof.Proofs

/-! Forms whose members each send a request: PLARM, PLBIT, PLCOM, PLQRY and PLDIS (14 R386, R387), TRPIN, TRUNP and TRPUB (14 R377,
R380); and TRQ, TRPOLL, TRKILL and TRLOAD (13 R359 to R367); of a slice by itself with a lane active. -/

namespace Sys2Proof.Proofs

-- One proof at a time, as in the tests: each proof under way at once takes a thread's stack out of the check's memory.
set_option Elab.async false

open Sys2Proof.Machine Sys2Proof.Claim

/-! ### The frame of a request -/

section
variable {s : State} {c t : Nat} {g : BitVec 4} {srcs : List (Nat × Nat)}

/-- The only member that takes part passes its check. -/
theorem checkMembers_of_none {chk : Slice → Option (Nat × Nat)} (acts : Acts s c t g srcs)
    (clean : chk ((begun s c t).slice c t) = none) : (begun s c t).checkMembers g chk = .ok () := by
  rw [State.checkMembers, taking_begun acts, begun_core acts.solo]
  simp only [List.filter_cons, clean, Option.isSome_none, Bool.false_eq_true, if_false, List.filter_nil]

/-- A form that reads no record meets no watchpoint. -/
theorem watchSpans_noRecord (u : State) (g : BitVec 4) (t : Nat) : u.watchSpans g [(t, 0, 0)] = .ok () := rfl

variable {h : Head} {rel : Bool} {chk : Slice → Option (Nat × Nat)} {rec : Slice → Nat × Nat} {send : State → Nat → State}

/-- A member whose check, record and release allow it sends its request and moves on (R380, R387). -/
theorem requestForm_sends (acts : Acts s c t g h.srcs) (ok : h.ok = true) (clean : chk ((begun s c t).slice c t) = none)
    (watched : (begun s c t).watchSpans g [(t, rec ((begun s c t).slice c t))] = .ok ())
    (ready : rel = true → (begun s c t).releaseReady c t 4 = true) (rdv : h.rdv = false := by rfl) (priv : h.priv = false := by rfl)
    (adv : h.adv = true := by rfl) :
    requestForm h g rel s chk rec send = .next ((send (begun s c t) t).advanceAll h.len) := by
  refine (gangwise_of_acts (h := { h with mem := true }) (u := send (begun s c t) t) acts ?_ ok rdv priv).trans
    (congrArg _ (if_pos adv))
  simp only [checkMembers_of_none acts clean, taking_begun acts, begun_core acts.solo, List.map_cons, List.map_nil, watched,
    List.foldl_cons, List.foldl_nil]
  cases rel
  · rfl
  · simp only [releaseGang_of_ready acts.solo (ready rfl)]
    rfl

end

/-! ### Plans -/

section
variable {s : State} {c t : Nat}

/-- A legal record that no watchpoint meets leaves for the commit unit (R387). -/
theorem planForm_sends {f : R3} {n : Nat} {com : Bool} {req : Nat → Nat → Nat → List Byte → PlanReq}
    (acts : Acts s c t f.g ((1, f.a.toNat) :: sbSrc f.b f.x)) (ok : (sOk f.d && sOk f.a && sbOk f.b f.x) = true)
    (ready : (begun s c t).releaseReady c t 4 = true)
    (clean : (begun s c t).planFault ((begun s c t).slice c t) (((begun s c t).slice c t).sr f.a.toNat).toNat
      (((begun s c t).slice c t).uniform f.b f.x).toNat n com = none)
    (watched : (begun s c t).watchSpans f.g [(t, (((begun s c t).slice c t).uniform f.b f.x).toNat, n)] = .ok ()) :
    let u := begun s c t
    let o := u.unitOp t f.d.toNat 1
    planForm f n com s req = .next (((u.openOp o).send c nodePlan o.asid (some o.id) (.plan ((u.slice c t).sr f.a.toNat).toNat
      (req o.id t f.d.toNat (u.planRecord (u.slice c t) ((u.slice c t).uniform f.b f.x).toNat n)))).advanceAll 4) := by
  intro u o
  unfold planForm
  refine Eq.trans (requestForm_sends acts ok clean watched fun _ => ready) ?_
  simp only [begun_core acts.solo]
  rfl

/-- A form that reads no record asks the commit unit (R387). -/
theorem planAsk_asks {f : R2} {n : Nat} {req : Nat → Nat → Nat → PlanReq} (acts : Acts s c t f.g [(1, f.a.toNat)])
    (ok : (sOk f.d && sOk f.a && alignOk f.d n) = true)
    (clean : (begun s c t).planFault ((begun s c t).slice c t) (((begun s c t).slice c t).sr f.a.toNat).toNat 0 0 false = none) :
    let u := begun s c t
    let o := u.unitOp t f.d.toNat n
    planAsk f n s req = .next (((u.openOp o).send c nodePlan o.asid (some o.id) (.plan ((u.slice c t).sr f.a.toNat).toNat
      (req o.id t f.d.toNat))).advanceAll 4) := by
  intro u o
  unfold planAsk
  refine Eq.trans (requestForm_sends acts ok clean (watchSpans_noRecord ..) nofun) ?_
  simp only [begun_core acts.solo]
  rfl

end

/-- Settles O3: a legal record, or none, leaves with the request for the commit unit. -/
theorem planForms : Obligations.PlanForms := by
  refine ⟨fun f s c t acts ok => ?_, fun f s c t acts ok => ?_⟩
  · intro u x slot off o sent unwatched ready
    exact ⟨fun clean watched => planForm_sends acts ok ready clean watched,
      fun clean watched => planForm_sends acts ok ready clean watched,
      fun clean watched => planForm_sends acts ok ready clean watched⟩
  · intro u x slot inside assigned own o4 o1
    have clean : u.planFault x slot 0 0 false = none := by
      simp [State.planFault, Nat.not_lt.2 (Nat.le_of_lt_succ inside), assigned, own]
    exact ⟨fun aligned => planAsk_asks acts (by rw [ok, alignOk, aligned]; rfl) clean,
      planAsk_asks acts (by rw [ok, alignOk, Nat.mod_one]; rfl) clean⟩

/-! ### Structures -/

section
variable {s : State} {c t : Nat} {g : BitVec 4} {d a b : BitVec 6}

/-- A value within its field that names a structure of the context is legal (R377). -/
theorem structFault_eq_none {x : Slice} {n v : Nat} (inside : v < n) (own : s.ownsStruct x.asid (v % 256) = true) :
    s.structFault x (v / n) (v % 2 ^ 8) v = none := by
  simp [State.structFault, Nat.div_eq_of_lt inside, own]

/-- Opening an operation for a member leaves its registers. -/
theorem sr_openOp_unitOp (u : State) (t d n a : Nat) :
    ((u.openOp (u.unitOp t d n)).slice u.issuer.core t).sr a = (u.slice u.issuer.core t).sr a := by
  simp only [State.openOp, State.unitOp, List.foldl_cons, List.foldl_nil, State.modSlice, State.slice_setSlice_self]
  rfl

theorem trpin_asks (acts : Acts s c t g [(1, a.toNat)]) (ok : (sOk d && sOk a && alignOk d 4) = true)
    (inside : (((begun s c t).slice c t).sr a.toNat).toNat < 256)
    (own : (begun s c t).ownsStruct ((begun s c t).slice c t).asid (((begun s c t).slice c t).sr a.toNat).toNat = true) :
    let u := begun s c t
    let o := u.unitOp t d.toNat 4
    exec (.trpin g d a) s = .next ((((u.openOp o).modSlice c t fun x => { x with acquires := x.acquires ++ [⟨o.id, true⟩] }).send c
      nodeTable o.asid (some o.id) (.table (.pin ((u.slice c t).sr a.toNat).toNat o.id t d.toNat))).advanceAll 8) := by
  intro u o
  show execTrpin g d a s = _
  unfold execTrpin
  refine Eq.trans (requestForm_sends acts ok ?_ (watchSpans_noRecord ..) nofun) ?_
  · exact structFault_eq_none inside ((Nat.mod_eq_of_lt inside).symm ▸ own)
  · simp only [begun_core acts.solo, State.modSlice, State.slice_setSlice_self]
    have kept := sr_openOp_unitOp u t d.toNat 4 a.toNat
    rw [begun_core acts.solo] at kept
    rw [← kept]
    rfl

theorem trunp_sends (acts : Acts s c t g [(1, a.toNat)]) (ok : sOk a = true)
    (inside : (((begun s c t).slice c t).sr a.toNat).toNat < 1024)
    (own : (begun s c t).ownsStruct ((begun s c t).slice c t).asid ((((begun s c t).slice c t).sr a.toNat).toNat % 256) = true) :
    let u := begun s c t
    let v := ((u.slice c t).sr a.toNat).toNat
    exec (.trunp g a) s =
      .next ((u.send c nodeTable (u.slice c t).asid none (.table (.unpin (v % 256) (v / 256)))).advanceAll 8) := by
  intro u v
  show execTrunp g a s = _
  unfold execTrunp
  refine Eq.trans (requestForm_sends acts ok ?_ (watchSpans_noRecord ..) nofun) ?_
  · exact structFault_eq_none inside own
  · have slot : v / 2 ^ 8 % 4 = v / 256 := Nat.mod_eq_of_lt (Nat.div_lt_of_lt_mul inside)
    simp only [begun_core acts.solo]
    rw [← slot]
    rfl

theorem trpub_asks {inv : BitVec 1} (acts : Acts s c t g ((1, a.toNat) :: group 1 b.toNat 2))
    (ok : (sOk d && sOk a && sOk b && alignOk d 2 && alignOk b 2) = true)
    (inside : (((begun s c t).slice c t).sr a.toNat).toNat < 256)
    (own : (begun s c t).ownsStruct ((begun s c t).slice c t).asid (((begun s c t).slice c t).sr a.toNat).toNat = true)
    (ready : (begun s c t).releaseReady c t 4 = true)
    (root : ((begun s c t).slice c t).spair b.toNat = 0 ∨
      pairFault (((begun s c t).slice c t).sr b.toNat) (((begun s c t).slice c t).sr (b.toNat + 1)) = none) :
    let u := begun s c t
    let x := u.slice c t
    let o := u.unitOp t d.toNat 2
    exec (.trpub g d a b inv) s = .next (((u.openOp o).send c nodeTable o.asid (some o.id)
      (.table (.publish (x.sr a.toNat).toNat o.id t d.toNat c (BitVec.ofNat 64 (x.spair b.toNat)) (inv == 1)))).advanceAll 8) := by
  intro u x o
  show execTrpub g d a b inv s = _
  unfold execTrpub
  refine Eq.trans (requestForm_sends acts ok ?_ (watchSpans_noRecord ..) fun _ => ready) ?_
  · dsimp only
    rw [show s.structFault ((begun s c t).slice c t) _ _ _ = none from
      structFault_eq_none (n := 2 ^ 8) inside ((Nat.mod_eq_of_lt inside).symm ▸ own)]
    rcases root with null | legal
    · exact if_pos null
    · simp only [legal, Option.map_none, ite_self]
  · simp only [begun_core acts.solo]
    rfl

end

/-! ### The rake, as its core sees it -/

section
variable {s : State} {c t : Nat} {g : BitVec 4}

theorem trpoll_reads {d : BitVec 6} (solo : Solo s c t []) (on : (s.slice c t).active g ≠ 0) (ok : sOk d = true) :
    let u := begun s c t
    let r := u.rake c
    exec (.trpoll g d) s = .next ((u.modSlice c t fun x => x.setS d.toNat
      (w32 (r.freeEntries.length + r.inUse * 2 ^ 16 + r.inbound.length * 2 ^ 22))).advanceAll 8) :=
  show execTrpoll g d s = _ from uniformly_of_solo (h := { len := 8, ok := sOk d }) solo on rfl (by rfl) ok

theorem trkill_marks {sc : BitVec 1} (solo : Solo s c t []) (on : (s.slice c t).active g ≠ 0) : exec (.trkill g sc) s =
    .next (((begun s c t).modRake c fun r => { r with reqs := r.reqs.map fun e =>
      (e.1, if e.2.ownedBy ((begun s c t).slice c t) t ||
          (sc == 1 && !(s.slice c t).handler && e.2.used && e.2.group == (s.slice c t).group)
        then { e.2 with kill := true } else e.2) }).advanceAll 8) := by
  refine show execTrkill g sc s = _ from (uniformly_of_solo (h := { len := 8 }) solo on rfl (by rfl)).trans ?_
  simp only [slice_begun]
  rfl

/-- Operands of TRLOAD within their fields name a rake of the context's (R367). -/
theorem trload_sends {d a b : BitVec 6} {k : BitVec 5} (acts : Acts s c t g (group 1 a.toNat 2 ++ [(1, b.toNat), (1, k.toNat)]))
    (ok : (sOk d && sOk a && sOk b && alignOk a 2) = true) {x : Slice} (hx : (begun s c t).slice c t = x)
    (kidHigh : bits (x.sr b.toNat) 4 4 = 0) (coreHigh : bits (x.sr b.toNat) 16 16 = 0) (firstHigh : bits (x.sr k.toNat) 12 4 = 0)
    (wordsHigh : bits (x.sr k.toNat) 28 4 = 0) (some : 0 < (loadArgs x a b k).words) (fits : (loadArgs x a b k).words ≤ 2048)
    (aligned : (loadArgs x a b k).image % 4 = 0) (reach : (begun s c t).reach x.asid (loadArgs x a b k).core = true)
    (room : x.count 4 < 255) (ready : (begun s c t).releaseReady c t 4 = true) :
    let u := begun s c t
    let l := loadArgs x a b k
    let o : Op := { u.unitOp t d.toNat 1 with code := Option.some 4 }
    exec (.trload g d a b k) s = .next (((u.openOp o).send c (nodeRake l.core) o.asid (Option.some o.id)
      (.kload t d.toNat l.kid l.first l.words l.image l.core)).advanceAll 8) := by
  intro u l o
  refine show execTrload g d a b k s = _ from gangwise_of_acts (h := { len := 8, mem := true, ok := _, srcs := _ }) acts ?_ ok
  simp only [taking_begun acts, begun_core acts.solo]
  rw [checkMembers_of_none acts]
  · simp [hx, Nat.not_le.2 room, releaseGang_of_ready acts.solo ready]
    rfl
  · rw [hx]
    simp [kidHigh, coreHigh, firstHigh, wordsHigh, Nat.ne_of_gt some, Nat.not_lt.2 fits, aligned, reach]

end

theorem traversalControlForms : TraversalControlForms := by
  refine ⟨fun g d sc s c t solo on => ⟨fun low => trpoll_reads solo on (sOk_eq_true low), trkill_marks solo on⟩,
    fun g d a b inv s c t acts ok => ?_, fun g d a b k s c t acts ok => ?_⟩
  · intro u x v
    have one : Acts s c t g [(1, a.toNat)] := acts_of_subset acts (by simp)
    obtain ⟨⟨okD, okA⟩, okB⟩ : (sOk d = true ∧ sOk a = true) ∧ sOk b = true := by simpa using ok
    refine ⟨fun inside own => ⟨fun aligned => trpin_asks one (by simp [okD, okA, alignOk, aligned]) inside own,
      fun evenD evenB ready root => trpub_asks acts (by simp [okD, okA, okB, alignOk, evenD, evenB]) inside own ready root⟩,
      fun inside own => trunp_sends one okA inside own⟩
  · intro u x l kidHigh coreHigh firstHigh wordsHigh some fits aligned reach room ready
    exact trload_sends acts ok rfl kidHigh coreHigh firstHigh wordsHigh some fits aligned reach room ready

/-! ### TRQ -/

/-- With a kernel loaded, room in the rake and in the counter, each lane's traversal starts (R359, R360). -/
theorem trq_starts {f : TrqF} {s u : State} {c t : Nat} {x : Slice}
    (acts : Acts s c t f.g (group 0 f.a.toNat 12 ++ group 1 f.sp.toNat 2 ++ if f.note = 1 then [(1, f.d.toNat)] else []))
    (ok : trqOk f = true) (hu : begun s c t = u) (hx : u.slice c t = x)
    (kernel : ((u.rake c).kernel x.asid f.kid.toNat).isSome = true) (stack : x.spair f.sp.toNat % 32 = 0)
    (own : u.ownsStruct x.asid f.struct.toNat = true) (entries : (x.lanes f.g).length ≤ (u.rake c).freeEntries.length)
    (room : f.mode = 0 → x.count 5 < 255) (ready : u.releaseReady c t 4 = true) :
    let o := u.openTrav f t
    let r := o.1.startMember f t o.2
    exec (.trq f) s = .next ((r.1.send c nodeTable x.asid none (.table (.pinLanes f.struct.toNat c 0 r.2))).advanceAll 8) := by
  intro o r
  have core : u.issuer.core = c := hu ▸ begun_core acts.solo
  have slots : u.issuer.slots = [t] := hu ▸ begun_slots acts.solo
  have full : ¬ (u.rake c).freeEntries.length < (u.gangLanes f.g).length := by
    rw [gangLanes_solo core slots, hx, List.length_map]
    exact Nat.not_lt.2 entries
  have waits : (f.mode == 0 && decide (255 ≤ x.count 5)) = false := by
    rw [Bool.and_eq_false_iff]
    by_cases mode : f.mode = 0
    · exact .inr (decide_eq_false (Nat.not_le.2 (room mode)))
    · exact .inl (beq_eq_false_iff_ne.2 mode)
  have checked : u.checkMembers f.g (fun x => if ((u.rake c).kernel x.asid f.kid.toNat).isNone then some (0x07, f.kid.toNat)
      else if x.spair f.sp.toNat % 32 ≠ 0 then some (0x04, x.spair f.sp.toNat % 2 ^ 52) else none) = .ok () := by
    subst hu
    refine checkMembers_of_none acts ?_
    rw [hx, ← Option.not_isSome, kernel, if_neg (not_not_intro stack)]
    rfl
  refine show execTrq f s = _ from gangwise_of_acts (h := { len := 8, mem := true, ok := trqOk f, srcs := _ })
    (by simpa only [beq_iff_eq] using acts) ?_ ok
  have takes : u.taking f.g = [t] := hu ▸ taking_begun acts
  simp only [hu, takes, core, checked, hx, own, full, waits, releaseGang_solo core slots ready, List.isEmpty_cons,
    List.headD_cons, List.any_cons, List.any_nil, Bool.or_false, List.foldl_cons, List.foldl_nil, List.nil_append]
  rfl

theorem traversalRequestForm : TraversalRequestForm :=
  fun _ _ _ _ acts ok kernel stack own entries room ready => trq_starts acts ok rfl rfl kernel stack own entries room ready

/-- Settles O49: legal operands pass every check, so each form's body sends, reads or marks what the claim says. -/
theorem traversalAndStructureForms : Obligations.TraversalAndStructureForms := ⟨traversalRequestForm, traversalControlForms⟩

end Sys2Proof.Proofs

/-! SRD, SWR, TRAP, BRK, TRET, ERET and HALTG (15 R397 to R409, R416) of a slice by itself. -/

namespace Sys2Proof.Proofs

-- One proof at a time, as in the tests: each proof under way at once takes a thread's stack out of the check's memory.
set_option Elab.async false

open Sys2Proof.Machine Sys2Proof.Claim

/-! ### Uniform forms that may ask for system mode -/

section
variable {s u : State} {h : Head} {c t : Nat} {g : BitVec 4} {body : State → Nat → Nat → Except Stop State}

/-- A form that asks for system mode takes PRIVILEGED in user mode, before any other effect (R398; 02 R46). -/
theorem gangwise_of_user {act : State → Except Stop State} (solo : Solo s c t h.srcs) (user : (s.slice c t).system = false)
    (priv : h.priv = true) (ok : h.ok = true := by rfl) : gangwise h s act = .next (s.gangTrap h.len { code := 0x03 }) := by
  simp only [gangwise, ok, priv, solo.gang, solo.core, user, List.any_cons, List.any_nil, Bool.not_true, Bool.not_false, Bool.or_false,
    Bool.and_self, Bool.false_eq_true, if_false, if_true]

variable (solo : Solo s c t h.srcs) (priv : h.priv = true → (s.slice c t).system = true)
include solo priv

/-- A form that is no memory access runs its body in a slice by itself. -/
theorem simt_run (hb : body (begun s c t) c t = .ok u) (ok : h.ok = true := by rfl) (mem : h.mem = false := by rfl)
    (rdv : h.rdv = false := by rfl) : simt h s body = .next (if h.adv = true then u.advanceAll h.len else u) := by
  unfold simt
  rw [gangwise_solo solo.core solo.gang ok priv ⟨solo.held, by simp [mem], solo.ready⟩ (by simp [rdv]),
    show s.setSlice c t (s.slice c t).issued = begun s c t from rfl]
  simp only [begun_slots solo, begun_core solo, gangFault, List.filterMap_cons, List.filterMap_nil, hb, List.head?_nil, Option.map_none,
    List.foldlM_cons, List.foldlM_nil]
  rfl

/-- A fault of its body is taken. -/
theorem simt_faults {r : FaultRec} {m : Pred} (hb : body (begun s c t) c t = .error (.fault { r with lanes := [(t, m)] }))
    (ok : h.ok = true := by rfl) (mem : h.mem = false := by rfl) (rdv : h.rdv = false := by rfl) :
    simt h s body = .next (s.gangTrap h.len { r with lanes := [(t, m)] }) := by
  unfold simt
  rw [gangwise_solo solo.core solo.gang ok priv ⟨solo.held, by simp [mem], solo.ready⟩ (by simp [rdv]),
    show s.setSlice c t (s.slice c t).issued = begun s c t from rfl]
  simp only [begun_slots solo, begun_core solo, gangFault, List.filterMap_cons, List.filterMap_nil, hb, List.head?_cons, Option.map_some,
    List.map_cons, List.map_nil, tget, if_true]
  rfl

theorem uniformly_runs (on : (s.slice c t).active g ≠ 0) (hb : body (begun s c t) c t = .ok u) (ok : h.ok = true := by rfl)
    (adv : h.adv = true := by rfl) (mem : h.mem = false := by rfl) (rdv : h.rdv = false := by rfl) :
    uniformly h g s body = .next (u.advanceAll h.len) := by
  refine (simt_run solo priv ?_ ok mem rdv).trans (congrArg _ (if_pos adv))
  simp only [slice_begun, hb]
  exact if_neg on

theorem uniformly_idles (off : (s.slice c t).active g = 0) (ok : h.ok = true := by rfl) (adv : h.adv = true := by rfl)
    (mem : h.mem = false := by rfl) (rdv : h.rdv = false := by rfl) :
    uniformly h g s body = .next (s.setSlice c t ((s.slice c t).issued.advance h.len)) := by
  refine (simt_run (u := begun s c t) solo priv ?_ ok mem rdv).trans (congrArg _ ((if_pos adv).trans (advanceAll_begun solo _)))
  simp only [slice_begun]
  exact if_pos off

/-- A fault that names no lane is that of the slice's active lanes (04 R92). -/
theorem uniformly_raises {r : FaultRec} (on : (s.slice c t).active g ≠ 0) (hb : body (begun s c t) c t = .error (.fault r))
    (unnamed : r.lanes = []) (ok : h.ok = true := by rfl) (mem : h.mem = false := by rfl) (rdv : h.rdv = false := by rfl) :
    uniformly h g s body = .next (s.gangTrap h.len { r with lanes := [(t, (s.slice c t).active g)] }) := by
  refine simt_faults solo priv ?_ ok mem rdv
  simp only [slice_begun, hb, Slice.laned, unnamed]
  exact if_neg on

end

/-! ### SRD and SWR -/

section
variable {s : State} {c t : Nat} {g : BitVec 4} {d : BitVec 6} {r : BitVec 12}

theorem srd_reads (solo : Solo s c t []) (low : d.toNat < 32) (on : (s.slice c t).active g ≠ 0)
    (has : sysHas r.toNat (·.rd) = true) (priv : sysPriv r.toNat (·.rd) = true → (s.slice c t).system = true) :
    exec (.srd g d r) s = .next (((((begun s c t).sysRead c t r.toNat).1.modSlice c t fun x =>
      x.setS d.toNat ((begun s c t).sysRead c t r.toNat).2)).advanceAll 4) :=
  show execSrd g d r s = _ from uniformly_runs (h := { ok := sOk d, priv := sysPriv r.toNat (·.rd) }) solo priv on
    (by simp only [has]; rfl) (sOk_eq_true low)

theorem srd_faults (solo : Solo s c t []) (low : d.toNat < 32) (on : (s.slice c t).active g ≠ 0)
    (has : sysHas r.toNat (·.rd) = false) (priv : sysPriv r.toNat (·.rd) = true → (s.slice c t).system = true) :
    exec (.srd g d r) s = .next (s.gangTrap 4 { code := 0x02, addr := r.toNat, lanes := [(t, (s.slice c t).active g)] }) :=
  show execSrd g d r s = _ from uniformly_raises (h := { ok := sOk d, priv := sysPriv r.toNat (·.rd) })
    (r := { code := 0x02, addr := r.toNat }) solo priv on (by simp only [has]; rfl) rfl (sOk_eq_true low)

variable (solo : Solo s c t [(1, d.toNat)]) (low : d.toNat < 32) (on : (s.slice c t).active g ≠ 0)
  (priv : sysPriv r.toNat (·.wr) = true → (s.slice c t).system = true)
include solo low on priv

theorem swr_writes (has : sysHas r.toNat (·.wr) = true) (other : ¬ (r = 0x61 ∨ r = 0x62)) : exec (.swr g d r) s =
    .next (((begun s c t).setOwnReg c t r.toNat ((s.slice c t).sr d.toNat)).advanceAll 4) :=
  show execSwr g d r s = _ from
    uniformly_runs (h := { ok := sOk d, priv := sysPriv r.toNat (·.wr), srcs := [(1, d.toNat)] }) solo priv on
    (by simp only [has, if_neg other, slice_begun]; rfl) (sOk_eq_true low)

theorem swr_mcap (has : sysHas r.toNat (·.wr) = true) (mcap : r = 0x61 ∨ r = 0x62) {v : State}
    (write : (begun s c t).mcapWrite c t (r == 0x62) ((s.slice c t).sr d.toNat) = some v) :
    exec (.swr g d r) s = .next (v.advanceAll 4) :=
  show execSwr g d r s = _ from
    uniformly_runs (h := { ok := sOk d, priv := sysPriv r.toNat (·.wr), srcs := [(1, d.toNat)] }) solo priv on
    (by simp only [has, if_pos mcap, slice_begun, show (s.slice c t).issued.sr d.toNat = (s.slice c t).sr d.toNat from rfl, write]; rfl) (sOk_eq_true low)

theorem swr_faults (has : sysHas r.toNat (·.wr) = false) :
    exec (.swr g d r) s = .next (s.gangTrap 4 { code := 0x02, addr := r.toNat, lanes := [(t, (s.slice c t).active g)] }) :=
  show execSwr g d r s = _ from
    uniformly_raises (h := { ok := sOk d, priv := sysPriv r.toNat (·.wr), srcs := [(1, d.toNat)] })
    (r := { code := 0x02, addr := r.toNat }) solo priv on (by simp only [has]; rfl) rfl (sOk_eq_true low)

end

theorem systemRegisterForms : SystemRegisterForms := by
  intro g d r s c t solo low on u may
  refine ⟨fun ⟨has, priv⟩ => srd_reads (solo_of_subset solo (by simp)) low on has priv,
    fun ⟨has, priv⟩ lo hi => swr_writes solo low on priv has (not_or.2 ⟨lo, hi⟩), fun v mcap write => ?_⟩
  have open_ : sysHas r.toNat (·.wr) = true ∧ sysPriv r.toNat (·.wr) = false := by rcases mcap with rfl | rfl <;> decide
  exact swr_mcap solo low on (by simp [open_.2]) open_.1 mcap write

theorem systemRegisterFaults : SystemRegisterFaults := by
  intro g d r s c t solo low x f
  have plain : Solo s c t [] := solo_of_subset solo (by simp)
  have ok : sOk d = true := sOk_eq_true low
  refine ⟨fun on has priv => srd_faults plain low on has priv, fun on has priv => swr_faults solo low on priv has,
    fun user priv => ?_, fun user priv => ?_, fun off priv => ?_, fun off priv => ?_⟩
  · unfold exec execSrd uniformly simt; exact gangwise_of_user (h := { ok := sOk d, priv := sysPriv r.toNat (·.rd) }) (act := _) plain user priv ok
  · unfold exec execSwr uniformly simt; exact gangwise_of_user (h := { ok := sOk d, priv := sysPriv r.toNat (·.wr), srcs := [(1, d.toNat)] }) solo user priv ok
  · exact show execSrd g d r s = _ from uniformly_idles (h := { ok := sOk d, priv := sysPriv r.toNat (·.rd) }) plain priv off ok
  · exact show execSwr g d r s = _ from
      uniformly_idles (h := { ok := sOk d, priv := sysPriv r.toNat (·.wr), srcs := [(1, d.toNat)] }) solo priv off ok

/-- Settles O36: an access that the mode may make runs the body; the frame asks for the mode first, and an idle slice moves on. -/
theorem systemRegisters : Obligations.SystemRegisters := ⟨systemRegisterForms, systemRegisterFaults⟩

/-! ### Traps and returns -/

section
variable {s : State} {c t : Nat} {g : BitVec 4} (solo : Solo s c t [])
include solo

theorem trapForms_of_solo (n : BitVec 6) :
    ((s.slice c t).active g = 0 → exec (.trap g n) s = .next (s.setSlice c t ((s.slice c t).issued.advance 4)) ∧
      exec (.brk g n) s = .next (s.setSlice c t ((s.slice c t).issued.advance 4))) ∧
    ((s.slice c t).active g ≠ 0 →
      exec (.trap g n) s =
        .next (s.gangTrap 4 { code := 0x11, addr := n.toNat, next := true, lanes := [(t, (s.slice c t).active g)] }) ∧
      exec (.brk g n) s = .next (s.gangTrap 4 { code := 0x12, addr := n.toNat, lanes := [(t, (s.slice c t).active g)] })) :=
  ⟨fun off => ⟨show execTrap g n s = _ from uniformly_idles (h := {}) solo nofun off,
      show execBrk g n s = _ from uniformly_idles (h := {}) solo nofun off⟩,
    fun on => ⟨show execTrap g n s = _ from
        uniformly_raises (h := {}) (r := { code := 0x11, addr := n.toNat, next := true }) solo nofun on rfl rfl,
      show execBrk g n s = _ from uniformly_raises (h := {}) (r := { code := 0x12, addr := n.toNat }) solo nofun on rfl rfl⟩⟩

variable {h : Head} {bad : Slice → Bool} {ret : Slice → Slice}

theorem returnForm_returns (priv : h.priv = true → (s.slice c t).system = true) (on : (s.slice c t).active g ≠ 0)
    (good : bad (s.slice c t).issued = false) (srcs : h.srcs = [] := by rfl) (ok : h.ok = true := by rfl)
    (mem : h.mem = false := by rfl) (rdv : h.rdv = false := by rfl) :
    returnForm h g s bad ret = .next (s.setSlice c t (ret (s.slice c t).issued)) := by
  refine simt_run (h := { h with adv := false }) (srcs ▸ solo) priv ?_ ok mem rdv
  simp only [slice_begun, good, Bool.false_eq_true, if_false]
  rw [if_neg (show ¬ (s.slice c t).issued.active g = 0 from on), begun, State.setSlice_setSlice]
  rfl

theorem returnForm_idles (priv : h.priv = true → (s.slice c t).system = true) (off : (s.slice c t).active g = 0)
    (srcs : h.srcs = [] := by rfl) (ok : h.ok = true := by rfl) (mem : h.mem = false := by rfl) (rdv : h.rdv = false := by rfl) :
    returnForm h g s bad ret = .next (s.setSlice c t ((s.slice c t).issued.advance 4)) := by
  refine simt_run (h := { h with adv := false }) (srcs ▸ solo) priv ?_ ok mem rdv
  simp only [slice_begun]
  rw [if_pos (show (s.slice c t).issued.active g = 0 from off), begun, State.setSlice_setSlice]
  rfl

theorem tret_faults (on : (s.slice c t).active g ≠ 0) (outside : (s.slice c t).inh = false) :
    exec (.tret g) s = .next (s.gangTrap 4 { code := 0x01, lanes := [(t, (s.slice c t).active g)] }) := by
  have away : (!(s.slice c t).issued.inh) = true := by rw [show (s.slice c t).issued.inh = false from outside]; rfl
  refine show execTret g s = _ from simt_faults (h := { adv := false }) (r := { code := 0x01 }) solo nofun ?_
  simp only [slice_begun, away, if_true]
  exact if_neg on

end

theorem returnForms : ReturnForms := by
  intro g s c t solo x
  refine ⟨fun on inside => ?_, fun on outside => tret_faults solo on outside, fun off => ?_, fun on system => ?_, fun user => ?_,
    fun off system => ?_⟩
  · exact show execTret g s = _ from returnForm_returns (h := {}) solo nofun on (by rw [show (s.slice c t).issued.inh = true from inside]; rfl)
  · exact show execTret g s = _ from returnForm_idles (h := {}) solo nofun off
  · exact show execEret g s = _ from returnForm_returns (h := { priv := true }) solo (fun _ => system) on rfl
  · unfold exec execEret returnForm simt; exact gangwise_of_user (h := { priv := true, adv := false }) solo user rfl
  · exact show execEret g s = _ from returnForm_idles (h := { priv := true }) solo (fun _ => system) off

/-- HALTG moves the slice on, and then halts its group for a debugger (R409, R416). -/
theorem haltg_eq {s : State} {c t : Nat} {g : BitVec 4} {u : State} (solo : Solo s c t [])
    (moved : s.setSlice c t ((s.slice c t).issued.advance 4) = u) : exec (.haltg g) s = .next (
      if (s.slice c t).active g = 0 then u
      else if s.attached c (s.slice c t).asid then
        (u.report c t 0 (u.slice c t).path.pc ((s.slice c t).active g) (u.ixMask c [t]) 0).haltGroup c t 1
      else u) := by
  have there : u.slice c t = (s.slice c t).issued.advance 4 := moved ▸ s.slice_setSlice_self ..
  have core : u.core c = s.core c := moved ▸ rfl
  have gang : (begun s c t).ixMask c [t] = u.ixMask c [t] := by
    simp only [State.ixMask, List.foldl_cons, List.foldl_nil, slice_begun, there, Slice.advance_ix]
  have watched : u.attached c (u.slice c t).asid = s.attached c (s.slice c t).asid := by
    rw [State.attached, State.attached, core, there, Slice.advance_asid]
    rfl
  show execHaltg g s = _
  unfold execHaltg
  rw [gangwise_solo solo.core solo.gang rfl (by simp) ⟨solo.held, by simp, solo.ready⟩ (by simp),
    show s.setSlice c t (s.slice c t).issued = begun s c t from rfl]
  simp only [State.taking_solo g (begun_core solo) (begun_slots solo), begun_core solo, begun_slots solo, advanceAll_begun solo, moved, gang,
    slice_begun, show (s.slice c t).issued.active g = (s.slice c t).active g from rfl]
  by_cases off : (s.slice c t).active g = 0
  · simp only [if_pos off]
    rfl
  · simp only [if_neg off, watched, slice_begun]
    cases s.attached c (s.slice c t).asid <;> rfl

theorem haltgForm : HaltgForm := by
  intro g s c t solo x u
  rw [haltg_eq solo rfl]
  refine ⟨fun idle => congrArg _ ?_, fun on att => congrArg _ ?_⟩
  · rcases idle with off | free
    · exact if_pos off
    · simp only [show s.attached c (s.slice c t).asid = false from free, Bool.false_eq_true, if_false, ite_self]
      rfl
  · exact (if_neg on).trans (if_pos att)

/-- Settles O37: each form acts in a slice with a lane active; ERET asks for system mode before it looks at its guard. -/
theorem trapAndReturnForms : Obligations.TrapAndReturnForms :=
  ⟨fun _ n _ _ _ solo => trapForms_of_solo solo n, returnForms, haltgForm⟩

end Sys2Proof.Proofs

/-! Taking a trap (15 R407, R408): what it saves, where the slice goes on, what it leaves. -/

namespace Sys2Proof.Proofs

-- One proof at a time, as in the tests: each proof under way at once takes a thread's stack out of the check's memory.
set_option Elab.async false

open Sys2Proof.Machine Sys2Proof.Claim

/-! ### The registers that save the trap -/

theorem toNat_w32_of_lt {n : Nat} (h : n < 2 ^ 32) : (w32 n).toNat = n := by rw [w32, BitVec.toNat_ofNat, Nat.mod_eq_of_lt h]

/-- A PC in two words. -/
theorem pcHi_append_pc (pc : Addr) : (w32 (pc.toNat / 2 ^ 32)).setWidth 20 ++ pc.setWidth 32 = pc := by
  apply BitVec.eq_of_toNat_eq
  have := pc.isLt
  rw [BitVec.toNat_append, BitVec.toNat_setWidth, BitVec.toNat_setWidth, toNat_w32_of_lt (by omega),
    ← Nat.shiftLeft_add_eq_or_of_lt (Nat.mod_lt _ (by decide)), Nat.shiftLeft_eq]
  omega

/-- The cause names the code in its low byte. -/
theorem causeWord_mod (f : FaultRec) : (causeWord f).toNat % 2 ^ 8 = f.code % 2 ^ 8 := by
  rw [causeWord, w32, BitVec.toNat_ofNat]
  split <;> split <;> omega

/-- What the registers of R407 hold. -/
theorem trapRegs_saves (x : Slice) (f : FaultRec) (pc : Addr) (lanes gang live : Pred) (inh : Bool) :
    let r := trapRegs x f pc lanes gang live inh
    r.pcHi.setWidth 20 ++ r.pc = pc ∧ r.cause.toNat % 2 ^ 8 = f.code % 2 ^ 8 ∧
      r.mask.toNat = lanes.toNat + x.path.mask.toNat * 2 ^ 8 ∧ r.addr.toNat = f.addr % 2 ^ 32 ∧
      r.addrHi.toNat = f.addr / 2 ^ 32 % 2 ^ 20 ∧ r.info.toNat = gang.toNat + live.toNat * 2 ^ 8 + (if inh then 2 ^ 16 else 0) := by
  intro r
  have hl := lanes.isLt
  have hm := x.path.mask.isLt
  have hg := gang.isLt
  have hv := live.isLt
  exact ⟨pcHi_append_pc pc, causeWord_mod f, toNat_w32_of_lt (by omega), BitVec.toNat_ofNat .., toNat_w32_of_lt (by omega),
    toNat_w32_of_lt (by split <;> omega)⟩

/-! ### The slice in its handler -/

/-- A slice that has entered a handler, at an address that its path may give, with the trap's registers, mode and events. -/
def entersAt (x : Slice) (t e : TrapRegs) (system : Bool) (user sys : Nat) (pc : Path → Addr) : Slice :=
  { x.trapEnter with t := t, e := e, system := system, userEvent := user, sysEvent := sys }.modPath fun p =>
    { p with pc := pc p, level := p.level + 1 }

section
variable {x : Slice} {t e : TrapRegs} {system : Bool} {user sys : Nat} {pc : Path → Addr}

theorem entersAt_path (cur : x.cur < x.paths.length) :
    (entersAt x t e system user sys pc).path = { x.path with pc := pc x.path, level := x.path.level + 1 } :=
  path_modPath (x := { x.trapEnter with t := t, e := e, system := system, userEvent := user, sysEvent := sys }) cur _

theorem entersAt_keepsProgram (cur : x.cur < x.paths.length) : KeepsProgram x (entersAt x t e system user sys pc) := by
  refine ⟨rfl, rfl, rfl, rfl, rfl, rfl, rfl, fun i other => ?_, ?_, ?_, rfl, rfl⟩
  · show (x.paths.set x.cur _).getD i {} = _
    rw [List.getD_eq_getElem?_getD, List.getElem?_set_ne (Ne.symm other), ← List.getD_eq_getElem?_getD]
  · rw [entersAt_path cur]
  · rw [entersAt_path cur]

theorem entersAt_suspends (open_ : x.frame.act = true) : (entersAt x t e system user sys pc).frame.susp = true := by
  show (if x.frame.act then { x.frame with susp := true } else x.frame).susp = true
  rw [if_pos open_]

end

/-! ### The two handlers and the end of the group -/

section
variable {s : State} {c t : Nat} {f : FaultRec} {pc : Addr} {lanes gang : Pred} {event : Nat}

theorem trapSlice_user (user : (s.slice c t).takesUser f = true) : s.trapSlice c t f pc lanes gang event =
    s.setSlice c t (entersAt (s.slice c t) (trapRegs (s.slice c t) f pc lanes gang (s.liveMask c t) true) (s.slice c t).e
      (s.slice c t).system event (s.slice c t).sysEvent
      fun p => instrAddr (p.pc.extractLsb' 32 20 ++ (s.slice c t).trapvec)) := by
  unfold State.trapSlice
  simp only [user]
  rfl

theorem trapSlice_system (user : (s.slice c t).takesUser f = false) (mode : (s.slice c t).system = false) :
    s.trapSlice c t f pc lanes gang event =
    s.setSlice c t (entersAt (s.slice c t) (s.slice c t).t
      (trapRegs (s.slice c t) f pc lanes gang (s.liveMask c t) (s.slice c t).inh) true (s.slice c t).userEvent event
      fun _ => instrAddr (s.sys.sysvecHi.extractLsb' 0 20 ++ s.sys.sysvec)) := by
  unfold State.trapSlice
  simp only [user, mode]
  rfl

theorem trapSlice_double (mode : (s.slice c t).system = true) : s.trapSlice c t f pc lanes gang event =
    let v := (s.post [evWord 0x95 f.code (s.slice c t).asid, w32 (c + t * 2 ^ 16), causeWord f, pc.setWidth 32, 0, 0, 0, 0]).modSlice c t
      fun y => { y with fatal := some (trapRegs (s.slice c t) f pc lanes gang (s.liveMask c t) (s.slice c t).inh) }
    if (s.slice c t).handler then (v.modSlice c t fun y => { y with killed := true }).retire c t
    else v.killGroup (s.slice c t).group := by
  have user : (s.slice c t).takesUser f = false := by simp [Slice.takesUser, mode]
  unfold State.trapSlice
  simp only [user, mode]
  rfl

end

/-- A trap vector that is a multiple of 4 is the handler's address. -/
theorem instrAddr_append {h : BitVec 20} {v : Word} (aligned : v.toNat % 4 = 0) : instrAddr (h ++ v) = h ++ v := by
  have low : (h ++ v) &&& 3 = 0#52 := by
    apply BitVec.eq_of_toNat_eq
    rw [BitVec.toNat_and, show (3 : Addr).toNat = 2 ^ 2 - 1 from rfl, Nat.and_two_pow_sub_one_eq_mod, BitVec.toNat_append,
      ← Nat.shiftLeft_add_eq_or_of_lt v.isLt, Nat.shiftLeft_eq]
    show _ = 0
    omega
  have split : h ++ v = ((h ++ v) &&& ~~~3) ||| ((h ++ v) &&& 3) := by
    rw [← BitVec.and_or_distrib_left, BitVec.not_or_self, BitVec.and_allOnes]
  rw [low, BitVec.or_zero] at split
  exact split.symm

/-- The call range of TRAP is never the program's own (R408). -/
theorem takesUser_eq {x : Slice} {f : FaultRec} : x.takesUser f = true ↔ x.system = false ∧ x.inh = false ∧ x.trapvec ≠ 0 ∧
    ¬ (f.code = 0x11 ∧ 32 ≤ f.addr ∧ f.addr < 64) := by
  simp only [Slice.takesUser, Bool.and_eq_true, Bool.not_eq_true', bne_iff_ne, ne_eq, Bool.and_eq_false_iff, beq_eq_false_iff_ne,
    decide_eq_false_iff_not, and_assoc, not_and_or, or_assoc]

/-- What either handler leaves, and what entering it does to the slice. -/
theorem setSlice_entersAt {s : State} {c t : Nat} {r e : TrapRegs} {system : Bool} {user sys : Nat} {pc : Path → Addr} {u : State}
    (hu : u = s.setSlice c t (entersAt (s.slice c t) r e system user sys pc)) (cur : (s.slice c t).cur < (s.slice c t).paths.length) :
    u.slice c t = entersAt (s.slice c t) r e system user sys pc ∧ (u.slice c t).path.pc = pc (s.slice c t).path ∧
    (u.mem = s.mem ∧ (u.slice c t).park = none ∧ (u.slice c t).resv = (s.slice c t).resv.map Resv.broken ∧
      ((s.slice c t).frame.act = true → (u.slice c t).frame.susp = true) ∧ KeepsProgram (s.slice c t) (u.slice c t) ∧
      ∀ c' t', t < 128 → t' < 128 → (c' ≠ c ∨ t' ≠ t) → u.slice c' t' = s.slice c' t') := by
  subst hu
  rw [State.slice_setSlice_self, entersAt_path cur]
  exact ⟨rfl, rfl, rfl, rfl, rfl, entersAt_suspends, entersAt_keepsProgram cur, (onlySlice_setSlice s c t _).others⟩

theorem trap_halts {s : State} {c t : Nat} {f : FaultRec} {pc next : Addr} (here : f.defer = none)
    (debug : f.code = 0x12 ∨ f.code = 0x13 ∨ f.code = 0x14) (att : s.attached c (s.slice c t).asid = true) :
    s.trap c [t] f pc next = (s.report c t f.code (if f.next then next else pc) (tget 0 f.lanes t) (s.ixMask c [t]) f.addr).haltGroup
      c t 1 := by
  have code : (f.code == 0x12 || f.code == 0x13 || f.code == 0x14) = true := by simpa [or_assoc] using debug
  simp only [State.trap, here, code, List.headD_cons, att, Bool.and_self, if_true, List.head?_cons]

theorem trap_enters {s : State} {c t : Nat} {f : FaultRec} {pc next : Addr} (here : f.defer = none)
    (plain : ¬ (f.code = 0x12 ∨ f.code = 0x13 ∨ f.code = 0x14) ∨ s.attached c (s.slice c t).asid = false)
    (live : (s.slice c t).live = true) : s.trap c [t] f pc next =
      ({ s with nextId := s.nextId + 1 } : State).trapSlice c t f (if f.next then next else pc) (tget 0 f.lanes t) (s.ixMask c [t])
        s.nextId := by
  have quiet : ((f.code == 0x12 || f.code == 0x13 || f.code == 0x14) && s.attached c (s.slice c t).asid) = false := by
    rw [Bool.and_eq_false_iff]
    exact plain.imp_left fun other => by simpa [and_assoc] using other
  simp only [State.trap, here, quiet, List.headD_cons, Bool.false_eq_true, if_false, List.foldl_cons, List.foldl_nil]
  exact if_pos live

/-- Settles O24: a slice enters the user handler, the system handler, or ends its group, by its mode; a debugger's code halts instead. -/
theorem trapEntry : Obligations.TrapEntry := by
  refine ⟨?_, fun s c t f pc next here => ⟨fun debug att => trap_halts here debug att, fun plain live => trap_enters here plain live⟩⟩
  intro s c t f pc lanes gang event x u y saves entered call cur small
  refine ⟨fun mode out vec aligned other => ?_, fun mode system => ?_, fun mode => ?_⟩
  · have user : x.takesUser f = true := takesUser_eq.2 ⟨mode, out, vec, other⟩
    obtain ⟨here, at_, kept⟩ := setSlice_entersAt (trapSlice_user (pc := pc) (lanes := lanes) (gang := gang) (event := event) user) cur
    refine ⟨?_, (congrArg Slice.e here).trans rfl, (congrArg Slice.system here).trans mode, at_.trans (instrAddr_append aligned), kept⟩
    exact congrArg Slice.t here ▸ trapRegs_saves ..
  · have user : x.takesUser f = false := by
      rw [← Bool.not_eq_true, takesUser_eq]
      rintro ⟨-, out, vec, other⟩
      rcases system with inside | none | call
      · rw [out] at inside; exact Bool.false_ne_true inside
      · exact vec none
      · exact other call
    obtain ⟨here, at_, kept⟩ :=
      setSlice_entersAt (trapSlice_system (pc := pc) (lanes := lanes) (gang := gang) (event := event) user mode) cur
    refine ⟨?_, (congrArg Slice.t here).trans rfl, (congrArg Slice.system here).trans rfl, at_, kept⟩
    exact congrArg Slice.e here ▸ trapRegs_saves ..
  · refine ⟨_, trapRegs_saves x f pc lanes gang (s.liveMask c t) x.inh, fun outside => ?_, fun inside => ?_⟩
    · exact (trapSlice_double mode).trans (if_neg (by rw [show (s.slice c t).handler = false from outside]; exact Bool.false_ne_true))
    · exact (trapSlice_double mode).trans (if_pos inside)

end Sys2Proof.Proofs

/-! The debug mailbox (15 R415 to R418, R450). -/

namespace Sys2Proof.Proofs

-- One proof at a time, as in the tests: each proof under way at once takes a thread's stack out of the check's memory.
set_option Elab.async false

open Sys2Proof.Machine Sys2Proof.Claim

section
variable {s : State} {c : Nat}

/-! ### Commands -/

/-- On a core of the device with no STEP or MEM under way a command is performed (R415). -/
theorem debugCmd_performs (inside : c < 256) (step : (s.core c).stepping = none) (mem : (s.core c).dbgMem = none) (args : List Word)
    (f : State → State) : s.debugCmd c args f = .next (f (s.debugArgs c args)) := by
  refine if_neg ?_
  simp [State.debugWaits, step, mem, inside]

/-- Arguments leave every slice. -/
theorem debugArgs_slice (args : List Word) (k t : Nat) : (s.debugArgs c args).slice k t = s.slice k t := rfl

theorem debugArgs_dbgctl (args : List Word) : ((s.debugArgs c args).core c).dbgctl = (s.core c).dbgctl := by
  simp only [State.debugArgs, State.modCore_core_self]

variable (inside : c < 256) (step : (s.core c).stepping = none) (mem : (s.core c).dbgMem = none)
include inside step mem

theorem attach_completes (asid : Nat) (on : Bool) : Becomes (.evAttach c asid on) s
    (((s.debugArgs c [w32 asid, if on then 1 else 0]).modCore c fun k =>
      { k with dbgctl := w32 (asid % 2 ^ 16 + (if on then 2 ^ 16 else 0) + (if k.dbgctl.getLsbD 17 then 2 ^ 17 else 0)) }).debugDone
        c 0) :=
  show execEvAttach c asid on s = _ from debugCmd_performs inside step mem ..

theorem watch_completes {n : Nat} {a ah ctl : Word} (index : n ≤ 3) (size : bits ctl 5 4 ≤ 12) : Becomes (.evWatch c n a ah ctl) s
    (((s.debugArgs c [w32 n, a, ah, ctl]).modCore c fun k =>
      { k with wpaddr := tset k.wpaddr n a, wpaddrHi := tset k.wpaddrHi n (w32 (bits ah 0 20)),
               wpctl := tset k.wpctl n (w32 (bits ctl 0 9)) }).debugDone c 0) :=
  show execEvWatch c n a ah ctl s = _ from (debugCmd_performs inside step mem ..).trans
    (congrArg _ (if_neg (not_or.2 ⟨Nat.not_lt.2 index, Nat.not_lt.2 size⟩)))

/-! ### Slots -/

section
variable {t : Nat} {u : State} (hu : s.debugArgs c [w32 t] = u)
include hu

theorem slotCommands_of_none (none : 128 ≤ t ∨ (s.slice c t).live = false) :
    Becomes (.evHalt c t) s (u.debugDone c 1) ∧ Becomes (.evResume c t) s (u.debugDone c 1) ∧
      Becomes (.evStep c t) s (u.debugDone c 1) := by
  subst hu
  have no : 128 ≤ t ∨ (!((s.debugArgs c [w32 t]).slice c t).live) = true := none.imp_right fun dead => by
    rw [debugArgs_slice, dead]; rfl
  exact ⟨show execEvHalt c t s = _ from (debugCmd_performs inside step mem ..).trans (congrArg _ (if_pos no)),
    show execEvResume c t s = _ from (debugCmd_performs inside step mem ..).trans (congrArg _ (if_pos no)),
    show execEvStep c t s = _ from (debugCmd_performs inside step mem ..).trans (congrArg _ (if_pos no))⟩

variable (small : t < 128) (live : (u.slice c t).live = true)
include small live

theorem halt_reports (runs : (u.slice c t).halted = false) (att : u.attached c (u.slice c t).asid = true) :
    let v := (u.free.2.haltGroup c t 1).modSlice c t Slice.settle
    Becomes (.evHalt c t) s ((v.report c t 0 (v.slice c t).nextPc (u.free.1.setWidth 8) (v.ixMask c (v.haltedGang c t)) 0).debugDone
      c 0) := by
  show execEvHalt c t s = _
  rw [execEvHalt, debugCmd_performs inside step mem, hu]
  simp only [Nat.not_le.2 small, live, runs, att, Bool.not_true, Bool.false_eq_true, or_self, if_false, if_true]

theorem halt_halts (runs : (u.slice c t).halted = false) (free : u.attached c (u.slice c t).asid = false) :
    Becomes (.evHalt c t) s ((u.haltGroup c t 1).debugDone c 0) := by
  show execEvHalt c t s = _
  rw [execEvHalt, debugCmd_performs inside step mem, hu]
  simp only [Nat.not_le.2 small, live, runs, free, Bool.not_true, Bool.false_eq_true, or_self, if_false]

theorem resume_goesOn (halted : u.debugHalted c t = true) :
    Becomes (.evResume c t) s ((u.resumeHalted c t).debugDone c 0) := by
  show execEvResume c t s = _
  rw [execEvResume, debugCmd_performs inside step mem, hu]
  simp only [Nat.not_le.2 small, live, halted, Bool.not_true, Bool.false_eq_true, or_self, if_false]

theorem step_begins (halted : u.debugHalted c t = true) :
    Becomes (.evStep c t) s ((u.debugBusy c).modCore c fun k => { k with stepping := some (t, u.time.toNat) }) := by
  show execEvStep c t s = _
  rw [execEvStep, debugCmd_performs inside step mem, hu]
  simp only [Nat.not_le.2 small, live, halted, Bool.not_true, Bool.false_eq_true, or_self, if_false]

end

/-! ### Records -/

section
variable {t off n : Nat} {ws : List Word}

theorem read_refuses (bad : recordArgs t off n = false) :
    Becomes (.evRead c t off n) s ((s.debugArgs c [w32 t, w32 off, w32 n]).debugDone c 1) := by
  show execEvRead c t off n s = _
  rw [execEvRead, debugCmd_performs inside step mem]
  simp only [bad, Bool.not_false, if_true]

theorem read_reads {u : State} (hu : s.debugArgs c [w32 t, w32 off, w32 n] = u) (legal : recordArgs t off n = true)
    (halted : (s.slice c t).halted = true) : Becomes (.evRead c t off n) s
      ((u.debugData c (((u.sliceRecord c t).drop (off / 4)).take (n / 4))).debugDone c 0) := by
  subst hu
  show execEvRead c t off n s = _
  rw [execEvRead, debugCmd_performs inside step mem]
  simp only [legal, debugArgs_slice, halted, Bool.not_true, Bool.false_eq_true, if_false]

theorem write_refuses (bad : recordArgs t off (4 * ws.length) = false) : Becomes (.evWrite c t off ws) s
    (((s.debugArgs c [w32 t, w32 off, w32 (4 * ws.length)]).debugData c ws).debugDone c 1) := by
  show execEvWrite c t off ws s = _
  rw [execEvWrite, debugCmd_performs inside step mem]
  simp only [bad, Bool.not_false, if_true]

theorem write_writes (legal : recordArgs t off (4 * ws.length) = true) (halted : (s.slice c t).halted = true) :
    Becomes (.evWrite c t off ws) s
      ((((s.debugArgs c [w32 t, w32 off, w32 (4 * ws.length)]).debugData c ws).writeRecord c t off ws).debugDone c 0) := by
  have stays : ((((s.debugArgs c [w32 t, w32 off, w32 (4 * ws.length)]).debugData c ws)).slice c t).halted = true := halted
  show execEvWrite c t off ws s = _
  rw [execEvWrite, debugCmd_performs inside step mem]
  simp only [legal, stays, Bool.not_true, Bool.false_eq_true, if_false]

end

/-! ### MEM -/

theorem mem_refuses {space a len : Nat} {w : Bool} {data : List Byte}
    (bad : 3 < space ∨ 256 < len ∨ (s.core c).dbgctl.getLsbD 16 = false) : Becomes (.evMem c space a len w data) s
      ((s.debugArgs c [w32 space, w32 a, w32 (a / 2 ^ 32), w32 len, if w then 1 else 0]).debugDone c 1) := by
  show execEvMem c space a len w data s = _
  rw [execEvMem, debugCmd_performs inside step mem]
  refine congrArg _ (if_pos (bad.imp_right (Or.imp_right fun off => ?_)))
  rw [debugArgs_dbgctl, off]
  rfl

end

/-! ### MEM in LOCAL -/

section
variable {s : State} {c : Nat}

/-- LOCAL of a core is no peer's memory, so that an access of it waits at no port. -/
theorem unitWaits_local (u : State) (c n : Nat) : u.unitWaits (localBase c + n) = false := by
  have past : ¬ localBase c + n < hostBase := by unfold localBase hostBase; omega
  simp only [State.unitWaits, past, decide_false, Bool.and_false, Bool.false_and]

/-- LOCAL lies past the sectors that can be poisoned. -/
theorem nearKeys_le_local (c n : Nat) : nearKeys ≤ localBase c + n := by unfold localBase nearKeys; omega

/-- Keys of a range in LOCAL. -/
def localKeys (c a len : Nat) : List Nat := (List.range len).map fun i => localBase c + (a + i)

theorem mem_localKeys {a len k : Nat} (h : k ∈ localKeys c a len) : ∃ i < len, k = localBase c + (a + i) := by
  obtain ⟨i, hi, rfl⟩ := List.mem_map.1 h
  exact ⟨i, List.mem_range.1 hi, rfl⟩

/-- A MEM of a range in LOCAL that the attached context owns is performed at once (R450). -/
theorem memTry_local {a len asid : Nat} {w : Bool} {data : List Byte} (ctx : bits (s.core c).dbgctl 0 16 = asid)
    (own : ∀ i < len, a + i < localSize ∧ s.ownsLocal c asid (a + i) = true) :
    let v := s.modCore c fun k => { k with dbgMem := none }
    s.memTry c ⟨0, a, len, w, data⟩ =
      if w then ((indexed (localKeys c a len)).foldl (fun s p => s.debugStore c p.2 (data.getD p.1 0)) v).debugDone c 0
      else (v.debugBytes c ((localKeys c a len).map (v.debugLoad c))).debugDone c 0 := by
  intro v
  have checked : ((List.range len).map fun i => (a + i, s.debugByte c asid 0 (a + i) w)) =
      (List.range len).map fun i => (a + i, .ok (localBase c + (a + i))) :=
    List.map_congr_left fun i hi => by
      obtain ⟨inside, owned⟩ := own i (List.mem_range.1 hi)
      simp only [State.debugByte, Nat.not_le.2 inside, if_false, owned, if_true]
  have keys : (List.range len).filterMap (fun i => some (localBase c + (a + i))) = localKeys c a len :=
    congrFun (List.filterMap_eq_map' (f := fun i => localBase c + (a + i))) _
  have clean {α : Type} : (List.range len).findSome? (fun _ => (none : Option α)) = none := by simp
  have near : (localKeys c a len).filter (fun k => decide (k < nearKeys)) = [] := by
    rw [List.filter_eq_nil_iff]
    intro k hk
    obtain ⟨i, -, rfl⟩ := mem_localKeys hk
    simpa using nearKeys_le_local c (a + i)
  have free (u : State) : (localKeys c a len).any u.unitWaits = false := by
    rw [List.any_eq_false]
    intro k hk
    obtain ⟨i, -, rfl⟩ := mem_localKeys hk
    simp only [unitWaits_local, Bool.false_eq_true, not_false_eq_true]
  have sound (u : State) : (List.range len).find? (fun i => u.debugPoison c (localBase c + (a + i))) = none := by
    rw [List.find?_eq_none]
    intro i _
    simp only [State.debugPoison, Nat.not_lt.2 (nearKeys_le_local c (a + i)), decide_false, Bool.false_and, Bool.false_eq_true,
      not_false_eq_true]
  have blocks (u : State) : u.debugBlocks (clusterOf c) w [] = some u := by
    simp [State.debugBlocks, State.touchBlocks]
  unfold State.memTry
  simp only [show ¬ (0 = 3) by decide, show ¬ (0 = 2) by decide, if_false, ctx, checked]
  simp only [List.filterMap_map, List.findSome?_map, List.find?_map, Function.comp_def, keys, clean, free, blocks, near, List.map_nil,
    List.eraseDups_nil, List.foldl_nil, State.findErrors, sound, Option.map_none, Bool.false_eq_true, if_false]
  rfl

end

theorem mem_local {s : State} {c : Nat} {a len : Nat} {w : Bool} {data : List Byte} {u : State} (inside : c < 256)
    (step : (s.core c).stepping = none) (mem : (s.core c).dbgMem = none)
    (hu : s.debugArgs c [w32 0, w32 a, w32 (a / 2 ^ 32), w32 len, if w then 1 else 0] = u) (short : len ≤ 256)
    (att : (s.core c).dbgctl.getLsbD 16 = true)
    (own : ∀ i < len, a + i < localSize ∧ u.ownsLocal c (bits (s.core c).dbgctl 0 16) (a + i) = true) :
    let v := u.modCore c fun k => { k with dbgMem := none }
    Becomes (.evMem c 0 a len w data) s (
      if w then ((indexed (localKeys c a len)).foldl (fun s p => s.debugStore c p.2 (data.getD p.1 0)) v).debugDone c 0
      else (v.debugBytes c ((localKeys c a len).map (v.debugLoad c))).debugDone c 0) := by
  intro v
  have ctl : (u.core c).dbgctl = (s.core c).dbgctl := hu ▸ debugArgs_dbgctl ..
  show execEvMem c 0 a len w data s = _
  rw [execEvMem, debugCmd_performs inside step mem, hu]
  refine congrArg _ ((if_neg ?_).trans (memTry_local (by rw [ctl]) own))
  simp [ctl, att, short]

/-- Settles O12: on a core with no command under way each command is performed, by its arguments and the state of its slice. -/
theorem debugEvents : Obligations.DebugEvents := by
  intro s c inside
  refine ⟨fun t since step late => ?_, fun r rest waiting => ?_, fun waiting => ?_, fun step mem => ⟨fun asid on => ?_, fun t => ?_,
    fun t off n => ?_, fun t off ws => ?_, fun n a ah ctl index size => ?_, fun space a len w data => ?_⟩⟩
  · show execEvStepStallLimit c s = _
    simp only [execEvStepStallLimit, step, if_pos late]
  · show execEvClearReport c s = _
    simp only [execEvClearReport, State.modCore, waiting]
  · show execEvClearReport c s = _
    simp only [execEvClearReport, State.modCore, waiting]
  · exact attach_completes inside step mem asid on
  · intro u x
    exact ⟨slotCommands_of_none inside step mem rfl, fun small live => ⟨halt_reports inside step mem rfl small live,
      halt_halts inside step mem rfl small live, fun halted => ⟨resume_goesOn inside step mem rfl small live halted,
        step_begins inside step mem rfl small live halted⟩⟩⟩
  · exact ⟨read_refuses inside step mem, read_reads inside step mem rfl⟩
  · exact ⟨write_refuses inside step mem, write_writes inside step mem⟩
  · exact watch_completes inside step mem index size
  · intro u asid
    refine ⟨mem_refuses inside step mem, ?_⟩
    rintro rfl short att own
    exact mem_local inside step mem rfl short att own

end Sys2Proof.Proofs

/-! Peer links (18 R438 to R441; 09 R240; 13 R339): training, repair and failure of ports, requests in sequence, the loss of a peer. -/

namespace Sys2Proof.Proofs

-- One proof at a time, as in the tests: each proof under way at once takes a thread's stack out of the check's memory.
set_option Elab.async false

open Sys2Proof.Machine Sys2Proof.Claim

/-! ### Ports -/

section
variable {s : State} {p far major lane : Nat} (port : p ≤ 3)
include port

section
variable (peer : far ≤ 7) (kept : s.lossDue far = false)
include peer kept

theorem training_waits_not {b : Prop} (up : ¬ (s.link p).state = 1) (new : ¬ (((s.link p).far.contains far && (s.link p).state == 2) = true))
    (h : 3 < p ∨ 7 < far ∨ (s.link p).state = 1 ∨ ((s.link p).far.contains far && (s.link p).state == 2) = true ∨
      s.lossDue far = true) : b := by
  rcases h with h | h | h | h | h
  · omega
  · omega
  · exact absurd h up
  · exact absurd h new
  · rw [kept] at h; exact absurd h Bool.false_ne_true

/-- A port that is down comes up with its peer (R438). -/
theorem training_comes_up (down : (s.link p).state = 0) (other : far ≠ s.mgmt.devnum) (version : major = 1) :
    Becomes (.evLinkTraining p far major) s
      ((s.modLink p fun l => { l with state := 2, far := [far] }).modPeer far fun r => { r with path := true }) := by
  show execEvLinkTraining p far major s = _
  unfold execEvLinkTraining
  dsimp only
  rw [if_neg (training_waits_not port peer kept (by omega) (by simp [down])), if_neg (by omega), if_neg (by omega)]
  rfl

/-- A port that is up reaches a further device (log 70). -/
theorem training_goes_further (up : (s.link p).state = 2) (new : (s.link p).far.contains far = false) (other : far ≠ s.mgmt.devnum)
    (version : major = 1) : Becomes (.evLinkTraining p far major) s
      ((s.modLink p fun l => { l with far := l.far ++ [far] }).modPeer far fun r => { r with path := true }) := by
  show execEvLinkTraining p far major s = _
  unfold execEvLinkTraining
  dsimp only
  rw [if_neg (training_waits_not port peer kept (by omega) (by simp only [new, Bool.false_and, Bool.false_eq_true, not_false_eq_true])),
    if_neg (by omega), if_pos up]
  have same : ({ s.link p with state := 2, far := (s.link p).far ++ [far] } : LinkPort) =
      { s.link p with far := (s.link p).far ++ [far] } := by rw [← up]
  simp only [State.modLink, same]

/-- A port stays down on the device's own number or another version (R438). -/
theorem training_refuses (down : (s.link p).state = 0) (bad : far = s.mgmt.devnum ∨ major ≠ 1) :
    Becomes (.evLinkTraining p far major) s (s.log 5 [BitVec.ofNat 8 p, 0]) := by
  show execEvLinkTraining p far major s = _
  unfold execEvLinkTraining
  dsimp only
  rw [if_neg (training_waits_not port peer kept (by omega) (by simp [down])), if_pos bad]

end

section
variable (number : lane ≤ 4) (on : (s.link p).state ≠ 0)
include number on

theorem repair_of_spare (spare : (s.link p).spare = true) :
    Becomes (.evLaneRepair p lane) s (s.modLink p fun l => { l with state := 0 }) := by
  show execEvLaneRepair p lane s = _
  simp only [execEvLaneRepair, State.repairLane, Nat.not_lt.2 port, Nat.not_lt.2 number, on, or_self, if_false, spare, if_true]

theorem repair_of_first (spare : (s.link p).spare = false) : Becomes (.evLaneRepair p lane) s
    ((s.modLink p fun l => { l with state := 1, spare := true, lane := lane, since := s.time.toNat,
                                    errors := l.errors.filter (·.1 != lane) }).log 4 [BitVec.ofNat 8 p, BitVec.ofNat 8 lane]) := by
  show execEvLaneRepair p lane s = _
  simp only [execEvLaneRepair, State.repairLane, Nat.not_lt.2 port, Nat.not_lt.2 number, on, or_self, if_false, spare,
    Bool.false_eq_true]

end

theorem retrain_completes (training : (s.link p).state = 1) :
    Becomes (.evLaneRetrainComplete p) s (s.modLink p fun l => { l with state := 2 }) :=
  show execEvLaneRetrainComplete p s = _ from congrArg _ (if_pos ⟨port, training⟩)

theorem link_fails (on : (s.link p).state ≠ 0) : Becomes (.evLinkFailure p) s (s.modLink p fun l => { l with state := 0 }) :=
  show execEvLinkFailure p s = _ from congrArg _ (if_pos ⟨port, on⟩)

end

/-! ### Requests to a peer -/

section
variable {s : State} {f : Flight} {d : Nat} (under : s.flight? f.id = some f) (out : toPeer f.dst = true ∧ f.dst - nodePeer 0 = d)
include under out

section
variable (own : toPeer f.src = false) (next : ((s.peerReqs d).find? fun g => !(s.peer d).sent g.id).map (·.id) = some f.id)
  (free : (s.peer d).held = false)
include own next free

/-- Without a path the next request is discarded (09 R240). -/
theorem peerRequest_discards (lost : (s.peer d).path = false) : Becomes (.evPeerRequestArrival f.id) s (s.discardRequest d f) := by
  obtain ⟨peer, rfl⟩ := out
  show execEvPeerRequestArrival f.id s = _
  simp only [execEvPeerRequestArrival, under, own, peer, free, next, lost, ne_eq, not_true, Bool.not_true, Bool.not_false,
    Bool.false_eq_true, or_self, if_false, if_true]

variable (path : (s.peer d).path = true) (up : s.portUp d = true) (known : s.resvOpen f = false)
include path up known

/-- The next request is performed after what stands at the peer's units, with its number (R439). -/
theorem peerRequest_global {a : Acc} {sh : List (Nat × Acc)} (hp : f.pkt = .global a sh) : Becomes (.evPeerRequestArrival f.id) s
    (if a.form == .stc then (((s.settlePair d).stcRequests f).foldl (fun s r => s.numbered d r.1) (s.settlePair d)).performStc f
     else ((s.settlePair d).numbered d f).arriveGlobal f a sh) := by
  obtain ⟨peer, rfl⟩ := out
  show execEvPeerRequestArrival f.id s = _
  simp only [execEvPeerRequestArrival, under, own, peer, free, next, path, up, known, hp, ne_eq, not_true, Bool.not_true,
    Bool.false_eq_true, Bool.or_self, or_self, if_false]

theorem peerRequest_reserves {a : Acc} (hp : f.pkt = .reserve a) : Becomes (.evPeerRequestArrival f.id) s
    (((s.settlePair d).numbered d f).arriveReserve f a) := by
  obtain ⟨peer, rfl⟩ := out
  show execEvPeerRequestArrival f.id s = _
  simp only [execEvPeerRequestArrival, under, own, peer, free, next, path, up, known, hp, ne_eq, not_true, Bool.not_true,
    Bool.false_eq_true, Bool.or_self, or_self, if_false]

end

/-- The acknowledge frees the sender's request (R439). -/
theorem peerAcknowledge_frees (sent : (s.peer d).sent f.id = true) (done : s.queuesAtUnit f.id = false) (up : s.portUp d = true) :
    Becomes (.evPeerAcknowledge f.id) s (((s.dropFlight f.id).modPeer d fun p =>
      { p with unacked := p.unacked.filter (·.1 != f.id) }).lessLeft (f.op.getD 0)) := by
  obtain ⟨peer, rfl⟩ := out
  show execEvPeerAcknowledge f.id s = _
  simp only [execEvPeerAcknowledge, under, peer, sent, done, up, Bool.not_true, Bool.false_eq_true, or_self, if_false]

/-! ### Completions for a peer -/

variable {c : TDone} (hp : f.pkt = .tdone c)
include hp

theorem completion_becomes {u : State} (h : s.sendCompletion f = u) : Becomes (.evTraversalCompletion f.id) s u := by
  show execEvTraversalCompletion f.id s = _
  simp only [execEvTraversalCompletion, under, out.1, if_true, hp, h]

theorem peerCompletion_waits (wait : (s.peer d).held = true ∨ ((s.peer d).path = true ∧ s.portUp d = false)) :
    Becomes (.evTraversalCompletion f.id) s s := by
  refine completion_becomes under out hp ?_
  obtain ⟨-, rfl⟩ := out
  rcases wait with held | ⟨path, down⟩
  · simp only [State.sendCompletion, held, Bool.true_or, if_true]
  · simp only [State.sendCompletion, path, down, Bool.not_true, Bool.not_false, Bool.true_or, Bool.false_eq_true, if_false, if_true,
      ite_self]

variable (next : (s.flights.find? fun g => g.src == f.src && g.dst == f.dst && !(s.peer d).sent g.id) = some f)
  (free : (s.peer d).held = false)
include next free

theorem peerCompletion_lost (lost : (s.peer d).path = false) : Becomes (.evTraversalCompletion f.id) s (s.dropFlight f.id) := by
  refine completion_becomes under out hp ?_
  obtain ⟨-, rfl⟩ := out
  simp only [State.sendCompletion, next, free, lost, Option.map_some, bne_self_eq_false, Bool.or_self, Bool.false_eq_true, if_false,
    Bool.not_false, if_true]

theorem peerCompletion_sent (up : s.portUp d = true) (path : (s.peer d).path = true) (room : (s.peer d).unacked.length < 4096) :
    Becomes (.evTraversalCompletion f.id) s (s.numbered d f) := by
  refine completion_becomes under out hp ?_
  obtain ⟨-, rfl⟩ := out
  simp only [State.sendCompletion, next, free, path, up, Nat.not_le.2 room, Option.map_some, bne_self_eq_false, decide_false, Bool.not_true,
    Bool.or_self, Bool.false_eq_true, if_false]

end

/-! ### Requests of a peer -/

section
variable {s : State} {f : Flight} {d seq : Nat} {a : Acc} (under : s.flight? f.id = some f)
  (source : toPeer f.src = true ∧ f.src - nodePeer 0 = d) (hp : f.pkt = .peerIn seq a) (up : s.portUp d = true)
include under source hp up

theorem peerIn_becomes {u : State} (h : s.receivePeer f seq a = u) : Becomes (.evPeerRequestArrival f.id) s u := by
  obtain ⟨peer, rfl⟩ := source
  show execEvPeerRequestArrival f.id s = _
  simp only [execEvPeerRequestArrival, under, peer, hp, up, if_true, h]

/-- The next request of a peer is performed, then acknowledged (R439). -/
theorem peerIn_performs (now : ((s.peer d).recvSeq + 2 ^ 32 - seq) % 2 ^ 32 = 0) (ldr : a.form ≠ .ldr) (stc : a.form ≠ .stc) :
    Becomes (.evPeerRequestArrival f.id) s
      (((((s.dropFlight f.id).settle fun u => a.units.contains u.key).performGlobal { f with op := none } a []).modPeer d fun p =>
        { p with recvSeq := ((s.peer d).recvSeq + 1) % 2 ^ 32 }).modPeer d fun p => { p with acks := p.acks ++ [seq] }) := by
  refine peerIn_becomes under source hp up ?_
  obtain ⟨-, rfl⟩ := source
  unfold State.receivePeer
  simp only [now, if_true]

/-- A repeated request is only acknowledged. -/
theorem peerIn_repeats (past : ((s.peer d).recvSeq + 2 ^ 32 - seq) % 2 ^ 32 ≠ 0)
    (recent : ((s.peer d).recvSeq + 2 ^ 32 - seq) % 2 ^ 32 ≤ 4096) : Becomes (.evPeerRequestArrival f.id) s
      ((s.dropFlight f.id).modPeer d fun p => { p with acks := p.acks ++ [seq] }) := by
  refine peerIn_becomes under source hp up ?_
  obtain ⟨-, rfl⟩ := source
  unfold State.receivePeer
  exact (if_neg past).trans (if_pos recent)

end

/-! ### The loss of a peer -/

/-- A state with another log, and vectors raised. -/
def logged (s : State) (log : List (List Byte)) (flushed : Nat) (raised : List Nat) : State :=
  { s with mgmt := { s.mgmt with log := log, flushed := flushed, raised := raised } }

theorem logged_raise (s : State) (l : List (List Byte)) (n v : Nat) :
    ({ s with mgmt := { s.mgmt with log := l, flushed := n } } : State).raise v = logged s l n (s.mgmt.raised ++ [v]) := rfl

theorem logged_same (s : State) (l : List (List Byte)) (n : Nat) :
    ({ s with mgmt := { s.mgmt with log := l, flushed := n } } : State) = logged s l n s.mgmt.raised := rfl

/-- A record changes the log, what of it has reached the flash, and the vectors raised (18 R444, R437). -/
theorem log_eq_logged (s : State) (type : Nat) (payload : List Byte) : ∃ l n r, s.log type payload = logged s l n r := by
  unfold State.log
  extract_lets record records excess unit new
  split
  · exact ⟨_, _, _, logged_raise ..⟩
  · exact ⟨_, _, _, logged_same ..⟩

theorem peer_log (s : State) (type : Nat) (payload : List Byte) (d : Nat) : (s.log type payload).peer d = s.peer d := by
  obtain ⟨l, n, r, h⟩ := log_eq_logged s type payload
  rw [h]
  rfl

theorem peer_modPeer_self (s : State) (d : Nat) (f : Peer → Peer) : (s.modPeer d f).peer d = f (s.peer d) := by
  simp only [State.modPeer, State.peer, tget_tset, if_true]

section
variable {s : State} {d : Nat} (number : d ≤ 7) (path : (s.peer d).path = true)
  (down : ∀ p ∈ s.links, p.2.state = 0 ∨ p.2.far.contains d = false)
include path down

theorem lossDue_of_down : s.lossDue d = true := by
  have none : (s.links.any fun p => p.2.state != 0 && p.2.far.contains d) = false := by
    rw [List.any_eq_false]
    intro p hp
    rcases down p hp with off | away
    · simp only [off, bne_self_eq_false, Bool.false_and, Bool.false_eq_true, not_false_eq_true]
    · simp only [away, Bool.and_false, Bool.false_eq_true, not_false_eq_true]
  rw [State.lossDue, path, none]
  rfl

include number

/-- What is outstanding is discarded unless it is held since an earlier loss; the loss is logged (R441). -/
theorem peerLoss_becomes {v : State} (hv : (if (s.peer d).held then s.modPeer d fun p => { p with path := false, discarded := 0 }
      else (s.modPeer d fun p => { p with path := false, discarded := 0 }).dropOutstanding d) = v) :
    Becomes (.evPeerLoss d) s ((v.modPeer d fun p => { p with path := false, unacked := [] }).log 6
      (BitVec.ofNat 8 d :: natBytes 4 (v.peer d).discarded)) := by
  have due := lossDue_of_down path down
  subst hv
  show execEvPeerLoss d s = _
  simp only [execEvPeerLoss, Nat.not_lt.2 number, due, Bool.not_true, Bool.false_eq_true, or_self, if_false]

end

/-- Settles O13: ports train, repair and fail; a request goes or waits by the peer's path, ports and numbers; a loss ends the paths. -/
theorem linkEvents : Obligations.LinkEvents := by
  refine ⟨fun s p far major lane port => ?_, fun s f d under dst inside src => ?_, fun s f d seq a under src inside hp up => ?_,
    fun s d number path down => ?_, fun s f c d under dst inside hp => ?_, fun s v => rfl⟩
  · exact ⟨fun peer kept => ⟨training_comes_up port peer kept, training_goes_further port peer kept, training_refuses port peer kept⟩,
      repair_of_spare port, repair_of_first port, retrain_completes port, link_fails port⟩
  · intro p numbered u
    have out := toPeer_of_nodePeer dst inside
    have own : toPeer f.src = false := toPeer_eq_false fun h => by omega
    refine ⟨fun next free => ⟨peerRequest_discards under out own next free, fun path up known => ⟨fun a sh pkt form => ?_,
      fun a sh pkt form => ?_, fun a => peerRequest_reserves under out own next free path up known⟩⟩,
      peerAcknowledge_frees under out⟩
    · exact (peerRequest_global under out own next free path up known pkt).trans (congrArg _ (if_neg (by simpa using form)))
    · exact (peerRequest_global under out own next free path up known pkt).trans (congrArg _ (if_pos (by simpa using form)))
  · intro past acked
    have source := toPeer_of_nodePeer src inside
    exact ⟨peerIn_performs under source hp up, peerIn_repeats under source hp up⟩
  · have loss := fun v => peerLoss_becomes (v := v) number path down
    refine ⟨⟨_, loss _ rfl, ?_, ?_⟩, fun held => loss _ (if_pos held),
      fun free => loss _ (if_neg (by rw [free]; exact Bool.false_ne_true))⟩
    · rw [peer_log, peer_modPeer_self]
    · rw [peer_log, peer_modPeer_self]
  · intro p
    have out := toPeer_of_nodePeer dst inside
    exact ⟨peerCompletion_waits under out hp, fun next free => ⟨peerCompletion_lost under out hp next free,
      peerCompletion_sent under out hp next free⟩⟩

end Sys2Proof.Proofs

/-! The device without main power, and in recovery (18 R445, R447). -/

namespace Sys2Proof.Proofs

-- One proof at a time, as in the tests: each proof under way at once takes a thread's stack out of the check's memory.
set_option Elab.async false

open Sys2Proof.Machine Sys2Proof.Claim

/-! ### Without main power -/

section
variable {s : State} (off : s.mgmt.power = false)
include off

theorem running_of_unpowered : s.running = false := by simp only [State.running, off, Bool.false_and]

theorem acceptsBar0_of_unpowered (a : Nat) : s.acceptsBar0 a = false := by simp only [State.acceptsBar0, off, Bool.false_and]

theorem visitTurn_of_unpowered : s.visitTurn = .next s := by
  simp only [State.visitTurn, off, Bool.not_false, if_true]

theorem rakeTurn_of_unpowered (c : Nat) : s.rakeTurn c = .next s := by
  simp only [State.rakeTurn, running_of_unpowered off, Bool.not_false, if_true]

theorem allows_of_unpowered {i : Instr} (other : i ≠ .evPowerOn) : s.allows i = false := by
  simp only [State.allows, off, Bool.not_false, if_true, beq_eq_false_iff_ne.2 other, Bool.and_false]

theorem tickTurn_of_unpowered : s.tickTurn = s := by simp only [State.tickTurn, off, Bool.false_eq_true, if_false]

theorem hostRead_of_unpowered (a : Nat) : s.hostRead a = s := by
  simp only [State.hostRead, acceptsBar0_of_unpowered off, Bool.not_false, if_true]

theorem hostWrite_of_unpowered (a : Nat) (w : Word) : s.hostWrite a w = .next s := by
  simp only [State.hostWrite, acceptsBar0_of_unpowered off, Bool.not_false, if_true]

theorem takeInput_of_unpowered (x : Input) : s.takeInput x = s := by simp only [State.takeInput, off, Bool.not_false, if_true]

/-- Without main power a turn that is not POWER_ON's only goes from the agenda. -/
theorem step_of_unpowered (other : ∀ rest, s.agenda ≠ .event .evPowerOn :: rest) : step s = .next { s with agenda := s.agenda.drop 1 } := by
  unfold step State.turn
  rcases ha : s.agenda with _ | ⟨x, rest⟩
  · exact (visitTurn_of_unpowered off).trans (congrArg _ (by cases s; cases ha; rfl))
  · have still : ({ s with agenda := rest } : State).mgmt.power = false := off
    cases x with
    | visit => exact visitTurn_of_unpowered still
    | rake c => dsimp only; rw [rakeTurn_of_unpowered still]; rfl
    | event i =>
      have no := allows_of_unpowered still fun (h : i = .evPowerOn) => other rest (h ▸ ha)
      simp only [no, Bool.false_eq_true, if_false]
      rfl
    | tick => dsimp only; rw [tickTurn_of_unpowered still]; rfl
    | hostRead a => dsimp only; rw [hostRead_of_unpowered still]; rfl
    | hostWrite a w => dsimp only; rw [hostWrite_of_unpowered still]; rfl
    | input x => dsimp only; rw [takeInput_of_unpowered still]; rfl

end

/-! ### In recovery -/

/-- Memory, slices, cores, groups, system registers, operations and messages under way stay. -/
def Remains (s t : State) : Prop :=
  t.mem = s.mem ∧ t.slices = s.slices ∧ t.cores = s.cores ∧ t.groups = s.groups ∧ t.sys = s.sys ∧ t.ops = s.ops ∧ t.flights = s.flights

section
variable {s : State}

theorem remains_refl (s : State) : Remains s s := ⟨rfl, rfl, rfl, rfl, rfl, rfl, rfl⟩

theorem Remains.trans {t u : State} (h : Remains s t) (h' : Remains t u) : Remains s u := by
  obtain ⟨mem, slices, cores, groups, sys, ops, flights⟩ := h
  obtain ⟨mem', slices', cores', groups', sys', ops', flights'⟩ := h'
  exact ⟨mem'.trans mem, slices'.trans slices, cores'.trans cores, groups'.trans groups, sys'.trans sys, ops'.trans ops,
    flights'.trans flights⟩

theorem remains_modMgmt (s : State) (f : Mgmt → Mgmt) : Remains s (s.modMgmt f) := remains_refl s
theorem remains_modLink (s : State) (p : Nat) (f : LinkPort → LinkPort) : Remains s (s.modLink p f) := remains_refl s
theorem remains_atPlace {t : State} (h : Remains s t) : Remains s (s.atPlace t) := h

theorem remains_log (s : State) (type : Nat) (payload : List Byte) : Remains s (s.log type payload) := by
  obtain ⟨l, n, r, h⟩ := log_eq_logged s type payload
  rw [h]
  exact remains_refl s

theorem remains_repairLane (s : State) (p lane : Nat) : Remains s (s.repairLane p lane) := by
  unfold State.repairLane
  dsimp only
  split
  · exact remains_refl s
  · split
    · exact remains_modLink ..
    · exact (remains_modLink s p _).trans (remains_log ..)

theorem remains_flitsIn (s : State) (p n : Nat) (lane : Option Nat) : Remains s (s.flitsIn p n lane) := by
  unfold State.flitsIn
  dsimp only
  split
  · exact remains_refl s
  · split
    · split
      · exact (remains_modLink s p _).trans (remains_repairLane ..)
      · exact remains_modLink ..
    · exact remains_modLink ..

variable (power : s.mgmt.power = true) (recovery : s.mgmt.recovery = true)

section
include recovery

theorem running_of_recovery : s.running = false := by simp only [State.running, recovery, Bool.not_true, Bool.and_false, Bool.false_and]

theorem remains_nextVisit : Remains s s.nextVisit := by
  unfold State.nextVisit
  split
  · exact remains_refl s
  · split
    · exact remains_refl s
    · unfold State.endCycle
      rw [running_of_recovery recovery]
      exact remains_refl s

theorem rakeTurn_of_recovery (c : Nat) : s.rakeTurn c = .next s := by
  simp only [State.rakeTurn, running_of_recovery recovery, Bool.not_false, if_true]

theorem remains_tickTurn : Remains s s.tickTurn := by
  unfold State.tickTurn
  rw [recovery]
  split
  · exact remains_refl s
  · exact remains_refl s

theorem remains_hostRead (a : Nat) : Remains s (s.hostRead a) := by
  unfold State.hostRead
  rw [recovery]
  split
  · exact remains_refl s
  · dsimp only
    split
    · exact remains_modMgmt ..
    · exact remains_refl s

/-- A write that the device accepts and that is no command fills the mailbox's arguments or data. -/
theorem remains_hostWrite {a : Nat} {w : Word} {t : State} (data : a ≠ 0x02000000) (h : s.hostWrite a w = .next t) : Remains s t := by
  unfold State.hostWrite at h
  split at h
  next => cases h; exact remains_refl s
  next accepted =>
    have page : a / 0x1000 = 0x2000 := by
      have open_ : s.acceptsBar0 a = true := by simpa using accepted
      simp only [State.acceptsBar0, recovery, Bool.not_true, Bool.false_or, Bool.and_eq_true, beq_iff_eq] at open_
      exact open_.2
    have inner : a % 0x1000 ≠ 0 := by omega
    unfold State.bar0Write at h
    simp only [page, inner, if_false, if_true] at h
    rw [if_neg (by decide), if_neg (by decide), if_neg (by decide), if_neg (by decide), if_neg (by decide)] at h
    cases h
    split
    · exact remains_modMgmt ..
    · split
      · exact remains_modMgmt ..
      · exact remains_refl s

theorem remains_takeInput (x : Input) : Remains s (s.takeInput x) := by
  unfold State.takeInput
  split
  · exact remains_refl s
  · cases x with
    | flits p n lane => exact remains_flitsIn ..
    | sample ts rs r => exact remains_modMgmt ..
    | spoil sector cause =>
      dsimp only
      split
      · exact remains_refl s
      · exact remains_refl s
    | bar2Size log => simp only [State.resizeBar2, recovery, true_or, or_true, if_true]; exact remains_refl s
    | peerRequest dev seq a => simp only [recovery, true_or, or_true, if_true]; exact remains_refl s
    | peerContext dev core thread c => simp only [recovery, true_or, or_true, if_true]; exact remains_refl s

end

include power recovery

theorem visitTurn_of_recovery : s.visitTurn = .next s.nextVisit := by
  simp only [State.visitTurn, power, running_of_recovery recovery, Bool.not_true, Bool.not_false, Bool.false_eq_true, if_false, if_true]

theorem allows_of_recovery {i : Instr} (other : Instr.inRecovery i = false) : s.allows i = false := by
  simp only [State.allows, power, recovery, other, Bool.not_true, Bool.false_eq_true, if_false, Bool.or_self, Bool.and_false]

end

/-- In recovery a turn that is none of those possible there leaves everything but the mailbox, links and counters. -/
theorem remains_step {s s' : State} (power : s.mgmt.power = true) (recovery : s.mgmt.recovery = true)
    (event : ∀ i rest, s.agenda = .event i :: rest → Instr.inRecovery i = false)
    (command : ∀ a w rest, s.agenda = .hostWrite a w :: rest → a ≠ 0x02000000) (h : step s = .next s') : Remains s s' := by
  unfold step State.turn at h
  rcases ha : s.agenda with _ | ⟨x, rest⟩
  · rw [ha] at h
    cases (visitTurn_of_recovery power recovery).symm.trans h
    exact remains_nextVisit recovery
  · rw [ha] at h
    have power' : ({ s with agenda := rest } : State).mgmt.power = true := power
    have recovery' : ({ s with agenda := rest } : State).mgmt.recovery = true := recovery
    cases x with
    | visit =>
      cases (visitTurn_of_recovery power' recovery').symm.trans h
      exact remains_nextVisit recovery'
    | rake c =>
      dsimp only at h
      rw [rakeTurn_of_recovery recovery'] at h
      cases h
      exact remains_refl s
    | event i =>
      simp only [allows_of_recovery power' recovery' (event i rest ha), Bool.false_eq_true, if_false] at h
      cases h
      exact remains_refl s
    | tick => cases h; exact remains_tickTurn recovery'
    | hostRead a => cases h; exact remains_hostRead recovery' a
    | hostWrite a w =>
      obtain ⟨t, ht, rfl⟩ := andThen_eq_next.1 h
      exact remains_atPlace (remains_hostWrite recovery' (command a w rest ha) ht)
    | input x => cases h; exact remains_takeInput recovery' x

/-- Settles O29: no turn but POWER_ON's acts without power; in recovery the other turns only fill the mailbox and count. -/
theorem recoveryAccepts : Obligations.RecoveryAccepts := by
  refine fun s s' h => ⟨fun off other => ?_, fun power recovery event command => remains_step power recovery event command h⟩
  cases (step_of_unpowered off other).symm.trans h
  rfl

end Sys2Proof.Proofs

/-! What a step's parts leave of the state: memory's canonical form and the alignment of every TRAPVEC (log 55, 15 Table 15-3, log 47),
TIME, and the core and thread of the traversal instruction being executed. -/

namespace Sys2Proof.Proofs

-- One proof at a time, as in the tests: each proof under way at once takes a thread's stack out of the check's memory.
set_option Elab.async false

open Sys2Proof.Machine Sys2Proof.Claim

/-! ### Tables and slices -/

theorem mem_tset {β : Type} {l : Tab β} {n : Nat} {x : β} {p : Nat × β} (h : p ∈ tset l n x) : p ∈ l ∨ p.2 = x := by
  induction l with
  | nil =>
    rw [tset, List.mem_singleton] at h
    exact .inr (congrArg Prod.snd h)
  | cons q l ih =>
    obtain ⟨k, v⟩ := q
    rw [tset] at h
    split at h
    · obtain rfl | h := List.mem_cons.1 h
      · exact .inr rfl
      · exact .inl (.tail _ h)
    · split at h
      · obtain rfl | h := List.mem_cons.1 h
        · exact .inr rfl
        · exact .inl h
      · obtain rfl | h := List.mem_cons.1 h
        · exact .inl (.head _)
        · exact (ih h).imp_left (.tail _)

theorem tget_mem_or {β : Type} (d : β) (l : Tab β) (n : Nat) : (n, tget d l n) ∈ l ∨ tget d l n = d := by
  induction l with
  | nil => exact .inr rfl
  | cons q l ih =>
    obtain ⟨k, v⟩ := q
    rw [tget]
    split
    · next h => exact .inl (h ▸ .head _)
    · exact ih.imp_left (.tail _)

/-- TRAPVEC is a multiple of 4 (15 Table 15-3). -/
def Aligned (x : Slice) : Prop := x.trapvec.toNat % 4 = 0

theorem aligned_default : Aligned {} := rfl

theorem Aligned.of_trapvec {x y : Slice} (h : Aligned x) (e : y.trapvec = x.trapvec) : Aligned y := by
  rw [Aligned, e]
  exact h

/-- A change of a slice that leaves TRAPVEC a multiple of 4. -/
def KeepsAligned (f : Slice → Slice) : Prop := ∀ x, Aligned x → Aligned (f x)

/-- Every slice is aligned. -/
def AllAligned (s : State) : Prop := ∀ p ∈ s.slices, Aligned p.2

theorem aligned_slice {s : State} (h : AllAligned s) (c i : Nat) : Aligned (s.slice c i) := by
  obtain hx | hx := tget_mem_or ({} : Slice) s.slices (skey c i)
  · exact h _ hx
  · rw [State.slice, hx]; exact aligned_default

/-! ### The relation -/

/-- `t` is in form if `s` is, at the same TIME and with the same traversal thread being executed. -/
structure Kept (s t : State) : Prop where
  mem : s.mem.wf = true → t.mem.wf = true
  slices : AllAligned s → AllAligned t
  unmoved : (t.time, t.rakeCore, t.rakeThread) = (s.time, s.rakeCore, s.rakeThread)

namespace Kept

theorem refl (s : State) : Kept s s := ⟨id, id, rfl⟩

variable {s t u : State}

theorem trans (h : Kept s t) (h' : Kept t u) : Kept s u := ⟨h'.mem ∘ h.mem, h'.slices ∘ h.slices, h'.unmoved.trans h.unmoved⟩

theorem form (h : Kept s t) : InForm s → InForm t := fun ⟨mem, slices⟩ => ⟨h.mem mem, h.slices slices⟩

theorem time (h : Kept s t) : t.time = s.time := congrArg Prod.fst h.unmoved

theorem rakeCore (h : Kept s t) : t.rakeCore = s.rakeCore := congrArg (·.2.1) h.unmoved

theorem rakeThread (h : Kept s t) : t.rakeThread = s.rakeThread := congrArg (·.2.2) h.unmoved

/-- A slice of a state in the relation is aligned if all slices of the first state are. -/
theorem slice (h : Kept s t) {c i : Nat} (hs : AllAligned s) : Aligned (t.slice c i) := aligned_slice (h.slices hs) c i

/-- A change of memory, and of other parts. -/
theorem memory (h : Kept s t) (hm : t.mem.wf = true → u.mem.wf = true) (hs : u.slices = t.slices := by rfl)
    (hu : (u.time, u.rakeCore, u.rakeThread) = (t.time, t.rakeCore, t.rakeThread) := by rfl) : Kept s u where
  mem := hm ∘ h.mem
  slices ha := by
    rw [AllAligned, hs]
    exact h.slices ha
  unmoved := hu.trans h.unmoved

/-- A change of other parts of the state. -/
theorem same (h : Kept s t) (hm : u.mem = t.mem := by rfl) (hs : u.slices = t.slices := by rfl)
    (hu : (u.time, u.rakeCore, u.rakeThread) = (t.time, t.rakeCore, t.rakeThread) := by rfl) : Kept s u :=
  h.memory (fun hw => hm ▸ hw) hs hu

/-- A change of every slice, and of other parts. -/
theorem mapSlices (h : Kept s t) {f : Nat × Slice → Slice} (hf : ∀ p, Aligned p.2 → Aligned (f p)) (hm : u.mem = t.mem := by rfl)
    (hs : u.slices = t.slices.map fun p => (p.1, f p) := by rfl)
    (hu : (u.time, u.rakeCore, u.rakeThread) = (t.time, t.rakeCore, t.rakeThread) := by rfl) : Kept s u where
  mem hw := hm ▸ h.mem hw
  slices ha p hp := by
    rw [hs] at hp
    obtain ⟨q, hq, rfl⟩ := List.mem_map.1 hp
    exact hf q (h.slices ha q hq)
  unmoved := hu.trans h.unmoved

/-- A slice that is aligned if those of the first state are. -/
theorem setSlice (h : Kept s t) {c i : Nat} {x : Slice} (hx : AllAligned s → Aligned x) : Kept s (t.setSlice c i x) where
  mem := h.mem
  slices ha p hp := (mem_tset hp).elim (h.slices ha p) fun e => e ▸ hx ha
  unmoved := h.unmoved

theorem modSlice (h : Kept s t) {c i : Nat} {f : Slice → Slice} (hf : KeepsAligned f) : Kept s (t.modSlice c i f) :=
  h.setSlice fun hs => hf _ (h.slice hs)

/-- A change of a slice that leaves its TRAPVEC. -/
theorem alterSlice (h : Kept s t) {c i : Nat} {f : Slice → Slice} (hf : ∀ x, (f x).trapvec = x.trapvec := by exact fun _ => rfl) :
    Kept s (t.modSlice c i f) :=
  h.modSlice fun x hx => hx.of_trapvec (hf x)

theorem foldl (h : Kept s t) {α : Type} {l : List α} {f : State → α → State}
    (hf : ∀ {v : State} (a : α), Kept s v → Kept s (f v a)) : Kept s (l.foldl f t) :=
  List.foldlRecOn l f h fun _ hv a _ => hf a hv

/-- A fold that carries a value with the state. -/
theorem foldlPair (h : Kept s t) {α β : Type} {l : List α} {b : β} {f : State × β → α → State × β}
    (hf : ∀ (p : State × β) (a : α), Kept s p.1 → Kept s (f p a).1) : Kept s (l.foldl f (t, b)).1 :=
  List.foldlRecOn (motive := fun p : State × β => Kept s p.1) l f h fun p hp a _ => hf p a hp

theorem ite {c : Prop} [Decidable c] (ht : Kept s t) (hu : Kept s u) : Kept s (if c then t else u) := by
  split
  · exact ht
  · exact hu

/-- The state of a pair. -/
theorem pair {β : Type} {b : β} (h : Kept s t) : Kept s (t, b).1 := h

/-- The state of a pair that a call answers. -/
theorem fst {β : Type} {p : State × β} {b : β} (h : Kept s p.1) (e : p = (u, b)) : Kept s u := by
  subst e
  exact h

end Kept

/-! ### Answers that may be missing, or end early -/

/-- A next state that may be missing. -/
def KeptIf (s : State) (x : Option State) : Prop := ∀ u, x = some u → Kept s u

section
variable {s t : State}

theorem keptIf_none : KeptIf s none := fun _ e => nomatch e

theorem Kept.keptIf (h : Kept s t) : KeptIf s (some t) := fun _ e => Option.some.inj e ▸ h

theorem KeptIf.ite {c : Prop} [Decidable c] {x y : Option State} (hx : KeptIf s x) (hy : KeptIf s y) :
    KeptIf s (if c then x else y) := by
  split
  · exact hx
  · exact hy

theorem KeptIf.map {x : Option State} (h : KeptIf s x) {f : State → State} (hf : ∀ u, Kept s u → Kept s (f u)) :
    KeptIf s (x.map f) := by
  cases x with
  | none => exact keptIf_none
  | some u => exact (hf u (h u rfl)).keptIf

theorem Kept.getD (h : Kept s t) {x : Option State} (hx : KeptIf s x) : Kept s (x.getD t) := by
  cases x with
  | none => exact h
  | some u => exact hx u rfl

end

/-- What holds of an answer, or of what it ends with. -/
def Leaves {ε α : Type} (p : ε → Prop) (q : α → Prop) : Except ε α → Prop
  | .ok x => q x
  | .error e => p e

section
variable {ε α β : Type} {p : ε → Prop} {q : α → Prop} {r : β → Prop} {x : Except ε α}

theorem Leaves.bind (h : Leaves p q x) {f : α → Except ε β} (hf : ∀ y, q y → Leaves p r (f y)) : Leaves p r (x >>= f) := by
  cases x with
  | ok y => exact hf y h
  | error e => exact h

theorem Leaves.map (h : Leaves p q x) {f : α → β} (hf : ∀ y, q y → r (f y)) : Leaves p r (x.map f) := by
  cases x with
  | ok y => exact hf y h
  | error e => exact h

theorem Leaves.ite {c : Prop} [Decidable c] {y : Except ε α} (hx : Leaves p q x) (hy : Leaves p q y) :
    Leaves p q (if c then x else y) := by
  split
  · exact hx
  · exact hy

theorem Leaves.foldlM {l : List β} {f : α → β → Except ε α} {y : α} (h : q y) (hf : ∀ z b, q z → Leaves p q (f z b)) :
    Leaves p q (l.foldlM f y) := by
  induction l generalizing y with
  | nil => exact h
  | cons b l ih => exact (hf y b h).bind fun z hz => ih hz

end

theorem Kept.ok {ε : Type} {p : ε → Prop} {s t : State} (h : Kept s t) : Leaves p (Kept s) (.ok t) := h

theorem Kept.okPair {ε α : Type} {p : ε → Prop} {s t : State} {x : α} (h : Kept s t) : Leaves p (fun q => Kept s q.1) (.ok (t, x)) := h

/-- The state that an instruction's end carries, if it carries one. -/
def StopKept (s : State) : Stop → Prop
  | .found u _ => Kept s u
  | _ => True

/-- The state that a traversal instruction's end carries, if it carries one. -/
def TStopKept (s : State) : TStop → Prop
  | .status u _ => Kept s u
  | .ask u _ _ _ _ _ => Kept s u
  | .wait => True

/-- Where a step of a copy request leads to. -/
def reached : CStep → State
  | .go v _ => v
  | .wait v _ => v

/-- The state that a read for the unit leads to, if it leads to one. -/
def PReadKept (s : State) : PRead → Prop
  | .data u _ => Kept s u
  | .bad u => Kept s u
  | .ask u _ _ _ => Kept s u
  | .wait => True

/-- A body's next state, or the state of its end. -/
abbrev BodyEnds (s : State) : Except Stop State → Prop := Leaves (StopKept s) (Kept s)

/-- The same where a value comes with the next state. -/
abbrev BodyEndsWith (s : State) {α : Type} : Except Stop (State × α) → Prop := Leaves (StopKept s) fun p => Kept s p.1

abbrev ThreadEnds (s : State) : Except TStop State → Prop := Leaves (TStopKept s) (Kept s)

abbrev ThreadEndsWith (s : State) {α : Type} : Except TStop (State × α) → Prop := Leaves (TStopKept s) fun p => Kept s p.1

end Sys2Proof.Proofs

/-! What the operations on a slice leave of TRAPVEC: it stays a multiple of 4 (15 Table 15-3, log 47). -/

namespace Sys2Proof.Proofs

-- One proof at a time, as in the tests: each proof under way at once takes a thread's stack out of the check's memory.
set_option Elab.async false

open Sys2Proof.Machine Sys2Proof.Claim

namespace Aligned

variable {x y : Slice}

theorem ite {c : Prop} [Decidable c] (hx : Aligned x) (hy : Aligned y) : Aligned (if c then x else y) := by
  split
  · exact hx
  · exact hy

theorem foldl {α : Type} {l : List α} {f : Slice → α → Slice} (h : Aligned x) (hf : ∀ {y : Slice} (a : α), Aligned y → Aligned (f y a)) :
    Aligned (l.foldl f x) :=
  List.foldlRecOn l f h fun _ hy a _ => hf a hy

/-! ### Registers -/

theorem setP (h : Aligned x) {n : Nat} {m : Pred} : Aligned (x.setP n m) := h.of_trapvec (Slice.setP_trapvec ..)

theorem setPBit (h : Aligned x) {n l : Nat} {b : Bool} : Aligned (x.setPBit n l b) := h.of_trapvec (Slice.setPBit_trapvec ..)

theorem apply (h : Aligned x) {w : RegWrite} : Aligned (w.apply x) := by
  unfold RegWrite.apply
  split
  · exact h
  · exact h
  · exact h.setPBit

theorem writeLanes (h : Aligned x) {d : Nat} {lanes : List Nat} {f : Nat → Word} : Aligned (x.writeLanes d lanes f) :=
  h.foldl fun _ hy => hy

theorem writeGroup (h : Aligned x) {d n : Nat} {lanes : List Nat} {f : Nat → Nat → Word} : Aligned (x.writeGroup d n lanes f) :=
  h.foldl fun _ hy => hy.writeLanes

theorem writePred (h : Aligned x) {d : Nat} {lanes : List Nat} {f : Nat → Bool} : Aligned (x.writePred d lanes f) :=
  h.foldl fun _ hy => hy.setPBit

theorem endOp (h : Aligned x) {o : Op} {t : Nat} : Aligned (x.endOp o t) := by
  unfold Slice.endOp
  extract_lets ws y z
  have written : Aligned y := by
    unfold y
    split
    · exact h.foldl fun _ hy => hy.apply
    · exact h
  exact written.of_trapvec rfl

theorem repackSlice (h : Aligned x) {rs : List (List Word)} : Aligned (repackSlice x rs) :=
  Aligned.foldl (x := { x with repacked := true }) h fun _ hy => hy.foldl fun _ hz => hz

/-- A saved record gives TRAPVEC without its two lowest bits (15 R414). -/
theorem withRecord {w : Nat → Word} : Aligned (x.withRecord w) := by
  unfold Aligned Slice.withRecord
  dsimp only
  rw [w32, BitVec.toNat_ofNat]
  omega

theorem withPorts (h : Aligned x) {l : Tab Port} : Aligned { x with ports := l } := h

/-! ### Paths -/

theorem advance (h : Aligned x) {len : Nat} : Aligned (x.advance len) := h.of_trapvec (Slice.advance_trapvec ..)

theorem addEntry (h : Aligned x) {p : Path} : Aligned (x.addEntry p) := by
  unfold Slice.addEntry
  split
  · exact h
  · exact h

theorem switchTo (h : Aligned x) {i : Nat} : Aligned (x.switchTo i) := by
  unfold Slice.switchTo
  split
  · exact h
  · exact h

theorem choose (h : Aligned x) : Aligned x.choose := by
  unfold Slice.choose
  split
  · exact h
  · split
    · exact h.switchTo
    · exact h

theorem nextPath (h : Aligned x) : Aligned x.nextPath := by
  unfold Slice.nextPath
  extract_lets here
  split
  · exact h.switchTo
  · split
    · exact h.switchTo
    · exact h

theorem holdChoose (h : Aligned x) : Aligned x.holdChoose := by
  unfold Slice.holdChoose
  split
  · split
    · split
      · exact h.switchTo
      · exact h
    · exact h
  · exact h

theorem childBack (h : Aligned x) {fuel : Nat} {j : Option Nat} : Aligned (x.childBack fuel j) := by
  induction fuel generalizing x j with
  | zero => exact h
  | succ n ih =>
    cases j with
    | none => exact h
    | some j =>
      rw [Slice.childBack]
      have cleared : Aligned ((x.setPath j {}).childBack n (x.paths.getD j {}).link) := ih (x := x.setPath j {}) h
      exact h.ite (ite h (ite cleared h))

theorem leaveJoins (h : Aligned x) {m : Pred} {fuel : Nat} {j : Option Nat} : Aligned (x.leaveJoins m fuel j) := by
  induction fuel generalizing x j with
  | zero => exact h
  | succ n ih =>
    cases j with
    | none => exact h
    | some j => exact ih (x := x.setPath j _) h

theorem exitLanes (h : Aligned x) {m : Pred} : Aligned (x.exitLanes m) := by
  unfold Slice.exitLanes
  extract_lets e y
  have left : Aligned y := h.leaveJoins
  split
  · exact (childBack (x := y.setPath y.cur {}) left).choose
  · exact left

theorem mergeOnce (h : Aligned x) (e : x.mergeOnce = some y) : Aligned y := by
  unfold Slice.mergeOnce at e
  obtain ⟨⟨i, j⟩, _, e⟩ := List.exists_of_findSome?_eq_some e
  dsimp only at e
  split at e
  · obtain rfl := Option.some.inj e
    split
    · exact ite h h
    · exact h
  · cases e

theorem rejoinOnce (h : Aligned x) (e : x.rejoinOnce = some y) : Aligned y := by
  unfold Slice.rejoinOnce at e
  dsimp only at e
  split at e
  · split at e
    · obtain rfl := Option.some.inj e
      exact childBack (x := x.setPath x.cur {}) h
    · cases e
  · cases e

theorem settlePaths (h : Aligned x) {n : Nat} : Aligned (Slice.settlePaths n x) := by
  induction n generalizing x with
  | zero => exact h
  | succ n ih =>
    rw [Slice.settlePaths]
    split
    · next merged => exact ih (h.mergeOnce merged).choose
    · split
      · next rejoined => exact ih (h.rejoinOnce rejoined).choose
      · exact h

theorem choosePath (h : Aligned x) {fuel : Nat} : Aligned (Slice.choosePath fuel x) := by
  induction fuel generalizing x with
  | zero => exact h
  | succ n ih =>
    unfold Slice.choosePath
    extract_lets y z
    have settled : Aligned y := h.choose.settlePaths
    have chosen : Aligned z := (settled.nextPath.ite settled).holdChoose
    exact chosen.ite (ih chosen)

theorem settle (h : Aligned x) : Aligned x.settle := by
  unfold Slice.settle
  extract_lets y
  have woken : Aligned y := by
    unfold y
    split
    · exact h
    · exact h
  exact h.ite (h.ite (woken.ite woken.choosePath))

theorem collapse (h : Aligned x) {j : Nat} : Aligned (x.collapse j) := by
  unfold Slice.collapse
  extract_lets p y z
  have dropped : Aligned z := h
  split
  · extract_lets r
    exact .ite dropped dropped
  · exact dropped

theorem makeRoom (h : Aligned x) {n fuel : Nat} : Aligned (x.makeRoom n fuel) := by
  induction fuel generalizing x with
  | zero => exact h
  | succ fuel ih =>
    rw [Slice.makeRoom]
    split
    · exact h
    · split
      · exact ih h.collapse
      · exact h

theorem splitFlat (h : Aligned x) {p : Piece} {ps : List Piece} : Aligned (x.splitFlat p ps) := by
  unfold Slice.splitFlat
  extract_lets e y z
  have counted : Aligned z := by
    unfold z
    split
    · extract_lets r
      exact .ite (y := y) h h
    · exact h
  exact counted.foldl fun _ hy => hy.addEntry

theorem splitJoin (h : Aligned x) {pt : Addr} {ps : List Piece} : Aligned (x.splitJoin pt ps) := by
  unfold Slice.splitJoin
  extract_lets e j y z first w
  have added : Aligned w := foldl (x := z) h fun _ hy => hy.addEntry
  exact added.switchTo

theorem branch (h : Aligned x) {next : Nat → Addr × BitVec 8} : Aligned (x.branch next) := by
  unfold Slice.branch
  extract_lets pt y
  have declared : Aligned y := h
  split
  · exact declared
  · exact declared
  · next p ps _ _ =>
    cases pt with
    | some a => exact declared.makeRoom.splitJoin.ite declared.makeRoom.splitFlat
    | none => exact declared.makeRoom.splitFlat

/-! ### Frames, handlers and debugging -/

theorem openFrame (h : Aligned x) {n dst ast bst gang : Nat} {body : List (Word × Word)} :
    Aligned (x.openFrame n dst ast bst gang body) := ite h h

theorem returnTo (h : Aligned x) {pc : Addr} : Aligned (x.returnTo pc) := ite h h

theorem tret (h : Aligned x) : Aligned x.tret :=
  returnTo (x := { x with t := _, userEvent := 0 }) h

theorem eret (h : Aligned x) : Aligned x.eret :=
  returnTo (x := { x with t := _, system := false, sysEvent := 0 }) h

theorem movedFrom (hy : Aligned y) {stay : Bool} : Aligned (y.movedFrom x stay) := hy.ite hy

theorem resumePark (h : Aligned x) {s : State} : Aligned (s.resumePark x).1 := by
  have unparked : Aligned x.unpark := h
  unfold State.resumePark
  extract_lets on
  have left (leave : Bool) (scope : Nat) : Aligned (on leave scope).1 := by
    unfold on
    split
    · exact h
    · split
      · exact unparked.advance
      · exact unparked
  split
  · exact left ..
  · exact left ..
  · split
    · exact h
    · exact unparked
  · exact unparked

end Aligned

/-- A written TRAPVEC loses its two lowest bits (15 Table 15-3). -/
theorem aligned_roundDown (x : Slice) (w : Word) : Aligned { x with trapvec := w32 (w.toNat / 4 * 4) } := by
  unfold Aligned
  dsimp only
  rw [w32, BitVec.toNat_ofNat]
  omega

theorem aligned_handlerSlice {m : Msg} {entry cycle : Nat} : Aligned (handlerSlice m entry cycle) :=
  Aligned.foldl rfl fun _ hy => hy

end Sys2Proof.Proofs

/-! What the model's shared operations leave of the state, in the order of the model's files: memory's canonical form and the alignment
of every TRAPVEC (log 55, 15 Table 15-3, log 47). -/

namespace Sys2Proof.Proofs

-- One proof at a time, as in the tests: each proof under way at once takes a thread's stack out of the check's memory.
set_option Elab.async false

open Sys2Proof.Machine Sys2Proof.Claim

namespace Kept

variable {s t u : State}

/-! ### The device's own operations: posts, unsaid effects, resources (Machine/Ops) -/

theorem modCore (h : Kept s t) {k : Nat} {f : Core → Core} : Kept s (t.modCore k f) :=
  h.same

theorem modCluster (h : Kept s t) {c : Nat} {f : Cluster → Cluster} : Kept s (t.modCluster c f) :=
  h.same

theorem modCtx (h : Kept s t) {a : Nat} {f : Ctx → Ctx} : Kept s (t.modCtx a f) :=
  h.same

theorem modGroup (h : Kept s t) {g : Nat} {f : Machine.Group → Machine.Group} : Kept s (t.modGroup g f) := by
  unfold State.modGroup
  split
  · exact h.same
  · exact h

theorem modQueue (h : Kept s t) {q : Nat} {f : LaunchQ → LaunchQ} : Kept s (t.modQueue q f) :=
  h.same

theorem modStruct (h : Kept s t) {n : Nat} {f : Struct → Struct} : Kept s (t.modStruct n f) :=
  h.same

theorem modPlan (h : Kept s t) {n : Nat} {f : Plan → Plan} : Kept s (t.modPlan n f) :=
  h.same

theorem modRake (h : Kept s t) {k : Nat} {f : Rake → Rake} : Kept s (t.modRake k f) :=
  h.modCore

theorem modThread (h : Kept s t) {k t1 : Nat} {f : Thread → Thread} : Kept s (t.modThread k t1 f) :=
  h.modRake

theorem modOp (h : Kept s t) {id : Nat} {f : Op → Op} : Kept s (t.modOp id f) :=
  h.same

theorem dropOp (h : Kept s t) {id : Nat} : Kept s (t.dropOp id) :=
  h.same

theorem dropFlight (h : Kept s t) {id : Nat} : Kept s (t.dropFlight id) :=
  h.same

theorem send (h : Kept s t) {src dst asid : Nat} {op : Option Nat} {pkt : Pkt} : Kept s (t.send src dst asid op pkt) :=
  h.same

theorem raise (h : Kept s t) {v : Nat} : Kept s (t.raise v) :=
  h.same

theorem free (h : Kept s t) : Kept s t.free.2 := h.same

theorem wake (h : Kept s t) {p : Park → Bool} : Kept s (t.wake p) := by
  refine h.mapSlices fun q hq => ?_
  split
  · exact .ite hq hq
  · exact hq

theorem breakResv (h : Kept s t) {key n : Nat} : Kept s (t.breakResv key n) := by
  unfold State.breakResv
  split
  · exact h
  · extract_lets hit
    refine h.mapSlices fun q hq => ?_
    split
    · exact hq
    · exact hq

theorem log (h : Kept s t) {type : Nat} {payload : List Byte} : Kept s (t.log type payload) :=
  h.same.raise.ite h.same

theorem notePoison (h : Kept s t) {sector cause : Nat} : Kept s (t.notePoison sector cause) :=
  h.same.log

theorem memoryAndSys (h : Kept s t) {m : Memory} {r : SysRegs} (hm : t.mem.wf = true → m.wf = true) :
    Kept s { t with mem := m, sys := r } := h.memory hm

theorem eqWaiting (h : Kept s t) {q : List (List Word × List Nat)} : Kept s { t with eqWaiting := q } := h.same

theorem eqWrite (h : Kept s t) {ws : List Word} : Kept s (t.eqWrite ws) := by
  unfold State.eqWrite
  extract_lets tail slot empty cleared regs written raised
  have broken : Kept s cleared := h.breakResv
  have kept : Kept s written := broken.memoryAndSys fun hm => mwriteBytes_wf _ _ hm
  have told : Kept s raised := kept.raise.ite kept
  split
  · exact told.notePoison.eqWaiting
  · exact told

theorem eqWriteThen (h : Kept s t) {ws : List Word} {vs : List Nat} : Kept s (t.eqWriteThen ws vs) :=
  h.eqWrite.foldl fun _ hu => hu.raise

theorem drainEq (h : Kept s t) {n : Nat} : Kept s (State.drainEq n t) := by
  induction n generalizing t with
  | zero => exact h
  | succ n ih =>
    rw [State.drainEq]
    split
    · exact h
    · split
      · exact h
      · exact ih h.same.eqWriteThen

theorem eqGo (h : Kept s t) : Kept s t.eqGo :=
  h.drainEq

theorem postThen (h : Kept s t) {ws : List Word} {vs : List Nat} : Kept s (t.postThen ws vs) :=
  h.same.eqGo

theorem post (h : Kept s t) {ws : List Word} : Kept s (t.post ws) :=
  h.postThen

theorem postReplay (h : Kept s t) {who : Waiter} {asid source slot acc va tpc code reason level : Nat} {lanes : Tab Pred} :
    Kept s (t.postReplay who asid source slot acc va tpc code reason level lanes).1 := by
  unfold State.postReplay
  extract_lets idx v
  have hv : Kept s v := h.same
  exact hv.post.pair

theorem setPoison (h : Kept s t) {sector cause asid : Nat} : Kept s (t.setPoison sector cause asid) :=
  h.notePoison.post

theorem findErrors (h : Kept s t) {asid : Nat} {sectors : List Nat} : Kept s (t.findErrors asid sectors) := by
  unfold State.findErrors
  refine h.foldl fun a hu => ?_
  split
  · exact hu.setPoison
  · exact hu

theorem policyRefused (h : Kept s t) {matter n : Nat} : Kept s (t.policyRefused matter n) :=
  h.log

theorem leaf (h : Kept s t) {core asid va : Nat} : Kept s (t.leaf core asid va).1 := by
  unfold State.leaf
  split
  · exact h
  · extract_lets c v
    have hv : Kept s v := h.findErrors
    split
    · exact h.modCore.pair
    · split
      · exact hv.pair
      · exact hv.modCore.modCluster.pair

theorem translate (h : Kept s t) {core asid va : Nat} {acc : Access} {system : Bool} :
    Kept s (t.translate core asid va acc system).1 := by
  unfold State.translate
  split
  · next _ v _ e =>
    exact h.leaf.fst e
  · next _ v2 _ e2 =>
    have hv2 := h.leaf.fst e2
    split
    · exact hv2
    · exact hv2

theorem sendMsg (h : Kept s t) {src core : Nat} {m : Msg} : Kept s (t.sendMsg src core m) :=
  h.send

theorem unitMsg (h : Kept s t) {src core asid kind srcCode : Nat} {tag : Word} {payload : List Word} :
    Kept s (t.unitMsg src core asid kind srcCode tag payload) :=
  h.sendMsg

theorem release (h : Kept s t) {p : Park → Option Bool} : Kept s (t.release p) := by
  refine h.mapSlices fun q hq => ?_
  split
  · exact Aligned.advance (x := q.2.unpark) hq
  · exact hq
  · exact hq

theorem nearInvalidate (h : Kept s t) {core : Nat} : Kept s (t.nearInvalidate core) := by
  unfold State.nearInvalidate
  extract_lets z
  have hz : Kept s z := h.modCore
  exact hz.same

theorem acquireNow (h : Kept s t) {core scope : Nat} : Kept s (t.acquireNow core scope) :=
  h.nearInvalidate.ite h

theorem wakeSection (h : Kept s t) {domain key : Nat} : Kept s (t.wakeSection domain key) :=
  h.wake.same

theorem abandonIf (h : Kept s t) {p : Holder → Bool} : Kept s (t.abandonIf p) := by
  unfold State.abandonIf
  refine h.foldl fun a hu => ?_
  split
  · split
    · exact hu.same.post.wakeSection.ite hu
    · exact hu

theorem evalBarrier (h : Kept s t) {core id ret : Nat} : Kept s (t.evalBarrier core id ret) :=
  h.modCore.release.ite h

theorem evalTeamBarrier (h : Kept s t) {c id ret : Nat} : Kept s (t.evalTeamBarrier c id ret) :=
  (((h.foldl fun _ hu => hu.acquireNow).modCluster).release).ite h

theorem evalRendezvous (h : Kept s t) {core slot : Nat} : Kept s (t.evalRendezvous core slot) :=
  (h.foldl fun _ hu => hu.alterSlice).ite h

theorem groupGone (h : Kept s t) {grid : Nat} {killed : Bool} : Kept s (t.groupGone grid killed) := by
  unfold State.groupGone
  split
  · exact h.same
  · exact h

theorem noteLeave (h : Kept s t) {asid : Nat} : Kept s (t.noteLeave asid) :=
  h.ite h.modCtx

theorem groupEnd (h : Kept s t) {g : Nat} : Kept s (t.groupEnd g) := by
  unfold State.groupEnd
  split
  · exact h
  · exact h.ite h.modGroup.groupGone.modCore.noteLeave

theorem retire (h : Kept s t) {core slot : Nat} : Kept s (t.retire core slot) := by
  unfold State.retire
  extract_lets x bound z v v2 v3 v4 v5 v6
  have hv : Kept s v := h.setSlice fun hs => h.slice hs
  have hv2 : Kept s v2 := hv.modCore
  have hv3 : Kept s v3 := hv2.foldl fun _ hu => hu.dropOp.alterSlice
  have hv4 : Kept s v4 := hv3.abandonIf
  have hv5 : Kept s v5 := hv4.foldl fun _ hu => hu.post
  have hv6 : Kept s v6 := hv5.groupEnd
  split
  · exact hv5.noteLeave
  · split
    · exact hv6.evalRendezvous
    · exact hv6

theorem killGroup (h : Kept s t) {g : Nat} : Kept s (t.killGroup g) := by
  unfold State.killGroup
  split
  · exact h
  · exact h.modGroup.foldl fun _ hu => hu.alterSlice.retire.ite hu

theorem report (h : Kept s t) {core slot code : Nat} {pc : Addr} {lanes gang : Pred} {addr : Nat} :
    Kept s (t.report core slot code pc lanes gang addr) := by
  unfold State.report
  exact h.modCore

theorem haltGroup (h : Kept s t) {core slot kind : Nat} : Kept s (t.haltGroup core slot kind) := by
  unfold State.haltGroup
  extract_lets x v
  have hv : Kept s v := h.modGroup
  split
  · exact h.alterSlice
  · split
    · exact h
    · exact hv.foldl fun _ hu => hu.alterSlice.ite hu

theorem trapSlice (h : Kept s t) {core slot : Nat} {f : FaultRec} {pc : Addr} {lanes gang : Pred} {event : Nat} :
    Kept s (t.trapSlice core slot f pc lanes gang event) := by
  unfold State.trapSlice
  extract_lets x live y v v2
  have hv : Kept s v := h.post
  have hv2 : Kept s v2 := hv.alterSlice
  split
  · exact h.setSlice fun hs => h.slice hs
  · split
    · exact h.setSlice fun hs => h.slice hs
    · exact hv2.alterSlice.retire.ite hv2.killGroup

theorem trap (h : Kept s t) {core : Nat} {slots : List Nat} {f : FaultRec} {pc next : Addr} :
    Kept s (t.trap core slots f pc next) := by
  unfold State.trap
  extract_lets gang tpc asid event
  split
  · split
    · exact h
    · exact h.report.haltGroup
  · exact h.same.foldl fun _ hu => hu.trapSlice.ite hu

/-! ### Operands: checks, translation, resolution (Machine/Operands) -/

theorem setQueue (h : Kept s t) {core q : Nat} {es : List (List Word)} : Kept s (t.setQueue core q es) :=
  h.modCore.wake

theorem popQ (h : Kept s t) {core slot n : Nat} : BodyEndsWith s (t.popQ core slot n) := by
  unfold State.popQ
  split
  · trivial
  · split
    · trivial
    · exact h.setQueue

theorem popN (h : Kept s t) {core slot n : Nat} : BodyEndsWith s (t.popN core slot n) := by
  unfold State.popN
  extract_lets x p
  split
  · trivial
  · split
    · exact h
    · split
      · trivial
      · exact h.setSlice fun hs => h.slice hs

theorem laned {α : Type} {q : α → Prop} {x : Except Stop α} (h : Leaves (StopKept s) q x) {y : Slice} {slot : Nat} {g : BitVec 4} :
    Leaves (StopKept s) q (y.laned slot g x) := by
  unfold Slice.laned
  split
  · trivial
  · exact h

theorem operandB (h : Kept s t) {core slot : Nat} {g : BitVec 4} {b : BitVec 6} {x : BitVec 1} :
    BodyEndsWith s (t.operandB core slot g b x) := by
  unfold State.operandB
  extract_lets y n
  have queued : BodyEndsWith s ((y.laned slot g (t.popQ core slot (n - 32))).map fun (s, e) => (s, fun l => e.getD l 0)) :=
    (laned h.popQ).map fun _ hp => hp
  have streamed : BodyEndsWith s ((y.laned slot g (t.popN core slot (n - 40))).map fun (s, e) => (s, fun l => e.getD l 0)) :=
    (laned h.popN).map fun _ hp => hp
  refine .ite h (.ite h (.ite (.ite h queued) (.ite (.ite h streamed) (.ite h (.ite h h)))))

theorem gangTrap (h : Kept s t) {len : Nat} {f : FaultRec} : Kept s (t.gangTrap len f) :=
  h.trap

theorem parkGang (h : Kept s t) {o : Nat → Park} : Kept s (t.parkGang o) :=
  h.same.foldl fun _ hu => hu.alterSlice

theorem walked (h : Kept s u) : Kept s (t.walked u) :=
  h.foldl fun _ hv => hv.alterSlice

theorem countIssue (h : Kept s t) : Kept s t.countIssue :=
  h.foldl fun _ hu => hu.alterSlice

theorem advanceAll (h : Kept s t) {len : Nat} : Kept s (t.advanceAll len) :=
  h.foldl fun _ hu => hu.modSlice fun _ hx => hx.advance

theorem gangOperandB (h : Kept s t) {g : BitVec 4} {b : BitVec 6} {x : BitVec 1} : BodyEndsWith s (t.gangOperandB g b x) := by
  unfold State.gangOperandB
  split
  · trivial
  · exact Leaves.foldlM h fun p _ hp => hp.operandB.map fun _ hr => hr

theorem openOp (h : Kept s t) {o : Op} : Kept s (t.openOp o) :=
  h.same.foldl fun _ hu => hu.alterSlice

theorem answer (h : Kept s t) {op slot d : Nat} {ws : List Nat} : Kept s (t.answer op slot d ws) :=
  h.modOp

theorem lanewise (h : Kept s t) {core slot : Nat} {g : BitVec 4} {d a : Nat} {b : Nat → Word}
    {f : Word → Word → Word → Word → Word × BitVec 5} :
    Kept s (lanewise t core slot g d a b f) :=
  h.setSlice fun hs => (h.slice hs).writeLanes

/-! ### CLUSTER memory (Machine/ClusterMem) -/

theorem poolLow (h : Kept s t) {c why : Nat} : Kept s (t.poolLow c why) :=
  h.modCluster.post

theorem poolChanged (h : Kept s t) {c : Nat} : Kept s (t.poolChanged c) :=
  h.wake.modCluster.poolLow.ite (h.wake.modCluster.ite h.wake)

theorem writeBack (h : Kept s t) {c b : Nat} : Kept s (t.writeBack c b) :=
  h.modCluster.poolChanged

theorem evictBlock (h : Kept s t) {c b : Nat} : Kept s (t.evictBlock c b) :=
  h.modCluster.writeBack.ite h.modCluster.poolChanged

theorem cleanBlock (h : Kept s t) {c b : Nat} {leave : Bool} : Kept s (t.cleanBlock c b leave) :=
  (h.modCluster.writeBack.ite h.modCluster).ite h

theorem touchBlock (h : Kept s t) {c b : Nat} {write : Bool} {keep : List Nat} : KeptIf s (t.touchBlock c b write keep) := by
  unfold State.touchBlock
  extract_lets k dirty put
  have kept {v : State} (hv : Kept s v) : Kept s (put v) := hv.modCluster.poolChanged.ite hv.modCluster
  refine .ite (kept h).keptIf ?_
  split
  · exact (kept h.evictBlock).keptIf
  · exact keptIf_none

theorem touchBlocks (h : Kept s t) {c : Nat} {write : Bool} {bs : List Nat} : KeptIf s (t.touchBlocks c write bs) := by
  have each (keep : List Nat) : ∀ (l : List Nat) {v : State}, Kept s v →
      KeptIf s (l.foldlM (fun (v : State) b => v.touchBlock c b write keep) v) := by
    intro l
    induction l with
    | nil => exact fun hv => hv.keptIf
    | cons b l ih =>
      intro v hv u e
      rw [List.foldlM_cons] at e
      obtain ⟨w, touched, rest⟩ := Option.bind_eq_some_iff.1 e
      exact ih (hv.touchBlock _ touched) u rest
  exact each bs bs h

/-! ### Gangs (Machine/Gang) -/

theorem members (h : Kept s t) {f : Slice → Slice} (hf : ∀ x, (f x).trapvec = x.trapvec := by exact fun _ => rfl) :
    Kept s (t.members f) :=
  h.foldl fun _ hu => hu.alterSlice hf

theorem gangPred (h : Kept s t) {g : BitVec 4} {d : Nat} {f : Nat × Nat → Bool} : Kept s (t.gangPred g d f) :=
  h.foldl fun _ hu => hu.modSlice fun _ hx => hx.writePred

theorem gangV (h : Kept s t) {g : BitVec 4} {d : Nat} {f : Nat × Nat → Word} : Kept s (t.gangV g d f) :=
  h.foldl fun _ hu => hu.modSlice fun _ hx => hx.writeLanes

/-! ### Memory, translation and requests to it (Machine/Memory) -/

theorem losePeer (h : Kept s t) {d : Nat} : Kept s (t.losePeer d) :=
  h.same

theorem write (h : Kept s t) {key n v : Nat} : Kept s (t.write key n v) :=
  h.losePeer.ite (h.breakResv.memory fun hm => mwrite_wf _ _ _ hm)

theorem writeBytes (h : Kept s t) {key : Nat} {bs : List Byte} : Kept s (t.writeBytes key bs) :=
  h.losePeer.ite (h.breakResv.memory fun hm => mwriteBytes_wf _ _ hm)

theorem storeLane (h : Kept s t) {n : Nat} {l : LaneAcc} : Kept s (t.storeLane n l) :=
  h.write.ite h.write

theorem setFe (h : Kept s t) {w n : Nat} {empty : Bool} : Kept s (t.setFe w n empty) :=
  h.same.wake

theorem clearPoison (h : Kept s t) {sector : Nat} : Kept s (t.clearPoison sector) :=
  h.same

theorem dcacheIn (h : Kept s t) {l : Nat × Bool × Bool} : Kept s (t.dcacheIn l) :=
  h.same

theorem dcacheFor (h : Kept s t) {line cp : Nat} {store : Bool} : Kept s (t.dcacheFor line cp store) := by
  unfold State.dcacheFor
  split
  · exact h.dcacheIn
  · exact h.ite h.dcacheIn

theorem performLane (h : Kept s t) {op core : Nat} {f : AccForm} {n : Nat} {l : LaneAcc} :
    Kept s (t.performLane op core f n l).1 := by
  unfold State.performLane
  split
  · exact h
  · exact h.alterSlice.pair
  · exact h.storeLane.pair
  · extract_lets o
    split
    · exact h.write.pair
    · exact h
  · extract_lets ok v v2
    have hv : Kept s v := h.write.ite h
    have hv2 : Kept s v2 := hv.dcacheFor.ite hv
    exact hv2.alterSlice.pair
  · exact (h.breakResv.memory fun hm => mclear_wf _ _ hm).pair
  · exact h.setFe.pair
  · exact h.setFe.pair
  · exact h
  · exact h
  · exact h

theorem performAcc (h : Kept s t) {op core : Nat} {a : Machine.Acc} : Kept s (t.performAcc op core a) := by
  unfold State.performAcc
  refine h.foldl fun a hu => ?_
  split
  · exact hu.modOp
  · extract_lets r
    have hr : Kept s r.1 := hu.performLane
    exact hr.modOp

theorem lessLeft (h : Kept s t) {op : Nat} : Kept s (t.lessLeft op) :=
  h.modOp

theorem freeEntries (h : Kept s t) {op core n : Nat} : Kept s (t.freeEntries op core n) :=
  h.ite h.modOp.wake

theorem stale (h : Kept s t) {core : Nat} {p : Nat → Bool} : Kept s (t.stale core p) :=
  h.same

theorem nearStore (h : Kept s t) {core n : Nat} {l : LaneAcc} : Kept s (t.nearStore core n l) :=
  h.stale.ite h.stale.modCore

theorem nearForget (h : Kept s t) {core sector : Nat} : Kept s (t.nearForget core sector) :=
  h.stale.modCore

theorem nearDropAll (h : Kept s t) {cores : List Nat} {line : Nat} : Kept s (t.nearDropAll cores line) :=
  h.foldl fun _ hu => hu.ite hu.stale.modCore

theorem nearLine (h : Kept s t) {core : Nat} {a : Machine.Acc} : Kept s (t.nearLine core a) :=
  h.nearDropAll

theorem modPeer (h : Kept s t) {d : Nat} {f : Peer → Peer} : Kept s (t.modPeer d f) :=
  h.same

theorem numbered (h : Kept s t) {d : Nat} {f : Flight} : Kept s (t.numbered d f) :=
  h.modPeer.modOp

theorem supersede (h : Kept s t) {core : Nat} {ids sectors : List Nat} : Kept s (t.supersede core ids sectors) :=
  h.same

theorem fetched (h : Kept s t) {op : Nat} {a : Machine.Acc} : Kept s (t.fetched op a) :=
  h.modOp

theorem performGlobal (h : Kept s t) {f : Flight} {a : Machine.Acc} {sharers : List (Nat × Machine.Acc)} :
    Kept s (t.performGlobal f a sharers) := by
  unfold State.performGlobal
  extract_lets op core line own v v2 v3 v4 v5
  have hv : Kept s v := h.supersede
  have hv2 : Kept s v2 := hv.findErrors
  have hv3 : Kept s v3 := hv2.dcacheFor.ite hv2
  have hv4 : Kept s v4 := hv3.performAcc.lessLeft.freeEntries
  have hv5 : Kept s v5 := hv4.foldl fun _ hu => hu.performAcc.lessLeft.fetched
  split
  · exact h.nearLine.lessLeft
  · exact h.same.lessLeft
  · exact h.same.nearLine.lessLeft
  · refine Kept.fetched ?_
    exact hv5.foldl fun a hu => hu.clearPoison

theorem modUnit (h : Kept s t) {u : Nat} {f : AUnit → AUnit} : Kept s (t.modUnit u f) :=
  h.same

theorem leaveFlight (h : Kept s t) {f : Flight} : Kept s (t.leaveFlight f) :=
  h.ite h.dropFlight

theorem arriveGlobal (h : Kept s t) {f : Flight} {a : Machine.Acc} {sharers : List (Nat × Machine.Acc)} :
    Kept s (t.arriveGlobal f a sharers) := by
  unfold State.arriveGlobal
  split
  · exact h.modUnit
  · exact h.leaveFlight.performGlobal

theorem arriveReserve (h : Kept s t) {f : Flight} {a : Machine.Acc} : Kept s (t.arriveReserve f a) :=
  h.modUnit.ite h.same

theorem forward (h : Kept s t) {u : Nat} {ids : List Nat} : Kept s (State.forward u ids t) := by
  induction ids generalizing t with
  | nil => exact h
  | cons i rest ih =>
    rw [State.forward]
    split
    · split
      · exact h.same
      · exact ih h.arriveGlobal
      · exact ih h
    · exact ih h

theorem applyUnit (h : Kept s t) {unit : Nat} : Kept s (t.applyUnit unit) := by
  unfold State.applyUnit
  split
  · exact h
  · split
    · exact h
    · split
      · extract_lets op v v2
        have hv : Kept s v := h.modUnit.findErrors
        have hv2 : Kept s v2 := hv.dcacheFor.ite hv
        exact hv2.leaveFlight.performAcc.lessLeft.freeEntries
      · exact h

theorem passUnit (h : Kept s t) {unit : Nat} : Kept s (t.passUnit unit) := by
  unfold State.passUnit
  split
  · exact h
  · exact h.same.forward.eqGo.ite h

theorem finishUnit (h : Kept s t) {n unit : Nat} : Kept s (State.finishUnit n unit t) := by
  induction n generalizing t with
  | zero => exact h
  | succ n ih =>
    rw [State.finishUnit]
    split
    · exact h
    · exact ih (h.passUnit.ite h.applyUnit)

theorem settle (h : Kept s t) {p : AUnit → Bool} : Kept s (t.settle p) :=
  h.foldl fun _ hu => hu.finishUnit

theorem settleRange (h : Kept s t) {key n : Nat} : Kept s (t.settleRange key n) :=
  h.settle

theorem settlePair (h : Kept s t) {d : Nat} : Kept s (t.settlePair d) :=
  h.settle

theorem reachHome (h : Kept s t) {key n : Nat} : Kept s (t.reachHome key n) :=
  h.settlePair.same.ite h.settleRange

theorem comeTo (h : Kept s t) {asid key n : Nat} : Kept s (t.comeTo asid key n) :=
  h.ite (h.settleRange.ite h.settleRange.findErrors)

theorem reachCtx (h : Kept s t) {asid : Nat} : Kept s (t.reachCtx asid) :=
  h.comeTo

theorem unitStore (h : Kept s t) {asid key : Nat} {bs : List Byte} : Kept s (t.unitStore asid key bs) := by
  unfold State.unitStore
  extract_lets n v
  have hv : Kept s v := h.reachHome.findErrors
  exact hv.writeBytes.foldl fun a hu => hu.clearPoison

theorem walkNow (h : Kept s t) {asid va : Nat} : Kept s (t.walkNow asid va) := by
  unfold State.walkNow
  split
  · exact h
  · extract_lets v
    have hv : Kept s v := by
      unfold v
      refine h.settleRange.foldl fun a hu => ?_
      split
      · exact hu.settleRange
      · exact hu
    exact hv.findErrors

theorem coreWalk (h : Kept s t) {core asid va : Nat} : Kept s (t.coreWalk core asid va) :=
  h.ite h.walkNow

theorem translateCore (h : Kept s t) {core asid va : Nat} {acc : Access} {system : Bool} :
    Kept s (t.translateCore core asid va acc system).1 :=
  h.coreWalk.translate

theorem translateNow (h : Kept s t) {asid va : Nat} {acc : Access} : Kept s (t.translateNow asid va acc).1 := by
  unfold State.translateNow
  extract_lets v
  have hv : Kept s v := h.walkNow
  exact hv

theorem performStc (h : Kept s t) {f : Flight} : Kept s (t.performStc f) := by
  unfold State.performStc
  extract_lets op rs all lanes v v2 v3 v4 v5
  have hv : Kept s v := h.settle
  have hv2 : Kept s v2 := hv.findErrors
  have hv3 : Kept s v3 := hv2.foldl fun _ hu => hu.dcacheFor
  have hv4 : Kept s v4 := hv3.foldl fun _ hu => hu.leaveFlight
  have hv5 : Kept s v5 := by
    unfold v5
    clear_value rs
    split
    · exact hv4
    · exact hv4.performAcc
  exact hv5.foldl fun _ hu => hu.lessLeft.freeEntries

theorem arriveRequest (h : Kept s t) {f : Flight} {a : Machine.Acc} {sharers : List (Nat × Machine.Acc)} :
    Kept s (t.arriveRequest f a sharers) :=
  h.performStc.ite h.arriveGlobal

theorem performLwin (h : Kept s t) {f : Flight} {a : Machine.Acc} : Kept s (t.performLwin f a) :=
  (h.foldl fun _ hu => hu.performAcc.ite hu.modOp).lessLeft

theorem performCluster (h : Kept s t) {op core : Nat} {a : Machine.Acc} : Kept s (t.performCluster op core a) := by
  unfold State.performCluster
  extract_lets c blocks live
  split
  · exact h.foldl fun _ hu => hu.cleanBlock
  · exact h.foldl fun _ hu => hu.cleanBlock
  · exact h.foldl fun _ hu => hu.cleanBlock
  · exact h.performAcc.foldl fun _ hu => hu.modOp

theorem deferLate (h : Kept s t) {core slot : Nat} {f : FaultRec} {asid : Nat} {pc : Addr} :
    Kept s (t.deferLate core slot f asid pc) :=
  h.post

theorem defer (h : Kept s t) {core slot : Nat} {f : FaultRec} {asid : Nat} {pc : Addr} : Kept s (t.defer core slot f asid pc) := by
  unfold State.defer
  extract_lets x
  split
  · exact h.setSlice fun hs => h.slice hs
  · exact h.deferLate

theorem finishOp (h : Kept s t) {o : Op} : Kept s (t.finishOp o) := by
  unfold State.finishOp
  split
  · exact h.modOp
  · extract_lets acq v v2 v3 v4 v5 v6
    have hv : Kept s v := h.dropOp
    have hv2 : Kept s v2 := hv.foldl fun _ hu => hu.modSlice fun _ hx => hx.endOp
    have hv3 : Kept s v3 := hv2.foldl fun _ hu => hu.foldl fun _ hu => hu.defer
    have hv4 : Kept s v4 := hv3.foldl fun _ hu => hu.foldl fun _ hu => hu.deferLate
    have hv5 : Kept s v5 := (hv4.foldl fun _ hu => hu.modCore).ite hv4
    have hv6 : Kept s v6 := hv5.ite hv5.wake
    exact hv6.nearInvalidate.ite hv6

/-! ### Memory operations under way (Machine/MemoryOps) -/

theorem place (h : Kept s t) {core slot space n : Nat} {acc : Access} {noSys : Bool} {a : Int} :
    Kept s (t.place core slot space n acc noSys a).1 := by
  have step {c : Prop} [Decidable c] {p q : State × Place} (hp : Kept s p.1) (hq : Kept s q.1) : Kept s (if c then p else q).1 := by
    split
    · exact hp
    · exact hq
  unfold State.place
  extract_lets x m bad o c
  refine step h (step h ?_)
  split
  · exact step h (step h h)
  · exact step h (step h h)
  · exact step h (step h h)
  · refine step h ?_
    split
    · next e => exact h.translateCore.fst e
    · next e => exact step h (h.translateCore.fst e)

theorem resolve (h : Kept s t) {space n : Nat} {acc : Access} {noSys : Bool} {ts : List Tgt} :
    Kept s (t.resolve space n acc noSys ts).s :=
  List.foldlRecOn (motive := fun r : Resolved => Kept s r.s) ts _ h fun r hr x _ => by
    split
    · next e => exact hr.place.fst e
    · next e => exact hr.place.fst e

theorem parkReplay (h : Kept s t) {x : Tgt} {acc : Access} {code reason level : Nat} {lanes : Tab Pred} :
    Kept s (t.parkReplay x acc code reason level lanes) :=
  h.postReplay.members

theorem memStop (h : Kept s t) {acc : Access} {bad : List (Tgt × Place)} : BodyEnds s (t.memStop acc bad) := by
  unfold State.memStop
  split
  · exact h
  · extract_lets lanes
    split
    · exact h
    · exact h.parkReplay
    · exact h

theorem performNow (h : Kept s t) {a : Machine.Acc} {d : Dest} : Kept s (t.performNow a d) := by
  unfold State.performNow
  extract_lets core r
  have hr : Kept s r.1 := h.foldlPair fun _ _ hp => hp.performLane
  exact hr.foldl fun _ hu => hu.modSlice fun _ hx => hx.apply

theorem localAccess (h : Kept s t) {ord : Nat} {a : Machine.Acc} {d : Dest} : BodyEnds s (t.localAccess ord a d) := by
  unfold State.localAccess
  extract_lets store cond words
  split
  · trivial
  · exact (h.performNow.foldl fun _ hu => hu.setFe).ite ((h.performNow.foldl fun _ hu => hu.setFe).ite h.performNow)

theorem noteAcquire (h : Kept s t) {o : Op} {acq : Bool} {scope : Nat} : Kept s (t.noteAcquire o acq scope) :=
  (h.foldl fun _ hu => hu.alterSlice).ite h

theorem lwinAccess (h : Kept s t) {g : BitVec 4} {k : MemKind} {a : Machine.Acc} {acq : Bool} {scope : Nat} :
    Kept s (t.lwinAccess g k a acq scope) :=
  h.openOp.noteAcquire.foldl fun _ hu => hu.send

theorem parkPool (h : Kept s t) {c : Nat} {fresh : LaneAcc → Bool} {lanes : List LaneAcc} : BodyEnds s (t.parkPool c fresh lanes) := by
  unfold State.parkPool
  extract_lets core waiting addr since v
  have hv : Kept s v := h.parkGang.members
  exact .ite trivial (hv.ite hv.poolLow)

theorem clusterAccess (h : Kept s t) {g : BitVec 4} {k : MemKind} {a : Machine.Acc} {acq : Bool} {scope : Nat} :
    BodyEnds s (t.clusterAccess g k a acq scope) := by
  unfold State.clusterAccess
  extract_lets core c block blocks write kc fresh hit
  refine .ite trivial (.ite h.parkPool ?_)
  split
  · trivial
  · next e =>
    extract_lets now o o2 v v2
    have hv : Kept s v := (h.touchBlocks _ e).openOp.noteAcquire
    have hv2 : Kept s v2 := hv.performCluster.ite hv.send
    exact hv2.advanceAll.ok

theorem shareFetch (h : Kept s t) {o : Op} {id : Nat} {a : Machine.Acc} {sector : Nat} : Kept s (t.shareFetch o id a sector) :=
  h.same.modOp

theorem openResv (h : Kept s t) {op : Nat} {a : Machine.Acc} : Kept s (t.openResv op a) := by
  unfold State.openResv
  extract_lets core prune v
  have pruned : KeepsAligned prune := fun _ hx => .ite hx hx
  have hv : Kept s v := h.foldl fun _ hu => hu.modSlice pruned
  exact h.ite (hv.foldl fun _ hu => hu.alterSlice)

/-- A lane performed on the near cache's data leaves memory. -/
theorem nearRead (h : Kept s t) {m : Memory} {op core n : Nat} {f : AccForm} {l : LaneAcc} :
    Kept s { (({ t with mem := m } : State).performLane op core f n l).1 with mem := t.mem } :=
  have lane : Kept { t with mem := m } (({ t with mem := m } : State).performLane op core f n l).1 := (refl _).performLane
  ⟨h.mem, lane.slices ∘ h.slices, lane.unmoved.trans h.unmoved⟩

theorem globalLoad (h : Kept s t) {m : MemF} {k : MemKind} {a : Machine.Acc} {acq : Bool} : BodyEnds s (t.globalLoad m k a acq) := by
  unfold State.globalLoad
  extract_lets core scope bypass plain kc sectors near shared need part parts fresh fill o o2 o3 v v2 v3 v4
  have hv : Kept s v := h.openResv.openOp.noteAcquire
  have hv2 : Kept s v2 := hv.foldl fun _ hu => hu.modCore
  have hv3 : Kept s v3 := hv2.foldl fun l hu => by
    extract_lets r
    exact modOp hu.nearRead
  have hv4 : Kept s v4 := hv3.foldl fun c hu => by
    split
    · exact hu.shareFetch
    · exact hu
  exact .ite trivial (.ite trivial (.ite trivial (hv4.foldl fun _ hu => hu.send).advanceAll.ok))

theorem globalPosted (h : Kept s t) {m : MemF} {k : MemKind} {a : Machine.Acc} : BodyEnds s (t.globalPosted m k a) := by
  unfold State.globalPosted
  extract_lets core part parts dst far o o2 v v2
  have hv : Kept s v := h.openOp
  have hv2 : Kept s v2 := by
    unfold v2
    split
    · exact hv.foldl fun _ hu => hu.nearStore
    · exact hv.foldl fun _ hu => hu.foldl fun _ hw => hw.nearStore
    · exact hv
  exact .ite trivial (hv2.foldl fun _ hu => hu.send).advanceAll.ok

/-! ### Atomics (Machine/Atomic) -/

theorem globalAtomic (h : Kept s t) {m : MemF} {k : MemKind} {a : Machine.Acc} : BodyEnds s (t.globalAtomic m k a) := by
  unfold State.globalAtomic
  extract_lets core sys own parts dst need o o2 v v2 pkt v3 v4
  have hv : Kept s v := h.openOp.noteAcquire
  have hv2 : Kept s v2 := hv.foldl fun _ hu => hu.nearForget
  have hv3 : Kept s v3 := hv2.foldl fun _ hu => hu.send
  have hv4 : Kept s v4 := hv3.ite hv3.send
  exact .ite trivial (.ite trivial (.ite trivial hv4.advanceAll.ok))

/-! ### Thread queues (Machine/Queue) -/

theorem popAll (h : Kept s t) {n : Nat} {es : List (List Word)} {ts : List Nat} {f : Slice → List Word → Slice}
    (hf : ∀ w, KeepsAligned (f · w)) : Kept s (t.popAll n es ts f) :=
  h.setQueue.foldl fun _ hu => hu.modSlice (hf _)

/-! ### Barriers (Machine/Barrier) -/

theorem setBarrier (h : Kept s t) {core id : Nat} {b : Barrier} : Kept s (t.setBarrier core id b) :=
  h.modCore

theorem arrive (h : Kept s t) {core slot id ret : Nat} : Kept s (t.arrive core slot id ret) :=
  h.setBarrier.evalBarrier

theorem skipInactive (h : Kept s t) {g : BitVec 4} : Kept s (t.skipInactive g) :=
  h.foldl fun _ hu => hu.modSlice fun _ hx => Aligned.ite hx.advance hx

theorem arriveParked (h : Kept s t) {core n ret : Nat} {ts : List Nat} : Kept s (t.arriveParked core n ret ts) :=
  h.foldl fun _ hu => hu.alterSlice.ite hu.alterSlice.arrive

theorem arriveOn (h : Kept s t) {core n ret t1 : Nat} : Kept s (t.arriveOn core n ret t1) :=
  (h.modSlice fun _ hx => hx.advance).arrive

theorem arriveEach (h : Kept s t) {core n ret : Nat} {ts : List Nat} : Kept s (t.arriveEach core n ret ts).1 :=
  h.foldlPair fun _ _ hp => by
    split
    · exact hp
    · exact hp.arriveOn

/-! ### Cache maintenance (Machine/CacheMaint) -/

theorem prefetch (h : Kept s t) {m : MemF} {k : MemKind} {a : Machine.Acc} : Kept s (t.prefetch m k a) :=
  h.openOp.foldl fun _ hu => hu.send

theorem placeRun (h : Kept s t) {t1 : Tgt} {space n : Nat} : Kept s (t.placeRun t1 space n).1 := by
  unfold State.placeRun
  extract_lets core crosses
  split
  · exact h
  · split
    · next _ v _ e =>
      have hv := h.place.fst e
      extract_lets fails last
      split
      · split
        · exact hv
        · exact hv
      · exact hv
    · exact h.place

/-! ### Completion and issue (Machine/Issue) -/

theorem visitHold (h : Kept s t) {core slot : Nat} : Kept s (t.visitHold core slot) := by
  unfold State.visitHold
  extract_lets x
  split
  · split
    · exact h
    · split
      · refine h.foldl fun a hu => ?_
        extract_lets y
        split
        · exact hu.setSlice fun hs => hu.slice hs
        · exact hu
      · split
        · exact h.setSlice fun hs => h.slice hs
        · exact h.setSlice fun hs => h.slice hs
  · exact h

theorem icacheFill (h : Kept s t) {core asid key : Nat} : Kept s (t.icacheFill core asid key) := by
  unfold State.icacheFill
  extract_lets line v
  have hv : Kept s v := h.reachHome.findErrors
  exact h.ite hv.modCore

theorem fetchWord (h : Kept s t) {core asid : Nat} {system : Bool} {a : Addr} : Kept s (t.fetchWord core asid system a).1 := by
  unfold State.fetchWord
  split
  · next _ v _ e =>
    exact h.translateCore.fst e
  · next _ v2 _ e2 =>
    have hv2 := h.translateCore.fst e2
    extract_lets v3
    have hv3 : Kept s v3 := hv2.icacheFill
    exact hv3

theorem fetchFail (h : Kept s t) {tpc va : Addr} {a : XFail} : Kept s (t.fetchFail tpc va a) := by
  unfold State.fetchFail
  split
  · extract_lets core lead
    split
    · next _ v _ e =>
      have hv := h.postReplay.fst e
      exact hv.foldl fun _ hu => hu.alterSlice

theorem trapAlone (h : Kept s t) {core slot : Nat} {f : FaultRec} : Kept s (t.trapAlone core slot f) :=
  h.trap

theorem takeOverrun (h : Kept s t) {core slot : Nat} : KeptIf s (t.takeOverrun core slot) := by
  unfold State.takeOverrun
  refine keptIf_none.ite ?_
  split
  · extract_lets v
    have hv : Kept s v := h.alterSlice
    exact hv.trapAlone.keptIf
  · exact keptIf_none

theorem takeRunLimit (h : Kept s t) {core slot : Nat} : Kept s (t.takeRunLimit core slot) :=
  h.alterSlice.trapAlone

theorem takeDeferred (h : Kept s t) {core slot : Nat} {f : FaultRec} : Kept s (t.takeDeferred core slot f) :=
  h.alterSlice.trapAlone

/-! ### Paths and flow (Machine/Flow) -/

theorem openHolds (h : Kept s t) {old : List (Nat × Option Addr × BitVec 8)} : Kept s (t.openHolds old) := by
  unfold State.openHolds
  extract_lets core at_ all set
  split
  · exact h
  · refine h.foldl fun a hu => ?_
    split
    · exact hu.modSlice fun _ hx => Aligned.ite hx hx
    · exact hu

theorem exitMember (h : Kept s t) {core slot : Nat} {m : Pred} : Kept s (t.exitMember core slot m) := by
  unfold State.exitMember
  extract_lets x v v2
  have hv : Kept s v := h.setSlice fun hs => (h.slice hs).exitLanes
  have hv2 : Kept s v2 := hv.abandonIf
  exact hv2.retire.ite hv2

/-! ### Copies and streams (Machine/CopyStream) -/

theorem endBind (h : Kept s t) {core slot : Nat} {p : Port} : Kept s (t.endBind core slot p) :=
  h.dropOp.alterSlice

/-! ### Deques (Machine/Deque) -/

theorem stealNone (h : Kept s t) {o : Op} {slot d v : Nat} {ring : Bool} : Kept s (t.stealNone o slot d v ring) := by
  unfold State.stealNone
  extract_lets own hops
  split
  · exact h.send
  · exact h.answer

theorem stealAt (h : Kept s t) {o : Op} {slot d v : Nat} {ring : Bool} : Kept s (t.stealAt o slot d v ring) := by
  unfold State.stealAt
  extract_lets q
  split
  · exact h.modCore.answer
  · exact h.stealNone

theorem takeBack (h : Kept s t) {core : Nat} : Kept s (t.takeBack core) := by
  unfold State.takeBack
  extract_lets q
  split
  · extract_lets v
    have hv : Kept s v := h.modCore
    split
    · exact hv.modOp.stealNone
    · exact hv
  · exact h

theorem endLent (h : Kept s t) : Kept s t.endLent :=
  h.same

/-! ### Memory steps (Machine/EvMemory) -/

theorem poolFault (h : Kept s t) {core slot : Nat} : Kept s (t.poolFault core slot) := by
  unfold State.poolFault
  split
  · exact h.trap
  · exact h

theorem dropIcache (h : Kept s t) {cores lines : List Nat} : Kept s (t.dropIcache cores lines) :=
  h.foldl fun _ hu => hu.ite hu.modCore

/-! ### Copy engine steps (Machine/EvCopy) -/

theorem engineRead (h : Kept s t) {asid key n cp : Nat} : Kept s (t.engineRead asid key n cp).1 := by
  unfold State.engineRead
  split
  · exact h
  · extract_lets v v2
    have hv : Kept s v := h.reachHome.findErrors
    have hv2 : Kept s v2 := hv.dcacheFor.ite hv
    exact hv2

theorem cleanByte (h : Kept s t) {e seq key : Nat} : Kept s (t.cleanByte e seq key) :=
  h.ite (h.same.clearPoison.ite h.same.same)

theorem endClean (h : Kept s t) {e : Nat} {r : CopyReq} : Kept s (t.endClean e r) :=
  h.same.findErrors

theorem engineWrite (h : Kept s t) {e : Nat} {r : CopyReq} {key n v cp : Nat} {poisoned : Bool} :
    Kept s (t.engineWrite e r key n v cp poisoned) := by
  unfold State.engineWrite
  split
  · exact h.ite ((h.write.foldl fun _ hu => hu.setFe).ite h.write)
  · extract_lets v2 v3
    have hv2 : Kept s v2 := h.reachHome.write
    have hv3 : Kept s v3 := hv2.dcacheFor.ite hv2
    exact (hv3.foldl fun _ hu => hu.setPoison).ite (hv3.foldl fun _ hu => hu.cleanByte)

theorem engineFail (h : Kept s t) {e : Nat} {r : CopyReq} {acc : Access} {elem : Nat} {a : Int} {space : Nat} {p : EPlace} :
    Kept s (reached (t.engineFail e r acc elem a space p)) := by
  cases p with
  | err st => exact h
  | far code reason level => exact h.postReplay
  | key k => exact h

theorem engineBlock (h : Kept s t) {e : Nat} {r : CopyReq} {key : Nat} {write : Bool} {elem : Nat} {a : Int} :
    Kept s (reached (t.engineBlock e r key write elem a)) := by
  unfold State.engineBlock
  extract_lets c b since
  split
  · exact h
  · split
    · exact h
    · split
      · next e => exact h.touchBlock _ e
      · exact h

theorem engineWalk (h : Kept s t) {r : CopyReq} {space : Nat} {a : Int} : Kept s (t.engineWalk r space a) :=
  h.ite h.walkNow

/-- Goes on from an engine's block. -/
theorem engineBlockThen (h : Kept s t) {e : Nat} {r : CopyReq} {key : Nat} {write : Bool} {elem : Nat} {a : Int}
    {f : State → CopyReq → CStep} (hf : ∀ v q, Kept s v → Kept s (reached (f v q))) :
    Kept s (reached (match t.engineBlock e r key write elem a with | .go v q => f v q | w => w)) := by
  have block := h.engineBlock (e := e) (r := r) (key := key) (write := write) (elem := elem) (a := a)
  cases hb : t.engineBlock e r key write elem a with
  | go v q =>
    rw [hb] at block
    exact hf v q block
  | wait v q =>
    rw [hb] at block
    exact block

theorem readElem (h : Kept s t) {e : Nat} {r : CopyReq} {d : Desc} {space elem n : Nat} {a : Int}
    {f : State → CopyReq → Nat → Bool → CStep} (hf : ∀ v q x p, Kept s v → Kept s (reached (f v q x p))) :
    Kept s (reached (t.readElem e r d space elem n a f)) := by
  unfold State.readElem
  extract_lets v
  have hv : Kept s v := h.engineWalk
  split
  · split
    · exact hv
    · exact hv.engineBlockThen (f := fun v q => f _ q _ _) fun _ _ hu => hf _ _ _ _ hu.engineRead
  · exact hv.engineFail

theorem writeElem (h : Kept s t) {e : Nat} {r : CopyReq} {d : Desc} {elem n : Nat} {a : Int} {x : Nat} {poisoned : Bool} :
    Kept s (reached (t.writeElem e r d elem n a x poisoned)) := by
  unfold State.writeElem
  extract_lets v
  have hv : Kept s v := h.engineWalk
  split
  · split
    · exact hv
    · split
      · exact hv
      · exact hv.engineBlockThen (f := fun v q => .go _ q) fun _ _ hu => hu.engineWrite
  · exact hv.engineFail

/-- Goes on from a written element. -/
theorem writeElemThen (h : Kept s t) {e : Nat} {r : CopyReq} {d : Desc} {elem n : Nat} {a : Int} {x : Nat} {poisoned : Bool}
    {f : State → CopyReq → CStep} (hf : ∀ v q, Kept s v → Kept s (reached (f v q))) :
    Kept s (reached (match t.writeElem e r d elem n a x poisoned with | .go v q => f v q | w => w)) := by
  have written := h.writeElem (e := e) (r := r) (d := d) (elem := elem) (n := n) (a := a) (x := x) (poisoned := poisoned)
  cases hw : t.writeElem e r d elem n a x poisoned with
  | go v q =>
    rw [hw] at written
    exact hf v q written
  | wait v q =>
    rw [hw] at written
    exact written

theorem plainStep (h : Kept s t) {e : Nat} {r : CopyReq} {d : Desc} : Kept s (reached (t.plainStep e r d)) := by
  unfold State.plainStep
  extract_lets burst i pick r2
  clear_value pick
  split
  · exact h
  · exact h.same.readElem fun _ _ _ _ hu => hu.writeElemThen fun _ _ hw => hw

theorem readBytes (h : Kept s t) {e : Nat} {d : Desc} {space elem n : Nat} {l : List (Nat × Int)} {r : CopyReq} {acc : List Byte}
    {p : Bool} {f : State → CopyReq → List Byte → Bool → CStep} (hf : ∀ v q b p, Kept s v → Kept s (reached (f v q b p))) :
    Kept s (reached (State.readBytes e d space elem n l t r acc p f)) := by
  induction l generalizing t r acc p with
  | nil => exact hf _ _ _ _ h
  | cons x l ih => exact h.readElem fun _ _ _ _ hu => ih hu

theorem writeAll (h : Kept s t) {e : Nat} {d : Desc} {n : Nat} {p : Bool} {l : List (Nat × Int × Nat)} {r : CopyReq}
    {f : State → CopyReq → CStep} (hf : ∀ v q, Kept s v → Kept s (reached (f v q))) :
    Kept s (reached (State.writeAll e d n p l t r f)) := by
  induction l generalizing t r with
  | nil => exact hf _ _ h
  | cons x l ih => exact h.writeElemThen fun _ _ hu => ih hu

theorem compressStep (h : Kept s t) {e : Nat} {r : CopyReq} {d : Desc} : Kept s (reached (t.compressStep e r d)) := by
  unfold State.compressStep
  extract_lets b nb per first
  split
  · exact h
  · exact h.readBytes fun _ _ _ _ hu => hu.writeAll fun _ _ hv => hv.writeAll fun _ _ hw => hw

theorem writeRest (h : Kept s t) {e : Nat} {d : Desc} {p : Bool} {l : List (Nat × Int × Nat)} {r : CopyReq}
    {f : State → CopyReq → CStep} (hf : ∀ v q, Kept s v → Kept s (reached (f v q))) :
    Kept s (reached (State.writeRest e d p l t r f)) := by
  induction l generalizing t r with
  | nil => exact hf _ _ h
  | cons x l ih => exact h.writeElemThen fun _ _ hu => ih hu

theorem expandStep (h : Kept s t) {e : Nat} {r : CopyReq} {d : Desc} : Kept s (reached (t.expandStep e r d)) := by
  unfold State.expandStep
  extract_lets x nb per b at_
  split
  · exact h
  · refine h.readBytes fun _ _ _ _ hu => ?_
    extract_lets w code
    split
    · exact hu
    · exact hu.readBytes fun _ _ _ _ hv => hv.writeRest fun _ _ hw => hw

theorem copyGo (h : Kept s t) {e : Nat} {r : CopyReq} : Kept s (t.copyGo e r).1 := by
  unfold State.copyGo
  extract_lets d
  split
  · exact h
  · have stepped {x : CStep} (eq : (match d.mode with
        | 0 => t.plainStep e r d | 1 => t.compressStep e r d | _ => t.expandStep e r d) = x) : Kept s (reached x) := by
      rw [← eq]
      split
      · exact h.plainStep
      · exact h.compressStep
      · exact h.expandStep
    split
    · next eq => exact stepped eq
    · next eq => exact stepped eq

theorem modEngine (h : Kept s t) {e : Nat} {f : Engine → Engine} : Kept s (t.modEngine e f) :=
  h.modCluster

theorem enginePark (h : Kept s t) {e : Nat} {r : CopyReq} : Kept s (t.enginePark e r) := by
  unfold State.enginePark
  split
  · exact h.ite h.poolLow
  · exact h

theorem engineStep (h : Kept s t) {e : Nat} {r : CopyReq} {put : CopyReq → Engine → Engine} : Kept s (t.engineStep e r put) := by
  unfold State.engineStep
  split
  · next _ v _ _ e2 =>
    have hv := h.copyGo.fst e2
    exact hv.modEngine.enginePark

/-! ### Message steps (Machine/EvMessage) -/

theorem messageDone (h : Kept s t) {f : Flight} : Kept s (t.messageDone f) := by
  unfold State.messageDone
  split
  · exact h.finishOp
  · exact h

theorem strayMessage (h : Kept s t) {f : Flight} {m : Msg} {unit : Bool} : Kept s (t.strayMessage f m unit) :=
  (h.dropFlight.post.ite h.dropFlight).messageDone

theorem admitMail (h : Kept s t) {f : Flight} {m : Msg} : Kept s (t.admitMail f m) := by
  unfold State.admitMail
  extract_lets v
  have hv : Kept s v := h.dropFlight.modCore
  refine messageDone (hv.mapSlices fun q hq => ?_)
  split
  · exact .ite hq hq
  · exact hq

theorem admitHandler (h : Kept s t) {f : Flight} {m : Msg} : Kept s (t.admitHandler f m) :=
  h.dropFlight.modCore.messageDone

theorem arriveMessage (h : Kept s t) {f : Flight} {m : Msg} {handler unit : Bool} : Kept s (t.arriveMessage f m handler unit) :=
  h.ite (h.strayMessage.ite ((h.admitHandler.ite h.admitMail).ite h.modCore))

theorem reachHandler (h : Kept s t) {asid kind : Nat} : Kept s (t.reachHandler asid kind) :=
  h.reachCtx.comeTo

theorem startHandler (h : Kept s t) {core : Nat} : Kept s (t.startHandler core) := by
  unfold State.startHandler
  split
  · exact h
  · extract_lets kind v entry pop
    have hv : Kept s v := h.reachHandler
    split
    · exact hv.modCore.post
    · split
      · exact hv
      · exact (hv.modCore.setSlice fun _ => aligned_handlerSlice).acquireNow

/-! ### Launch queues (Machine/LaunchQ) -/

theorem reachTarget (h : Kept s t) {asid t1 : Nat} : Kept s (t.reachTarget asid t1) :=
  h.reachCtx.comeTo

theorem discardLanes (h : Kept s t) {core asid : Nat} {rs : List (Nat × List Word)} : Kept s (t.discardLanes core asid rs) := by
  unfold State.discardLanes
  split
  · exact h
  · exact h.post

/-! ### Launches (Machine/Launch) -/

theorem eventWords (h : Kept s t) {asid a flag : Nat} : Kept s (t.eventWords asid a flag).1 := by
  unfold State.eventWords
  extract_lets v
  have hv : Kept s v := h.walkNow
  split
  · exact hv
  · extract_lets v2 v3
    have hv2 : Kept s v2 := hv.reachHome.findErrors
    have hv3 : Kept s v3 := hv2.write
    split
    · exact hv2.losePeer.pair
    · split
      · exact hv2
      · exact hv3.write.pair

theorem pollDep (h : Kept s t) {q : Nat} : Kept s (t.pollDep q) := by
  unfold State.pollDep
  extract_lets c
  split
  · split
    · exact h
    · split
      · next _ v _ e =>
        exact h.translateNow.fst e
      · next _ v2 _ e2 =>
        have hv2 := h.translateNow.fst e2
        split
        · exact hv2
        · extract_lets v3
          have hv3 : Kept s v3 := hv2.reachHome.findErrors
          exact hv3.ite hv3.modQueue
  · exact h

theorem pollDeps (h : Kept s t) : Kept s t.pollDeps := by
  unfold State.pollDeps
  exact h.foldl fun a hu => hu.pollDep

theorem recWalks (h : Kept s t) {asid : Nat} {ws : List Word} : Kept s (t.recWalks asid ws) :=
  h.foldl fun _ hu => hu.walkNow

theorem completeNow (h : Kept s t) {q asid : Nat} {ws : List Word} {status grid : Nat} :
    Kept s (t.completeNow q asid ws status grid) := by
  unfold State.completeNow
  extract_lets a notify
  have told {v : State} (hv : Kept s v) : Kept s (notify v) := hv.unitMsg.ite hv
  split
  · exact (told h).raise
  · split
    · next e => exact (told (h.eventWords.fst e).pollDeps).raise
    · next e => exact told (h.eventWords.fst e).postThen

theorem completeRec (h : Kept s t) {q asid : Nat} {ws : List Word} {status grid : Nat} :
    Kept s (t.completeRec q asid ws status grid) :=
  h.same.ite h.completeNow

theorem retryDone (h : Kept s t) : Kept s t.retryDone :=
  h.same.foldl fun _ hu => hu.completeRec

theorem endDrain (h : Kept s t) {q : Nat} : Kept s (t.endDrain q) :=
  h.same

theorem checkHead (h : Kept s t) {q n : Nat} : Kept s (State.checkHead q n t) := by
  induction n generalizing t with
  | zero => exact h
  | succ n ih =>
    unfold State.checkHead
    extract_lets c asid
    split
    · exact h.endDrain.modQueue
    · extract_lets v now eligible stays
      have hv : Kept s v := h.ite h.recWalks
      exact (ih hv.modQueue.completeRec).ite (hv.ite hv.endDrain).modQueue

theorem refreshHead (h : Kept s t) {q : Nat} : Kept s (t.refreshHead q) :=
  h.checkHead

theorem dropRec (h : Kept s t) {q : Nat} {r : LRec} {status : Nat} : Kept s (t.dropRec q r status) :=
  h.completeRec

theorem flushQueue (h : Kept s t) {q : Nat} : Kept s (t.flushQueue q) := by
  unfold State.flushQueue
  extract_lets rs v
  have hv : Kept s v := h.endDrain.modQueue
  refine hv.foldl fun a hu => ?_
  split
  · split
    · exact hu.same
    · exact hu
  · exact hu.dropRec

theorem reachSave (h : Kept s t) {asid core : Nat} : Kept s (t.reachSave asid core) :=
  h.reachCtx.comeTo

theorem reachCore (h : Kept s t) {asid core : Nat} : Kept s (t.reachCore asid core) :=
  h.reachSave.ite h.reachSave.comeTo.comeTo

theorem startGroup (h : Kept s t) {key core : Nat} {g : Machine.Group} {a : Allot} {ws : List Word} {width : Nat}
    {mask : Nat → Nat → Pred} : Kept s (t.startGroup key core g a ws width mask) := by
  unfold State.startGroup
  extract_lets slices v v2 v3 v4
  have hv2 : Kept s v2 := h.same.modCore
  have hv3 : Kept s v3 := hv2.memory fun hm => mclear_wf _ _ hm
  have hv4 : Kept s v4 := hv3.setFe
  exact hv4.foldl fun _ hu => hu.foldl fun _ hw => hw.ite (hw.setSlice fun _ => aligned_default)

theorem enterCtx (h : Kept s t) {asid : Nat} : Kept s (t.enterCtx asid) := by
  unfold State.enterCtx
  split
  · exact h
  · extract_lets v away v2
    have hv : Kept s v := h.reachCtx
    have hv2 : Kept s v2 := hv.modCtx
    exact hv2.same

theorem reachHeads (h : Kept s t) : Kept s t.reachHeads := by
  unfold State.reachHeads
  split
  · exact h
  · extract_lets v
    have hv : Kept s v := by
      unfold v
      refine h.foldl fun a hu => ?_
      split
      · exact hu.foldl fun _ hu => hu.reachCore
      · exact hu
    exact hv.foldl fun _ hu => hu.reachCore.ite hu

/-! ### Ordered sections (Machine/Osec) -/

theorem setSection (h : Kept s t) {domain key : Nat} {e : Section} : Kept s (t.setSection domain key e) :=
  h.same.wakeSection

theorem osecSend (h : Kept s t) {form : Nat} {ls : List ((Nat × Nat) × Nat × Word)} {op : Option Nat} :
    Kept s (t.osecSend form ls op) :=
  h.foldl fun _ hu => hu.send

theorem osecOp (h : Kept s t) {form : Nat} {ls : List ((Nat × Nat) × Nat × Word)} {osec d : Nat} {dest : Dest} :
    Kept s (t.osecOp form ls osec d dest) :=
  h.same.osecSend

theorem osecWait (h : Kept s t) {form : Nat} {ls : List ((Nat × Nat) × Nat × Word)} {osec d : Nat} :
    Kept s (t.osecWait form ls osec d) :=
  h.osecOp.members.foldl fun _ hu => hu.alterSlice

theorem failLanes (h : Kept s t) {id code key : Nat} {lanes : List (Nat × Nat × Word)} : Kept s (failLanes t id code key lanes) :=
  h.modOp

theorem osecEnter (h : Kept s t) {o : Op} {key : Nat} {named : List (Nat × Nat × Word)} : Kept s (t.osecEnter o key named) := by
  unfold State.osecEnter
  extract_lets lanes domain e? e v mine
  have hv : Kept s v := h.setSection.ite h
  split
  · exact h
  · split
    · exact h.failLanes
    · split
      · exact hv.failLanes
      · split
        · exact hv.failLanes
        · split
          · exact hv
          · split
            · exact hv.setSection.alterSlice.modOp
            · exact hv

theorem osecLeave (h : Kept s t) {o : Op} {key : Nat} {lanes : List (Nat × Nat × Word)} : Kept s (t.osecLeave o key lanes) := by
  unfold State.osecLeave
  extract_lets domain
  refine h.foldl fun a hu => ?_
  split
  · exact hu.setSection.ite hu.failLanes
  · exact hu.failLanes

theorem osecInit (h : Kept s t) {o : Op} {key : Nat} {lanes : List (Nat × Nat × Word)} : Kept s (t.osecInit o key lanes) :=
  h.failLanes.ite (h.foldl fun _ hu => hu.setSection)

theorem osecTicket (h : Kept s t) {o : Op} {key : Nat} {lanes : List (Nat × Nat × Word)} : Kept s (t.osecTicket o key lanes) :=
  h.failLanes.ite (h.foldl fun _ hu => hu.setSection.modOp)

theorem osecQuery (h : Kept s t) {o : Op} {key : Nat} {lanes : List (Nat × Nat × Word)} : Kept s (t.osecQuery o key lanes) := by
  unfold State.osecQuery
  extract_lets r
  split
  · exact h.modOp
  · exact h

theorem osecFree (h : Kept s t) {domain key : Nat} : Kept s (t.osecFree domain key) :=
  h.same.wakeSection

theorem osecPerform (h : Kept s t) {f : Flight} {form key : Nat} {lanes : List (Nat × Nat × Word)} :
    Kept s (t.osecPerform f form key lanes) := by
  unfold State.osecPerform
  split
  · exact h.osecFree.ite h
  · extract_lets v
    have hv : Kept s v := by
      unfold v
      split
      · exact h.osecEnter
      · exact h.osecEnter
      · exact h.osecLeave
      · exact h.osecInit
      · exact h.osecQuery
      · exact h.osecTicket
    exact hv.modOp

theorem cancelGrant (h : Kept s t) {o : Op} {g : Nat × Nat × Nat} : Kept s (t.cancelGrant o g) := by
  unfold State.cancelGrant
  extract_lets domain
  split
  · exact h.setSection.ite h
  · exact h

theorem osecDone (h : Kept s t) {core : Nat} {slots : List Nat} {len : Nat} {f : Slice → Nat → Slice}
    (hf : ∀ i, KeepsAligned (f · i)) : Kept s (t.osecDone core slots len f) :=
  h.foldl fun i hu => hu.modSlice fun x hx => Aligned.advance (x := (f x i).unpark) (hf i x hx)

theorem osecResult (h : Kept s t) {o : Op} : Kept s (t.osecResult o) := by
  unfold State.osecResult
  extract_lets v slots lost v2 next trap v3 v4
  have hv2 : Kept s v2 := h.dropOp.foldl fun _ hu => hu.cancelGrant
  have hv4 : Kept s v4 := hv2.ite hv2.acquireNow
  split
  · have hv3 : Kept s v3 := (hv2.foldl fun _ hu => hu.cancelGrant).ite
      (hv2.foldl fun _ hu => hu.modSlice fun _ hx => hx.foldl fun _ hy => hy.apply)
    exact hv3.ite hv3.trap
  · refine .ite (hv2.trap.ite (hv2.foldl fun _ hu => hu.alterSlice)) (.ite ?_ ?_)
    · exact hv4.osecDone fun _ _ hx => hx.foldl fun _ hy => hy.setPBit
    · exact hv2.osecDone fun _ _ hx => hx.foldl fun _ hy => hy.apply

theorem osecAnswer (h : Kept s t) {o : Op} : Kept s (t.osecAnswer o) :=
  h.osecResult.foldl fun _ hu => hu.modSlice fun _ hx => Aligned.of_trapvec (hx.foldl fun _ hy => hy.apply) rfl

/-! ### Structures (Machine/Structs) -/

theorem retireSlot (h : Kept s t) {st n : Nat} : Kept s (t.retireSlot st n) :=
  h.modStruct.unitMsg.ite h

theorem unpinLane (h : Kept s t) {st n : Nat} : Kept s (t.unpinLane st n) :=
  h.modStruct.retireSlot

theorem pinLanes (h : Kept s t) {asid st k : Nat} : Kept s (t.pinLanes asid st k).1 := by
  unfold State.pinLanes
  split
  · exact h.modStruct.pair
  · exact h

theorem pinCurrent (h : Kept s t) {asid st : Nat} : Kept s (t.pinCurrent asid st).1 := by
  unfold State.pinCurrent
  extract_lets x
  split
  · exact h
  · extract_lets v
    split
    · exact h
    · exact h.modStruct.pair

theorem unpinSlot (h : Kept s t) {st n : Nat} : Kept s (t.unpinSlot st n) :=
  h.modStruct.retireSlot.ite h

theorem publishRoot (h : Kept s t) {asid st core : Nat} {root : BitVec 64} {inv : Bool} :
    Kept s (t.publishRoot asid st core root inv).1 := by
  unfold State.publishRoot
  extract_lets x num
  split
  · exact h
  · extract_lets v
    have hv : Kept s v := h.modStruct
    cases x.cur with
    | none => exact hv
    | some c => exact hv.retireSlot

theorem assignStruct (h : Kept s t) {st asid : Nat} : KeptIf s (t.assignStruct st asid) := keptIf_none.ite h.modStruct.keptIf

theorem releaseStruct (h : Kept s t) {st : Nat} : Kept s (t.releaseStruct st) :=
  h.modStruct.foldl fun _ hu => hu.retireSlot

/-! ### Plans (Machine/Plan) -/

theorem planReply (h : Kept s t) {r : PlanReq} {ws : List Nat} : Kept s (r.reply t ws) := by
  unfold PlanReq.reply
  split
  · exact h.answer
  · exact h.answer
  · exact h.answer
  · exact h.answer
  · exact h.answer

theorem writeOutput (h : Kept s t) {key : Nat} {bs : List Byte} : Kept s (t.writeOutput key bs) :=
  h.unitStore.foldl fun _ hu => hu.dcacheFor

theorem planStatus (h : Kept s t) {slot outcome bytes time st : Nat} {version : Word} :
    Kept s (t.planStatus slot outcome bytes time st version) :=
  h.sendMsg

theorem publishFallback (h : Kept s t) {slot : Nat} {tell : Bool} : Kept s (t.publishFallback slot tell) := by
  unfold State.publishFallback
  extract_lets p v
  have hv : Kept s v := h.writeOutput.modPlan
  exact hv.planStatus.ite hv

theorem expireDue (h : Kept s t) {slot : Nat} : Kept s (t.expireDue slot) :=
  h.publishFallback.ite h

theorem expireAll (h : Kept s t) : Kept s t.expireAll := by
  unfold State.expireAll
  exact h.foldl fun a hu => hu.expireDue

theorem unitRead (h : Kept s t) {asid va n : Nat} {bs : List Byte} : PReadKept s (t.unitRead asid va n bs) := by
  induction n generalizing t va bs with
  | zero => exact h
  | succ n ih =>
    rw [State.unitRead]
    split
    · exact h
    · split
      · next e =>
        split
        · exact h.translateNow.fst e
        · exact h.translateNow.fst e
      · next e =>
        split
        · trivial
        · extract_lets v
          have read : Kept s v := (h.translateNow.fst e).reachHome.findErrors
          split
          · exact read
          · exact ih read

theorem planRead (h : Kept s t) {f : Flight} {slot : Nat} {r : PlanReq} {outp : Nat} {data : Option (List Byte)} :
    Kept s (t.planRead f slot r outp data) := by
  unfold State.planRead
  extract_lets own p v
  have hv : Kept s v := h.writeOutput.modPlan
  split
  · exact h.planReply.ite (h.planReply.ite h.modPlan.planReply)
  · exact h.modPlan.planReply.ite h.planReply
  · exact h.writeOutput.modPlan.planStatus
  · exact hv.planStatus
  · exact h.planReply
  · exact h

theorem readOn (h : Kept s t) {f : Flight} {slot : Nat} {r : PlanReq} {outp : Nat} : Kept s (t.readOn f slot r outp) := by
  unfold State.readOn
  split
  · exact h
  · cases r.source with
    | mk va n =>
      have due := h.expireDue (slot := slot)
      have read := due.unitRead (asid := f.asid) (va := va) (n := n) (bs := [])
      dsimp only
      split
      · next e =>
        rw [e] at read
        exact dropFlight read |>.planRead
      · next e =>
        rw [e] at read
        exact dropFlight read |>.planRead
      · next e =>
        rw [e] at read
        exact postReplay read
      · exact due

theorem releasePlan (h : Kept s t) {slot : Nat} : KeptIf s (t.releasePlan slot) :=
  keptIf_none.ite (h.publishFallback.ite h).modPlan.keptIf

/-! ### Slice steps (Machine/EvSlice) -/

theorem answerLqstat (h : Kept s t) {op : Nat} : Kept s (t.answerLqstat op) := by
  unfold State.answerLqstat
  split
  · split
    · exact h.dropFlight.answer.ite h
    · exact h
  · exact h

theorem forgetGroup (h : Kept s t) {g : Nat} : Kept s (t.forgetGroup g) := by
  unfold State.forgetGroup
  split
  · exact h
  · split
    · exact h
    · extract_lets v
      have hv : Kept s v := h.same
      split
      · exact hv
      · exact hv.ite hv.same.modCluster

theorem storeGlobal (h : Kept s t) {asid va : Nat} {bs : List (List Byte)} : Kept s (t.storeGlobal asid va bs) := by
  induction bs generalizing t va with
  | nil => exact h
  | cons b bs ih =>
    rw [State.storeGlobal]
    split
    · next e => exact ih (h.translateNow.fst e).unitStore
    · next e => exact ih (h.translateNow.fst e)

/-! ### Matrix operations (Machine/Matrix) -/

theorem modMat (h : Kept s t) {core : Nat} {f : MUnit → MUnit} : Kept s (t.modMat core f) :=
  h.modCore

theorem enterMat (h : Kept s t) {core : Nat} {c : MCmd} {cycle : Nat} : Kept s (t.enterMat core c cycle) :=
  h.modMat

theorem enterMma (h : Kept s t) {f : MmaF} {sparse : Bool} : BodyEnds s (t.enterMma f sparse) := by
  unfold State.enterMma
  extract_lets core grp k
  split
  · trivial
  · trivial
  · trivial
  · refine .ite trivial (.ite trivial ?_)
    extract_lets cmd v v2
    have hv : Kept s v := h.enterMat
    have hv2 : Kept s v2 := hv.modGroup.ite hv
    show Kept s (match cmd.team, v2.partner _ with | 1, some (pk, p) => _ | _, _ => _)
    split
    · exact hv2.send
    · exact hv2

theorem tileCmd (h : Kept s t) {x : Machine.Group} {c : MCmd} : BodyEnds s (t.tileCmd x c) := .ite h.enterMat trivial

theorem openMat (h : Kept s t) {g : BitVec 4} {dest : Dest} {all : Bool} : Kept s (t.openMat g dest all).1 := by
  unfold State.openMat
  extract_lets core o v
  have hv : Kept s v := h.openOp
  exact (hv.foldl fun _ hu => hu.alterSlice).ite hv

/-! ### Matrix unit steps (Machine/EvMatrix) -/

theorem moveWord (h : Kept s t) {core a tile : Nat} {store : Bool} {p : Nat × Nat} : Kept s (t.moveWord core a tile store p) :=
  h.write.setFe.ite h.modCore

theorem moveWords (h : Kept s t) {core : Nat} {c : MCmd} {n : Nat} : Kept s (t.moveWords core c n) := by
  unfold State.moveWords
  extract_lets ws
  split
  · exact h.foldl fun _ hu => hu.moveWord
  · exact h.foldl fun _ hu => hu.moveWord
  · exact h

theorem performTile (h : Kept s t) {core : Nat} {c : MCmd} : Kept s (t.performTile core c) := by
  unfold State.performTile
  extract_lets k set slotOf mine
  have ended {f : Op → Op} {v : State} (hv : Kept s v) : Kept s (set f v) := by
    unfold set
    split
    · exact hv.finishOp.foldl fun _ hu => hu.alterSlice
    · exact hv
  split
  · exact h
  · exact h.modCore
  · exact ended h.moveWords
  · exact ended h.moveWords
  · exact ended h
  · exact h.modCore
  · refine ended (h.foldl fun p hu => ?_)
    extract_lets fl
    split
    · exact hu.modSlice fun _ hx => .ite hx hx
    · exact hu

theorem endTiles (h : Kept s t) {core g : Nat} : Kept s (t.endTiles core g) := by
  unfold State.endTiles
  split
  · exact h.modCore.ite h
  · exact h.modCore

theorem arriveRemote (h : Kept s t) {f : Flight} {m : MCmd} {cap : BitVec 64} {name : Nat} :
    Kept s (t.arriveRemote f m cap name) := by
  unfold State.arriveRemote
  extract_lets v fail k
  have hv : Kept s v := h.dropFlight
  have failed (code : Nat) : Kept s (fail code) := by
    unfold fail
    split
    · exact hv.finishOp
    · exact hv
  split
  · exact failed _
  · refine (failed _).ite ?_
    split
    · exact failed _
    · exact h.dropFlight.enterMat.dropOp.ite (h.ite h.modMat)

theorem mcapWrite (h : Kept s t) {core slot : Nat} {hi : Bool} {value : Word} : KeptIf s (t.mcapWrite core slot hi value) :=
  keptIf_none.ite h.modMat.keptIf

/-! ### Traversal queries (Machine/TravQuery) -/

theorem startMember (h : Kept s t) {f : TrqF} {slot id : Nat} : Kept s (t.startMember f slot id).1 :=
  h.foldlPair fun _ _ hp => hp.modRake.pair

theorem openTrav (h : Kept s t) {f : TrqF} {slot : Nat} : Kept s (t.openTrav f slot).1 := by
  unfold State.openTrav
  extract_lets core x k id z z2
  have hz2 : Kept s z2 := h.modRake
  split
  · exact h.openOp.pair
  · exact hz2.same.pair

/-! ### Plan and table steps (Machine/EvPlan) -/

theorem planArrives (h : Kept s t) {f : Flight} {slot : Nat} {r : PlanReq} : Kept s (t.planArrives f slot r) := by
  unfold State.planArrives
  extract_lets p own go
  have goes (outp : Nat) : Kept s (go outp) := h.send
  split
  · refine h.planReply.ite (h.planReply.ite (h.planReply.ite ?_))
    split
    · exact (goes _).ite h.planReply
    · exact h.planReply
  · exact h.planReply.ite (goes 0)
  · exact h.planReply.ite h.planReply
  · exact h.planReply.ite (h.planReply.ite h.modPlan.planReply)
  · exact h

theorem commitOn (h : Kept s t) {slot : Nat} : Kept s (t.commitOn slot) := by
  unfold State.commitOn
  split
  · exact h.readOn
  · exact h

theorem commitFails (h : Kept s t) {slot : Nat} : Kept s (t.commitFails slot) := by
  unfold State.commitFails
  split
  · exact h.same.dropFlight.planRead
  · exact h

theorem endPlans (h : Kept s t) {p : Plan → Bool} : Kept s (t.endPlans p) := by
  unfold State.endPlans
  extract_lets v
  have hv : Kept s v := h.foldl fun _ hu => hu.publishFallback
  exact hv.foldl fun a hu => hu.commitOn

/-! ### Requests to the units (Machine/Units) -/

theorem zeroExtent (h : Kept s t) {c x : Nat} : Kept s (t.zeroExtent c x) :=
  ((h.memory fun hm => mclear_wf _ _ hm).modCluster).poolChanged

theorem ucExtent (h : Kept s t) {inst : Nat} {d0 : Word} : Kept s (t.ucExtent inst d0).1 := by
  unfold State.ucExtent
  extract_lets c x asid owner v
  have hv : Kept s v := h.zeroExtent.ite h
  split
  · exact h
  · split
    · exact h
    · exact hv.modCluster.pair

theorem ucRaw (h : Kept s t) {inst : Nat} {d0 d1 d2 : Word} : Kept s (t.ucRaw inst d0 d1 d2).1 := by
  unfold State.ucRaw
  extract_lets c n k rest gone raw' base k'
  split
  · exact h
  · split
    · exact h
    · exact h.modCluster.poolChanged.pair

theorem ucPoolFail (h : Kept s t) {inst : Nat} {d0 : Word} : Kept s (t.ucPoolFail inst d0).1 := by
  unfold State.ucPoolFail
  split
  · exact h
  · split
    · exact h
    · extract_lets v
      have hv : Kept s v := h.foldl fun _ hu => hu.poolFault
      exact (hv.foldl fun _ hu => hu.modEngine).pair

theorem ucQueue (h : Kept s t) {q : Nat} {d0 d1 : Word} : Kept s (t.ucQueue q d0 d1).1 := by
  unfold State.ucQueue
  split
  · exact h
  · extract_lets c asid enable level depth held others v now
    have hv : Kept s v := h.flushQueue.ite h
    split
    · exact h
    · exact hv.modQueue.refreshHead.pair

theorem ucDeque (h : Kept s t) {inst : Nat} {d0 : Word} : Kept s (t.ucDeque inst d0).1 := by
  unfold State.ucDeque
  split
  · exact h
  · extract_lets lose v
    have hv : Kept s v := h.same
    exact hv.modCore.pair

theorem ucStruct (h : Kept s t) {inst : Nat} {d0 : Word} : Kept s (t.ucStruct inst d0).1 := by
  unfold State.ucStruct
  split
  · exact h
  · split
    · split
      · next e => exact h.assignStruct _ e
      · exact h
    · exact h.releaseStruct.ite h

theorem ucPlan (h : Kept s t) {inst : Nat} {d0 : Word} : Kept s (t.ucPlan inst d0).1 := by
  unfold State.ucPlan
  split
  · exact h
  · split
    · exact h
    · next e => exact (h.releasePlan _ e).modPlan.ite (h.releasePlan _ e)

theorem ucProgram (h : Kept s t) {inst : Nat} {d0 d1 d2 : Word} : Kept s (t.ucProgram inst d0 d1 d2).1 := by
  unfold State.ucProgram
  extract_lets core n r first len rest old clash
  split
  · exact h
  · split
    · exact h
    · exact h.modRake.pair

theorem ucCommand (h : Kept s t) : Kept s t.ucCommand := by
  refine same (t := Prod.fst _) ?_
  split
  · exact h.ucExtent
  · exact h.ucRaw
  · exact h.ucPoolFail
  · exact h.ucQueue
  · exact h.ucDeque
  · exact h.ucStruct
  · exact h.ucPlan
  · exact h.ucProgram
  · exact h

/-! ### Traps and system registers (Machine/System) -/

theorem xlinv (h : Kept s t) {w : Word} : Kept s (t.xlinv w) :=
  h.same

theorem copyReplay (h : Kept s t) {e seq : Nat} {f : CopyReq → CopyReq} : Kept s (t.copyReplay e seq f) :=
  h.modEngine

theorem replayRetry (h : Kept s t) {r : Replay} : Kept s (t.replayRetry r) := by
  unfold State.replayRetry
  extract_lets v
  have hv : Kept s v := h.same
  split
  · exact hv.foldl fun _ hu => hu.alterSlice
  · exact hv.modThread
  · exact hv.copyReplay
  · exact hv

theorem declineFlight (h : Kept s t) {id : Nat} : Kept s (t.declineFlight id) := by
  unfold State.declineFlight
  split
  · exact h
  · extract_lets v
    have hv : Kept s v := h.dropFlight
    split
    · exact hv.planReply
    · exact hv.planRead
    · exact hv.modRake.answer
    · exact h

theorem replayDecline (h : Kept s t) {r : Replay} : Kept s (t.replayDecline r) := by
  unfold State.replayDecline
  extract_lets v
  have hv : Kept s v := h.same
  split
  · exact hv.trap
  · exact hv.modThread
  · exact hv.copyReplay
  · exact hv.declineFlight

theorem endReplay (h : Kept s t) {idx : Nat} {decline : Bool} : Kept s (t.endReplay idx decline) := by
  unfold State.endReplay
  split
  · exact h
  · exact h.replayRetry.ite (h.same.ite h.replayDecline)

theorem eqres (h : Kept s t) {w : Word} : Kept s (t.eqres w) :=
  h.endReplay

theorem eqheadWrite (h : Kept s t) {w : Word} : Kept s (t.eqheadWrite w) :=
  h.same.eqGo

theorem sysRead (h : Kept s t) {core slot r : Nat} : Kept s (t.sysRead core slot r).1 := by
  unfold State.sysRead
  extract_lets x
  have hx {y : Slice} (e : y.trapvec = x.trapvec) : Kept s (t.setSlice core slot y) := h.setSlice fun hs => (h.slice hs).of_trapvec e
  split
  · exact hx rfl
  · exact hx rfl
  · exact hx rfl
  · exact hx rfl
  · exact h.free
  · exact h.free
  · split
    · exact h.free
    · exact h
  · exact h

theorem setSysReg (h : Kept s t) {r : Nat} {w : Word} : Kept s (t.setSysReg r w) := by
  unfold State.setSysReg
  extract_lets low high z
  split
  · exact h.same
  · exact h.same
  · exact h.same
  · exact h.same
  · exact h.same
  · exact h.same.xlinv
  · exact h.same
  · exact h.same
  · exact h.eqheadWrite
  · exact h.eqres
  · exact h.same
  · exact h.same
  · exact h.same
  · exact h.same
  · exact h.ucCommand
  · exact h

theorem setLimit (h : Kept s t) {asid : Nat} {hang : Bool} {w : Word} : Kept s (t.setLimit asid hang w) := by
  unfold State.setLimit
  exact h.unitStore.modCtx

theorem setOwnReg (h : Kept s t) {core slot r : Nat} {w : Word} : Kept s (t.setOwnReg core slot r w) := by
  unfold State.setOwnReg
  extract_lets x put low
  have hx (hs : AllAligned s) : Aligned x := h.slice hs
  have written {y : Slice} (hy : AllAligned s → Aligned y) : Kept s (put y) := h.setSlice hy
  split
  case h_1 | h_2 | h_4 | h_5 | h_6 | h_7 | h_8 | h_9 | h_10 | h_11 | h_14 => exact written hx
  case h_3 => exact written fun _ => aligned_roundDown ..
  case h_12 | h_13 => exact h.setLimit
  case h_28 => exact h.setSysReg
  all_goals exact h.modCore

/-! ### Debug mailbox steps (Machine/EvDebug) -/

theorem debugDone (h : Kept s t) {core result : Nat} : Kept s (t.debugDone core result) :=
  h.modCore

theorem debugBusy (h : Kept s t) {core : Nat} : Kept s (t.debugBusy core) :=
  h.modCore

theorem debugArgs (h : Kept s t) {core : Nat} {args : List Word} : Kept s (t.debugArgs core args) :=
  h.modCore

theorem debugData (h : Kept s t) {core : Nat} {ws : List Word} : Kept s (t.debugData core ws) :=
  h.modCore

theorem debugBytes (h : Kept s t) {core : Nat} {bs : List Byte} : Kept s (t.debugBytes core bs) :=
  h.debugData

theorem resumeHalted (h : Kept s t) {core slot : Nat} : Kept s (t.resumeHalted core slot) := by
  unfold State.resumeHalted
  extract_lets x
  split
  · exact h.alterSlice
  · split
    · exact h
    · exact h.modGroup.foldl fun _ hu => hu.alterSlice

theorem writeRecord (h : Kept s t) {core slot off : Nat} {data : List Word} : Kept s (t.writeRecord core slot off data) := by
  refine foldl ?_ fun _ hu => hu.foldl fun _ hw => hw.modOp
  refine h.setSlice fun _ => Aligned.movedFrom ?_
  split
  · exact Aligned.withRecord
  · exact Aligned.withRecord.withPorts

theorem debugFail (h : Kept s t) {core code a : Nat} : Kept s (t.debugFail core code a) :=
  h.debugData.debugDone

theorem debugStore (h : Kept s t) {core key : Nat} {b : Byte} : Kept s (t.debugStore core key b) := by
  unfold State.debugStore
  split
  · exact h.writeBytes
  · extract_lets v
    have hv : Kept s v := h.nearStore.unitStore
    exact hv.dcacheFor.ite hv

theorem debugBlocks (h : Kept s t) {c : Nat} {write : Bool} {bs : List Nat} : KeptIf s (t.debugBlocks c write bs) :=
  keptIf_none.ite h.touchBlocks

theorem memTry (h : Kept s t) {core : Nat} {m : DebugMem} : Kept s (t.memTry core m) := by
  unfold State.memTry
  extract_lets asid v rs keys v2 later sectors blocks
  have hv : Kept s v := (h.foldl fun _ hu => hu.walkNow).ite h
  have hv2 : Kept s v2 := hv.modCore
  have waits {w : State} (hw : Kept s w) : Kept s (later w) := hw.debugBusy.modCore
  split
  · exact hv2.debugFail
  · refine .ite (waits hv2) ?_
    split
    · exact waits hv2
    · next e =>
      have hw := hv2.debugBlocks _ e
      refine .ite (hw.foldl fun _ hu => hu.debugStore).debugDone ?_
      extract_lets v3
      have read : Kept s v3 := (hw.foldl fun _ hu => hu.reachHome).findErrors
      split
      · exact read.debugFail
      · exact read.debugBytes.debugDone

theorem memRetry (h : Kept s t) : Kept s t.memRetry := by
  unfold State.memRetry
  refine h.foldl fun a hu => ?_
  split
  · exact hu.memTry
  · exact hu

theorem endStep (h : Kept s t) {core result : Nat} : Kept s (t.endStep core result) :=
  h.modCore.debugDone

theorem stepReady (h : Kept s t) {core slot : Nat} : Kept s (t.stepReady core slot) :=
  h.modSlice fun x hx => Aligned.settle (x := { x.goOn with wskip := _ }) hx

theorem stepHalt (h : Kept s t) {core slot : Nat} : Kept s (t.stepHalt core slot) :=
  h.modSlice fun _ hx => Aligned.ite hx.settle hx

theorem stepAfter (h : Kept s t) {before : State} {core slot : Nat} {lanes : Pred} :
    Kept s (before.stepAfter t core slot lanes) := by
  unfold State.stepAfter
  extract_lets x y reported v gang
  have hv : Kept s v := h.stepHalt
  refine hv.endStep.ite (hv.endStep.ite (hv.ite (endStep ?_)))
  split
  · exact hv.report
  · exact hv.report

/-! ### Traversal threads (Machine/Trav) -/

theorem sendDone (h : Kept s t) {core asid : Nat} {w : Nat → Word} {status pc : Nat} :
    Kept s (t.sendDone core asid w status pc) := by
  unfold State.sendDone
  extract_lets w31 home
  split
  · exact h.send

theorem tryFinish (h : Kept s t) {core th : Nat} : Kept s (t.tryFinish core th) := by
  unfold State.tryFinish
  extract_lets v
  split
  · exact h.sendDone.modThread.ite h
  · exact h

theorem endThread (h : Kept s t) {core th status : Nat} : Kept s (t.endThread core th status) :=
  h.modThread.tryFinish

theorem goto (h : Kept s t) {core th : Nat} {pc : Int} : Kept s (t.goto core th pc) :=
  h.modThread.ite h.endThread

theorem goNext (h : Kept s t) {core th : Nat} : Kept s (t.goNext core th) :=
  h.goto

theorem threadDone {core th : Nat} {x : Except TStop State} (h : Kept s t) (hx : ThreadEnds s x) :
    Kept s (t.threadDone core th x) := by
  unfold State.threadDone
  split
  · exact hx
  · exact endThread hx
  · exact (postReplay hx).modThread
  · exact h

theorem threadPlaces (h : Kept s t) {asid : Nat} {acc : Access} {fuel va n : Nat} :
    ThreadEndsWith s (State.threadPlaces asid acc fuel va n t) := by
  induction fuel generalizing t va n with
  | zero => exact h
  | succ fuel ih =>
    rw [State.threadPlaces]
    refine .ite h (.ite h ?_)
    split
    · next e => exact h.translateNow.fst e
    · next e =>
      have hv := h.translateNow.fst e
      dsimp only
      refine Leaves.ite trivial ((ih hv).bind fun _ hp => hp)

theorem readPlaces (h : Kept s t) {asid : Nat} {ps : List (Nat × Nat)} : ThreadEndsWith s (t.readPlaces asid ps) := by
  unfold State.readPlaces
  extract_lets v v2
  have hv : Kept s v := (h.foldl fun _ hu => hu.reachHome).findErrors
  have hv2 : Kept s v2 := hv.foldl fun _ hu => hu.dcacheFor.ite hu
  exact .ite hv2 hv2

theorem rakeLoad (h : Kept s t) {asid va n : Nat} : ThreadEndsWith s (t.rakeLoad asid va n) :=
  h.threadPlaces.bind fun _ hp => hp.readPlaces

theorem threadLoad (h : Kept s t) {core th asid va n : Nat} : ThreadEndsWith s (t.threadLoad core th asid va n) :=
  h.threadPlaces.bind fun _ hp => .ite trivial hp.readPlaces

theorem threadStore (h : Kept s t) {asid key : Nat} {bs : List Byte} : Kept s (t.threadStore asid key bs) :=
  h.unitStore.dcacheFor.ite h.unitStore

theorem spillFrom (h : Kept s t) {core th : Nat} {x : Thread} {b n : Nat} {es : List Nat} :
    ThreadEnds s (t.spillFrom core th x b n es) := by
  induction n generalizing t b es with
  | zero => exact h
  | succ n ih =>
    rw [State.spillFrom]
    exact .ite h (.ite h (h.threadPlaces.bind fun _ hp => .ite trivial (ih (hp.foldl fun _ hu => hu.threadStore))))

theorem spilled (h : Kept s t) {core th : Nat} {x : Thread} {b n : Nat} : ThreadEndsWith s (t.spilled core th x b n) :=
  .ite h (h.threadLoad.bind fun _ hp => hp)

theorem push (h : Kept s t) {x : Thread} {e : Nat} : ThreadEndsWith s (t.push x e) :=
  .ite h (.ite h (h.spillFrom.bind fun _ hp => hp))

theorem abandon (h : Kept s t) {core th : Nat} {nfch : Bool} : Kept s (t.abandon core th nfch) :=
  h.modThread.ite h.modThread.goNext

theorem sendContext (h : Kept s t) {core th : Nat} : ThreadEnds s (t.sendContext core th) := by
  unfold State.sendContext
  extract_lets x
  split
  · extract_lets k own
    exact .ite h.abandon (h.spillFrom.bind fun _ hu => hu.modThread.send)
  · exact h

theorem migrate (h : Kept s t) {core th : Nat} {nfch : Bool} {a d : Nat} : ThreadEnds s (t.migrate core th nfch a d) :=
  .ite h.modThread.sendContext h.modThread

/-! ### Traversal flow (Machine/TravFlow) -/

theorem emitStores (h : Kept s t) {core th asid : Nat} {ps : List (Nat × Nat)} {bs : List Byte} :
    Kept s (t.emitStores core th asid ps bs) := by
  induction ps generalizing t bs with
  | nil => exact h
  | cons p ps ih => exact ih h.send.modThread

/-! ### Traversal nodes (Machine/TravNode) -/

theorem nodeTarget (h : Kept s t) {x : Thread} {lw : Bool} {addr : Nat} : ThreadEndsWith s (t.nodeTarget x lw addr) :=
  .ite h (.ite h (h.threadPlaces.bind fun _ hp => hp))

/-! ### Traversal stacks (Machine/TravStack) -/

theorem pushAll (h : Kept s t) {x : Thread} {es : List Nat} : ThreadEndsWith s (t.pushAll x es) := by
  induction es generalizing t x with
  | nil => exact h
  | cons e es ih => exact h.push.bind fun _ hp => ih hp

theorem travPush (h : Kept s t) {x : Thread} {es : List Nat} : ThreadEnds s (travPush t x es) :=
  h.pushAll.bind fun _ hp => hp.modThread.goNext

/-! ### Traversal steps (Machine/EvTrav) -/

theorem startInbound (h : Kept s t) {core th : Nat} {c : Inbound} : Kept s (t.startInbound core th c) :=
  h.modRake.ite (h.modRake.modThread.ite h.modRake.modThread.goNext)

theorem startLocal (h : Kept s t) {core th e : Nat} : Kept s (t.startLocal core th e) :=
  h.modRake.sendDone.ite h.modRake.modThread

theorem putNode (h : Kept s t) {core th : Nat} {bs : List Byte} : Kept s (t.putNode core th bs) :=
  h.modThread.goNext

theorem emitsOver (h : Kept s t) {core th : Nat} : Kept s (t.emitsOver core th) := by
  unfold State.emitsOver
  extract_lets v
  refine h.ite ?_
  split
  · exact h.threadDone h.sendContext
  · exact h.tryFinish

theorem emitDone (h : Kept s t) {core th : Nat} : Kept s (t.emitDone core th) :=
  h.modThread.emitsOver

theorem freeSender (h : Kept s t) {f : Flight} {th : Nat} : Kept s (t.freeSender f th) :=
  h.dropFlight.modThread.ite h.dropFlight

theorem noKernel (h : Kept s t) {f : Flight} {c : Inbound} {th : Nat} : Kept s (t.noKernel f c th) :=
  h.dropFlight.abandon.ite h.dropFlight

theorem refuseContext (h : Kept s t) {f : Flight} {th : Nat} : Kept s (t.refuseContext f th) :=
  h.modThread.ite h

theorem overLink (h : Kept s t) {f : Flight} : KeptIf s (t.overLink f) :=
  .ite (keptIf_none.ite h.modPeer.keptIf) (.ite (keptIf_none.ite h.modPeer.keptIf) h.keptIf)

theorem arriveContext (h : Kept s t) {f : Flight} {c : Inbound} {th : Nat} {retry : Bool} :
    Kept s (t.arriveContext f c th retry) := by
  unfold State.arriveContext
  extract_lets w core r v
  have hv : Kept s v := h.freeSender
  split
  · exact h.noKernel.ite ((hv.sendDone.ite hv.modRake).ite h.refuseContext.modRake)
  · have drawn : Kept s t.free.2 := h.free
    refine id (α := Kept s (match bits t.free.1 0 2 with | 0 => _ | 1 => _ | _ => _)) ?_
    split
    · exact drawn.noKernel
    · exact drawn.refuseContext
    · exact drawn.freeSender.same.send.ite drawn.freeSender.same

theorem contextComes (h : Kept s t) {f : Flight} {c : Inbound} {th : Nat} {retry : Bool} :
    Kept s (t.contextComes f c th retry) := by
  unfold State.contextComes
  split
  · exact h.noKernel
  · split
    · next e => exact (h.overLink _ e).arriveContext
    · exact h

theorem noteDone (h : Kept s t) {core asid num status : Nat} : Kept s (t.noteDone core asid num status) := by
  unfold State.noteDone
  split
  · exact h
  · exact h.modRake.unitMsg.ite h.modRake

theorem freeEntry (h : Kept s t) {core e : Nat} : Kept s (t.freeEntry core e) := by
  unfold State.freeEntry
  extract_lets q v
  have hv : Kept s v := h.modRake
  split
  · exact hv.unpinLane
  · exact hv

theorem deliver (h : Kept s t) {core e : Nat} {ws : List Word} {status : Word} : KeptIf s (t.deliver core e ws status) := by
  unfold State.deliver
  extract_lets q v r s? w x
  have ended {v : State} (hv : Kept s v) :
      KeptIf s (some (match v.op? q.op with | some o => if o.left = 0 then v.finishOp o else v | none => v)) := by
    split
    · exact (hv.finishOp.ite hv).keptIf
    · exact hv.keptIf
  have hv : Kept s v := h.reachTarget
  have hs : KeptIf s s? := by
    unfold s?
    split
    · exact hv.discardLanes.keptIf
    · intro u e
      obtain ⟨k, _, rfl⟩ := Option.map_eq_some_iff.1 e
      exact hv.modCore
  split
  · exact hs.map fun _ hu => (hu.noteDone.ite hu).freeEntry
  · split
    · exact h.modRake.keptIf
    · have landed : Kept s w := h.modSlice fun y hy => by
        have filled : Aligned (((List.range q.n).zip ws).foldl (fun x p => x.setV (q.d + p.1) q.lane p.2) y) := hy.foldl fun _ hz => hz
        exact filled
      split
      · exact ended landed.lessLeft.freeEntry
      · exact ended h.lessLeft.freeEntry

theorem sendCompletion (h : Kept s t) {f : Flight} : Kept s (t.sendCompletion f) :=
  h.ite (h.dropFlight.ite (h.ite h.numbered))

theorem loadDone (h : Kept s t) {f : Flight} {core slot d kid status : Nat} : Kept s (t.loadDone f core slot d kid status) :=
  h.dropFlight.modRake.answer

/-! ### Save and resume (Machine/EvSave) -/

theorem haltHandlers (h : Kept s t) {asid core : Nat} : Kept s (t.haltHandlers asid core) :=
  h.foldl fun _ hu => hu.alterSlice

theorem haltForSave (h : Kept s t) {key : Nat} {g : Machine.Group} : Kept s (t.haltForSave key g) := by
  unfold State.haltForSave
  extract_lets v v2
  have hv : Kept s v := h.modGroup
  have hv2 : Kept s v2 := hv.foldl fun _ hu => hu.alterSlice.ite hu
  exact hv2.haltHandlers.ite hv2

theorem putWords (h : Kept s t) {key : Nat} {ws : List Word} : Kept s (t.putWords key ws) :=
  h.ite h.unitStore

theorem saveSlices (h : Kept s t) {core blk : Nat} {slots : List Nat} : Kept s (t.saveSlices core blk slots).1 :=
  h.foldlPair fun _ _ hp => hp.putWords.setSlice fun _ => aligned_default

theorem saveQueues (h : Kept s t) {blk low : Nat} {qs : Tab QReg} : Kept s (t.saveQueues blk low qs) :=
  h.foldl fun _ hu => hu.putWords.putWords

theorem saveTiles (h : Kept s t) {core blk low : Nat} {ts : Tab Tile} : Kept s (t.saveTiles core blk low ts) :=
  h.foldl fun _ hu => hu.putWords.putWords

theorem saveCore (h : Kept s t) {asid core blk : Nat} : Kept s (t.saveCore asid core blk) := by
  unfold State.saveCore
  exact (h.putWords.putWords.putWords.putWords.foldl fun _ hu => hu.putWords.putWords).modCore

theorem saveGroup (h : Kept s t) {key : Nat} {g : Machine.Group} {last : Bool} : Kept s (t.saveGroup key g last) := by
  unfold State.saveGroup
  extract_lets core blk k slots qs ts own hs leave
  split
  · next _ v _ e =>
    have hv := h.saveSlices.fst e
    extract_lets v2 v3 v4 v5 v6 v7 v8
    have hv2 : Kept s v2 := hv.saveQueues.saveTiles
    have hv3 : Kept s v3 := hv2.putWords.ite hv2
    have hv4 : Kept s v4 := hv3.putWords
    have hv5 : Kept s v5 := hv4.saveCore.ite hv4
    have hv6 : Kept s v6 := hv5.modCore
    have hv7 : Kept s v7 := hv6.modGroup
    have hv8 : Kept s v8 := hv7.same
    exact hv8.noteLeave

theorem restoreSlices (h : Kept s t) {asid core blk : Nat} {l : Tab Slice} : Kept s (t.restoreSlices asid core blk l) := by
  refine h.foldl fun x hu => ?_
  extract_lets v
  have hv : Kept s v := hu.comeTo
  split
  next y scope e =>
  have resumed : Aligned (v.resumePark (x.2.withRecord (v.getWord (blk + 0xC00 * x.1)))).1 := Aligned.withRecord.resumePark
  rw [e] at resumed
  exact (hv.setSlice (x := { y with halted := false, pausedCycles := _ }) fun _ => resumed).acquireNow

theorem declineDue (h : Kept s t) {core : Nat} : Kept s (t.declineDue core) := by
  unfold State.declineDue
  exact h.foldl fun a hu => hu.replayDecline

theorem reachQueued (h : Kept s t) {asid blk : Nat} : Kept s (t.reachQueued asid blk) :=
  h.comeTo.comeTo.comeTo.comeTo.comeTo.foldl fun _ hu => hu.comeTo

theorem restoreQueued (h : Kept s t) {asid core blk : Nat} {deque : Bool} : Kept s (t.restoreQueued asid core blk deque) :=
  h.reachQueued.modCore.wake

theorem restoreQueues (h : Kept s t) {asid core blk : Nat} {qs : Tab QReg} : Kept s (t.restoreQueues asid core blk qs) :=
  h.foldl fun _ hu => hu.comeTo.comeTo.modCore

theorem restoreTiles (h : Kept s t) {asid core blk : Nat} {ts : Tab Tile} : Kept s (t.restoreTiles asid core blk ts) :=
  h.foldl fun _ hu => hu.comeTo.comeTo.modCore

theorem wakeAway (h : Kept s t) {key core : Nat} {slots : List Nat} : Kept s (t.wakeAway key core slots) := by
  unfold State.wakeAway
  extract_lets mine ended back v v2
  have hv : Kept s v := h.same
  have hv2 : Kept s v2 := by
    refine hv.foldl fun a hu => ?_
    split
    · exact hu.finishOp
    · exact hu
  refine hv2.foldl fun q hu => ?_
  extract_lets ws z v3
  have hv3 : Kept s v3 := hu.modRake
  exact hv3.getD hv3.deliver

theorem restoreCore (h : Kept s t) {asid core : Nat} : Kept s (t.restoreCore asid core) := by
  unfold State.restoreCore
  split
  · exact h
  · exact h.reachSave.restoreQueued.modGroup.restoreSlices.declineDue.wakeAway

theorem resumeGroup (h : Kept s t) {key : Nat} {g : Machine.Group} : Kept s (t.resumeGroup key g) := by
  unfold State.resumeGroup
  extract_lets core asid v blk v2 mine v3 v4 v5 v6 v7 v8 frags v9
  have hv : Kept s v := h.reachSave
  have hv2 : Kept s v2 := hv.enterCtx.restoreCore
  have hv3 : Kept s v3 := hv2.restoreSlices
  have hv4 : Kept s v4 := hv3.restoreQueues.restoreTiles
  have hv5 : Kept s v5 := hv4.comeTo
  have hv6 : Kept s v6 := hv5.comeTo
  have hv8 : Kept s v8 := hv6.modCore.ite hv5
  have hv9 : Kept s v9 := hv8.modGroup
  exact hv9.declineDue.wakeAway

/-! ### Launch controller steps (Machine/EvLaunch) -/

theorem admitRecord (h : Kept s t) {q : Nat} {ws : List Word} : Kept s (t.admitRecord q ws).1 := by
  unfold State.admitRecord
  extract_lets c r
  split
  · exact h.modQueue.refreshHead.pair
  · split
    · exact h
    · split
      · split
        · exact h.dropRec.pair
        · extract_lets v v2
          have hv2 : Kept s v2 := h.modQueue
          exact hv2.dropRec.refreshHead.pair
      · exact h

theorem arriveRecord (h : Kept s t) {f : Flight} : KeptIf s (t.arriveRecord f) := by
  unfold State.arriveRecord
  split
  · extract_lets c ok
    split
    next e =>
    have hv : Kept s _ := fst (by split; exacts [h.admitRecord, h]) e
    split
    · exact hv.answer.keptIf
    · exact (hv.modQueue.ite hv).keptIf
  · exact keptIf_none

theorem settleRecords (h : Kept s t) : Kept s t.settleRecords :=
  h.foldl fun _ hu => hu.getD hu.dropFlight.arriveRecord

theorem placeGroup (h : Kept s t) {core : Nat} {g : Machine.Group} {ws : List Word} : Kept s (t.placeGroup core g ws).1 := by
  unfold State.placeGroup
  split
  · exact h
  · extract_lets key slots g2 v
    have hv : Kept s v := h.same.startGroup
    exact hv.acquireNow.pair

theorem placeTeam (h : Kept s t) {q asid : Nat} {r : LRec} {cores : List Nat} : Kept s (t.placeTeam q asid r cores) := by
  unfold State.placeTeam
  extract_lets ws c v grid fresh v2 team v3 cl done
  have hv : Kept s v := h.enterCtx.foldl fun _ hu => hu.restoreCore
  have hv2 : Kept s v2 := hv.same.ite hv
  have hv3 : Kept s v3 := hv2.same
  split
  next v4 keys n e =>
  have hv4 : Kept s v4 := fst (hv3.foldlPair fun p x hp => by
    extract_lets g
    split
    next placed => exact hp.placeGroup.fst placed) e
  extract_lets level bars bar v5 v6 v7 v8 v9
  have hv5 : Kept s v5 := hv4.modCluster
  have hv6 : Kept s v6 := hv5.endDrain
  have hv7 : Kept s v7 := hv6.same
  have hv8 : Kept s v8 := hv7.same.ite hv7
  exact hv8.modQueue.refreshHead

theorem reachTargets (h : Kept s t) {core : Nat} : Kept s (t.reachTargets core) := by
  unfold State.reachTargets
  refine h.foldl fun a hu => ?_
  split
  · exact hu.reachTarget
  · exact hu

/-! ### Link steps (Machine/EvLink) -/

theorem modLink (h : Kept s t) {p : Nat} {f : LinkPort → LinkPort} : Kept s (t.modLink p f) :=
  h.same

theorem repairLane (h : Kept s t) {port lane : Nat} : Kept s (t.repairLane port lane) :=
  h.ite (h.modLink.ite h.modLink.log)

theorem flitsIn (h : Kept s t) {port n : Nat} {lane : Option Nat} : Kept s (t.flitsIn port n lane) := by
  unfold State.flitsIn
  extract_lets add v
  have hv : Kept s v := h.modLink
  refine h.ite ?_
  split
  · exact hv.repairLane.ite hv
  · exact hv

theorem retrainLimit (h : Kept s t) : Kept s t.retrainLimit :=
  h.same

theorem poisonAll (h : Kept s t) {op : Nat} {a : Machine.Acc} : Kept s (t.poisonAll op a) :=
  h.modOp

theorem lostValues (h : Kept s t) {op : Nat} {a : Machine.Acc} : Kept s (t.lostValues op a) :=
  h.same.modOp

theorem discardRequest (h : Kept s t) {d : Nat} {f : Flight} : Kept s (t.discardRequest d f) := by
  unfold State.discardRequest
  extract_lets op sent open_ v v2 v3 lose
  have hv2 : Kept s v2 := h.dropFlight.lessLeft.ite h.dropFlight
  have hv3 : Kept s v3 := (hv2.lessLeft.foldl fun _ hu => hu.poisonAll.lessLeft).ite hv2
  have lost {w : State} (hw : Kept s w) : Kept s (lose w) := hw.losePeer
  split
  · split
    · exact hv3.poisonAll
    · exact hv3.poisonAll
    · exact lost hv3
    · exact lost hv3
    · exact lost (hv3.lostValues.ite hv3)
    · exact hv3.nearLine.ite hv3
    · exact hv3.nearLine.ite hv3
    · exact hv3
  · exact lost (hv3.lostValues.ite hv3)
  · exact hv3

theorem receivePeer (h : Kept s t) {f : Flight} {seq : Nat} {a : Machine.Acc} : Kept s (t.receivePeer f seq a) := by
  unfold State.receivePeer
  extract_lets d n ack form v v2
  have hv2 : Kept s v2 := h.dropFlight.settle.performGlobal
  have acked {w : State} (hw : Kept s w) : Kept s (ack w) := hw.modPeer
  exact (acked hv2.modPeer).ite ((acked h.dropFlight).ite h)

theorem dropOutstanding (h : Kept s t) {dev : Nat} : Kept s (t.dropOutstanding dev) := by
  unfold State.dropOutstanding
  extract_lets v v2
  have hv : Kept s v := h.foldl fun _ hu => hu.discardRequest
  have hv2 : Kept s v2 := hv.same
  refine hv2.foldl fun a hu => ?_
  split
  · exact hu.noKernel
  · exact hu.dropFlight.losePeer.emitDone
  · exact hu.dropFlight

/-! ### Management and power steps (Machine/EvMgmt) -/

theorem modMgmt (h : Kept s t) {f : Mgmt → Mgmt} : Kept s (t.modMgmt f) :=
  h.same

theorem mgmtDone (h : Kept s t) {result : Nat} : Kept s (t.mgmtDone result) :=
  h.modMgmt

theorem mgmtData (h : Kept s t) {bs : List Byte} : Kept s (t.mgmtData bs) :=
  h.modMgmt

theorem shutDown (h : Kept s t) : Kept s t.shutDown := by
  unfold State.shutDown
  split
  · split
    · extract_lets v v2 v3
      have hv : Kept s v := h.endPlans
      have hv2 : Kept s v2 := by
        unfold v2
        split
        · exact hv.foldl fun a hu => hu.commitFails
        · exact hv
      have hv3 : Kept s v3 := hv2.foldl fun _ hu => hu.sendMsg
      exact hv2.modMgmt.ite hv3.modMgmt.log

theorem shutdownLimit (h : Kept s t) : Kept s t.shutdownLimit :=
  h.shutDown.ite h

theorem mapCores (h : Kept s t) {f : Core → Core} : Kept s (t.mapCores f) :=
  h.same

theorem mapClusters (h : Kept s t) {f : Cluster → Cluster} : Kept s (t.mapClusters f) :=
  h.same

theorem endOps (h : Kept s t) {p : Op → Bool} : Kept s (t.endOps p) :=
  h.foldl fun _ hu => hu.dropOp.foldl fun _ hu => hu.alterSlice

theorem dropTraversals (h : Kept s t) {asid : Nat} : Kept s (t.dropTraversals asid) := by
  unfold State.dropTraversals
  extract_lets v clean v2 loads v3
  have hv : Kept s v := h.foldl fun _ hu => hu.foldl fun _ hu => hu.freeEntry.ite hu
  have hv2 : Kept s v2 := hv.mapCores
  have hv3 : Kept s v3 := hv2.same
  exact hv3.endOps

theorem dropCopies (h : Kept s t) {asid : Nat} : Kept s (t.dropCopies asid) := by
  unfold State.dropCopies
  extract_lets keep gone out ids dead v clean v2 v3
  have hv : Kept s v := h.foldl fun _ hu => hu.foldl fun _ hu => hu.foldl fun _ hu => hu.endClean
  have hv2 : Kept s v2 := hv.mapClusters
  have hv3 : Kept s v3 := hv2.same
  exact hv3.endOps

theorem dropGroups (h : Kept s t) {asid : Nat} : Kept s (t.dropGroups asid) := by
  unfold State.dropGroups
  extract_lets v v2 back v3 v4
  have hv : Kept s v := h.foldl fun _ hu => hu.killGroup.ite hu
  have hv2 : Kept s v2 := hv.foldl fun _ hu => hu.alterSlice.retire
  have hv3 : Kept s v3 := hv2.same
  have hv4 : Kept s v4 := hv3.foldl fun _ hu => hu.groupGone.modGroup.forgetGroup
  exact hv4.endOps

theorem dropSections (h : Kept s t) {asid : Nat} : Kept s (t.dropSections asid) := by
  unfold State.dropSections
  extract_lets v d others mine ids v2
  have hv : Kept s v := h.settleRange
  have hv2 : Kept s v2 := hv.same.endOps.abandonIf
  exact hv2.ite hv2.same

theorem dropQueues (h : Kept s t) {asid : Nat} : Kept s (t.dropQueues asid) :=
  h.mapCores

theorem dropPlanReqs (h : Kept s t) {asid : Nat} : Kept s (t.dropPlanReqs asid) :=
  h.same.endOps

theorem dropPlans (h : Kept s t) {asid : Nat} : Kept s (t.dropPlans asid) :=
  h.dropPlanReqs.endPlans

theorem freePlans (h : Kept s t) {asid : Nat} : Kept s (t.freePlans asid) :=
  h.foldl fun _ hu => hu.modPlan.ite hu

/-! ### Service steps (Machine/EvService) -/

theorem reply (h : Kept s t) {f : Flight} {src kind : Nat} {tag : Word} {payload : List Word} :
    Kept s (t.reply f src kind tag payload) :=
  h.unitMsg

theorem reject (h : Kept s t) {f : Flight} {src : Nat} {ws : List Word} {reason a : Nat} : Kept s (t.reject f src ws reason a) :=
  h.reply

theorem serviceRead (h : Kept s t) {asid a n : Nat} : Kept s (t.serviceRead asid a n).1 := by
  unfold State.serviceRead
  split
  · exact h
  · split
    · next _ v _ _ _ e =>
      exact h.translateNow.fst e
    · next _ v2 _ e2 =>
      have hv2 := h.translateNow.fst e2
      split
      · exact hv2
      · extract_lets v3
        have hv3 : Kept s v3 := hv2.reachHome.findErrors
        split
        · exact hv3
        · exact hv3

theorem texResult (h : Kept s t) {x : Tex} {texels : List (Nat × Nat)} : Kept s (t.texResult x texels).1 :=
  h.foldlPair fun _ _ hp => by
    extract_lets l
    clear_value l
    split
    · exact hp
    · split
      · exact hp
      · exact hp.free

theorem readTexels (h : Kept s t) {asid n : Nat} {l acc : List (Nat × Nat)} : Kept s (State.readTexels asid n l t acc).1 := by
  induction l generalizing t acc with
  | nil => exact h
  | cons x l ih =>
    rw [State.readTexels]
    split
    · next e => exact ih (h.serviceRead.fst e)
    · next e => exact h.serviceRead.fst e
    · next e => exact h.serviceRead.fst e

theorem texture (h : Kept s t) {f : Flight} {ws : List Word} : KeptIf s (t.texture f ws) := by
  unfold State.texture
  extract_lets src w op da u v
  refine h.reject.keptIf.ite ?_
  split
  · exact keptIf_none
  · next e => exact (h.serviceRead.fst e).reject.keptIf
  · next e =>
    have read := h.serviceRead.fst e
    split
    · exact read.reject.keptIf
    · split
      · exact keptIf_none
      · next e => exact (read.readTexels.fst e).reject.keptIf
      · next e => exact (read.readTexels.fst e).texResult.reply.keptIf

theorem raster (h : Kept s t) {f : Flight} {ws : List Word} : Kept s (t.raster f ws) := by
  unfold State.raster
  extract_lets src w v c p m
  exact h.reject.ite h.reply

theorem refuseService (h : Kept s t) {flight : Nat} : Kept s (t.refuseService flight) :=
  h.same

/-! ### System register writes by the device (Machine/EvSystem) -/

theorem counterRead (h : Kept s t) {core slot d r : Nat} : Kept s (t.counterRead core slot d r) := by
  unfold State.counterRead
  split
  · split
    · next _ v _ e =>
      have hv := h.sysRead.fst e
      exact hv.alterSlice
  · exact h

theorem ucRequest (h : Kept s t) {kind inst : Nat} {d0 d1 d2 : Word} : Kept s (t.ucRequest kind inst d0 d1 d2) :=
  h.same.ucCommand

/-! ### Repeats (Machine/Repeat) -/

theorem capture (h : Kept s t) {core asid : Nat} {system check : Bool} {n : Nat} {a : Addr} :
    Kept s (State.capture core asid system check n a t).1 := by
  induction n generalizing t a with
  | zero => exact h
  | succ n ih =>
    have rest (b : Addr) (w : Word × Word) {v : State} (hv : Kept s v) :
        Kept s (match State.capture core asid system check n b v with
          | (v, .ok l) => (v, Except.ok (w :: l))
          | r => r).1 := by
      split
      · next e => exact (ih hv).fst e
      · exact ih hv
    rw [State.capture]
    split
    · next e => exact h.fetchWord.fst e
    · next e =>
      have hv := h.fetchWord.fst e
      split
      · exact hv
      · split
        · exact rest _ (_, 0) hv
        · split
          · next e => exact hv.fetchWord.fst e
          · next e => exact rest _ (_, _) (hv.fetchWord.fst e)

/-! ### The host's port (Machine/HostPort) -/

theorem hostRead (h : Kept s t) {off : Nat} : Kept s (t.hostRead off) := by
  unfold State.hostRead
  refine h.ite ?_
  extract_lets v r
  have hv : Kept s v := h.ite h.settleRecords
  have hr : Kept s r.2 := by
    unfold r
    split
    · exact hv
    · exact hv.free
  exact hr.modMgmt

theorem setBar2 (h : Kept s t) {base : Nat} : Kept s (t.setBar2 base) :=
  h.modMgmt

theorem resizeBar2 (h : Kept s t) {log : Nat} : Kept s (t.resizeBar2 log) :=
  h.ite h.modMgmt.setBar2

theorem takeInput (h : Kept s t) {x : Input} : Kept s (t.takeInput x) := by
  unfold State.takeInput
  split
  · exact h
  · split
    · exact h.flitsIn
    · exact h.modMgmt
    · exact h.ite h.same
    · exact h.resizeBar2
    · exact h.ite h.send
    · exact h.ite h.send

/-! ### Turns (Machine/Turn) -/

theorem cycleWork (h : Kept s t) : Kept s t.cycleWork := by
  unfold State.cycleWork
  extract_lets v v2
  have hv : Kept s v := h.pollDeps.ite h
  have hv2 : Kept s v2 := hv.memRetry.retryDone.endLent
  exact hv2.mapSlices (f := fun p => p.2.settlePending) fun _ hq => hq

theorem endCycle (h : Kept s t) : Kept s t.endCycle :=
  (h.cycleWork.ite h).same

theorem atPlace (h : Kept s u) : Kept s (t.atPlace u) := h.same

theorem nextVisit (h : Kept s t) : Kept s t.nextVisit :=
  h.same.ite (h.same.ite h.endCycle)

end Kept

end Sys2Proof.Proofs

/-! Host accesses, management commands, power, reset, temperature and teardown (18 R433 to R436, R443 to R447; 14 R394, R395). -/

namespace Sys2Proof.Proofs

-- One proof at a time, as in the tests: each proof under way at once takes a thread's stack out of the check's memory.
set_option Elab.async false

open Sys2Proof.Machine Sys2Proof.Claim

/-! ### The log -/

/-- A record of the log leaves the boot's outcome. -/
theorem recovery_log (s : State) (type : Nat) (payload : List Byte) : (s.log type payload).mgmt.recovery = s.mgmt.recovery := by
  obtain ⟨l, n, r, h⟩ := log_eq_logged s type payload
  rw [h]
  rfl

/-! ### Host accesses -/

/-- Memory below the peers' is this device's own: an access there settles what stands at its units. -/
theorem reachHome_of_own (s : State) {key : Nat} (own : key < peerBase 0) (n : Nat) : s.reachHome key n = s.settleRange key n := by
  have no : (decide (peerBase 0 ≤ key) && decide (key < hostBase) && (tget ({} : Peer) s.peers (key / 2 ^ 52 - 1)).path) = false := by
    rw [decide_eq_false (Nat.not_le.2 own), Bool.false_and, Bool.false_and]
  unfold State.reachHome
  simp only [no, Bool.false_eq_true, if_false]

/-- A store of bytes of the device's own memory. -/
theorem unitStore_of_own (s : State) {key : Nat} (own : key < peerBase 0) (asid : Nat) (bs : List Byte) :
    s.unitStore asid key bs = (coveredBy key bs.length).foldl State.clearPoison
      (((s.settleRange key bs.length).findErrors asid ((touchedBy key bs.length).filter fun k => !(coveredBy key bs.length).contains k)).writeBytes
        key bs) := by
  unfold State.unitStore
  dsimp only
  rw [reachHome_of_own s own]

section
variable {s : State} (power : s.mgmt.power = true)
include power

section
variable {off : Nat} {w : Bool} {data : List Byte} (some : data ≠ []) (inside : off + data.length ≤ s.mgmt.bar2size)
include some inside

theorem bar2_in_window : ¬ ((!s.mgmt.power) = true ∨ data.length = 0 ∨ s.mgmt.bar2size < off + data.length) := by
  rw [power]
  rintro (h | h | h)
  · exact Bool.false_ne_true h
  · exact some (List.length_eq_zero_iff.1 h)
  · omega

theorem bar2_beyond (past : dramSize < s.mgmt.bar2base + off + data.length) : Becomes (.evBar2Access off w data) s
    { s with mgmt := { s.mgmt with reply := if w then {} else { ur := true } } } := by
  show execEvBar2Access off w data s = _
  unfold execEvBar2Access
  dsimp only
  rw [if_neg (bar2_in_window power some inside), if_pos past]
  rfl

variable (fits : s.mgmt.bar2base + off + data.length ≤ dramSize) {pa : Nat} (hpa : s.mgmt.bar2base + off = pa)
include fits hpa

theorem bar2_writes :
    let n := data.length
    let v := (touchedBy pa n).foldl (fun s k => s.dcacheFor (k / 4) 0 true) ((coveredBy pa n).foldl State.clearPoison
      (((s.settleRange pa n).findErrors 0 ((touchedBy pa n).filter fun k => !(coveredBy pa n).contains k)).writeBytes pa data))
    Becomes (.evBar2Access off true data) s { v with mgmt := { v.mgmt with reply := {} } } := by
  have own : pa < peerBase 0 := by unfold dramSize at fits; unfold peerBase; omega
  subst hpa
  show execEvBar2Access off true data s = _
  unfold execEvBar2Access
  dsimp only
  rw [if_neg (bar2_in_window power some inside), if_neg (Nat.not_lt.2 fits), unitStore_of_own s own]
  rfl

theorem bar2_reads :
    let n := data.length
    let v := (touchedBy pa n).foldl (fun s k => s.dcacheFor (k / 4) 0 false) ((s.settleRange pa n).findErrors 0 (touchedBy pa n))
    Becomes (.evBar2Access off false data) s { v with mgmt := { v.mgmt with
      reply := if (touchedBy pa n).any v.poisonedAt then { ep := true } else { data := mbytes v.mem pa n } } } := by
  subst hpa
  intro n v
  show execEvBar2Access off false data s = _
  unfold execEvBar2Access
  dsimp only
  rw [if_neg (bar2_in_window power some inside), if_neg (Nat.not_lt.2 fits), if_neg Bool.false_ne_true]
  show (if (touchedBy (s.mgmt.bar2base + off) n).any v.poisonedAt = true then _ else _) = _
  cases (touchedBy (s.mgmt.bar2base + off) n).any v.poisonedAt <;> rfl

end

theorem hostAtomic_refused {off : Nat} (inside : off < s.mgmt.bar2size) :
    Becomes (.evHostAtomicop off) s { s with mgmt := { s.mgmt with reply := { ur := true } } } :=
  show execEvHostAtomicop off s = _ from congrArg _ (if_pos ⟨power, inside⟩)

omit power in
theorem drops_clears {q : Nat} (inside : q < 128) :
    Becomes (.evDropsWrite q 0) s (s.settleRecords.modQueue q fun c => { c with drops := 0 }) :=
  show execEvDropsWrite q 0 s = _ from congrArg _ (if_pos ⟨inside, rfl⟩)

/-! ### Management commands -/

theorem sensors_answers : Becomes .evSensors s
    (s.mgmtData (((List.range 64).map fun i => tget 0 s.mgmt.sensors i) ++ s.mgmt.rails |>.flatMap (natBytes 2))) :=
  show execEvSensors s = _ from congrArg _ (if_pos power)

theorem log_refuses {i n : Nat} (bad : 100 < n ∨ 8192 < i + n) : Becomes (.evLog i n) s (s.mgmtDone 1) := by
  show execEvLog i n s = _
  rw [execEvLog, power, if_neg (by decide), if_pos bad]

theorem log_answers {i n : Nat} (few : n ≤ 100) (held : i + n ≤ 8192) : Becomes (.evLog i n) s
    (s.mgmtData ((List.range n).flatMap fun j => s.mgmt.log.getD (i + j) (List.replicate 32 0))) := by
  show execEvLog i n s = _
  rw [execEvLog, power, if_neg (by decide), if_neg (by omega)]

theorem attest_answers {nonce : List Byte} (len : nonce.length = 32) :
    let img := sha512 s.mgmt.running
    let rcd := sha512 (Config.recordBytes s.mgmt.running)
    Becomes (.evAttest nonce) s (s.mgmtData (img ++ rcd ++
      Config.identitySign (sha512 (nonce ++ img ++ rcd ++ natBytes 4 0xA1)))) := by
  show execEvAttest nonce s = _
  rw [execEvAttest, power, if_neg (by decide), if_neg (not_not_intro len)]

theorem flashWrite_flushes :
    Becomes .evLogFlashWrite s { s with mgmt := { s.mgmt with flushed := s.mgmt.log.length, flashAge := 0 } } :=
  show execEvLogFlashWrite s = _ from congrArg _ (if_pos power)

theorem shock_logs {axis level : Nat} (number : axis < 3) (hard : s.mgmt.shockThreshold < level) :
    Becomes (.evShock axis level) s (s.log 3 (BitVec.ofNat 8 axis :: natBytes 2 level)) :=
  show execEvShock axis level s = _ from congrArg _ (if_pos ⟨power, number, hard⟩)

omit power in
theorem shock_ignored {axis level : Nat} (soft : level ≤ s.mgmt.shockThreshold) : Becomes (.evShock axis level) s s :=
  show execEvShock axis level s = _ from congrArg _ (if_neg fun h => Nat.not_lt.2 soft h.2.2)

/-! ### Images -/

section
variable (idle : s.mgmt.committing = none)
include idle

theorem stage_reads {a n : Nat} (some : 0 < n) (fits : a + n ≤ dramSize) {u : State}
    (hu : (s.settleRange a n).findErrors 0 (touchedBy a n) = u) (clean : ∀ k ∈ touchedBy a n, u.poisonedAt k = false) :
    Becomes (.evStage a n) s { u with mgmt := { u.mgmt with staged := mbytes u.mem a n, result := 0 } } := by
  have pure_ : ((touchedBy a n).any u.poisonedAt) = false := List.any_eq_false.2 fun k hk => by rw [clean k hk]; exact Bool.false_ne_true
  show execEvStage a n s = _
  simp only [execEvStage, power, idle, Nat.not_lt.2 fits, Nat.ne_of_gt some, hu, pure_, Bool.not_true, Option.isSome_none,
    Bool.false_eq_true, if_false]
  rfl

theorem commit_starts : Becomes .evCommit s (if imagePasses s.mgmt.staged then
    { s with mgmt := { s.mgmt with committing := some s.mgmt.staged, result := 0 } }
    else s.free.2.mgmtDone (s.free.1.toNat % 256)) := by
  show execEvCommit s = _
  unfold execEvCommit
  rw [if_neg (by rw [power]; decide), if_neg (by rw [idle]; decide)]
  split <;> rfl

end

section
variable {img : List Byte} (busy : s.mgmt.committing = some img)
include busy

theorem stage_busy (a n : Nat) : Becomes (.evStage a n) s (s.mgmtDone 3) := by
  show execEvStage a n s = _
  simp only [execEvStage, power, busy, Bool.not_true, Option.isSome_some, Bool.false_eq_true, if_false, if_true]

theorem commit_busy : Becomes .evCommit s (s.mgmtDone 3) := by
  show execEvCommit s = _
  simp only [execEvCommit, power, busy, Bool.not_true, Option.isSome_some, Bool.false_eq_true, if_false, if_true]

omit power in
theorem flashCommit_completes :
    let u := ({ s with mgmt := { s.mgmt with flash := img, flashOk := true, committing := none } } : State).log 8 []
    Becomes .evFlashCommitComplete s (if s.mgmt.recovery then u.boot else u) := by
  show execEvFlashCommitComplete s = _
  simp only [execEvFlashCommitComplete, busy, recovery_log, State.modMgmt]

end

end

theorem managementEvents : ManagementEvents := by
  intro s power
  refine ⟨fun off w data some inside => ?_, fun off => hostAtomic_refused power, fun q => drops_clears, sensors_answers power,
    fun i n => ⟨log_refuses power, log_answers power⟩, fun a n idle some fits => stage_reads power idle some fits rfl,
    commit_starts power, fun img busy => ⟨stage_busy power busy, commit_busy power busy, flashCommit_completes busy⟩,
    fun nonce => attest_answers power, flashWrite_flushes power, fun axis level number => ⟨shock_logs power number, shock_ignored⟩⟩
  intro pa n secs whole touch reply
  refine ⟨bar2_beyond power some inside, fun fits => ⟨?_, ?_⟩⟩
  · rintro rfl
    exact bar2_writes power some inside fits rfl
  · rintro rfl
    exact bar2_reads power some inside fits rfl

/-! ### Power -/

section
variable {s : State}

theorem reset_boots (power : s.mgmt.power = true) (idle : s.mgmt.committing = none) : Becomes .evDeviceReset s s.boot := by
  show execEvDeviceReset s = _
  simp only [execEvDeviceReset, power, idle, Bool.not_true, Option.isSome_none, Bool.false_eq_true, if_false]

theorem powerOn_boots (power : s.mgmt.power = false) : Becomes .evPowerOn s s.boot := by
  show execEvPowerOn s = _
  simp only [execEvPowerOn, power, Bool.false_eq_true, if_false]

/-! ### Teardown -/

theorem teardown_waits {asid : Nat} (busy : (s.dropPlans asid).slotsIn 2 (Plan.isOf asid) ≠ []) :
    Becomes (.evContextTeardown asid) s (s.dropPlans asid) := by
  have some : (!((s.dropPlans asid).slotsIn 2 (Plan.isOf asid)).isEmpty) = true := by simpa using busy
  show execEvContextTeardown asid s = _
  simp only [execEvContextTeardown, some, if_true]

theorem teardown_completes {asid : Nat} (idle : (s.dropPlans asid).slotsIn 2 (Plan.isOf asid) = []) :
    Becomes (.evContextTeardown asid) s
      (let t := ((((((s.dropPlans asid).freePlans asid).dropTraversals asid).dropCopies asid).dropGroups asid).dropSections asid).dropQueues
        asid
       { t with ctxs := tdel t.ctxs asid }) := by
  show execEvContextTeardown asid s = _
  simp only [execEvContextTeardown, idle, List.isEmpty_nil, Bool.not_true, Bool.false_eq_true, if_false]

end

/-! ### Temperature -/

section
variable {s : State} (power : s.mgmt.power = true) (on : s.mgmt.shutdown = false)
include power on

theorem thermal_shutsDown (hot : s.mgmt.shutdownAt ≤ s.mgmt.hottest.2 ∨ s.mgmt.closing ≠ none) :
    Becomes .evThermalShutdown s s.shutDown := by
  have warm : ¬ (s.mgmt.closing.isNone = true ∧ s.mgmt.hottest.2 < s.mgmt.shutdownAt) := by
    rintro ⟨none, cool⟩
    rcases hot with hot | closing
    · omega
    · exact closing (Option.isNone_iff_eq_none.1 none)
  show execEvThermalShutdown s = _
  simp only [execEvThermalShutdown, power, on, warm, Bool.not_true, Bool.false_eq_true, or_self, if_false]

end

/-- Ending plans takes no time. -/
theorem time_endPlans {s : State} {p : Plan → Bool} : (s.endPlans p).time = s.time :=
  (Kept.refl s).endPlans.time

section
variable {s v : State} {i t since : Nat} {owed : List (Nat × Msg)} (hot : s.mgmt.hottest = (i, t)) (owes : s.shutdownOwes = (since, owed))
  (hv : (if since + 50 ≤ s.time.toNat then
    ((s.endPlans fun _ => true).slotsIn 2 fun _ => true).foldl State.commitFails (s.endPlans fun _ => true)
    else s.endPlans fun _ => true) = v)
include hot owes hv

/-- With no slot COMMITTING any more, what is owed is sent and the device stops (14 R395). -/
theorem shutDown_halts (free : (v.slotsIn 2 fun _ => true) = []) : s.shutDown =
    (let w := owed.foldl (fun s m => s.sendMsg nodePlan m.1 m.2) v
     ({ w with mgmt := { w.mgmt with shutdown := true, limit := 1, closing := none } } : State).log 1
      (BitVec.ofNat 8 i :: natBytes 2 t)) := by
  unfold State.shutDown
  simp only [hot, owes, time_endPlans, hv, free, List.isEmpty_nil, Bool.not_true, Bool.false_eq_true, if_false, State.modMgmt]

/-- A commit whose read waits keeps the shutdown open. -/
theorem shutDown_waits (held : (v.slotsIn 2 fun _ => true) ≠ []) :
    s.shutDown = { v with mgmt := { v.mgmt with closing := some (since, owed) } } := by
  have busy : (!(v.slotsIn 2 fun _ => true).isEmpty) = true := by simpa using held
  unfold State.shutDown
  simp only [hot, owes, time_endPlans, hv, busy, if_true, State.modMgmt]

end

/-- The decision and what it owes. -/
theorem shutdownOwes_eq (s : State) : s.shutdownOwes = ((s.mgmt.closing.map Prod.fst).getD s.time.toNat,
    (s.mgmt.closing.map Prod.snd).getD [] ++ (s.slotsIn 1 fun _ => true).map fun n =>
      ((s.plan n).ncore, s.statusMsg n 2 (s.plan n).fb.length s.time.toNat 0 0)) := by
  unfold State.shutdownOwes
  cases s.mgmt.closing <;> rfl

/-! ### The clock -/

section
variable {s : State} (power : s.mgmt.power = true) (on : s.mgmt.shutdown = false) (rotation : s.cycle.toNat % 16 = 0)
  (core : s.visitCore = 0) (dp : s.visitDp = 0) (since : s.mgmt.lastThrottle + 100000 ≤ s.time.toNat)
include power on rotation core dp since

theorem throttle_may_step : ¬ ((!s.mgmt.power) = true ∨ s.mgmt.shutdown = true ∨ s.cycle.toNat % 16 ≠ 0 ∨ s.visitCore ≠ 0 ∨
    s.visitDp ≠ 0 ∨ s.time.toNat < s.mgmt.lastThrottle + 100000) := by
  simp [power, on, rotation, core, dp, since]

theorem throttle_raises (cool : s.mgmt.hottest.2 < s.mgmt.raiseBelow) (rails : s.mgmt.overRail = none)
    (below : s.mgmt.clock < s.mgmt.ceiling) : Becomes (.evThrottleStep true) s { s with mgmt := { s.mgmt with
      clock := s.mgmt.clock + 25, lastThrottle := s.time.toNat,
      limit := if s.mgmt.clock + 25 < s.mgmt.ceiling then s.mgmt.limit else 0 } } := by
  show execEvThrottleStep true s = _
  unfold execEvThrottleStep
  dsimp only
  rw [if_neg (throttle_may_step power on rotation core dp since), if_pos rfl, if_pos ⟨cool, rails, below⟩]
  rfl

variable (room : s.mgmt.clockLow + 25 ≤ s.mgmt.clock)
include room

theorem throttle_of_heat (hot : s.mgmt.throttleAt ≤ s.mgmt.hottest.2) : Becomes (.evThrottleStep false) s
    (({ s with mgmt := { s.mgmt with clock := s.mgmt.clock - 25, lastThrottle := s.time.toNat, limit := 1 } } : State).log 1
      (BitVec.ofNat 8 s.mgmt.hottest.1 :: natBytes 2 s.mgmt.hottest.2)) := by
  show execEvThrottleStep false s = _
  unfold execEvThrottleStep
  dsimp only
  rw [if_neg (throttle_may_step power on rotation core dp since), if_neg Bool.false_ne_true, if_neg (Nat.not_lt.2 room), if_pos hot]
  rfl

theorem throttle_of_rail {r : Nat} (cool : s.mgmt.hottest.2 < s.mgmt.throttleAt) (rail : s.mgmt.overRail = some r) :
    Becomes (.evThrottleStep false) s
    (({ s with mgmt := { s.mgmt with clock := s.mgmt.clock - 25, lastThrottle := s.time.toNat, limit := 2 } } : State).log 2
      (BitVec.ofNat 8 r :: natBytes 2 (s.mgmt.rails.getD r 0))) := by
  show execEvThrottleStep false s = _
  unfold execEvThrottleStep
  dsimp only
  rw [if_neg (throttle_may_step power on rotation core dp since), if_neg Bool.false_ne_true, if_neg (Nat.not_lt.2 room),
    if_neg (Nat.not_le.2 cool)]
  split
  next q found => rw [Option.some.inj (found.symm.trans rail)]; rfl
  next none => exact absurd (none.symm.trans rail) nofun

end

theorem powerEvents : PowerEvents := by
  refine ⟨fun s => ⟨reset_boots, powerOn_boots, ⟨_, rfl, rfl, rfl, rfl, rfl, rfl⟩, fun asid => ⟨teardown_waits, teardown_completes⟩⟩,
    fun s power on => ⟨fun hot => ?_, fun rotation core dp since => ?_⟩⟩
  · intro all armed since owed u late halts
    have down := thermal_shutsDown power on hot
    have owes := shutdownOwes_eq s
    refine ⟨fun free => ?_, fun held early => ?_, fun spent free => ?_⟩
    · have stays : (if since + 50 ≤ s.time.toNat then late else u) = u := by
        rw [show late = u from congrArg (List.foldl State.commitFails u) free, ite_self]
      exact down.trans (congrArg _ (shutDown_halts rfl owes stays free))
    · exact down.trans (congrArg _ (shutDown_waits rfl owes (if_neg (Nat.not_le.2 early)) held))
    · exact down.trans (congrArg _ (shutDown_halts rfl owes (if_pos spent) free))
  · exact ⟨fun room => ⟨throttle_of_heat power on rotation core dp since room,
      fun r => throttle_of_rail power on rotation core dp since room⟩, throttle_raises power on rotation core dp since⟩

/-- Settles O60: each access and command answers by its operands; a shutdown and a teardown wait for the commits under way. -/
theorem managementAndPowerEvents : Obligations.ManagementAndPowerEvents := ⟨managementEvents, powerEvents⟩

end Sys2Proof.Proofs

/-! The stack of a traversal thread (13 R352 to R355). -/

namespace Sys2Proof.Proofs

-- One proof at a time, as in the tests: each proof under way at once takes a thread's stack out of the check's memory.
set_option Elab.async false

open Sys2Proof.Machine Sys2Proof.Claim

section
variable {s : State}

/-- A change of a thread is the setting of it to what the change makes of it. -/
theorem modThread_eq_set (c n : Nat) (f : Thread → Thread) : s.modThread c n f = s.modThread c n fun _ => f (s.thread c n) := rfl

/-- Entries that the stack takes are pushed, and the thread goes on (R352). -/
theorem travPush_of_ok {t v : Thread} {es : List Nat} {u : State} (h : s.pushAll t es = .ok (u, v)) :
    travPush s t es = .ok ((u.modThread s.rakeCore s.rakeThread fun _ => v.setEmpty false).goNext s.rakeCore s.rakeThread) := by
  have kept : Leaves (TStopKept s) (fun p : State × Thread => Kept s p.1) (s.pushAll t es) := (Kept.refl s).pushAll
  rw [h] at kept
  have same : Kept s u := kept
  rw [← same.rakeCore, ← same.rakeThread]
  simp only [travPush, h]
  rfl

/-! ### PUSHM and PUSHM.E -/

theorem pushm_pushes {b : BitVec 5} {rs : List (Bool × Word)} {ws : List Word} {u : State} {v : Thread}
    (test : (running s).test = some rs) (node : (running s).node = some ws)
    (pushed : s.pushAll (running s) ((pushOrder ((running s).wr b.toNat) rs).map fun p => childEntry ws p.1 p.2) = .ok (u, v)) :
    exec (.tPushm b) s =
      .next ((u.modThread s.rakeCore s.rakeThread fun _ => v.setEmpty false).goNext s.rakeCore s.rakeThread) := by
  refine show execTPushm b s = _ from travForm_of_ok rfl ?_
  rw [test, node]
  exact travPush_of_ok pushed

/-- Without a node or a test of it there is nothing to push (R352). -/
theorem pushm_without_test {b : BitVec 5} (bare : (running s).test = none ∨ (running s).node = none) : Ends (.tPushm b) s 7 := by
  refine show execTPushm b s = _ from travForm_of_status rfl ?_
  obtain none | none := bare
  · rw [none]
  · rw [none]; cases (running s).test <;> rfl

/-- One entry goes into the window of a stack with room. -/
theorem pushAll_of_room {t : Thread} (e : Nat) (room : t.stack.length < 8) :
    s.pushAll t [e] = .ok (s, t.setStack ((e, false) :: t.stack)) := by
  have pushed : s.push t e = .ok (s, t.setStack ((e, false) :: t.stack)) := if_pos room
  simp only [State.pushAll, pushed, bind, Except.bind]

theorem pushmE_pushes {a b : BitVec 5} (ha : a.toNat ≤ 30) (lw : Bool) (addr : Nat)
    (pair : s.nodePair ((running s).wr a.toNat) ((running s).wr (a.toNat + 1)) = .ok (lw, addr))
    (inside : lw = true → lwinNode addr = true) (room : (running s).stack.length < 8) :
    Walks (.tPushmE a b) s (((running s).setStack ((stackEntry (key18 ((running s).wr b.toNat)) lw addr, false) ::
      (running s).stack)).setEmpty false) := by
  refine show execTPushmE a b s = _ from travForm_of_ok (srcOk_eq_true (by omega)) ?_
  have legal : (lw && !lwinNode addr) = false := by cases lw <;> simp_all
  rw [pair]
  simp only [bind, Except.bind, legal]
  exact travPush_of_ok (pushAll_of_room _ room)

/-! ### POP -/

section
variable {d : BitVec 5} (hd : d.toNat ≤ 27)
include hd

/-- An empty stack with nothing spilled sets EMPTY (R353). -/
theorem pop_of_empty (bare : (running s).stack = []) (none : (running s).spb = 0) :
    Walks (.tPop d) s ((running s).setEmpty true) := by
  refine show execTPop d s = _ from travForm_of_ok (dstOk_eq_true (by omega)) ((if_neg ?_).trans ?_)
  · simp [none]
  · rw [modThread_eq_set, show s.thread s.rakeCore s.rakeThread = running s from rfl, bare]; rfl

theorem pop_of_spilled (bare : (running s).stack = []) (some : (running s).spb ≠ 0) :
    Awaits (.tPop d) s (.reload d.toNat false) := by
  refine show execTPop d s = _ from travForm_of_ok (dstOk_eq_true (by omega)) (if_pos ?_)
  simp [bare, some]

/-- An ordered thread takes the entry at the top (R353, R354). -/
theorem pop_of_ordered {e : Nat × Bool} {es : List (Nat × Bool)} (stack : (running s).stack = e :: es)
    (ordered : (running s).ordered = true) :
    Walks (.tPop d) s ((((running s).setStack es).setGroup d.toNat (entryWords e.1)).setEmpty false) := by
  have popped : (running s).popNow d.toNat =
      (((running s).setStack es).setGroup d.toNat (entryWords e.1)).setEmpty false := by
    simp only [Thread.popNow, Thread.popIndex, ordered, stack, if_true]
    rfl
  refine show execTPop d s = _ from travForm_of_ok (dstOk_eq_true (by omega)) ((if_neg ?_).trans ?_)
  · simp [stack]
  · rw [modThread_eq_set, show s.thread s.rakeCore s.rakeThread = running s from rfl, popped, stack]; rfl

end

/-! ### STKQ -/

section
variable {d : BitVec 5} (hd : d.toNat < 30)
include hd

theorem stkq_size : Walks (.tStkq d 0) s (((running s).setW d.toNat (BitVec.ofNat 32
    (4 * (running s).spb + (running s).stack.length))).setEmpty ((running s).stack.isEmpty && (running s).spb == 0)) :=
  show execTStkq d 0 s = _ from travForm_of_ok (dstOk_eq_true hd) rfl

/-- The key of the entry at the top (R355). -/
theorem stkq_key {e : Nat × Bool} {es : List (Nat × Bool)} (stack : (running s).stack = e :: es) :
    Walks (.tStkq d 1) s (((running s).setW d.toNat (w32 (e.1 / 2 ^ 46 * 2 ^ 14))).setEmpty false) := by
  refine show execTStkq d 1 s = _ from travForm_of_ok (dstOk_eq_true hd) ?_
  rw [stack]
  rfl

theorem stkq_key_of_empty (bare : (running s).stack = []) (none : (running s).spb = 0) :
    Walks (.tStkq d 1) s (((running s).setW d.toNat 0x7F800000).setEmpty true) := by
  refine show execTStkq d 1 s = _ from travForm_of_ok (dstOk_eq_true hd) ?_
  rw [bare, none]
  rfl

theorem stkq_key_of_spilled (bare : (running s).stack = []) (some : (running s).spb ≠ 0) :
    Awaits (.tStkq d 1) s (.reload d.toNat true) := by
  refine show execTStkq d 1 s = _ from travForm_of_ok (dstOk_eq_true hd) ?_
  have waits : ¬ (([] : List (Nat × Bool)).isEmpty && (running s).spb == 0) = true := by simp [some]
  rw [bare]
  exact if_neg waits

theorem stkq_clears : Walks (.tStkq d 2) s ((((running s).setW d.toNat (BitVec.ofNat 32
    (4 * (running s).spb + (running s).stack.length))).setStack []).setSpb 0 |>.setEmpty true) :=
  show execTStkq d 2 s = _ from travForm_of_ok (dstOk_eq_true hd) rfl

end

end

/-- Settles O7: PUSHM's entries go through the stack's own rule, the other forms change the running thread alone. -/
theorem stackForms : Obligations.StackForms := by
  unfold Obligations.StackForms
  intro s t c n
  refine ⟨fun b rs ws u v test node pushed => ?_, fun b bare => pushm_without_test bare, fun a b ha => ?_, fun d =>
    ⟨fun hd => ⟨pop_of_empty hd, pop_of_spilled hd, fun e es => pop_of_ordered hd⟩, fun hd => ?_⟩⟩
  · exact pushm_pushes test node pushed
  · exact fun legal inside room => pushmE_pushes ha _ _ (nodePair_of_none legal) inside room
  · exact ⟨stkq_size hd, fun e es => stkq_key hd, stkq_key_of_empty hd, stkq_key_of_spilled hd, stkq_clears hd⟩

end Sys2Proof.Proofs

/-! What the frames of the SIMT instructions leave: a next state keeps the form of the state before it wherever the frame's body
does. -/

namespace Sys2Proof.Proofs

-- One proof at a time, as in the tests: each proof under way at once takes a thread's stack out of the check's memory.
set_option Elab.async false

open Sys2Proof.Machine Sys2Proof.Claim

/-- The next state, where there is one, is in `p`. -/
def Gives (p : State → Prop) : Meaning → Prop
  | .next u => p u
  | _ => True

/-- The next state, where there is one, keeps the form of `s`. -/
abbrev KeptNext (s : State) : Meaning → Prop := Gives (Kept s)

section
variable {p q : State → Prop} {m n : Meaning}

theorem Gives.next {u : State} (h : p u) : Gives p (.next u) := h

theorem Gives.ite {c : Prop} [Decidable c] (hm : Gives p m) (hn : Gives p n) : Gives p (if c then m else n) := by
  split
  · exact hm
  · exact hn

theorem Gives.andThen (h : Gives p m) {f : State → State} (hf : ∀ u, p u → q (f u)) : Gives q (m.andThen f) := by
  cases m with
  | next u => exact hf u h
  | fault e => trivial
  | refused r => trivial

theorem Gives.mono (h : Gives p m) (hf : ∀ u, p u → q u) : Gives q m := by
  cases m with
  | next u => exact hf u h
  | fault e => trivial
  | refused r => trivial

theorem Gives.of_next (h : Gives p m) {u : State} (e : m = .next u) : p u := by
  subst e
  exact h

end

/-! ### Checks without a next state -/

/-- A check that passes, or ends with what the form of `s` is kept by. -/
abbrev Checks (s : State) {α : Type} : Except Stop α → Prop := Leaves (StopKept s) fun _ => True

namespace Kept

variable {s t : State}

theorem releaseGang {g : BitVec 4} {scope : Nat} : Checks s (t.releaseGang g scope) := .ite trivial trivial

theorem memWaits {g : BitVec 4} {code : Option Nat} {wt : BitVec 2} {rel : Bool} {scope : Nat} :
    Checks s (t.memWaits g code wt rel scope) :=
  .ite trivial (.ite releaseGang trivial)

theorem watch (h : Kept s t) {space kind : Nat} {ok : List (Tgt × Nat)} {n : Tgt → Nat} : Checks s (t.watch space kind ok n) := by
  unfold State.watch
  extract_lets core k hit
  split
  · trivial
  · exact h

theorem watchSpans {g : BitVec 4} {ts : List (Nat × Nat × Nat)} : Checks s (t.watchSpans g ts) := by
  unfold State.watchSpans
  split <;> trivial

theorem checkMembers {g : BitVec 4} {chk : Slice → Option (Nat × Nat)} : Checks s (t.checkMembers g chk) := by
  unfold State.checkMembers
  extract_lets core
  split
  · trivial
  · split <;> trivial

theorem checkExpect {g : BitVec 4} {a : BitVec 6} {limit : Nat} {ts : List Nat} : Checks s (t.checkExpect g a limit ts) := by
  unfold State.checkExpect
  extract_lets core
  split <;> trivial

theorem tile {g : BitVec 4} {name : Nat} : Checks s (t.tile g name) := by
  unfold State.tile
  split <;> trivial

theorem raised {α : Type} {q : α → Prop} {code addr : Nat} : Leaves (StopKept s) q (Machine.raise code addr) := trivial

/-! ### A gang's frame (02 R46, 04 R80, R92) -/

/-- What a stop does keeps the form, if the state that it carries does. -/
theorem stop (h : Kept s t) {len : Nat} {x : Stop} (hx : StopKept s x) : KeptNext s (t.stop len x) := by
  unfold State.stop
  split
  · exact h.gangTrap
  · exact (Kept.walked hx).gangTrap
  · exact h
  · exact .ite h.gangTrap h.parkGang
  · exact .ite h.gangTrap h.parkGang

/-- The rendezvous of the gang's first member is evaluated, if the gang has one. -/
theorem rendezvous (h : Kept s t) {core : Nat} {slot : Option Nat} :
    Kept s (match slot with | some a => t.evalRendezvous core a | none => t) := by
  cases slot with
  | none => exact h
  | some a => exact h.evalRendezvous

theorem gangwise (h : Kept s t) {hd : Head} {body : State → Except Stop State} (hb : ∀ u, Kept s u → BodyEnds s (body u)) :
    KeptNext s (gangwise hd t body) := by
  unfold Machine.gangwise
  extract_lets core slots some1
  refine .ite h.gangTrap (.ite h.gangTrap (.ite h (.ite ?_ ?_)))
  · split
    · next u e => exact Kept.rendezvous ((h.stop (len := hd.len) (x := .park .rendezvous) trivial).of_next e)
    · exact h.stop trivial
  · have ends : BodyEnds s (body t.countIssue) := hb _ h.countIssue
    split
    · next u e => rw [e] at ends; exact (Kept.advanceAll ends).ite ends
    · next x e => rw [e] at ends; exact h.stop ends

theorem simt (h : Kept s t) {hd : Head} {body : State → Nat → Nat → Except Stop State}
    (hb : ∀ u c i, Kept s u → BodyEnds s (body u c i)) : KeptNext s (simt hd t body) :=
  h.gangwise fun u hu => by
    split
    · trivial
    · exact Leaves.foldlM hu fun v i hv => hb v _ i hv

theorem uniformly (h : Kept s t) {hd : Head} {g : BitVec 4} {body : State → Nat → Nat → Except Stop State}
    (hb : ∀ u c i, Kept s u → BodyEnds s (body u c i)) : KeptNext s (uniformly hd g t body) :=
  h.simt fun u c i hu => .ite hu (laned (hb u c i hu))

/-! ### Vector and uniform forms (05 R124, R131) -/

/-- A slice of the state with another file or predicates: its TRAPVEC is the same. -/
theorem put (h : Kept s t) {c i : Nat} {x : Slice} (hx : Aligned (t.slice c i) → Aligned x) : Kept s (t.setSlice c i x) :=
  h.setSlice fun hs => hx (h.slice hs)

theorem vec3 (h : Kept s t) {f : R3} {third : Bool} {op : Word → Word → Word → Word → Word × BitVec 5} :
    KeptNext s (vec3 f third t op) :=
  h.simt fun _ _ _ hu => hu.operandB.bind fun _ hp => lanewise hp

theorem vec2 (h : Kept s t) {f : R2} {op : Word → Word → Word × BitVec 5} : KeptNext s (vec2 f t op) :=
  h.simt fun _ _ _ hu => hu.lanewise

theorem vecImm (h : Kept s t) {g : BitVec 4} {d a : Nat} {srcs : List (Nat × Nat)} {op : Word → Word → Word} :
    KeptNext s (vecImm g d a srcs t op) :=
  h.simt fun _ _ _ hu => hu.lanewise

theorem uni3 (h : Kept s t) {f : R3} {op : Word → Word → Word} : KeptNext s (uni3 f t op) :=
  h.uniformly fun _ _ _ hu => hu.put fun hx => hx

theorem uni2 (h : Kept s t) {f : R2} {op : Word → Word} : KeptNext s (uni2 f t op) :=
  h.uniformly fun _ _ _ hu => hu.put fun hx => hx

theorem smoviForm (h : Kept s t) {f : RU} {srcs : List (Nat × Nat)} {op : Word → Word} : KeptNext s (smoviForm f srcs t op) :=
  h.uniformly fun _ _ _ hu => hu.put fun hx => hx

theorem cmpForm (h : Kept s t) {g : BitVec 4} {p : BitVec 3} {a b : BitVec 6} {x : BitVec 1} {k : BitVec 3}
    {op : Word → Word → Word → Bool × Flg} : KeptNext s (cmpForm g p a b x k t op) :=
  h.simt fun _ _ _ hu => hu.operandB.bind fun _ hp => Kept.put hp fun hx => hx.writePred

theorem predForm (h : Kept s t) {g : BitVec 4} {d : BitVec 6} {ok : Bool} {srcs : List (Nat × Nat)} {op : Slice → Pred} :
    KeptNext s (predForm g d ok srcs t op) :=
  h.simt fun _ _ _ hu => hu.put fun hx => hx.writePred

theorem unpack (h : Kept s t) {g : BitVec 4} {d a : BitVec 6} {src width n : Nat} : KeptNext s (unpack g d a src width n t) :=
  h.simt fun _ _ _ hu => hu.put fun hx => hx.writeGroup

/-! ### Gang forms (04 R101 to R105) -/

theorem gangForm (h : Kept s t) {hb : BitVec 1} {ok : Bool} {srcs : List (Nat × Nat)} {eff : State → State}
    (he : ∀ u, Kept s u → Kept s (eff u)) : KeptNext s (gangForm hb ok srcs t eff) :=
  h.gangwise fun u hu => he u hu

theorem shflForm (h : Kept s t) {f : R3} {src : Nat → Nat → Nat → Option Nat} : KeptNext s (shflForm f t src) :=
  h.gangwise fun _ hu => hu.gangOperandB.bind fun _ hp => Kept.gangV hp

theorem scanForm (h : Kept s t) {f : RP} {start : Word → Word → Word × Flg} {step : Word → Word → Word → Word × Flg} :
    KeptNext s (scanForm f t start step) :=
  h.gangwise fun _ hu => hu.foldl fun _ hv => hv.alterSlice

theorem branchForm (h : Kept s t) {g : BitVec 4} {srcs : List (Nat × Nat)} {dd : BitVec 8} {link : Option Nat}
    {tgt : Slice → Nat → Addr} : KeptNext s (branchForm g srcs dd link t tgt) :=
  h.gangwise fun u hu => by
    extract_lets core
    split
    · trivial
    · refine Kept.openHolds (hu.foldl fun _ hv => hv.modSlice fun x hx => ?_)
      cases link with
      | none => exact hx.branch
      | some d => exact hx.writeLanes.branch

theorem returnForm (h : Kept s t) {hd : Head} {g : BitVec 4} {bad : Slice → Bool} {ret : Slice → Slice} (hr : KeepsAligned ret) :
    KeptNext s (returnForm hd g t bad ret) :=
  h.simt fun _ _ _ hu => .ite (hu.put fun hx => hx.advance) (.ite (laned raised) (hu.put fun hx => hr _ hx))

/-! ### Queues, barriers, deques and sections (05 R119 to R122, 10 R249 to R263, R294 to R298) -/

theorem queueForm (h : Kept s t) {g : BitVec 4} {q : BitVec 6} {ok : Bool} {srcs : List (Nat × Nat)}
    {body : State → Nat → List (List Word) → List Nat → Except Stop State}
    (hb : ∀ u n es ts, Kept s u → BodyEnds s (body u n es ts)) : KeptNext s (queueForm g q ok srcs t body) :=
  h.gangwise fun u hu => by
    extract_lets core
    split
    · exact hu
    · split
      · trivial
      · exact hb _ _ _ _ hu

theorem barForm (h : Kept s t) {hd : Head} {g : BitVec 4} {id : BitVec 8} {rel : Bool}
    {body : State → Nat → Nat → List Nat → Except Stop State}
    (hb : ∀ u n ret ts, Kept s u → BodyEnds s (body u n ret ts)) : KeptNext s (barForm hd g id rel t body) :=
  h.gangwise fun u hu => by
    split
    · exact hu.ite hu.advanceAll
    · split
      · trivial
      · exact .ite (releaseGang.bind fun _ _ => hb _ _ _ _ hu) (hb _ _ _ _ hu)

theorem tbarForm (h : Kept s t) {hd : Head} {g : BitVec 4} {id : BitVec 8} {body : State → Nat → List Nat → Except Stop State}
    (hb : ∀ u n ts, Kept s u → BodyEnds s (body u n ts)) : KeptNext s (tbarForm hd g id t body) :=
  h.gangwise fun u hu => by
    split
    · exact hu.ite hu.advanceAll
    · split
      · trivial
      · exact hb _ _ _ hu

/-- A deque form's body gives a slice with another file or nothing. -/
theorem dequeForm (h : Kept s t) {hd : Head} {g : BitVec 4} {pop : Bool}
    {body : Slice → List (Nat × Nat × Nat) → Option (List (Nat × Nat × Nat) × Slice)}
    (hb : ∀ x es es' y, body x es = some (es', y) → Aligned x → Aligned y) : KeptNext s (dequeForm hd g pop t body) :=
  h.uniformly fun u core slot hu => by
    extract_lets x v q
    have hv : Kept s v := hu.takeBack.ite hu
    refine .ite trivial ?_
    split
    · trivial
    · next es y e => exact hv.modCore.setSlice fun hs => hb _ _ _ _ e (hu.slice hs)

theorem enterForm (h : Kept s t) {osec : Nat} {f : R3} : KeptNext s (enterForm osec f t) :=
  h.gangwise fun u hu => by
    split
    · exact hu.advanceAll
    · split
      · exact hu.osecWait
      · trivial

end Kept

end Sys2Proof.Proofs

/-! What the SIMT instructions without a frame of their own leave: moves, predicates, gangs, queues, barriers, messages, sections, deques,
system registers and traps. -/

namespace Sys2Proof.Proofs

-- One proof at a time, as in the tests: each proof under way at once takes a thread's stack out of the check's memory.
set_option Elab.async false

open Sys2Proof.Machine Sys2Proof.Claim

/-- A predicate's bit is set for each lane. -/
theorem Aligned.markLanes {x : Slice} (hx : Aligned x) {ls : List Nat} {n : Nat} {b : Bool} :
    Aligned (ls.foldl (fun y l => y.setPBit n l b) x) :=
  hx.foldl fun _ hy => hy.setPBit

/-- What a deque form leaves in its quad is no TRAPVEC. -/
theorem Aligned.setQuad {x : Slice} (hx : Aligned x) {d core : Nat} {r : Option (Nat × Nat × Nat)} : Aligned (x.setQuad d r core) := by
  unfold Slice.setQuad
  obtain ⟨b, n, t⟩ := r.getD (0, 0, 0)
  exact hx

namespace Kept

variable {s t : State}

/-! ### Moves and packing (05 R132, R133, R142) -/

theorem execMov (h : Kept s t) {f : RB} : KeptNext s (execMov f t) :=
  h.simt fun _ _ _ hu => hu.operandB.bind fun _ hp => Kept.put hp fun hx => hx.writeLanes

theorem execVbcast (h : Kept s t) {f : R3} : KeptNext s (execVbcast f t) :=
  h.simt fun _ _ _ hu => hu.operandB.bind fun _ hp => Kept.put hp fun hx => hx.writeLanes

theorem execVextr (h : Kept s t) {f : R3} : KeptNext s (execVextr f t) :=
  h.uniformly fun _ _ _ hu => hu.put fun hx => hx

theorem execVinsr (h : Kept s t) {f : R3} : KeptNext s (execVinsr f t) :=
  h.simt fun _ _ _ hu => hu.put fun hx => Aligned.ite hx hx

theorem execMovx (h : Kept s t) {f : R3} : KeptNext s (execMovx f t) :=
  h.simt fun _ _ _ hu => hu.operandB.bind fun _ hp => .ite trivial (Kept.put hp fun hx => hx.writeLanes)

theorem execSel (h : Kept s t) {g : BitVec 4} {d a b : BitVec 6} {x : BitVec 1} {p : BitVec 3} :
    KeptNext s (execSel g d a b x p t) :=
  h.simt fun _ _ _ hu => hu.operandB.bind fun _ hp => Kept.put hp fun hx => hx.writeLanes

theorem execPk4q (h : Kept s t) {g : BitVec 4} {d a : BitVec 6} {r : BitVec 3} {sat : BitVec 1} {f : BitVec 2} :
    KeptNext s (execPk4q g d a r sat f t) :=
  h.simt fun _ _ _ hu => hu.put fun hx => hx.writeLanes

theorem execPtos (h : Kept s t) {f : R2} : KeptNext s (execPtos f t) :=
  h.uniformly fun _ _ _ hu => hu.put fun hx => hx

/-! ### Gangs (04 R101 to R105) -/

theorem execBallot (h : Kept s t) {g : BitVec 4} {d a : BitVec 6} {hb : BitVec 1} : KeptNext s (execBallot g d a hb t) :=
  h.gangForm fun _ hu => hu.ite hu.members

theorem execGwid (h : Kept s t) {g : BitVec 4} {d : BitVec 6} {hb : BitVec 1} : KeptNext s (execGwid g d hb t) :=
  h.gangForm fun _ hu => hu.ite hu.members

theorem execGred (h : Kept s t) {g : BitVec 4} {d a : BitVec 6} {o : BitVec 4} {hb : BitVec 1} :
    KeptNext s (execGred g d a o hb t) :=
  h.gangForm fun _ hu => by
    split
    · exact hu
    · exact hu.gangV.foldl fun _ hv => hv.modSlice fun _ hx => Aligned.ite hx hx

theorem execGbcst (h : Kept s t) {g : BitVec 4} {d a : BitVec 6} {w : BitVec 1} : KeptNext s (execGbcst g d a w t) :=
  h.gangwise fun u hu => by
    extract_lets ls
    split
    · exact hu.gangV
    · exact hu

/-! ### Flow (04 R97 to R113) -/

theorem execRcvp (h : Kept s t) {g : BitVec 4} {o : BitVec 22} : KeptNext s (execRcvp g o t) :=
  h.uniformly fun _ _ _ hu => hu.alterSlice

theorem execExit (h : Kept s t) {g : BitVec 4} : KeptNext s (execExit g t) :=
  h.gangwise fun _ hu => hu.foldl fun _ hv => hv.exitMember

theorem execYield (h : Kept s t) {g : BitVec 4} : KeptNext s (execYield g t) :=
  h.gangwise fun _ hu => hu.foldl fun _ hv => hv.modSlice fun _ hx => Aligned.ite hx.advance hx.advance.nextPath

theorem execRpt (h : Kept s t) {g l : BitVec 4} {d a b : BitVec 2} {c : BitVec 5} : KeptNext s (execRpt g l d a b c t) :=
  h.gangwise fun u hu => by
    extract_lets core taking count
    split
    · exact hu.advanceAll
    · refine .ite trivial (.ite trivial ?_)
      extract_lets x pc
      split
      · trivial
      · next e => exact (hu.capture.fst e).fetchFail
      · next e => exact (hu.capture.fst e).same.foldl fun _ hv => hv.modSlice fun _ hx => Aligned.ite hx.advance hx.openFrame

theorem execRetq (h : Kept s t) {g : BitVec 4} : KeptNext s (execRetq g t) :=
  h.gangwise fun _ hu => .ite trivial (hu.foldl fun _ hv => hv.exitMember)

theorem execCallq (h : Kept s t) {g : BitVec 4} {a b : BitVec 6} {x : BitVec 1} : KeptNext s (execCallq g a b x t) :=
  h.gangwise fun u hu => hu.gangOperandB.bind fun p hp => by
    split
    extract_lets ls tgt rs w unset
    split
    · trivial
    · have hw : Kept s w := Kept.foldl hp fun _ hu => hu.reachTarget
      split
      · trivial
      · exact releaseGang.bind fun _ _ => hw.modCore.discardLanes.foldl fun _ hu => hu.exitMember

/-! ### Queues and barriers (05 R119 to R122, 10 R249 to R255) -/

theorem execQwr (h : Kept s t) {f : R2} : KeptNext s (execQwr f t) :=
  h.queueForm fun _ _ _ _ hu => .ite hu.setQueue trivial

theorem execQrd (h : Kept s t) {f : R2} : KeptNext s (execQrd f t) :=
  h.queueForm fun _ _ _ _ hu => .ite (hu.popAll fun _ _ hx => hx.writeLanes) trivial

theorem execQtry (h : Kept s t) {f : RP} : KeptNext s (execQtry f t) :=
  h.queueForm fun _ _ _ _ hu => .ite (hu.popAll fun _ _ hx => hx.writeLanes.markLanes)
    (hu.foldl fun _ hv => hv.modSlice fun _ hx => hx.markLanes)

theorem execQcnt (h : Kept s t) {f : R2} : KeptNext s (execQcnt f t) :=
  h.queueForm fun _ _ _ _ hu => hu.foldl fun _ hv => hv.alterSlice

theorem execBararv (h : Kept s t) {g : BitVec 4} {i : BitVec 8} : KeptNext s (execBararv g i t) :=
  h.barForm fun _ _ _ _ hu => hu.skipInactive.arriveParked.ite (hu.skipInactive.arriveEach.foldl fun _ hv => hv.arriveOn)

theorem execBarsyn (h : Kept s t) {g : BitVec 4} {i : BitVec 8} : KeptNext s (execBarsyn g i t) :=
  h.barForm fun _ _ _ _ hu => hu.skipInactive.arriveParked

theorem execBarwt (h : Kept s t) {g : BitVec 4} {i : BitVec 8} : KeptNext s (execBarwt g i t) :=
  h.barForm fun _ _ _ _ hu => .ite (hu.foldl fun _ hv => hv.alterSlice) hu.advanceAll

theorem execBarinit (h : Kept s t) {g : BitVec 4} {i : BitVec 8} {a : BitVec 6} : KeptNext s (execBarinit g i a t) :=
  h.barForm fun _ _ _ _ hu => checkExpect.bind fun _ _ => hu.foldl fun _ hv => hv.setBarrier.evalBarrier

theorem execBarqry (h : Kept s t) {g : BitVec 4} {i : BitVec 8} {a : BitVec 6} : KeptNext s (execBarqry g i a t) :=
  h.barForm fun _ _ _ _ hu => hu.foldl fun _ hv => hv.alterSlice

theorem execTbarsyn (h : Kept s t) {g : BitVec 4} {i : BitVec 8} : KeptNext s (execTbarsyn g i t) :=
  h.tbarForm fun _ _ _ hu => releaseGang.bind fun _ _ => hu.skipInactive.foldl fun _ hv => hv.alterSlice.send

theorem execTbarinit (h : Kept s t) {g : BitVec 4} {i : BitVec 8} {a : BitVec 6} : KeptNext s (execTbarinit g i a t) :=
  h.tbarForm fun _ _ _ hu => checkExpect.bind fun _ _ => hu.foldl fun _ hv => hv.send

/-! ### Messages (07 R161 to R166) -/

theorem sendForm (h : Kept s t) {handler : Bool} {g : BitVec 4} {r : BitVec 1} {a b : BitVec 6} {x : BitVec 1} :
    KeptNext s (sendForm handler g r a b x t) :=
  h.gangwise fun u hu => by
    extract_lets core ts home bad
    split
    · trivial
    · have sent : BodyEnds s (if 16 < u.outbound core + ts.length then .error .stall
          else pure (ts.foldl (fun s t => s.send core (home t) (s.slice core t).asid none
            (.msg (Machine.sendMsg (s.slice core t) core a.toNat) handler false)) u)) :=
        .ite trivial (hu.foldl fun _ hv => hv.send)
      exact .ite (releaseGang.bind fun _ _ => sent) sent

theorem execWaitm (h : Kept s t) {g : BitVec 4} {n : BitVec 1} {b : BitVec 6} {x : BitVec 1} : KeptNext s (execWaitm g n b x t) :=
  h.uniformly fun _ _ _ hu => .ite hu trivial

theorem execRecvm (h : Kept s t) {g : BitVec 4} {d : BitVec 6} {n : BitVec 1} {b : BitVec 6} {x : BitVec 1} :
    KeptNext s (execRecvm g d n b x t) :=
  h.gangwise fun u hu => by
    extract_lets core step
    split
    · exact hu
    · refine (Leaves.foldlM (p := StopKept s) (q := Kept s) hu fun v i hv => ?_).map fun _ hw => hw.acquireNow
      unfold step
      extract_lets y
      split
      · trivial
      · exact hv.modCore.setSlice fun hs => (hv.slice hs).writeLanes

theorem execMcnt (h : Kept s t) {g : BitVec 4} {d : BitVec 6} {n : BitVec 1} {b : BitVec 6} {x : BitVec 1} :
    KeptNext s (execMcnt g d n b x t) :=
  h.gangwise fun _ hu => .ite hu hu.members

theorem execHret (h : Kept s t) {g : BitVec 4} : KeptNext s (execHret g t) :=
  h.gangwise fun u hu => by
    extract_lets core
    split
    · exact hu.advanceAll
    · exact .ite trivial (hu.foldl fun _ hv => hv.alterSlice.retire)

theorem execSvreq (h : Kept s t) {g : BitVec 4} {a b : BitVec 6} {x : BitVec 1} : KeptNext s (execSvreq g a b x t) :=
  h.gangwise fun u hu => by
    extract_lets core svc
    split
    · trivial
    · exact hu.foldl fun _ hv => hv.send

/-! ### Order (09 R236 to R239) -/

theorem execWaitc (h : Kept s t) {g : BitVec 4} {c : BitVec 3} {b : BitVec 6} {x : BitVec 1} : KeptNext s (execWaitc g c b x t) :=
  h.uniformly fun _ _ _ hu => .ite hu trivial

theorem execFence (h : Kept s t) {g : BitVec 4} {o sc : BitVec 3} : KeptNext s (execFence g o sc t) :=
  h.uniformly fun _ _ _ hu => .ite hu (.ite trivial (hu.acquireNow.ite hu))

/-! ### Ordered sections (10 R258 to R263) -/

theorem execOsx (h : Kept s t) {g : BitVec 4} {a : BitVec 6} : KeptNext s (execOsx g a t) :=
  h.gangwise fun u hu => by
    split
    · exact hu.advanceAll
    · exact releaseGang.bind fun _ _ => hu.osecWait

theorem execOsini (h : Kept s t) {g : BitVec 4} {a b : BitVec 6} {x : BitVec 1} : KeptNext s (execOsini g a b x t) :=
  h.gangwise fun u hu => by
    split
    · exact hu.advanceAll
    · exact hu.osecWait

theorem execOsfree (h : Kept s t) {g : BitVec 4} {a : BitVec 6} : KeptNext s (execOsfree g a t) :=
  h.gangwise fun _ hu => hu.osecSend

theorem execOsqry (h : Kept s t) {f : R2} : KeptNext s (execOsqry f t) :=
  h.gangwise fun u hu => by
    split
    · exact hu
    · exact hu.osecOp.foldl fun _ hv => hv.alterSlice

theorem execOstk (h : Kept s t) {f : R2} : KeptNext s (execOstk f t) :=
  h.gangwise fun u hu => by
    split
    · exact hu.advanceAll
    · exact hu.osecWait

/-! ### Range deques (10 R294 to R298) -/

theorem execDqpsh (h : Kept s t) {f : R3} : KeptNext s (execDqpsh f t) :=
  h.dequeForm fun x es es' y e hx => by
    simp only [Option.ite_none_left_eq_some, Option.some.injEq, Prod.mk.injEq] at e
    obtain ⟨-, -, rfl⟩ := e
    exact hx

theorem execDqpop (h : Kept s t) {g : BitVec 4} {d : BitVec 6} : KeptNext s (execDqpop g d t) := by
  unfold Machine.execDqpop
  refine h.dequeForm fun x es es' y e hx => ?_
  obtain ⟨-, rfl⟩ := Prod.mk.inj (Option.some.inj e)
  exact hx.setQuad

theorem execDqspl (h : Kept s t) {f : RB} : KeptNext s (execDqspl f t) := by
  unfold Machine.execDqspl
  refine h.dequeForm fun x es es' y e hx => ?_
  simp only [Option.ite_none_left_eq_some] at e
  obtain ⟨-, e⟩ := e
  split at e
  · obtain ⟨-, rfl⟩ := Prod.mk.inj (Option.some.inj e)
    exact hx.setQuad
  · obtain ⟨-, rfl⟩ := Prod.mk.inj (Option.some.inj e)
    exact hx.setQuad

theorem execDqcnt (h : Kept s t) {g : BitVec 4} {d : BitVec 6} : KeptNext s (execDqcnt g d t) :=
  h.dequeForm fun x es es' y e hx => by
    obtain ⟨-, rfl⟩ := Prod.mk.inj (Option.some.inj e)
    exact hx

theorem execDqclr (h : Kept s t) {g : BitVec 4} : KeptNext s (execDqclr g t) :=
  h.dequeForm fun x es es' y e hx => by
    obtain ⟨-, rfl⟩ := Prod.mk.inj (Option.some.inj e)
    exact hx

theorem execDqstl (h : Kept s t) {f : RB} : KeptNext s (execDqstl f t) :=
  h.uniformly fun _ _ _ hu => .ite raised hu.openOp.send

/-! ### System registers and traps (15 R398 to R409) -/

theorem execSrd (h : Kept s t) {g : BitVec 4} {d : BitVec 6} {r : BitVec 12} : KeptNext s (execSrd g d r t) :=
  h.uniformly fun _ _ _ hu => .ite raised hu.sysRead.alterSlice

theorem execSwr (h : Kept s t) {g : BitVec 4} {d : BitVec 6} {r : BitVec 12} : KeptNext s (execSwr g d r t) :=
  h.uniformly fun _ _ _ hu => by
    extract_lets w
    refine .ite raised (.ite ?_ hu.setOwnReg)
    split
    · next e => exact hu.mcapWrite _ e
    · trivial

theorem execTrap (h : Kept s t) {g : BitVec 4} {n : BitVec 6} : KeptNext s (execTrap g n t) :=
  h.uniformly fun _ _ _ _ => trivial

theorem execBrk (h : Kept s t) {g : BitVec 4} {n : BitVec 6} : KeptNext s (execBrk g n t) :=
  h.uniformly fun _ _ _ _ => raised

theorem execHaltg (h : Kept s t) {g : BitVec 4} : KeptNext s (execHaltg g t) :=
  h.gangwise fun u hu => by
    extract_lets core gang
    split
    · exact hu.advanceAll
    · exact .ite hu.advanceAll.report.haltGroup hu.advanceAll

end Kept

end Sys2Proof.Proofs

/-! What the memory forms, the requests to the units and the traversal instructions leave. -/

namespace Sys2Proof.Proofs

-- One proof at a time, as in the tests: each proof under way at once takes a thread's stack out of the check's memory.
set_option Elab.async false

open Sys2Proof.Machine Sys2Proof.Claim

namespace Kept

variable {s t : State}

/-! ### Memory forms (06 R145 to R151) -/

theorem memForm (h : Kept s t) {m : MemF} {k : MemKind} {hd : Head} {val : Slice → Nat → Nat × Nat}
    {part : State → Machine.Acc → Except Stop State} (hp : ∀ u a, Kept s u → BodyEnds s (part u a)) :
    KeptNext s (memForm m k hd t val part) :=
  h.gangwise fun u hu => .ite hu.advanceAll <| memWaits.bind fun _ _ => .ite hu.resolve.memStop <|
    hu.resolve.watch.bind fun _ _ => by
      have acquired {v : State} {acq : Bool} (hv : Kept s v) :
          Kept s (if acq then v.acquireNow v.issuer.core m.scope.toNat else v) := hv.acquireNow.ite hv
      split
      · exact hu.resolve.localAccess.bind fun _ hv => (acquired hv).advanceAll
      · exact (acquired hu.resolve.lwinAccess).advanceAll
      · exact hu.resolve.clusterAccess.bind fun _ hv => acquired hv
      · exact (hp _ _ hu.resolve).bind fun _ hv => acquired hv

theorem execLd (h : Kept s t) {m : MemF} : KeptNext s (execLd m t) := by
  unfold Machine.execLd
  extract_lets n k
  exact h.memForm fun _ _ hu => hu.globalLoad

theorem execSld (h : Kept s t) {m : MemF} : KeptNext s (execSld m t) := by
  unfold Machine.execSld
  extract_lets n k
  exact h.memForm fun _ _ hu => hu.globalLoad

theorem execLdr (h : Kept s t) {m : MemF} : KeptNext s (execLdr m t) := by
  unfold Machine.execLdr
  extract_lets n k now
  exact h.memForm fun _ _ hu => hu.globalLoad

theorem execSt (h : Kept s t) {m : MemF} : KeptNext s (execSt m t) := by
  unfold Machine.execSt
  extract_lets n k
  exact h.memForm fun _ _ hu => hu.globalPosted

theorem execSst (h : Kept s t) {m : MemF} : KeptNext s (execSst m t) := by
  unfold Machine.execSst
  extract_lets n k
  exact h.memForm fun _ _ hu => hu.globalPosted

theorem execStc (h : Kept s t) {m : MemF} : KeptNext s (execStc m t) := by
  unfold Machine.execStc
  extract_lets n r k now
  exact h.memForm fun _ _ hu => hu.globalAtomic

theorem atomForm (h : Kept s t) {f : AtomForm} {m : MemF} : KeptNext s (atomForm f m t) := by
  unfold Machine.atomForm
  extract_lets n r d g k
  exact h.memForm fun _ _ hu => hu.globalAtomic

theorem cmemForm (h : Kept s t) {m : MemF} {k : MemKind} {code : Option Nat} {rel drop : Bool}
    {body : State → Machine.Acc → Except Stop State} (hb : ∀ u a, Kept s u → BodyEnds s (body u a)) :
    KeptNext s (cmemForm m k code rel drop t body) :=
  h.gangwise fun _ hu => .ite hu.advanceAll <| memWaits.bind fun _ _ => .ite hu.resolve.memStop <|
    hu.resolve.watch.bind fun _ _ => hb _ _ hu.resolve

theorem lineForm (h : Kept s t) {f : AccForm} {m : MemF} : KeptNext s (lineForm f m t) := by
  unfold Machine.lineForm
  extract_lets k
  refine h.cmemForm fun u a hu => .ite hu.globalPosted ?_
  exact (hu.openOp.performCluster.ite hu.openOp.send).advanceAll.ok

theorem execPclr (h : Kept s t) {m : MemF} : KeptNext s (execPclr m t) := by
  unfold Machine.execPclr
  extract_lets k
  exact h.cmemForm fun _ _ hu => hu.globalPosted

/-- The runs of FEMT and FFUL take their places one after the other. -/
theorem placeRuns (h : Kept s t) {space : Nat} {count : Tgt → Nat} {ts : List Tgt} :
    Kept s (ts.foldl (fun (r : Resolved) x =>
      match r.s.placeRun x space (count x) with
      | (u, .key key) => { r with s := u, ok := r.ok ++ [(x, key)] }
      | (u, p) => { r with s := u, bad := r.bad ++ [(x, p)] }) ⟨t, [], []⟩).s :=
  List.foldlRecOn (motive := fun r : Resolved => Kept s r.s) ts _ h fun r hr x _ => by
    split
    · next e => exact hr.placeRun.fst e
    · next e => exact hr.placeRun.fst e

theorem feForm (h : Kept s t) {f : AccForm} {m : MemF} : KeptNext s (feForm f m t) :=
  h.gangwise fun _ hu => .ite hu.advanceAll <| memWaits.bind fun _ _ => .ite hu.placeRuns.memStop <|
    hu.placeRuns.watch.bind fun _ _ => .ite hu.performNow.advanceAll.ok hu.lwinAccess.advanceAll.ok

theorem execPref (h : Kept s t) {m : MemF} : KeptNext s (execPref m t) := by
  unfold Machine.execPref
  extract_lets k
  refine h.cmemForm fun u a hu => .ite hu.advanceAll.ok (.ite (.ite hu.prefetch.advanceAll.ok trivial) ?_)
  extract_lets c
  split
  · next e => exact (hu.touchBlocks _ e).advanceAll
  · trivial

theorem execIcinv (h : Kept s t) {m : MemF} : KeptNext s (execIcinv m t) := by
  unfold Machine.execIcinv
  extract_lets k
  exact h.cmemForm fun u a hu => Kept.members hu.same

/-! ### Copies and stream ports (08 R207 to R224) -/

theorem execTcopy (h : Kept s t) {g : BitVec 4} {ds ts : BitVec 6} {rel : BitVec 1} {eng : BitVec 2} :
    KeptNext s (execTcopy g ds ts rel eng t) :=
  h.gangwise fun u hu => by
    extract_lets core mem chk
    split
    · trivial
    · refine watchSpans.bind fun _ _ => memWaits.bind fun _ _ => .ite trivial (hu.foldl fun i hv => ?_)
      split
      · exact hv.openOp.send
      · exact hv

theorem execStbind (h : Kept s t) {g : BitVec 4} {d a : BitVec 6} {space : BitVec 3} {port : BitVec 2} :
    KeptNext s (execStbind g d a space port t) :=
  h.gangwise fun u hu => by
    extract_lets core n mem chk
    split
    · trivial
    · refine watchSpans.bind fun _ _ => memWaits.bind fun _ _ =>
        .ite (hu.foldl fun i hv => hv.modSlice fun _ hx => hx.writePred) (hu.modCore.foldl fun i hv => ?_)
      split
      · exact hv.endBind.openOp.modSlice fun _ hx => hx.withPorts.writePred
      · exact hv

theorem execStunb (h : Kept s t) {g : BitVec 4} {port : BitVec 2} : KeptNext s (execStunb g port t) :=
  h.gangwise fun u hu => by
    extract_lets core n portOf
    split
    · exact hu
    · exact memWaits.bind fun _ _ => Kept.openOp (hu.foldl fun _ hv => hv.endBind.alterSlice)

theorem execStstat (h : Kept s t) {g : BitVec 4} {d : BitVec 6} {port : BitVec 2} : KeptNext s (execStstat g d port t) :=
  h.uniformly fun _ _ _ hu => hu.put fun hx => hx

/-! ### Requests (10 R285, 13 R359 to R380, 14 R386) -/

theorem requestForm (h : Kept s t) {hd : Head} {g : BitVec 4} {rel : Bool} {chk : Slice → Option (Nat × Nat)}
    {rec : Slice → Nat × Nat} {send : State → Nat → State} (hs : ∀ u i, Kept s u → Kept s (send u i)) :
    KeptNext s (requestForm hd g rel t chk rec send) :=
  h.gangwise fun _ hu => checkMembers.bind fun _ _ => watchSpans.bind fun _ _ =>
    have sent := hu.foldl fun i hv => hs _ i hv
    .ite (releaseGang.bind fun _ _ => sent) sent

theorem planForm (h : Kept s t) {f : R3} {n : Nat} {com : Bool} {req : Nat → Nat → Nat → List Byte → PlanReq} :
    KeptNext s (planForm f n com t req) :=
  h.requestForm fun _ _ hu => hu.openOp.send

theorem planAsk (h : Kept s t) {f : R2} {n : Nat} {req : Nat → Nat → Nat → PlanReq} : KeptNext s (planAsk f n t req) :=
  h.requestForm fun _ _ hu => hu.openOp.send

theorem execTrpin (h : Kept s t) {g : BitVec 4} {d a : BitVec 6} : KeptNext s (execTrpin g d a t) :=
  h.requestForm fun _ _ hu => hu.openOp.alterSlice.send

theorem execTrunp (h : Kept s t) {g : BitVec 4} {a : BitVec 6} : KeptNext s (execTrunp g a t) :=
  h.requestForm fun _ _ hu => hu.send

theorem execTrpub (h : Kept s t) {g : BitVec 4} {d a b : BitVec 6} {inv : BitVec 1} : KeptNext s (execTrpub g d a b inv t) :=
  h.requestForm fun _ _ hu => hu.openOp.send

theorem execLqpsh (h : Kept s t) {g : BitVec 4} {d qs rs : BitVec 6} {rel : BitVec 1} : KeptNext s (execLqpsh g d qs rs rel t) :=
  h.gangwise fun u hu => by
    extract_lets core ts chk
    split
    · trivial
    · have sent : Kept s (ts.foldl (fun s t => match chk t with
          | .ok key =>
            let o := s.unitOp t d.toNat 1
            let q := ((s.slice core t).sr qs.toNat).toNat
            (s.openOp o).send core nodeLaunch o.asid (some o.id) (.launch q (s.recordWords key 16) (some (t, d.toNat)))
          | .error _ => s) u) := hu.foldl fun i hv => by
        split
        · exact hv.openOp.send
        · exact hv
      exact watchSpans.bind fun _ _ => .ite (releaseGang.bind fun _ _ => sent) sent

theorem execLqstat (h : Kept s t) {g : BitVec 4} {d qs : BitVec 6} : KeptNext s (execLqstat g d qs t) :=
  h.gangwise fun u hu => by
    extract_lets core ts q
    split
    · trivial
    · exact hu.foldl fun _ hv => hv.openOp.send

theorem execTrq (h : Kept s t) {f : TrqF} : KeptNext s (execTrq f t) :=
  h.gangwise fun u hu => by
    extract_lets core ts
    refine .ite hu (checkMembers.bind fun _ _ => .ite trivial (.ite trivial (.ite trivial (releaseGang.bind fun _ _ => ?_))))
    have started := hu.foldlPair (l := ts) (b := []) (f := fun p t =>
      ((((p.1.openTrav f t).1.startMember f t (p.1.openTrav f t).2)).1,
        p.2 ++ ((p.1.openTrav f t).1.startMember f t (p.1.openTrav f t).2).2)) fun _ _ hp => hp.openTrav.startMember
    exact started.send

theorem execTrpoll (h : Kept s t) {g : BitVec 4} {d : BitVec 6} : KeptNext s (execTrpoll g d t) :=
  h.uniformly fun _ _ _ hu => hu.alterSlice

theorem execTrkill (h : Kept s t) {g : BitVec 4} {sc : BitVec 1} : KeptNext s (execTrkill g sc t) :=
  h.uniformly fun _ _ _ hu => hu.modRake

theorem execTrload (h : Kept s t) {g : BitVec 4} {d a b : BitVec 6} {c : BitVec 5} : KeptNext s (execTrload g d a b c t) :=
  h.gangwise fun _ hu => checkMembers.bind fun _ _ => .ite hu (.ite trivial (releaseGang.bind fun _ _ =>
    hu.foldl fun _ hv => hv.openOp.send))

/-! ### Matrix instructions (12 R300 to R326) -/

theorem mmaForm (h : Kept s t) {sparse : Bool} {f : MmaF} : KeptNext s (mmaForm sparse f t) := by
  unfold Machine.mmaForm
  extract_lets gs x inFrame odd
  exact h.gangwise fun _ hu => .ite trivial (.ite trivial (.ite hu hu.enterMma))

theorem tileForm (h : Kept s t) {hd : Head} {g : BitVec 4} {body : State → Nat → Except Stop State}
    (hb : ∀ u i, Kept s u → BodyEnds s (body u i)) : KeptNext s (tileForm hd g t body) :=
  h.gangwise fun u hu => by
    split
    · exact hu
    · exact .ite trivial (hb _ _ hu)

theorem tileMove (h : Kept s t) {store : Bool} {g : BitVec 4} {a n : BitVec 6} {off : BitVec 16} :
    KeptNext s (tileMove store g a n off t) :=
  h.tileForm fun _ _ hu => tile.bind fun _ _ => .ite trivial (.ite trivial (.ite trivial hu.openMat.tileCmd))

theorem execMalloc (h : Kept s t) {g : BitVec 4} {d a : BitVec 6} : KeptNext s (execMalloc g d a t) :=
  h.tileForm fun u i hu => by
    extract_lets core k grp ms put
    split
    · trivial
    · refine .ite hu.gangPred (.ite hu.gangPred ?_)
      split
      · exact hu.gangPred
      · exact hu.tileCmd.bind fun _ hv => Kept.gangPred (Kept.modCore hv)

theorem execMfree (h : Kept s t) {g : BitVec 4} {a : BitVec 6} : KeptNext s (execMfree g a t) :=
  h.tileForm fun u i hu => by
    extract_lets core k grp ms
    split
    · trivial
    · exact hu.modCore

theorem execMzero (h : Kept s t) {g : BitVec 4} {n : BitVec 6} : KeptNext s (execMzero g n t) :=
  h.tileForm fun _ _ hu => tile.bind fun _ _ => hu.tileCmd

theorem execMrdv (h : Kept s t) {g : BitVec 4} {d n : BitVec 6} {part : BitVec 2} : KeptNext s (execMrdv g d n part t) :=
  h.tileForm fun _ _ hu => tile.bind fun _ _ => hu.openMat.tileCmd

theorem execMwrv (h : Kept s t) {g : BitVec 4} {d n : BitVec 6} {part : BitVec 2} : KeptNext s (execMwrv g d n part t) :=
  h.tileForm fun _ _ hu => tile.bind fun _ _ => hu.tileCmd

theorem execMcvts (h : Kept s t) {g : BitVec 4} {d n : BitVec 6} {part fmt : BitVec 2} {rsel : BitVec 3} {sat : BitVec 1} :
    KeptNext s (execMcvts g d n part fmt rsel sat t) :=
  h.tileForm fun _ _ hu => tile.bind fun _ _ => hu.openMat.tileCmd

theorem execMreq (h : Kept s t) {g : BitVec 4} {d a b : BitVec 6} {csrc : BitVec 2} {sc : BitVec 6} {ks : BitVec 5}
    {etype : BitVec 3} {cs : BitVec 5} : KeptNext s (execMreq g d a b csrc sc ks etype cs t) := by
  unfold Machine.execMreq
  extract_lets gs
  exact h.gangwise fun _ hu => .ite trivial (.ite hu (.ite trivial (.ite trivial (.ite trivial hu.openOp.send.ok))))

theorem execMramp (h : Kept s t) {g : BitVec 4} {b : BitVec 6} {x : BitVec 1} : KeptNext s (execMramp g b x t) :=
  h.uniformly fun _ _ _ hu => hu.modMat

/-! ### Traversal instructions (13 R333 to R356) -/

theorem runThread (h : Kept s t) {core th : Nat} {body : Thread → Except TStop State} (hb : ∀ x, ThreadEnds s (body x)) :
    KeptNext s (t.runThread core th body) :=
  h.threadDone (hb _)

theorem travForm (h : Kept s t) {ok : Bool} {body : Thread → Except TStop State} (hb : ∀ x, ThreadEnds s (body x)) :
    KeptNext s (travForm t ok body) :=
  h.runThread fun _ => .ite (hb _) h

/-- A traversal instruction that changes the running thread alone. -/
theorem travOp (h : Kept s t) {ok : Bool} {body : Thread → Except TStop Thread}
    (hb : ∀ x, Leaves (TStopKept s) (fun _ => True) (body x)) : KeptNext s (travOp t ok body) :=
  h.travForm fun _ => (hb _).bind fun _ _ => h.modThread.goNext

theorem travInt (h : Kept s t) {f : T3} {op : Word → Word → Word} : KeptNext s (travInt f t op) :=
  h.travOp fun _ => trivial

theorem travIntImm (h : Kept s t) {f : TI} {op : Word → Word → Word} : KeptNext s (travIntImm f t op) :=
  h.travOp fun _ => trivial

theorem travFloat (h : Kept s t) {f : T3} {op : Nat → Nat → Nat × Flg} : KeptNext s (travFloat f t op) :=
  h.travOp fun _ => trivial

theorem travNode (h : Kept s t) {ok : Bool} {fmt : List Word → Bool} {body : List Word → Thread → Thread} :
    KeptNext s (travNode t ok fmt body) :=
  h.travOp fun x => by
    split
    · exact .ite trivial h
    · exact h

theorem travTests (h : Kept s t) {d a : BitVec 5} {n : Nat} {test : List Word → List Word → Nat → Bool × Word} :
    KeptNext s (travTests t d a n test) :=
  h.travNode

theorem travNdec (h : Kept s t) {d b : BitVec 5} {w : Thread → Nat} : KeptNext s (travNdec d b w t) :=
  h.travOp fun x => by
    split
    · exact h
    · trivial

theorem execTVdist (h : Kept s t) {f : T3} : KeptNext s (execTVdist f t) :=
  h.travForm fun x => by
    split
    · exact .ite h h
    · exact .ite h (.ite h (.ite h (.ite h h.modThread)))

theorem nodePair (h : Kept s t) {lo hi : Word} : Leaves (TStopKept s) (fun _ => True) (t.nodePair lo hi) := by
  unfold State.nodePair
  split
  · exact h
  · exact h
  · trivial

theorem execTNfch (h : Kept s t) {a : BitVec 5} : KeptNext s (execTNfch a t) :=
  h.travForm fun x => h.nodePair.bind fun q _ => .ite h <| h.nodeTarget.bind fun p hp => by
    split
    · exact Kept.migrate hp
    · exact .ite hp (Kept.modThread hp)

theorem execTPushm (h : Kept s t) {b : BitVec 5} : KeptNext s (execTPushm b t) :=
  h.travForm fun x => by
    split
    · exact h.travPush
    · exact h

theorem execTPushmE (h : Kept s t) {a b : BitVec 5} : KeptNext s (execTPushmE a b t) :=
  h.travForm fun _ => h.nodePair.bind fun _ _ => .ite h h.travPush

theorem execTPop (h : Kept s t) {d : BitVec 5} : KeptNext s (execTPop d t) :=
  h.travForm fun _ => .ite h.modThread h.modThread.goNext

theorem execTStkq (h : Kept s t) {d : BitVec 5} {f : BitVec 2} : KeptNext s (execTStkq d f t) :=
  h.travForm fun x => by
    extract_lets bare size done
    have ended {y : Thread} : ThreadEnds s (done y) := h.modThread.goNext
    split
    · exact ended
    · split
      · exact ended
      · exact .ite ended h.modThread
    · exact ended

theorem execTBrc (h : Kept s t) {c : BitVec 5} {i : BitVec 11} : KeptNext s (execTBrc c i t) :=
  h.travForm fun _ => h.goto

theorem execTJmp (h : Kept s t) {d a : BitVec 5} : KeptNext s (execTJmp d a t) :=
  h.travForm fun _ => .ite h (h.ite h.modThread).goto

theorem execTEnd (h : Kept s t) : KeptNext s (execTEnd t) := h.travForm fun _ => h

theorem execTEmit (h : Kept s t) {a b : BitVec 5} {n : BitVec 3} : KeptNext s (execTEmit a b n t) :=
  h.travForm fun _ => .ite h <| .ite h <| h.threadPlaces.bind fun _ hp => (Kept.emitStores hp).modThread.goNext

theorem execTMigr (h : Kept s t) {a : BitVec 5} : KeptNext s (execTMigr a t) :=
  h.travForm fun _ => .ite h <| .ite h.modThread.goNext h.migrate

theorem execTYld (h : Kept s t) : KeptNext s (execTYld t) := h.travForm fun _ => h.modThread.goNext

end Kept

end Sys2Proof.Proofs

/-! What the device steps leave (spec/95). -/

namespace Sys2Proof.Proofs

-- One proof at a time, as in the tests: each proof under way at once takes a thread's stack out of the check's memory.
set_option Elab.async false

open Sys2Proof.Machine Sys2Proof.Claim

section
variable {ε α : Type} {p : ε → Prop} {q : α → Prop} {x : Except ε α}

theorem Leaves.of_ok (h : Leaves p q x) {y : α} (e : x = .ok y) : q y := by
  subst e
  exact h

theorem Leaves.of_error (h : Leaves p q x) {y : ε} (e : x = .error y) : p y := by
  subst e
  exact h

end

theorem aligned_freshSlice {asid group warp ix width param entry cycle : Nat} {mask : Pred} :
    Aligned (freshSlice asid group warp ix width param entry cycle mask) := rfl

namespace Kept

variable {s t : State}

/-! ### Frames of device steps -/

theorem withFlights (h : Kept s t) {l : List Flight} : Kept s { t with flights := l } := h.same

theorem withTeams (h : Kept s t) {l : Tab Team} : Kept s { t with teams := l } := h.same

theorem withCtxs (h : Kept s t) {l : Tab Ctx} : Kept s { t with ctxs := l } := h.same

theorem onOp (h : Kept s t) {id : Nat} {p : Op → Bool} {f : Op → State} (hf : ∀ o, Kept s (f o)) : KeptNext s (t.onOp id p f) := by
  unfold State.onOp
  split
  · exact (hf _).ite h
  · exact h

theorem onFlight (h : Kept s t) {id : Nat} {f : Flight → State → Option State} (hf : ∀ x u, Kept s u → KeptIf s (f x u)) :
    KeptNext s (t.onFlight id f) := by
  unfold State.onFlight
  split
  · exact .ite (h.getD (hf _ _ h.dropFlight)) h
  · exact h

theorem onHome (h : Kept s t) {id : Nat} {f : Flight → State} (hf : ∀ x, Kept s (f x)) : KeptNext s (t.onHome id f) := by
  unfold State.onHome
  split
  · exact (hf _).ite h
  · exact h

theorem onMessage (h : Kept s t) {id : Nat} {handler : Bool} {g : Flight → Msg → Bool → State} (hg : ∀ f m b, Kept s (g f m b)) :
    KeptNext s (t.onMessage id handler g) := by
  unfold State.onMessage
  split
  · split
    · exact (hg _ _ _).ite h
    · exact h
  · exact h

theorem onContext (h : Kept s t) {id : Nat} {g : Flight → Inbound → Nat → State} (hg : ∀ f c th, Kept s (g f c th)) :
    KeptNext s (t.onContext id g) := by
  unfold State.onContext
  split
  · split
    · exact (hg _ _ _).ite h
    · exact h
  · exact h

theorem onRead (h : Kept s t) {id : Nat} {p : PlanReq → Bool} : KeptNext s (t.onRead id p) := by
  unfold State.onRead
  split
  · split
    · exact h.readOn.ite h
    · exact h
  · exact h

theorem onService (h : Kept s t) {id : Nat} {raster : Bool} {g : Flight → List Word → State → Option State}
    (hg : ∀ f ws u, Kept s u → KeptIf s (g f ws u)) : KeptNext s (t.onService id raster g) := by
  unfold State.onService
  split
  · split
    · refine .ite ?_ h
      extract_lets full u
      have hu : Kept s u := h.same
      exact hu.refuseService.ite (hu.getD (hg _ _ _ hu.dropFlight))
    · exact h
  · exact h

theorem debugCmd (h : Kept s t) {core : Nat} {args : List Word} {f : State → State} (hf : ∀ u, Kept s u → Kept s (f u)) :
    KeptNext s (t.debugCmd core args f) :=
  .ite h (hf _ h.debugArgs)

/-! ### Memories, copies and streams -/

theorem execEvIcinvCompletion (h : Kept s t) {op : Nat} : KeptNext s (execEvIcinvCompletion op t) :=
  h.onOp fun _ => h.dropOp.dropIcache.foldl fun _ hu => hu.modSlice fun x hx => Aligned.ite (Aligned.advance (x := x.unpark) hx) hx

theorem execEvLwinAccessAtHome (h : Kept s t) {flight : Nat} : KeptNext s (execEvLwinAccessAtHome flight t) :=
  h.onFlight fun f u hu => by
    split
    · exact hu.performLwin.keptIf
    · exact keptIf_none

theorem execEvBlockExpansionComplete (h : Kept s t) {flight : Nat} : KeptNext s (execEvBlockExpansionComplete flight t) := by
  unfold Machine.execEvBlockExpansionComplete
  split
  · exact h
  · split
    · exact .ite h h.dropFlight.performCluster.lessLeft
    · exact h

theorem execEvGlobalRequestAtHome (h : Kept s t) {flight : Nat} : KeptNext s (execEvGlobalRequestAtHome flight t) :=
  h.onHome fun f => h.ite <| by
    split
    · exact h.ite h.arriveRequest
    · exact h

theorem execEvAtomicReserve (h : Kept s t) {flight : Nat} : KeptNext s (execEvAtomicReserve flight t) :=
  h.onHome fun f => h.ite <| by
    split
    · exact h.arriveReserve
    · exact h

theorem execEvSystemAtomicopCompletion (h : Kept s t) {flight : Nat} {refused : Bool} :
    KeptNext s (execEvSystemAtomicopCompletion flight refused t) := by
  unfold Machine.execEvSystemAtomicopCompletion
  split
  · exact h
  · split
    · split
      · exact h
      · refine .ite h ?_
        extract_lets v w go
        have hw : Kept s w := (h.modOp.ite h.findErrors.performAcc).lessLeft.freeEntries
        exact hw.dropFlight.ite hw.withFlights
    · exact h

theorem execEvPoolWaitTimeout (h : Kept s t) {core slot : Nat} : KeptNext s (execEvPoolWaitTimeout core slot t) := by
  unfold Machine.execEvPoolWaitTimeout
  extract_lets x
  split
  · exact .ite h.poolFault h
  · exact h

theorem execEvCopyRequestArrival (h : Kept s t) {flight : Nat} : KeptNext s (execEvCopyRequestArrival flight t) := by
  unfold Machine.execEvCopyRequestArrival
  split
  · exact h
  · split
    · extract_lets e q
      clear_value e q
      split
      · exact h
      · split
        · exact h.dropFlight.modEngine
        · exact h.modEngine.withFlights
    · exact h

theorem execEvCopyRequestRetry (h : Kept s t) {flight : Nat} : KeptNext s (execEvCopyRequestRetry flight t) := by
  unfold Machine.execEvCopyRequestRetry
  split
  · exact h
  · split
    · extract_lets e q
      clear_value e q
      split
      · exact h
      · split
        · exact h.dropFlight.modEngine
        · exact h.withFlights
    · exact h

theorem execEvCopyRequestStart (h : Kept s t) {engine : Nat} : KeptNext s (execEvCopyRequestStart engine t) := by
  unfold Machine.execEvCopyRequestStart
  extract_lets q
  split
  · exact .ite h.engineStep h
  · exact h

theorem execEvCopyRequestEnd (h : Kept s t) {engine idx : Nat} : KeptNext s (execEvCopyRequestEnd engine idx t) := by
  unfold Machine.execEvCopyRequestEnd
  split
  · exact h
  · refine .ite h.modEngine.endClean.send ?_
    split
    · exact h
    · exact .ite h.engineStep h

theorem execEvCopyPoolTimeout (h : Kept s t) {engine idx : Nat} : KeptNext s (execEvCopyPoolTimeout engine idx t) := by
  unfold Machine.execEvCopyPoolTimeout
  split
  · split
    · exact .ite h.modEngine h
    · exact h
  · exact h

theorem execEvStreamRefill (h : Kept s t) {core slot port : Nat} : KeptNext s (execEvStreamRefill core slot port t) := by
  unfold Machine.execEvStreamRefill
  extract_lets x p n c early base key blocks
  refine .ite h ?_
  split
  · exact h
  · next e =>
    have touched := h.touchBlocks _ e
    exact touched.alterSlice.endBind.ite touched.alterSlice

theorem execEvStreamBufferReturn (h : Kept s t) {op : Nat} : KeptNext s (execEvStreamBufferReturn op t) := by
  unfold Machine.execEvStreamBufferReturn
  split
  · exact .ite h.modCore.finishOp h
  · exact h

/-! ### Messages and handlers -/

theorem execEvMessageArrival (h : Kept s t) {flight : Nat} : KeptNext s (execEvMessageArrival flight t) :=
  h.onMessage fun _ _ _ => h.arriveMessage

theorem execEvHandlerQueueArrival (h : Kept s t) {flight : Nat} : KeptNext s (execEvHandlerQueueArrival flight t) :=
  h.onMessage fun _ _ _ => h.arriveMessage

theorem execEvMessageRetry (h : Kept s t) {flight : Nat} : KeptNext s (execEvMessageRetry flight t) := by
  unfold Machine.execEvMessageRetry
  split
  · exact h
  · split
    · exact .ite h (.ite h.modCore.strayMessage (.ite (h.modCore.admitHandler.ite h.modCore.admitMail) h))
    · exact h

theorem execEvHandlerStart (h : Kept s t) {core : Nat} : KeptNext s (execEvHandlerStart core t) := by
  unfold Machine.execEvHandlerStart
  split
  · exact h
  · extract_lets kind u starts
    have hu : Kept s u := h.reachHandler.reachCore
    clear_value u
    exact .ite h.startHandler (.ite hu.enterCtx.restoreCore.startHandler h)

theorem execEvTextureRequest (h : Kept s t) {flight : Nat} : KeptNext s (execEvTextureRequest flight t) :=
  h.onService fun _ _ _ hu => hu.texture

theorem execEvRasterRequest (h : Kept s t) {flight : Nat} : KeptNext s (execEvRasterRequest flight t) :=
  h.onService fun _ _ _ hu => hu.raster.keptIf

theorem execEvServiceRequestRetry (h : Kept s t) {flight : Nat} : KeptNext s (execEvServiceRequestRetry flight t) := by
  unfold Machine.execEvServiceRequestRetry
  split
  · split
    · exact .ite h (h.getD (.ite h.dropFlight.raster.keptIf h.dropFlight.texture))
    · exact h
  · exact h

/-! ### Slices, barriers and sections -/

theorem execEvUnitAnswerArrival (h : Kept s t) {op : Nat} : KeptNext s (execEvUnitAnswerArrival op t) := by
  unfold Machine.execEvUnitAnswerArrival
  extract_lets u
  have hu : Kept s u := h.answerLqstat
  split
  · exact hu
  · exact .ite hu (.ite hu.osecAnswer (.ite hu.finishOp hu))

theorem execEvParkReevaluation (h : Kept s t) {core slot : Nat} : KeptNext s (execEvParkReevaluation core slot t) :=
  Kept.ite (h.put fun hx => hx) h

theorem execEvHoldVisitLimit (h : Kept s t) {core slot : Nat} : KeptNext s (execEvHoldVisitLimit core slot t) := by
  unfold Machine.execEvHoldVisitLimit
  extract_lets x
  split
  · exact Kept.ite (h.put fun hx => hx) h
  · exact h

theorem execEvFairnessSwitch (h : Kept s t) {core slot : Nat} : KeptNext s (execEvFairnessSwitch core slot t) :=
  (h.put fun hx => hx.nextPath).ite h

theorem execEvSlotRelease (h : Kept s t) {core slot : Nat} : KeptNext s (execEvSlotRelease core slot t) := by
  unfold Machine.execEvSlotRelease
  extract_lets x v u
  have hu : Kept s u := Kept.same (h.setSlice fun _ => aligned_default)
  exact .ite h (hu.ite hu.forgetGroup)

theorem execEvRetirementCounted (h : Kept s t) {core slot : Nat} : KeptNext s (execEvRetirementCounted core slot t) := by
  unfold Machine.execEvRetirementCounted
  extract_lets x u v
  have hu : Kept s u := h.put fun hx => hx
  have hv : Kept s v := hu.modGroup.modCore
  refine .ite h ?_
  split
  · exact hu
  · extract_lets w
    have hw : Kept s w := hv.foldl fun _ hx => hx.evalBarrier
    split
    · exact hw
    · exact (hw.withTeams.modCluster).foldl fun _ hx => hx.evalTeamBarrier

theorem execEvTeamBarrierArrival (h : Kept s t) {flight : Nat} : KeptNext s (execEvTeamBarrierArrival flight t) :=
  h.onFlight fun f u hu => by
    split
    · extract_lets core c b put x again v
      refine .ite hu.keptIf ?_
      split
      · exact hu.modCluster.evalTeamBarrier.keptIf
      · have parked : Kept s v := Kept.ite (hu.put fun hx => hx) hu
        exact .ite parked.keptIf parked.modCluster.evalTeamBarrier.keptIf
    · exact keptIf_none

theorem execEvOsecRequestAtHome (h : Kept s t) {flight : Nat} : KeptNext s (execEvOsecRequestAtHome flight t) :=
  h.onFlight fun f u hu => by
    split
    · exact hu.osecPerform.keptIf
    · exact keptIf_none

theorem execEvSectionOverrun (h : Kept s t) {core slot : Nat} : KeptNext s (execEvSectionOverrun core slot t) :=
  (h.getD h.takeOverrun).ite h

theorem execEvStealArrival (h : Kept s t) {flight : Nat} : KeptNext s (execEvStealArrival flight t) := by
  unfold Machine.execEvStealArrival
  split
  · split
    · exact h.dropFlight.stealAt.ite h
    · exact h.dropFlight
    · exact h
  · exact h

theorem execEvHang (h : Kept s t) {asid : Nat} : KeptNext s (execEvHang asid t) := by
  unfold Machine.execEvHang
  extract_lets c xs u area bytes runs v w z
  have hu : Kept s u := h.reachCtx
  have hv : Kept s v := hu.storeGlobal
  have hw : Kept s w := hv.foldl fun _ hx => hx.trapAlone
  have hz : Kept s z := hw.post
  generalize u.storeWaits asid area runs = waits
  exact .ite h (.ite hu hz.modCtx)

/-! ### The matrix units -/

theorem execEvMatrixCommandStart (h : Kept s t) {core : Nat} : KeptNext s (execEvMatrixCommandStart core t) := by
  unfold Machine.execEvMatrixCommandStart
  extract_lets u now
  split
  · exact .ite h (.ite h.modMat h.modMat)
  · exact h

theorem execEvMatrixStepEnd (h : Kept s t) {core : Nat} : KeptNext s (execEvMatrixStepEnd core t) := by
  unfold Machine.execEvMatrixStepEnd
  extract_lets u now
  split
  · refine .ite h.modCore.modMat (.ite ?_ h)
    split
    · exact h.moveWords.modMat
    · exact h.moveWords.modMat
    · exact h
  · exact h

theorem execEvMatrixCommandEnd (h : Kept s t) {core : Nat} : KeptNext s (execEvMatrixCommandEnd core t) := by
  unfold Machine.execEvMatrixCommandEnd
  extract_lets u
  split
  · exact .ite (h.modCore.ite h.performTile).modMat.endTiles h
  · exact h

theorem execEvFillerEnd (h : Kept s t) {core : Nat} : KeptNext s (execEvFillerEnd core t) := by
  unfold Machine.execEvFillerEnd
  split
  · exact h.modMat.ite h
  · exact h

theorem execEvRampHoldEnd (h : Kept s t) {core : Nat} : KeptNext s (execEvRampHoldEnd core t) := by
  unfold Machine.execEvRampHoldEnd
  split
  · exact h.modMat.ite h
  · exact h

theorem execEvRemoteMmaArrival (h : Kept s t) {flight : Nat} : KeptNext s (execEvRemoteMmaArrival flight t) := by
  unfold Machine.execEvRemoteMmaArrival
  split
  · split
    · exact .ite h.arriveRemote.modMat h
    · exact h
  · exact h

theorem execEvTeamFragmentArrival (h : Kept s t) {flight : Nat} : KeptNext s (execEvTeamFragmentArrival flight t) :=
  h.onFlight fun f u hu => by
    split
    · exact (hu.ite hu.modMat).keptIf
    · exact keptIf_none

theorem execEvMcapWrite (h : Kept s t) {core slot : Nat} {hi : Bool} {value : Word} :
    KeptNext s (execEvMcapWrite core slot hi value t) :=
  (h.getD h.mcapWrite).ite h

/-! ### Structures and plans -/

theorem execEvTableRequest (h : Kept s t) {flight : Nat} : KeptNext s (execEvTableRequest flight t) :=
  h.onFlight fun f u hu => by
    split
    · exact hu.pinLanes.modRake.keptIf
    · exact hu.pinCurrent.answer.keptIf
    · exact (hu.unpinSlot.ite hu).keptIf
    · exact hu.publishRoot.answer.keptIf
    · exact keptIf_none

theorem execEvPlanRequestArrival (h : Kept s t) {flight : Nat} : KeptNext s (execEvPlanRequestArrival flight t) := by
  unfold Machine.execEvPlanRequestArrival
  split
  · exact h
  · split
    · exact h
    · refine .ite h ?_
      extract_lets u p out v ask
      have hv : Kept s v := by
        unfold v
        clear_value out
        split
        · exact h.expireDue.walkNow
        · exact h.expireDue
      clear_value ask
      split
      · exact hv.postReplay
      · exact hv.dropFlight.planArrives
    · exact h

theorem execEvPlcomArrival (h : Kept s t) {flight : Nat} : KeptNext s (execEvPlcomArrival flight t) :=
  h.onFlight fun f u hu => by
    split
    · have due {n : Nat} : Kept s (u.expireDue n) := hu.expireDue
      exact .ite due.planReply.keptIf (.ite due.planReply.keptIf (.ite due.planReply.keptIf (.ite due.planReply.keptIf
        (.ite due.planReply.keptIf due.modPlan.planReply.send.keptIf))))
    · exact keptIf_none

/-! ### The debugger -/

theorem execEvAttach (h : Kept s t) {core asid : Nat} {on : Bool} : KeptNext s (execEvAttach core asid on t) :=
  h.debugCmd fun _ hu => hu.modCore.debugDone

theorem execEvHalt (h : Kept s t) {core slot : Nat} : KeptNext s (execEvHalt core slot t) :=
  h.debugCmd fun _ hu => hu.debugDone.ite <| hu.debugDone.ite <| Kept.debugDone <| Kept.ite
    (Kept.report (hu.free.haltGroup.modSlice fun _ hx => hx.settle)) hu.haltGroup

theorem execEvResume (h : Kept s t) {core slot : Nat} : KeptNext s (execEvResume core slot t) :=
  h.debugCmd fun _ hu => hu.debugDone.ite (hu.debugDone.ite hu.resumeHalted.debugDone)

theorem execEvStep (h : Kept s t) {core slot : Nat} : KeptNext s (execEvStep core slot t) :=
  h.debugCmd fun _ hu => hu.debugDone.ite (hu.debugDone.ite hu.debugBusy.modCore)

theorem execEvStepStallLimit (h : Kept s t) {core : Nat} : KeptNext s (execEvStepStallLimit core t) := by
  unfold Machine.execEvStepStallLimit
  split
  · exact h.endStep.ite h
  · exact h

theorem execEvRead (h : Kept s t) {core slot off len : Nat} : KeptNext s (execEvRead core slot off len t) :=
  h.debugCmd fun _ hu => hu.debugDone.ite (hu.debugDone.ite hu.debugData.debugDone)

theorem execEvWrite (h : Kept s t) {core slot off : Nat} {data : List Word} : KeptNext s (execEvWrite core slot off data t) :=
  h.debugCmd fun _ hu => hu.debugData.debugDone.ite (hu.debugData.debugDone.ite hu.debugData.writeRecord.debugDone)

theorem execEvWatch (h : Kept s t) {core n : Nat} {addr addrHi ctl : Word} : KeptNext s (execEvWatch core n addr addrHi ctl t) :=
  h.debugCmd fun _ hu => hu.debugDone.ite hu.modCore.debugDone

theorem execEvMem (h : Kept s t) {core space addr len : Nat} {write : Bool} {data : List Byte} :
    KeptNext s (execEvMem core space addr len write data t) :=
  h.debugCmd fun _ hu => hu.debugDone.ite hu.memTry

/-! ### Traversal threads -/

theorem execEvThreadSlotFill (h : Kept s t) {core : Nat} : KeptNext s (execEvThreadSlotFill core t) := by
  unfold Machine.execEvThreadSlotFill
  extract_lets r
  split
  · exact h
  · split
    · exact h.startLocal.ite h.startInbound
    · exact h.startInbound
    · exact h.startLocal
    · exact h

theorem execEvNodeFetchComplete (h : Kept s t) {core th : Nat} : KeptNext s (execEvNodeFetchComplete core th t) :=
  h.runThread fun x => by
    split
    · exact .ite h.putNode h
    · exact h.threadLoad.bind fun _ hp => Kept.putNode hp
    · exact h

theorem execEvVectorReadComplete (h : Kept s t) {core th : Nat} : KeptNext s (execEvVectorReadComplete core th t) :=
  h.runThread fun x => by
    split
    · exact h.threadLoad.bind fun _ hp => (Kept.threadLoad hp).bind fun _ hq => (Kept.modThread hq).goNext
    · exact h

theorem execEvStackReloadComplete (h : Kept s t) {core th : Nat} : KeptNext s (execEvStackReloadComplete core th t) :=
  h.runThread fun x => by
    split
    · exact h.spilled.bind fun _ hp => (Kept.modThread hp).goNext
    · exact h.spilled.bind fun _ hp => (Kept.modThread hp).ite (Kept.modThread hp).modThread.goNext
    · exact h

theorem execEvStackEntryReady (h : Kept s t) {core th idx : Nat} : KeptNext s (execEvStackEntryReady core th idx t) := by
  unfold Machine.execEvStackEntryReady
  extract_lets x
  split
  · refine .ite h.modThread ?_
    split
    · next e => exact .ite (h.translateNow.fst e).dcacheFor.modThread (h.translateNow.fst e)
    · next e => exact h.translateNow.fst e
  · exact h

theorem execEvEmitAcknowledge (h : Kept s t) {core th : Nat} : KeptNext s (execEvEmitAcknowledge core th t) := by
  unfold Machine.execEvEmitAcknowledge
  split
  · exact h.emitsOver
  · exact h.ite h.dropFlight.threadStore.emitDone

theorem execEvInboundContextArrival (h : Kept s t) {flight : Nat} : KeptNext s (execEvInboundContextArrival flight t) :=
  h.onContext fun _ _ _ => h.ite h.contextComes

theorem execEvMigrationRetry (h : Kept s t) {flight : Nat} : KeptNext s (execEvMigrationRetry flight t) :=
  h.onContext fun _ _ _ => h.modRake.noKernel.ite (h.ite (h.ite h.modRake.contextComes))

theorem execEvMigrationRefusalLimit (h : Kept s t) {flight : Nat} : KeptNext s (execEvMigrationRefusalLimit flight t) := by
  unfold Machine.execEvMigrationRefusalLimit
  split
  · split
    · split
      · exact .ite h h.modRake.noKernel
      · exact h
    · exact h
  · exact h

theorem execEvTraversalCompletion (h : Kept s t) {flight : Nat} : KeptNext s (execEvTraversalCompletion flight t) := by
  unfold Machine.execEvTraversalCompletion
  split
  · refine .ite ?_ (h.onFlight fun f u hu => ?_)
    · split
      · exact h.sendCompletion
      · exact h
    · split
      · intro v e
        obtain ⟨w, linked, e⟩ := Option.bind_eq_some_iff.1 e
        have hw : Kept s w := hu.overLink w linked
        exact KeptIf.ite hw.keptIf hw.deliver v e
      · exact keptIf_none
  · exact h

theorem execEvKernelLoadRequest (h : Kept s t) {flight : Nat} : KeptNext s (execEvKernelLoadRequest flight t) := by
  unfold Machine.execEvKernelLoadRequest
  split
  · exact h
  · split
    · refine .ite h (.ite h.loadDone (.ite h.loadDone ?_))
      extract_lets u
      have hu : Kept s u := h.modRake
      have loaded {asid va n : Nat} : ThreadEndsWith s (u.rakeLoad asid va n) := hu.rakeLoad
      split
      · next e => exact (Leaves.of_ok loaded e).modRake.loadDone
      · next e => exact Kept.loadDone (Leaves.of_error loaded e)
      · next e => exact .ite (Kept.loadDone (Leaves.of_error loaded e)) (Kept.postReplay (Leaves.of_error loaded e))
      · exact hu
    · exact h

/-! ### Launch, preemption and repacking -/

theorem execEvLaunchRecordSubmit (h : Kept s t) {queue : Nat} {words : List Word} :
    KeptNext s (execEvLaunchRecordSubmit queue words t) :=
  .ite h h.modQueue.send

theorem execEvRecordAdmission (h : Kept s t) {flight : Nat} : KeptNext s (execEvRecordAdmission flight t) :=
  h.onFlight fun _ _ hu => hu.arriveRecord

theorem execEvLevelAging (h : Kept s t) {queue : Nat} : KeptNext s (execEvLevelAging queue t) := .ite h.modQueue h

theorem execEvTeamPlacement (h : Kept s t) {queue : Nat} {cores : List Nat} : KeptNext s (execEvTeamPlacement queue cores t) := by
  unfold Machine.execEvTeamPlacement
  extract_lets c
  split
  · exact .ite h.reachHeads.placeTeam h.policyRefused
  · exact h

theorem execEvDrainDelayExpiry (h : Kept s t) {queue cluster : Nat} : KeptNext s (execEvDrainDelayExpiry queue cluster t) := by
  unfold Machine.execEvDrainDelayExpiry
  extract_lets c
  split
  · exact .ite h (.ite h.modCluster h.policyRefused)
  · exact h

theorem execEvGridCompletion (h : Kept s t) {grid : Nat} : KeptNext s (execEvGridCompletion grid t) := by
  unfold Machine.execEvGridCompletion
  split
  · exact .ite (Kept.completeRec h.same) h
  · exact h

theorem execEvPreemptionRequest (h : Kept s t) {queue group : Nat} : KeptNext s (execEvPreemptionRequest queue group t) := by
  unfold Machine.execEvPreemptionRequest
  split
  · exact h
  · exact .ite (h.foldl fun _ hu => hu.haltForSave) (.ite h.policyRefused h)

theorem execEvGroupSave (h : Kept s t) {group : Nat} : KeptNext s (execEvGroupSave group t) := by
  unfold Machine.execEvGroupSave
  split
  · exact h
  · exact .ite h (.ite h.haltHandlers (.ite h.reachSave.saveGroup h))

theorem execEvGroupResume (h : Kept s t) {group : Nat} : KeptNext s (execEvGroupResume group t) := by
  unfold Machine.execEvGroupResume
  split
  · exact h
  · refine .ite (h.reachHeads.foldl fun i hu => ?_) h
    split
    · exact hu.resumeGroup
    · exact hu

theorem execEvRepackTimeout (h : Kept s t) {core rq : Nat} : KeptNext s (execEvRepackTimeout core rq t) := by
  unfold Machine.execEvRepackTimeout
  extract_lets q
  split
  · exact .ite (h.reachTarget).modCore h
  · exact h

theorem execEvRepackWarpStart (h : Kept s t) {core : Nat} : KeptNext s (execEvRepackWarpStart core t) := by
  unfold Machine.execEvRepackWarpStart
  extract_lets u
  have hu : Kept s u := h.reachTargets
  split
  · exact h
  · split
    next asid tix _ =>
    extract_lets x width v w q rs rest key used
    have hv : Kept s v := hu.reachCore
    have hw : Kept s w := hv.enterCtx.restoreCore
    split
    · exact h
    · generalize (decide (x.entry = 0) || !v.ctxValid asid || !v.coreFits asid core) = idle
      split
      · exact h
      · extract_lets g y z y'
        have hy : Kept s y := hw.same
        have hz : Kept s z := hy.modCore
        exact (hz.foldl fun _ hx => hx.setSlice fun _ => Aligned.repackSlice aligned_freshSlice).acquireNow

/-! ### Links -/

theorem execEvLinkTraining (h : Kept s t) {port far major : Nat} : KeptNext s (execEvLinkTraining port far major t) :=
  .ite h (.ite h.log h.modLink.modPeer)

theorem execEvLaneRetrainComplete (h : Kept s t) {port : Nat} : KeptNext s (execEvLaneRetrainComplete port t) := h.modLink.ite h

theorem execEvLinkFailure (h : Kept s t) {port : Nat} : KeptNext s (execEvLinkFailure port t) := h.modLink.ite h

theorem execEvPeerRequestArrival (h : Kept s t) {flight : Nat} : KeptNext s (execEvPeerRequestArrival flight t) := by
  unfold Machine.execEvPeerRequestArrival
  split
  · exact h
  · extract_lets d p u
    have hu : Kept s u := h.settlePair
    refine .ite ?_ (.ite h (.ite h.discardRequest (.ite h ?_)))
    · split
      · exact h.receivePeer.ite h
      · exact h
    · split
      · exact Kept.ite (hu.foldl fun _ hv => hv.numbered).performStc hu.numbered.arriveGlobal
      · exact hu.numbered.arriveReserve
      · exact hu

theorem execEvPeerAcknowledge (h : Kept s t) {flight : Nat} : KeptNext s (execEvPeerAcknowledge flight t) := by
  unfold Machine.execEvPeerAcknowledge
  split
  · exact h
  · exact .ite h h.dropFlight.modPeer.lessLeft

theorem execEvPeerLoss (h : Kept s t) {dev : Nat} : KeptNext s (execEvPeerLoss dev t) :=
  .ite h (h.modPeer.ite h.modPeer.dropOutstanding).modPeer.log

theorem execEvPeerctlWrite (h : Kept s t) {value : Word} : KeptNext s (execEvPeerctlWrite value t) :=
  h.foldl fun _ hu => hu.modPeer.ite hu

/-! ### Management and power -/

theorem execEvSensors (h : Kept s t) : KeptNext s (execEvSensors t) := h.mgmtData.ite h

theorem execEvLog (h : Kept s t) {idx count : Nat} : KeptNext s (execEvLog idx count t) := h.ite (h.mgmtDone.ite h.mgmtData)

theorem execEvStage (h : Kept s t) {addr len : Nat} : KeptNext s (execEvStage addr len t) :=
  .ite h <| .ite h.mgmtDone <| .ite h.mgmtDone <| .ite h.settleRange.findErrors.mgmtDone h.settleRange.findErrors.modMgmt.mgmtDone

theorem execEvCommit (h : Kept s t) : KeptNext s (execEvCommit t) :=
  .ite h <| .ite h.mgmtDone <| .ite h.modMgmt.mgmtDone h.free.mgmtDone

theorem execEvAttest (h : Kept s t) {nonce : List Byte} : KeptNext s (execEvAttest nonce t) := .ite h (.ite h.mgmtDone h.mgmtData)

theorem execEvLogFlashWrite (h : Kept s t) : KeptNext s (execEvLogFlashWrite t) := h.modMgmt.ite h

theorem execEvShock (h : Kept s t) {axis level : Nat} : KeptNext s (execEvShock axis level t) := h.log.ite h

theorem execEvBar2Access (h : Kept s t) {off : Nat} {write : Bool} {data : List Byte} :
    KeptNext s (execEvBar2Access off write data t) := by
  unfold Machine.execEvBar2Access
  extract_lets n pa answer secs touch
  have touched {u : State} (hu : Kept s u) : Kept s (touch u) := hu.foldl fun _ hv => hv.dcacheFor
  have answered {u : State} {r : HostReply} (hu : Kept s u) : KeptNext s (answer u r) := hu.modMgmt
  have read {asid : Nat} : Kept s (touch ((t.settleRange pa n).findErrors asid secs)) := touched h.settleRange.findErrors
  exact .ite h (.ite (answered h) (.ite (answered (touched h.unitStore)) (.ite (answered read) (answered read))))

theorem execEvHostAtomicop (h : Kept s t) {off : Nat} : KeptNext s (execEvHostAtomicop off t) := h.modMgmt.ite h

theorem execEvDropsWrite (h : Kept s t) {queue : Nat} {value : Word} : KeptNext s (execEvDropsWrite queue value t) :=
  h.settleRecords.modQueue.ite h

theorem execEvThrottleStep (h : Kept s t) {raise : Bool} : KeptNext s (execEvThrottleStep raise t) := by
  unfold Machine.execEvThrottleStep
  extract_lets m step
  split
  have stepped {u : State} {n : Nat} (hu : Kept s u) : Kept s (step u n) := hu.modMgmt
  refine .ite h (.ite (.ite h.modMgmt h) (.ite h (.ite (stepped h).log ?_)))
  split
  · exact (stepped h).log
  · exact h

theorem execEvThermalShutdown (h : Kept s t) : KeptNext s (execEvThermalShutdown t) := .ite h h.shutDown

theorem execEvContextTeardown (h : Kept s t) {asid : Nat} : KeptNext s (execEvContextTeardown asid t) :=
  .ite h.dropPlans
    h.dropPlans.freePlans.dropTraversals.dropCopies.dropGroups.dropSections.dropQueues.withCtxs

theorem execEvLaunchQueueFlush (h : Kept s t) {queue : Nat} : KeptNext s (execEvLaunchQueueFlush queue t) :=
  h.flushQueue.refreshHead.ite h

end Kept

end Sys2Proof.Proofs

/-! Every step keeps memory's canonical form and the alignment of every TRAPVEC (log 55, 15 Table 15-3, log 47). -/

namespace Sys2Proof.Proofs

-- One proof at a time, as in the tests: each proof under way at once takes a thread's stack out of the check's memory.
set_option Elab.async false

open Sys2Proof.Machine Sys2Proof.Claim

/-! ### The instruction or device step -/

/-- The device steps after which the device starts anew, or is without power (18 R445, R447). -/
def restarts : Instr → Bool
  | .evDeviceReset | .evPowerLoss | .evPowerOn | .evFlashCommitComplete => true
  | _ => false

/-- Every other instruction and device step leaves what its frame leaves. -/
theorem Kept.exec {s t : State} (h : Kept s t) {i : Instr} (hi : restarts i = false) : KeptNext s (Machine.exec i t) := by
  cases i with
  | iadd | isub | imul | imulhs | imulhn | imins | imaxs | iminn | imaxn | iabsd | iaddss | iaddsn | isubss | isubsn | imac
    | imach | and | or | xor | andn | orn | xnor | shl | shr | sra | rol | ror | bfx | bfi | fadd | fsub | fmul | fmin | fmax
    | fcpsgn | ffma | ffms | fdiv | fldexp | hadd2 | hmul2 | hfma2 | hmin2 | hmax2 | badd2 | bmul2 | bfma2 | prmt | pk2h
    | pk2b => exact h.vec3
  | clz | popc | brev | fabs | fneg | frcp | frsq | fsqrt | fexp2 | flog2 | fsinpi | fcospi | ftanh | ffract | frnd | fclass
    | fsat | cvtf | cvti => exact h.vec2
  | iaddi | andi | ori | xori | shli | shri | srai | rori | movi | movhi => exact h.vecImm
  | smovi | smovhi =>
    dsimp only [Machine.exec]
    exact h.smoviForm
  | sadd | ssub | smul | sand | sor | sxor | sshl | sshr | ssra | smins | smaxs | sminn | smaxn => exact h.uni3
  | sclz | spopc => exact h.uni2
  | smov =>
    dsimp only [Machine.exec]
    exact h.uniformly fun _ _ _ hu => hu.put fun hx => hx
  | mov => exact h.execMov
  | vbcast => exact h.execVbcast
  | vextr => exact h.execVextr
  | vinsr => exact h.execVinsr
  | movx => exact h.execMovx
  | sel => exact h.execSel
  | srd => exact h.execSrd
  | swr => exact h.execSwr
  | upk2h | upk2b | upk4q => exact h.unpack
  | pk4q => exact h.execPk4q
  | icmp | fcmp =>
    dsimp only [Machine.exec]
    exact h.cmpForm
  | pand | por | pxor | pnot | pmov | pfroms =>
    dsimp only [Machine.exec]
    exact h.predForm
  | ptos => exact h.execPtos
  | vany | vall | gelect =>
    dsimp only [Machine.exec]
    exact h.gangForm fun _ hu => hu.gangPred
  | ballot => exact h.execBallot
  | gwid => exact h.execGwid
  | gred => exact h.execGred
  | gmatch =>
    dsimp only [Machine.exec]
    exact h.gangForm fun _ hu => hu.gangV
  | wsync | nop =>
    dsimp only [Machine.exec]
    exact h.gangwise fun _ hu => hu
  | shfli | shflu | shfld | shflx =>
    dsimp only [Machine.exec]
    exact h.shflForm
  | segsc | segscf =>
    dsimp only [Machine.exec]
    exact h.scanForm
  | gbcst => exact h.execGbcst
  | bra | call | jmpx | callx | ret =>
    dsimp only [Machine.exec]
    exact h.branchForm
  | rcvp => exact h.execRcvp
  | callq => exact h.execCallq
  | retq => exact h.execRetq
  | exit => exact h.execExit
  | yield => exact h.execYield
  | rpt => exact h.execRpt
  | qwr => exact h.execQwr
  | qrd => exact h.execQrd
  | qtry => exact h.execQtry
  | qcnt => exact h.execQcnt
  | bararv => exact h.execBararv
  | barsyn => exact h.execBarsyn
  | barinit => exact h.execBarinit
  | barwt => exact h.execBarwt
  | barqry => exact h.execBarqry
  | tbarsyn => exact h.execTbarsyn
  | tbarinit => exact h.execTbarinit
  | ose | osen => exact h.enterForm
  | osx => exact h.execOsx
  | osini => exact h.execOsini
  | osfree => exact h.execOsfree
  | osqry => exact h.execOsqry
  | ostk => exact h.execOstk
  | dqpsh => exact h.execDqpsh
  | dqpop => exact h.execDqpop
  | dqspl => exact h.execDqspl
  | dqstl => exact h.execDqstl
  | dqcnt => exact h.execDqcnt
  | dqclr => exact h.execDqclr
  | send | sendh => exact h.sendForm
  | waitm => exact h.execWaitm
  | recvm => exact h.execRecvm
  | mcnt => exact h.execMcnt
  | hret => exact h.execHret
  | svreq => exact h.execSvreq
  | waitc => exact h.execWaitc
  | fence => exact h.execFence
  | ifence =>
    dsimp only [Machine.exec]
    exact h.uniformly fun _ _ _ hu => hu
  | trap => exact h.execTrap
  | brk => exact h.execBrk
  | tret =>
    dsimp only [Machine.exec]
    exact h.returnForm fun _ hx => hx.tret
  | eret =>
    dsimp only [Machine.exec]
    exact h.returnForm fun _ hx => hx.eret
  | mramp => exact h.execMramp
  | haltg => exact h.execHaltg
  | plarm | plbit | plcom => exact h.planForm
  | plqry | pldis => exact h.planAsk
  | ld => exact h.execLd
  | st => exact h.execSt
  | sld => exact h.execSld
  | sst => exact h.execSst
  | aadd | amins | amaxs | aminn | amaxn | aand | aor | axor | axchg | acas | afadd | afmin | afmax | ahadd2 => exact h.atomForm
  | ldr => exact h.execLdr
  | stc => exact h.execStc
  | pref => exact h.execPref
  | linv | lwb | lcln => exact h.lineForm
  | icinv => exact h.execIcinv
  | pclr => exact h.execPclr
  | femt | fful => exact h.feForm
  | tcopy => exact h.execTcopy
  | stbind => exact h.execStbind
  | stunb => exact h.execStunb
  | ststat => exact h.execStstat
  | mma | mmas => exact h.mmaForm
  | malloc => exact h.execMalloc
  | mfree => exact h.execMfree
  | mzero => exact h.execMzero
  | mld | mst => exact h.tileMove
  | mrdv => exact h.execMrdv
  | mwrv => exact h.execMwrv
  | mcvts => exact h.execMcvts
  | mreq => exact h.execMreq
  | trq => exact h.execTrq
  | trpoll => exact h.execTrpoll
  | trkill => exact h.execTrkill
  | trpin => exact h.execTrpin
  | trunp => exact h.execTrunp
  | trpub => exact h.execTrpub
  | trload => exact h.execTrload
  | lqpsh => exact h.execLqpsh
  | lqstat => exact h.execLqstat
  | tNfch => exact h.execTNfch
  | tNdec | tNdecX =>
    dsimp only [Machine.exec]
    exact h.travNdec
  | tNqbx | tTri | tSphd | tKcmp8 =>
    dsimp only [Machine.exec]
    exact h.travNode
  | tBox8 | tSbox8 =>
    dsimp only [Machine.exec]
    exact h.travTests
  | tVdist => exact h.execTVdist
  | tPushm => exact h.execTPushm
  | tPushmE => exact h.execTPushmE
  | tPop => exact h.execTPop
  | tStkq => exact h.execTStkq
  | tBrc => exact h.execTBrc
  | tJmp => exact h.execTJmp
  | tEnd => exact h.execTEnd
  | tEmit => exact h.execTEmit
  | tMigr => exact h.execTMigr
  | tYld => exact h.execTYld
  | tAdd | tSub | tMul | tAnd | tOr | tXor | tShl | tShr | tMin | tMax => exact h.travInt
  | tAddImm | tSubImm | tMulImm | tAndImm | tOrImm | tXorImm | tShlImm | tShrImm | tMinImm | tMaxImm => exact h.travIntImm
  | tFadd | tFsub | tFmul | tFmin | tFmax => exact h.travFloat
  | tFcmp | tMovi | tMoviHi | tSel =>
    dsimp only [Machine.exec]
    exact h.travOp fun _ => trivial
  | evLoadDataReturn | evStoreAcknowledge => exact h.onOp fun _ => h.finishOp
  | evUnitAnswerArrival => exact h.execEvUnitAnswerArrival
  | evParkReevaluation => exact h.execEvParkReevaluation
  | evHoldVisitLimit => exact h.execEvHoldVisitLimit
  | evFairnessSwitch => exact h.execEvFairnessSwitch
  | evSlotRelease => exact h.execEvSlotRelease
  | evRetirementCounted => exact h.execEvRetirementCounted
  | evTeamBarrierArrival => exact h.execEvTeamBarrierArrival
  | evMessageArrival => exact h.execEvMessageArrival
  | evMessageRetry => exact h.execEvMessageRetry
  | evHandlerQueueArrival => exact h.execEvHandlerQueueArrival
  | evHandlerStart => exact h.execEvHandlerStart
  | evHandlerRunLimit => exact h.takeRunLimit.ite h
  | evLwinAccessAtHome => exact h.execEvLwinAccessAtHome
  | evServiceRequestRetry => exact h.execEvServiceRequestRetry
  | evTextureRequest => exact h.execEvTextureRequest
  | evRasterRequest => exact h.execEvRasterRequest
  | evBlockExpansionComplete => exact h.execEvBlockExpansionComplete
  | evPoolWaitTimeout => exact h.execEvPoolWaitTimeout
  | evGlobalRequestAtHome => exact h.execEvGlobalRequestAtHome
  | evAtomicReserve => exact h.execEvAtomicReserve
  | evAtomicGrant => exact h.applyUnit
  | evAtomicUnitRelease => exact h.passUnit
  | evSystemAtomicopCompletion => exact h.execEvSystemAtomicopCompletion
  | evCopyRequestArrival => exact h.execEvCopyRequestArrival
  | evCopyRequestRetry => exact h.execEvCopyRequestRetry
  | evCopyRequestStart => exact h.execEvCopyRequestStart
  | evCopyRequestEnd => exact h.execEvCopyRequestEnd
  | evCopyPoolTimeout => exact h.execEvCopyPoolTimeout
  | evStreamRefill => exact h.execEvStreamRefill
  | evStreamBufferReturn => exact h.execEvStreamBufferReturn
  | evOsecRequestAtHome => exact h.execEvOsecRequestAtHome
  | evSectionOverrun => exact h.execEvSectionOverrun
  | evHang => exact h.execEvHang
  | evLaunchRecordSubmit => exact h.execEvLaunchRecordSubmit
  | evRecordAdmission => exact h.execEvRecordAdmission
  | evDependencyPoll => exact h.pollDep
  | evLevelAging => exact h.execEvLevelAging
  | evTeamPlacement => exact h.execEvTeamPlacement
  | evDrainDelayExpiry => exact h.execEvDrainDelayExpiry
  | evGridCompletion => exact h.execEvGridCompletion
  | evPreemptionRequest => exact h.execEvPreemptionRequest
  | evGroupSave => exact h.execEvGroupSave
  | evGroupResume => exact h.execEvGroupResume
  | evRepackTimeout => exact h.execEvRepackTimeout
  | evRepackWarpStart => exact h.execEvRepackWarpStart
  | evStealArrival => exact h.execEvStealArrival
  | evMatrixCommandStart => exact h.execEvMatrixCommandStart
  | evMatrixStepEnd => exact h.execEvMatrixStepEnd
  | evMatrixCommandEnd => exact h.execEvMatrixCommandEnd
  | evFillerEnd => exact h.execEvFillerEnd
  | evRampHoldEnd => exact h.execEvRampHoldEnd
  | evRemoteMmaArrival => exact h.execEvRemoteMmaArrival
  | evTeamFragmentArrival => exact h.execEvTeamFragmentArrival
  | evThreadSlotFill => exact h.execEvThreadSlotFill
  | evNodeFetchComplete => exact h.execEvNodeFetchComplete
  | evVectorReadComplete => exact h.execEvVectorReadComplete
  | evStackReloadComplete => exact h.execEvStackReloadComplete
  | evEmitAcknowledge => exact h.execEvEmitAcknowledge
  | evInboundContextArrival => exact h.execEvInboundContextArrival
  | evMigrationRetry => exact h.execEvMigrationRetry
  | evMigrationRefusalLimit => exact h.execEvMigrationRefusalLimit
  | evTraversalCompletion => exact h.execEvTraversalCompletion
  | evKernelLoadRequest => exact h.execEvKernelLoadRequest
  | evTableRequest => exact h.execEvTableRequest
  | evPlarmReadComplete | evPlbitReadComplete => exact h.onRead
  | evPlcomArrival => exact h.execEvPlcomArrival
  | evPlanWriteComplete => exact h.commitOn
  | evDeadlineExpiry => exact h.expireDue
  | evEqresRetry | evEqresDecline => exact h.endReplay
  | evXlinvAsid | evXlinvAll | evSystemRegisterWrite | evEqheadWrite => exact h.setSysReg
  | evXlinvPage => exact h.setSysReg.setSysReg
  | evHanglimWrite | evSectlimWrite => exact h.setLimit
  | evMcapWrite => exact h.execEvMcapWrite
  | evCycloRead | evTimeloRead => exact h.counterRead
  | evUcClusterExtent | evUcRawRegion | evUcPoolFail | evUcLaunchQueue | evUcRangeDeque | evUcStructure | evUcPlanSlot
    | evUcProgramMemory => exact h.ucRequest
  | evLaunchQueueFlush => exact h.execEvLaunchQueueFlush
  | evAttach => exact h.execEvAttach
  | evHalt => exact h.execEvHalt
  | evResume => exact h.execEvResume
  | evStep => exact h.execEvStep
  | evStepStallLimit => exact h.execEvStepStallLimit
  | evRead => exact h.execEvRead
  | evWrite => exact h.execEvWrite
  | evWatch => exact h.execEvWatch
  | evMem => exact h.execEvMem
  | evClearReport => exact h.modCore
  | evSensors => exact h.execEvSensors
  | evLog => exact h.execEvLog
  | evStage => exact h.execEvStage
  | evCommit => exact h.execEvCommit
  | evAttest => exact h.execEvAttest
  | evLogFlashWrite => exact h.execEvLogFlashWrite
  | evShock => exact h.execEvShock
  | evBar2Access => exact h.execEvBar2Access
  | evHostAtomicop => exact h.execEvHostAtomicop
  | evDropsWrite => exact h.execEvDropsWrite
  | evPeerctlWrite => exact h.execEvPeerctlWrite
  | evDeviceReset | evPowerLoss | evPowerOn | evFlashCommitComplete => cases hi
  | evContextTeardown => exact h.execEvContextTeardown
  | evLinkTraining => exact h.execEvLinkTraining
  | evPeerRequestArrival => exact h.execEvPeerRequestArrival
  | evPeerAcknowledge => exact h.execEvPeerAcknowledge
  | evLaneRepair => exact h.repairLane
  | evLaneRetrainComplete => exact h.execEvLaneRetrainComplete
  | evPeerLoss => exact h.execEvPeerLoss
  | evThrottleStep => exact h.execEvThrottleStep
  | evThermalShutdown => exact h.execEvThermalShutdown
  | evStackEntryReady => exact h.execEvStackEntryReady
  | evLinkFailure => exact h.execEvLinkFailure
  | evIcinvCompletion => exact h.execEvIcinvCompletion
  | evPlanRequestArrival => exact h.execEvPlanRequestArrival

section
variable {s : State}

/-- The device after a start: DRAM alone keeps its contents, and no slice is live. -/
theorem inForm_boot (h : InForm s) : InForm s.boot := ⟨filter_wf _ h.1, fun _ hx => nomatch hx⟩

theorem execEvPowerLoss_inForm (h : InForm s) : Gives InForm (execEvPowerLoss s) := ⟨filter_wf _ h.1, fun _ hx => nomatch hx⟩

theorem execEvDeviceReset_inForm (h : InForm s) : Gives InForm (execEvDeviceReset s) :=
  .ite h (.ite (inForm_boot h) (inForm_boot h))

theorem execEvPowerOn_inForm (h : InForm s) : Gives InForm (execEvPowerOn s) := by
  show InForm (if s.mgmt.power then s else s.boot)
  split
  · exact h
  · exact inForm_boot h

theorem execEvFlashCommitComplete_inForm (h : InForm s) : Gives InForm (execEvFlashCommitComplete s) := by
  unfold execEvFlashCommitComplete
  split
  · exact h
  · extract_lets u
    have hu : InForm u := (Kept.refl s).modMgmt.log.form h
    show InForm (if u.mgmt.recovery then u.boot else u)
    split
    · exact inForm_boot hu
    · exact hu

theorem exec_inForm (h : InForm s) (i : Instr) : Gives InForm (exec i s) := by
  cases hi : restarts i with
  | false => exact ((Kept.refl s).exec hi).mono fun _ hu => hu.form h
  | true =>
    cases i with
    | evDeviceReset => exact execEvDeviceReset_inForm h
    | evPowerLoss => exact execEvPowerLoss_inForm h
    | evPowerOn => exact execEvPowerOn_inForm h
    | evFlashCommitComplete => exact execEvFlashCommitComplete_inForm h
    | _ => nomatch hi

end

/-! ### Visits and single steps (01 R10, 02 R46) -/

/-- What a visit found keeps the form of `s`. -/
def IssueKept (s : State) : Issue → Prop
  | .idle u => Kept s u
  | .done u => Kept s u
  | .run u _ => Kept s u

section
variable {s t : State}

theorem IssueKept.ite {c : Prop} [Decidable c] {x y : Issue} (hx : IssueKept s x) (hy : IssueKept s y) :
    IssueKept s (if c then x else y) := by
  split
  · exact hx
  · exact hy

/-- What a visit found is run. -/
theorem IssueKept.outcome {x : Issue} (hx : IssueKept s x) (h : InForm s) : Gives InForm x.outcome := by
  cases x with
  | idle u => exact Kept.form hx h
  | done u => exact Kept.form hx h
  | run u i => exact exec_inForm (Kept.form hx h) i

theorem Kept.decoded (h : Kept s t) {w0 w1 : Word} : IssueKept s (t.decoded w0 w1) := by
  unfold State.decoded
  split
  · exact h
  · exact h.gangTrap

theorem Kept.withIssuer (h : Kept s t) {g : Issuer} : Kept s { t with issuer := g } := h.same

/-- An iteration of a frame's body. -/
theorem Kept.decodedFrame (h : Kept s t) {w0 w1 : Word} {b : Bool} {len : Nat} :
    IssueKept s (match t.decoded w0 w1 with
      | .run u i => if b then .done (u.gangTrap len { code := 0x02 }) else .run u i
      | r => r) := by
  have hx : IssueKept s (t.decoded w0 w1) := h.decoded
  split
  · next e => rw [e] at hx; exact .ite (Kept.gangTrap hx) hx
  · exact hx

theorem Kept.fetchDecode (h : Kept s t) : IssueKept s t.fetchDecode := by
  unfold State.fetchDecode
  extract_lets core x f w g u pc v
  have hv : Kept s v := h.withIssuer
  split
  · exact Kept.decodedFrame h.withIssuer
  · generalize v.fetchWaits core x.asid x.system pc = waits
    refine .ite hv ?_
    split
    · next e => exact (hv.fetchWord.fst e).fetchFail
    · next e =>
      have hw := hv.fetchWord.fst e
      refine .ite hw.gangTrap (.ite hw.decoded (.ite hw ?_))
      split
      · next e' => exact (hw.fetchWord.fst e').fetchFail
      · next e' => exact (hw.fetchWord.fst e').decoded

theorem Kept.issueAt (h : Kept s t) {core slot : Nat} {alone : Bool} : IssueKept s (t.issueAt core slot alone) :=
  Kept.fetchDecode (Kept.withIssuer (h.foldl fun _ hu => hu.alterSlice))

theorem Kept.visit (h : Kept s t) {core dp : Nat} : IssueKept s (t.visit core dp) := by
  unfold State.visit
  extract_lets slot x u v y
  have hu : Kept s u := h.foldl fun _ hw => hw.ite (hw.modSlice fun _ hz => hz.settle)
  have hv : Kept s v := hu.visitHold
  refine .ite h ?_
  split
  · next e => exact hu.takeOverrun _ e
  · refine .ite hu.takeRunLimit (.ite hv ?_)
    split
    · exact hv.takeDeferred
    · exact .ite hv.issueAt hv

theorem Kept.stepIssue (h : Kept s t) {core slot : Nat} : IssueKept s (t.stepIssue core slot) := by
  unfold State.stepIssue
  extract_lets u x
  have hu : Kept s u := h.visitHold
  split
  · next e => exact h.takeOverrun _ e
  · refine .ite hu ?_
    split
    · exact hu.takeDeferred
    · exact hu.issueAt

/-- A STEP's slice issues alone (15 R417). -/
theorem singleTurn_inForm (h : InForm s) {core slot : Nat} : Gives InForm (s.singleTurn core slot) := by
  unfold State.singleTurn
  extract_lets late ready
  have kept : Kept s s := Kept.refl s
  have hr : Kept s ready := kept.stepReady
  have found : IssueKept s (ready.stepIssue core slot) := hr.stepIssue
  refine .ite (kept.endStep.form h) (.ite h ?_)
  split
  · next u e =>
    rw [e] at found
    have hu : Kept s u := found
    exact (Kept.ite hu.stepHalt.endStep hu.stepHalt).form h
  · next u e =>
    rw [e] at found
    have hu : Kept s u := found
    exact hu.stepAfter.form h
  · next u i e =>
    rw [e] at found
    exact (exec_inForm (Kept.form found h) i).andThen fun w hw => (Kept.refl w).stepAfter.form hw

theorem visitTurn_inForm (h : InForm s) : Gives InForm s.visitTurn := by
  unfold State.visitTurn
  extract_lets core slot
  have next {u : State} (hu : InForm u) : InForm (s.atPlace u).nextVisit := ((Kept.refl u).atPlace).nextVisit.form hu
  refine .ite h (.ite ((Kept.refl s).nextVisit.form h) (Gives.andThen (.ite ?_ ?_) fun _ => next))
  · exact singleTurn_inForm h
  · exact (Kept.refl s).visit.outcome h

/-! ### The other turns -/

/-- A rake's issue finds a thread, and what it runs. -/
theorem rakeIssue_inForm (h : InForm s) (core : Nat) : InForm (s.rakeIssue core).1 := by
  unfold State.rakeIssue
  split
  · exact h
  · extract_lets u x
    have hu : Kept s u := (Kept.refl s).modRake
    split
    · exact hu.endThread.form h
    · split
      · exact hu.endThread.form h
      · split
        · exact hu.endThread.form h
        · exact hu.form h

theorem rakeTurn_inForm (h : InForm s) {core : Nat} : Gives InForm (s.rakeTurn core) := by
  unfold State.rakeTurn
  have issued := rakeIssue_inForm h core
  refine .ite h ?_
  split
  · next e => rw [e] at issued; exact issued
  · next e => rw [e] at issued; exact exec_inForm issued _

theorem tickTurn_inForm (h : InForm s) : InForm s.tickTurn := by
  unfold State.tickTurn
  split
  · extract_lets u
    have hu : InForm u := (Kept.ite (Kept.refl s) (Kept.refl s).expireAll.shutdownLimit).form h
    have ticked : InForm ({ u with time := u.time + 1, mgmt := u.mgmt.logTick } : State) := hu
    exact (Kept.refl _).retrainLimit.form ticked
  · exact h

end

/-! ### Writes of the host (18 R434, 15 R415) -/

namespace Kept

variable {s t : State}

theorem mgmtStart (h : Kept s t) {cmd : Word} : KeptNext s (t.mgmtStart cmd) := by
  unfold State.mgmtStart
  extract_lets n
  split
  · exact h.execEvSensors
  · exact h.execEvLog
  · exact h.execEvStage
  · exact h.execEvCommit
  · exact h.execEvAttest
  · exact h

theorem debugStart (h : Kept s t) {c : Nat} {cmd : Word} : KeptNext s (t.debugStart c cmd) := by
  unfold State.debugStart
  extract_lets k a n words same
  refine Gives.andThen (p := Kept s) ?_ fun _ hu => hu.modCore
  split
  · exact h.modCore
  · exact h.execEvAttach
  · exact h.execEvHalt
  · exact h.execEvResume
  · exact h.execEvStep
  · exact h.execEvRead
  · exact .ite (h.debugCmd fun _ hu => hu.debugDone) h.execEvWrite
  · exact h.execEvWatch
  · exact h.execEvMem
  · exact h

theorem bar0Write (h : Kept s t) {off : Nat} {w : Word} : KeptNext s (t.bar0Write off w) := by
  unfold State.bar0Write
  extract_lets page o q c
  clear_value page o q c
  refine .ite ?_ (.ite ?_ (.ite ?_ (.ite ?_ (.ite ?_ (.ite ?_ h)))))
  · exact .ite h.setBar2 (.ite h.setBar2 (.ite h.execEvPeerctlWrite h))
  · exact h.setSysReg.ite h
  · exact h.modMgmt
  · exact .ite h.execEvLaunchRecordSubmit (.ite h.modQueue (.ite h.execEvDropsWrite h))
  · exact .ite h.debugStart (h.modCore.ite (h.modCore.ite h))
  · exact .ite h.mgmtStart (h.modMgmt.ite (h.modMgmt.ite h))

theorem hostWrite (h : Kept s t) {off : Nat} {w : Word} : KeptNext s (t.hostWrite off w) :=
  .ite h (h.ite h.settleRecords).bar0Write

end Kept

/-! ### The step -/

section
variable {s : State}

theorem turn_inForm (h : InForm s) : Gives InForm s.turn := by
  unfold State.turn
  split
  · exact visitTurn_inForm h
  · next x rest _ =>
    extract_lets u
    have hu : InForm u := h
    have back {v : State} (hv : InForm v) : InForm (u.atPlace v) := (Kept.refl v).atPlace.form hv
    cases x with
    | visit => exact visitTurn_inForm hu
    | rake core => exact (rakeTurn_inForm hu).andThen fun _ => back
    | event i => exact Gives.andThen (.ite (exec_inForm hu i) (Gives.next hu)) fun _ => back
    | tick => exact back (tickTurn_inForm hu)
    | hostRead off => exact back ((Kept.refl u).hostRead.form hu)
    | hostWrite off w => exact ((Kept.refl u).hostWrite.mono fun _ hv => hv.form hu).andThen fun _ => back
    | input x => exact back ((Kept.refl u).takeInput.form hu)

end

/-- Settles O28: a step is a visit, a rake's issue, a device step, a tick or an access of the host, and each is made of operations
that leave memory canonical and every TRAPVEC aligned, or starts the device anew. -/
theorem stepKeepsForm : Obligations.StepKeepsForm := by
  unfold Obligations.StepKeepsForm
  intro s s' h hs
  exact (turn_inForm h).of_next hs

end Sys2Proof.Proofs
